-- ==== Sys2Proof/Word.lean ====
section
/-! DEFINITION. The word types of the BNX-4896 and the numbers that name its parts (R9, R11). -/

namespace Sys2Proof

abbrev Byte := BitVec 8
abbrev W16 := BitVec 16
abbrev W32 := BitVec 32
abbrev W64 := BitVec 64

/-- One of the four compute dies CD0 to CD3 (R8). -/
abbrev DieId := Fin 4
/-- One of the 64 cells of a die (R9). -/
abbrev CellId := Fin 64
/-- A device-wide fabric link number 12d + p (R11). -/
abbrev LinkId := Fin 48
/-- A ring number (R335). -/
abbrev RingId := Fin 64

end Sys2Proof
end

