-- ==== Sys2Proof/Syntax.lean ====
section
/-! DEFINITION. The commands of the block: the operands of every operation and event of the part's table of steps,
and the one inductive `Instr` with a constructor for each row. Operands are what comes with a step from outside
(an address, a value, a message, a measured time); an operation's pointers and scalars are the resolved ones
(R146). -/

namespace Sys2Proof

/-! ## Codes shared by the operations (R171 to R175) -/

/-- Formats, in the order of their codes 0x0 to 0xA (R171). -/
inductive Fmt where
  | fp16 | bf16 | e5m2 | e4m3 | e3m2 | e2m3 | e2m1 | int8 | int4 | u16l | f32
  deriving DecidableEq, Repr

/-- Rounding modes (R72, R172). -/
inductive Rnd where
  | rne | rtz | sr
  deriving DecidableEq, Repr

/-- Overflow modes (R74, R172). -/
inductive Ovf where
  | sat | strict
  deriving DecidableEq, Repr

/-- Block sizes of 16, 32, 64 and 128 values (R64, R172). -/
inductive Blk where
  | b16 | b32 | b64 | b128
  deriving DecidableEq, Repr

/-- Scale rules (R67, R172). -/
inductive Rule where
  | fit | floor | set
  deriving DecidableEq, Repr

/-- The eight slots of a word (R137). -/
inductive Slot where
  | a | v | f | m0 | m1 | x | t | c
  deriving DecidableEq, Repr

/-- A pointer operand as resolved at dispatch (R144, R146): its value in cell c is BASE + c × STRIDE modulo 2^32,
the loop terms already added to BASE. -/
structure Ptr where
  base : W32
  stride : W32
  deriving DecidableEq, Repr

/-- An operand of slots V and F (R173), with pointers and scalars resolved. -/
inductive Opnd where
  | reg (r : Fin 64)
  | sram (p : Ptr) (off : BitVec 10)
  | scalar (w : W32)
  | none
  deriving DecidableEq, Repr

/-- The spaces of R175, codes 0 to 8. -/
inductive Space where
  | sram | hbm | lpddr | dieHbm | dieLpddr | dieSram | devHbm | devLpddr | devSram
  deriving DecidableEq, Repr

/-- Tile shapes M × N (R96, R181). -/
inductive Shape where
  | s16x256 | s32x128 | s32x256 | s64x64 | s64x128 | s128x64
  deriving DecidableEq, Repr

/-- The array selection of R181. -/
inductive ArraySel where
  | a0 | a1 | both
  deriving DecidableEq, Repr

/-- The functions of the function unit, codes 0 to 8 (R192). -/
inductive FnName where
  | exp | log2 | recip | rsqrt | tanh | sigmoid | softplus | silu | gelu
  deriving DecidableEq, Repr

/-! ## Operands of the operations -/

/-- How an operation was issued: the CELL_MASK (R145), whether it is hollow (R159), its nominal cycle (R141), the
number of its word in the plan (for event details) and whether it came from slot M1 (engines 8 to 15, R193). -/
structure Issue where
  mask : W64
  hollow : Bool
  nominal : Nat
  word : Nat
  m1 : Bool
  deriving DecidableEq, Repr

/-- TLOAD and TLOAD.T (R179). -/
structure TloadF where
  loader : Fin 2
  fmt : Fmt
  src : Ptr
  srcOff : BitVec 10
  sc : Ptr
  scOff : BitVec 10
  blk : Blk
  deriving DecidableEq, Repr

/-- MMA (R181). -/
structure MmaF where
  array : ArraySel
  swap : Bool
  wFmt : Fmt
  inFmt : Fmt
  inp : Ptr
  inOff : BitVec 10
  isc : Ptr
  iscOff : BitVec 10
  inBlk : Blk
  nvec : Fin 128
  row : Fin 128
  tile : Fin 16
  shape : Shape
  colgrp : Fin 4
  a16 : Bool
  acc : Bool
  psr : Bool
  rlen : BitVec 5
  deriving DecidableEq, Repr

/-- ACC.DRAIN (R183). -/
structure DrainF where
  array : Fin 2
  tile : Fin 16
  shape : Shape
  colgrp : Fin 4
  row : Fin 128
  nrows : Fin 16
  dst : Fin 64
  deriving DecidableEq, Repr

/-- The arithmetic operations 0x01 to 0x11 of slot V (R186). -/
structure VArithF where
  dst : Opnd
  a : Opnd
  b : Opnd
  c : Opnd
  sfmt : Fmt
  flags : BitVec 4
  deriving DecidableEq, Repr

/-- CVT and UNP (R188, R189). -/
structure CvtF where
  dst : Opnd
  src : Opnd
  scale : Opnd
  fmt : Fmt
  rule : Rule
  round : Rnd
  ovf : Ovf
  blk : Blk
  rows2 : Bool
  deriving DecidableEq, Repr

/-- STAGE (R190). -/
structure StageF where
  seq : Ptr
  head : Ptr
  layer : BitVec 7
  pos : Ptr
  src : Fin 64
  fmt : Fmt
  round : Rnd
  ovf : Ovf
  deriving DecidableEq, Repr

/-- VDROP (R191), with the key entry of S29 and the token counter of P15 (R296). -/
structure VdropF where
  dst : Opnd
  pos : Opnd
  keep : Byte
  layer : BitVec 7
  keyEntry : BitVec 10
  tok : Ptr
  deriving DecidableEq, Repr

/-- FN and FND (R192). -/
structure FnF where
  func : FnName
  dst : Opnd
  src : Opnd
  sfmt : Fmt
  ofmt : Fmt
  round : Rnd
  ovf : Ovf
  deriving DecidableEq, Repr

/-- COPY (R194); `dev` is the scalar register named by DEV_S. -/
structure CopyF where
  engine : Fin 8
  srcSpace : Space
  src : Ptr
  dstSpace : Space
  dst : Ptr
  targetDie : DieId
  dev : W32
  len : BitVec 16
  expand : Bool
  nom : BitVec 15
  dsig : Option (BitVec 13)
  deriving DecidableEq, Repr

/-- GATHER (R196). -/
structure GatherF where
  engine : Fin 8
  srcSpace : Space
  src : Ptr
  idx : Ptr
  dstSpace : Space
  dst : Ptr
  rowBlocks : Byte
  count : BitVec 11
  expand : Bool
  nom : BitVec 15
  dsig : Option (BitVec 13)
  deriving DecidableEq, Repr

/-- Which halves of a page a walk delivers (R197). -/
inductive Part where
  | k | v | kv
  deriving DecidableEq, Repr

/-- WALK (R197). -/
structure WalkF where
  seq : Ptr
  head : Ptr
  layer : BitVec 7
  tok : Ptr
  npage : Fin 512
  dst : Ptr
  dstOff : BitVec 10
  part : Part
  nom : BitVec 15
  deriving DecidableEq, Repr

/-- FLUSH.TAIL (R198). -/
structure FlushF where
  seq : Ptr
  head : Ptr
  layer : BitVec 7
  deriving DecidableEq, Repr

/-- The Press operations (R200). -/
structure PressF where
  srcSpace : Space
  src : Ptr
  aux : Ptr
  dstSpace : Space
  dst : Ptr
  targetDie : DieId
  dev : W32
  len : BitVec 15
  expand : Bool
  nom : BitVec 15
  dsig : Option (BitVec 13)
  deriving DecidableEq, Repr

/-- The operations of slot X, codes 0x01 to 0x08 (R199). -/
inductive PressOp where
  | clear | maxE8 | addI32 | addBf16 | qaddFp16 | qaddBf16 | finishFp16 | finishBf16
  deriving DecidableEq, Repr

/-- The arithmetic operations of slot V by mnemonic (R185). -/
inductive VOp where
  | mov | add | sub | mul | fma | max | min | cmp | sel | relu | abs | neg | iota | mask | rsum | rmax
  deriving DecidableEq, Repr

/-- TALLY.ADD (R201). -/
structure TallyAddF where
  tally : BitVec 13
  count : W16
  deriving DecidableEq, Repr

/-- TALLY.RADD (R201); `device` is the resolved destination: the DEVICE field or bits 9:0 of the DEV_S register. -/
structure TallyRaddF where
  tally : BitVec 13
  count : W16
  die : DieId
  device : W32
  deriving DecidableEq, Repr

/-- LOOP (R202), with the count resolved. -/
structure LoopF where
  body : BitVec 12
  max : W16
  count : W32
  deriving DecidableEq, Repr

/-- The fields of a pointer register (R144, R202). -/
inductive PtrField where
  | base | cellStride | step0 | step1 | step2 | step3
  deriving DecidableEq, Repr

/-- PTR.SET and PTR.ADD (R202), with the value resolved. -/
structure PtrSetF where
  p : Fin 16
  field : PtrField
  value : W32
  deriving DecidableEq, Repr

/-- MASK.SET (R202). -/
structure MaskSetF where
  high : Bool
  value : W32
  deriving DecidableEq, Repr

/-- The functions of S.ALU, codes 0 to 10 (R203). -/
inductive AluFn where
  | add | sub | mul | and | or | xor | shl | shr | sar | umin | umax
  deriving DecidableEq, Repr

/-- S.ALU (R202): DST = SA op B, B a register or an immediate. -/
structure SAluF where
  fn : AluFn
  dst : Fin 32
  sa : Fin 32
  b : Fin 32 ⊕ W32
  deriving DecidableEq, Repr

/-- The sources of S.READ, codes 0x00 to 0x0B (R204). -/
inductive ReadSrc where
  | jobBeatLo | jobBeatHi | beatCountLo | beatCountHi | nan | inf | ovf | deviceId | dieNo | orchard | slot | plan
  deriving DecidableEq, Repr

/-- S.READ (R202). -/
structure SReadF where
  source : ReadSrc
  dst : Fin 32
  deriving DecidableEq, Repr

/-- Control operations of slot C (R202). -/
inductive CtrlOp where
  | loop (f : LoopF)
  | ptrSet (f : PtrSetF)
  | ptrAdd (f : PtrSetF)
  | maskSet (f : MaskSetF)
  | sAlu (f : SAluF)
  | sRead (f : SReadF)
  | planEnd
  deriving DecidableEq, Repr

/-- Every operation of slots A, V, F, M0, M1, X and T with its resolved operands. -/
inductive Op where
  | tload (transposed : Bool) (f : TloadF)
  | mma (f : MmaF)
  | drain (f : DrainF)
  | varith (o : VOp) (f : VArithF)
  | cvt (f : CvtF)
  | unp (f : CvtF)
  | stage (f : StageF)
  | vdrop (f : VdropF)
  | fn (derivative : Bool) (f : FnF)
  | copy (f : CopyF)
  | gather (f : GatherF)
  | walk (f : WalkF)
  | flushTail (f : FlushF)
  | press (o : PressOp) (f : PressF)
  | tallyAdd (f : TallyAddF)
  | tallyRadd (f : TallyRaddF)
  deriving DecidableEq, Repr

/-! ## Operands of the beat's events -/

/-- A beat marker's fields (R44). -/
structure MarkerF where
  thisKind : Nat
  nextKind : Nat
  sourceId : Nat
  depth : Nat
  sourcePriority : Nat
  beatLog2 : Nat
  guardDiv256 : Nat
  beatCount : Nat
  jobBeat : Nat
  jobTag : Nat
  pathLatency : Nat
  deriving DecidableEq, Repr

/-- A beat echo's fields (R47). -/
structure EchoF where
  senderId : Nat
  overrun : Bool
  haltReq : Bool
  idleReq : Nat
  subtreeCount : Nat
  missingCount : Nat
  beatCount : Nat
  jobBeat : Nat
  jobTag : Nat
  deriving DecidableEq, Repr

/-- What the power manager measures at an evaluation (R51, R483): mean input power over working and idle beats in
watts before calibration, and the 36 on-die and hub sensors in 1/64 °C before calibration. -/
structure PowerSample where
  busy : Nat
  idle : Nat
  sensors : List Int
  deriving DecidableEq, Repr

/-! ## Operands of the fabric's events -/

/-- A flit header (R363). -/
structure FlitHeader where
  ftype : BitVec 3
  cls : BitVec 2
  level : BitVec 1
  dstDev : BitVec 10
  dstDie : DieId
  srcDev : BitVec 10
  srcDie : DieId
  msg : BitVec 12
  epoch : W16
  launch : BitVec 6
  deriving DecidableEq, Repr

/-- A message descriptor (R371). -/
structure Descriptor where
  type : Byte
  status : Byte
  address : W64
  blocks : Byte
  pop : Byte
  dsig : Option (BitVec 13)
  txn : W16
  jobTag : W32
  tally : BitVec 13
  count : W16
  deriving DecidableEq, Repr

/-- A delivered message: header, descriptor and its data bytes (R370). -/
structure Message where
  hdr : FlitHeader
  desc : Descriptor
  data : List Byte
  deriving DecidableEq, Repr

/-- Where a routed flit enters a die (R379). -/
inductive FlitInput where
  | local
  | link (l : LinkId) (level : BitVec 1)
  | row (level : BitVec 1)
  | column (level : BitVec 1)
  deriving DecidableEq, Repr

/-- A flit: its header and its 240 payload bytes (R362). -/
structure Flit where
  hdr : FlitHeader
  payload : List Byte
  deriving DecidableEq, Repr

/-- HELLO (R375). -/
structure HelloF where
  version : Nat
  feedId : Byte
  link : LinkId
  deviceId : Option (BitVec 10)
  order0 : BitVec 12
  order1 : BitVec 12
  routeGen : W32
  serial : List Byte
  deriving DecidableEq, Repr

/-- An LLC flit's payload (R367); `credit v` is byte v of CREDIT. -/
structure LlcF where
  ackSeq : BitVec 12
  retrySeq : BitVec 12
  credit : W64
  deriving DecidableEq, Repr

/-! ## Operands of the host's events -/

/-- The two index lines of a ring (R335). -/
inductive IndexLine where
  | producer | consumer
  deriving DecidableEq, Repr

/-- Where a ring entry came from: its ring, its counter n and its TAG (R336, R340). -/
structure EntryId where
  ring : RingId
  n : W32
  tag : W64
  deriving DecidableEq, Repr

/-- SUBMIT operands (R342). -/
structure SubmitF where
  bundle : W16
  keep : Bool
  cont : Bool
  stopEn : Bool
  promptTokens : Nat
  maxNew : Nat
  contSeq : Nat
  promptOffset : Nat
  outOffset : Nat
  stopToken : W32
  deriving DecidableEq, Repr

/-- BUNDLE_PIN DEFINE operands (R345). -/
structure BundleF where
  bundle : Nat
  hold : Bool
  handle : Nat
  context : Option Nat
  deriving DecidableEq, Repr

/-- A GPP message (R465), with the route it came by and its source: over GPP the IPv6 address × 2^16 + the UDP port. A datagram
also carries the address and the port it was sent to (R462). -/
structure GppMsg where
  doe : Bool
  source : Nat
  dest : Nat
  port : Nat
  version : Nat
  op : Nat
  flags : Byte
  status : Nat
  seq : W32
  index : Nat
  sub : Nat
  type : Nat
  offset : Nat
  total : Nat
  length : Nat
  state : Nat
  reserved : Nat
  value : List Byte
  deriving DecidableEq, Repr

/-- Routes by which a dictionary command arrives (R461). -/
inductive Route where
  | gpp | doe
  deriving DecidableEq, Repr

/-- Modes of release (R427). -/
inductive ReleaseMode where
  | orderly | immediate
  deriving DecidableEq, Repr

/-- Protocol errors of the CXL port (R354). -/
inductive CxlProtocol where
  | io | cache | mem
  deriving DecidableEq, Repr

/-- The two IDE streams and the secured session (R411). -/
inductive IdeStream where
  | io | cachemem | session
  deriving DecidableEq, Repr

/-! ## Operands of boot, power and telemetry -/

/-- The counts of one telemetry interval, per die 0 to 3 or for the device (R485). -/
structure TelemetryCounts where
  arrayBusy : List Nat
  hbmBytes : List Nat
  lpddrBytes : List Nat
  fabricTx : List Nat
  fabricRx : List Nat
  intervalCycles : Nat
  rowFill : Nat
  slot0Boundaries : Nat
  deriving DecidableEq, Repr

/-- The means over one second that the sensors give (R437, R481, R484), before calibration: the input voltage in 1/65,536 V, the
watts of the 19 current-monitor rails and the 42 sensors in 1/64 °C in the order of R481, the hottest temperatures that the HBM
stacks and the LPDDR packages report, and the watts of the input over working and over idle beats. -/
structure SecondReadings where
  voltage : Int
  rails : List Nat
  sensors : List Int
  hbm : Int
  lpddr : Int
  busy : Nat
  idle : Nat
  deriving DecidableEq, Repr

/-- What the boot ROM found when it fetched an image over CXL.io (R502): the bytes of the two fetches, or none when
a read failed. -/
structure RecoverFetch where
  first : Option (List Byte)
  second : Option (List Byte)
  deriving DecidableEq, Repr

/-- What the always-on domain finds when it starts, FEED_ID aside: SLOT_ID (R523), and whether both blade pairs lie in the
operating range (R524). -/
structure StartInputs where
  slotId : BitVec 6
  inputOk : Bool
  deriving DecidableEq, Repr

/-! ## The commands -/

/-- One constructor per row of the table of steps, in the table's order. -/
inductive Instr where
  | beatBoundary
  | dieLateClose (d : DieId) (cycle : Nat)
  | beatSnapshot
  | planIndexDelivery
  | echoDeadline
  | echoSend
  | beatMarker (l : LinkId) (m : MarkerF) (launch : BitVec 6) (c : Int)
  | beatEcho (l : LinkId) (e : EchoF)
  | beatMarkerLost
  | deviceLost (l : LinkId)
  | lossHoldExpired
  | lossApply
  | powerEval (p : PowerSample)
  | wordDispatch (d : DieId)
  | operationStart (d : DieId) (slot : Slot) (cycle : Nat)
  | operationComplete (d : DieId) (slot : Slot) (n : Nat)
  | tload (d : DieId) (i : Issue) (f : TloadF)
  | tloadT (d : DieId) (i : Issue) (f : TloadF)
  | mma (d : DieId) (i : Issue) (f : MmaF)
  | accDrain (d : DieId) (i : Issue) (f : DrainF)
  | vmov (d : DieId) (i : Issue) (f : VArithF)
  | vadd (d : DieId) (i : Issue) (f : VArithF)
  | vsub (d : DieId) (i : Issue) (f : VArithF)
  | vmul (d : DieId) (i : Issue) (f : VArithF)
  | vfma (d : DieId) (i : Issue) (f : VArithF)
  | vmax (d : DieId) (i : Issue) (f : VArithF)
  | vmin (d : DieId) (i : Issue) (f : VArithF)
  | vcmp (d : DieId) (i : Issue) (f : VArithF)
  | vsel (d : DieId) (i : Issue) (f : VArithF)
  | vrelu (d : DieId) (i : Issue) (f : VArithF)
  | vabs (d : DieId) (i : Issue) (f : VArithF)
  | vneg (d : DieId) (i : Issue) (f : VArithF)
  | viota (d : DieId) (i : Issue) (f : VArithF)
  | vmask (d : DieId) (i : Issue) (f : VArithF)
  | vrsum (d : DieId) (i : Issue) (f : VArithF)
  | vrmax (d : DieId) (i : Issue) (f : VArithF)
  | cvt (d : DieId) (i : Issue) (f : CvtF)
  | unp (d : DieId) (i : Issue) (f : CvtF)
  | stage (d : DieId) (i : Issue) (f : StageF)
  | vdrop (d : DieId) (i : Issue) (f : VdropF)
  | fn (d : DieId) (i : Issue) (f : FnF)
  | fnd (d : DieId) (i : Issue) (f : FnF)
  | copy (d : DieId) (i : Issue) (f : CopyF)
  | gather (d : DieId) (i : Issue) (f : GatherF)
  | walk (d : DieId) (i : Issue) (f : WalkF)
  | flushTail (d : DieId) (i : Issue) (f : FlushF)
  | pressClear (d : DieId) (i : Issue) (f : PressF)
  | pressMaxE8 (d : DieId) (i : Issue) (f : PressF)
  | pressAddI32 (d : DieId) (i : Issue) (f : PressF)
  | pressAddBf16 (d : DieId) (i : Issue) (f : PressF)
  | pressQaddFp16 (d : DieId) (i : Issue) (f : PressF)
  | pressQaddBf16 (d : DieId) (i : Issue) (f : PressF)
  | pressFinishFp16 (d : DieId) (i : Issue) (f : PressF)
  | pressFinishBf16 (d : DieId) (i : Issue) (f : PressF)
  | pressApplication (d : DieId) (ctrl : Fin 10)
  | tallyAdd (d : DieId) (i : Issue) (f : TallyAddF)
  | tallyRadd (d : DieId) (i : Issue) (f : TallyRaddF)
  | loop (d : DieId) (f : LoopF)
  | ptrSet (d : DieId) (f : PtrSetF)
  | ptrAdd (d : DieId) (f : PtrSetF)
  | maskSet (d : DieId) (f : MaskSetF)
  | sAlu (d : DieId) (f : SAluF)
  | sRead (d : DieId) (f : SReadF)
  | planEnd (d : DieId)
  | remoteTallyAdd (m : Message)
  | tallyAck (m : Message)
  | write (m : Message)
  | read (m : Message)
  | writeAck (m : Message)
  | readData (m : Message)
  | press (m : Message)
  | pressAck (m : Message)
  | routedFlitForward (d : DieId) (inp : FlitInput) (f : Flit)
  | violation (l : LinkId) (code : Byte) (count : W16) (header : W64)
  | hello (l : LinkId) (h : HelloF)
  | helloInterval
  | probe (l : LinkId) (t1 t2 t3 : W64) (launch : BitVec 6)
  | probeReply (l : LinkId) (t1 t2 t3 t4 : W64) (launch : BitVec 6)
  | creditAck (l : LinkId) (f : LlcF)
  | retryReq (l : LinkId) (f : LlcF)
  | idle (l : LinkId) (f : LlcF)
  | llcAckDue (l : LinkId)
  | flitCrcFail (l : LinkId)
  | linkRetryExhausted (l : LinkId)
  | linkTrained (l : LinkId)
  | linkTrainTimeout (l : LinkId)
  | linkSignalLost (l : LinkId)
  | routeCommit
  | routeSeal (gen : W32)
  | snoopInvalidation (r : RingId) (w : IndexLine)
  | indexLineRead (r : RingId) (w : IndexLine) (value : W32)
  | entryFetchComplete (r : RingId) (n : W32) (bytes : List Byte)
  | submit (e : EntryId) (f : SubmitF)
  | cancel (e : EntryId) (targetTag : W64)
  | adapterRegister (e : EntryId) (recordOffset recordBytes : Nat)
  | adapterEvictCache (e : EntryId) (handle : Nat)
  | adapterEvictRevoke (e : EntryId) (handle : Nat)
  | bundleDefine (e : EntryId) (f : BundleF)
  | bundleRelease (e : EntryId) (bundle : Nat)
  | pageEditKeep (e : EntryId) (seq : Nat) (set : Bool)
  | pageEditRelease (e : EntryId) (seq : Nat)
  | pageEditTruncate (e : EntryId) (seq position : Nat)
  | pageEditDrop (e : EntryId) (seq position : Nat)
  | pageEditPark (e : EntryId) (seq : Nat)
  | pageEditUnpark (e : EntryId) (seq : Nat)
  | contextPrefill (e : EntryId) (matter : Nat) (tokens tokenOffset : Nat)
  | checkpoint (e : EntryId) (handle dstOffset maxBytes : Nat)
  | revokeForced (handle : Nat)
  | ringDrained (r : RingId)
  | hostMemRead (offset : Nat)
  | hostMemWrite (offset : Nat) (data : List Byte)
  | bisnpResponse (offset : Nat)
  | cxlMalformed (p : CxlProtocol)
  | doeObject (vendor type length : Nat) (words : List W32)
  | getMeasurements (nonce : List Byte) (indices : List Nat)
  | tspLock
  | tspUnlock
  | ideLost (s : IdeStream)
  | gppRead (m : GppMsg)
  | gppWrite (m : GppMsg)
  | describe (m : GppMsg)
  | save (m : GppMsg)
  | paramsSaved (ok : Bool)
  | gppDropped
  | blobStageTimeout
  | gppResponseExpire (source : Nat)
  | calWritten (sub offset : Nat) (data : List Byte)
  | copyPartnerWrite (device : Nat)
  | numClear (value : Bool)
  | alertAck (seq : W32)
  | admitTenant (r : Route)
  | tenantRelease (r : Route) (mode : ReleaseMode) (beat : Nat)
  | releasing
  | releaseStop
  | scrubComplete (ms : Nat)
  | create (id : W32)
  | remove (id : W32)
  | matterRemoved (slot : Nat)
  | rotate (slot : Nat)
  | sweepPageDone (frame : W32)
  | rotateDone (slot : Nat)
  | keyingPageDone (frame : W32)
  | begin (offset : Nat)
  | segment (offset index : Nat)
  | end_
  | baseAbort
  | load (offset : Nat)
  | start (offset : Nat)
  | stop
  | jobAbort
  | jobStarted
  | jobEnded
  | updateDecision
  | partnerCopyBegin
  | partnerCopyDone
  | partnerCopyLate
  | standinLoad (offset : Nat)
  | standinDiscard
  | restore (offset : Nat)
  | resume (jobOffset recordOffset : Nat)
  | clearHalt
  | resetDefaults
  | ringEnable (r : RingId) (pi cqCi : W32)
  | ringReset (r : RingId)
  | linkRetrain (l : LinkId)
  | linkReleaseQuarantine (l : LinkId)
  | linkDisable (l : LinkId)
  | linkEnable (l : LinkId)
  | fwStage (offset bytes : Nat)
  | fwWrite
  | fwUpdateWritten (readBackOk : Bool)
  | recover (address bytes : Nat)
  | fwRecovered (fetch : RecoverFetch)
  | powerUp
  | powerDown
  | resetModule
  | resetWarm
  | resetDie (d : DieId)
  | dieReset (d : DieId) (ms : Nat)
  | modResetN (lowMicros : Nat)
  | perstAssert
  | perstDeassert
  | alwaysOnStart (feedId : Byte) (start : StartInputs)
  | powerGood
  | bootComplete (ms : Nat)
  | bootFailed (fault : Nat) (unit : Byte)
  | watchdogReset (hung : Byte)
  | inputUndervoltage (lowest : Nat)
  | inputOvervoltage (highest : Nat)
  | powerPairLost (pairB : Bool)
  | powerRestored
  | thermalTrip (sensor : Nat) (temp : Int)
  | coolantCheck (inlet outlet : Int)
  | telemetryInterval (t : TelemetryCounts)
  | telemetrySecond (t : SecondReadings)
  | logCommit
  | registerWrite (index sub : Nat) (value : Nat)
  | cxlLinkTrained (rate width : Nat)
  | modResetNRelease
  | alwaysOnPowerLost
  | plcaBeaconReceived
  | plcaBeaconLost
  | neighborDiscovery (source : Nat)
  | hubCopyDone
  | ideKm (s : IdeStream)
  | spdmSession (establish : Bool)
  | msixVectorUnmask (vector : BitVec 11)
  deriving DecidableEq, Repr

end Sys2Proof
end

