-- ==== Sys2Proof/Decode.lean ====
section
/-! DEFINITION. The command that a word spells by the bits of the table of steps. -/

namespace Sys2Proof

/-- No row of the table of steps gives its command any bits: the device takes its commands as messages, register
writes, pin events and plan words whose own layouts stand in their chapters (the 128-byte word of R137 is decoded by
the meaning of WORD_DISPATCH, ring entries by that of BEAT_SNAPSHOT). So no word spells a row's command.
DESIGN CHOICE, safe: log entry 2. -/
def decodeTableWord (_nbits _w : Nat) : Option Instr := none

end Sys2Proof
end

