-- ==== Sys2Proof/Machine/Map.lean ====
section
/-! DEFINITION. The finite maps that hold sparse state: lists of (key, value) pairs with keys strictly rising and no
value equal to the default that an unlisted key reads as; memories of bytes are such maps with default 0. -/

namespace Sys2Proof.Machine

/-- A sparse map in canonical form. -/
abbrev AMap (α : Type) := List (Nat × α)

/-- A memory of bytes: `Host.Cell` pairs; an unlisted byte reads as zero (the scrub of R429 writes zeros). -/
abbrev Memory := List Host.Cell

namespace AMap
variable {α : Type}

/-- The value listed at a key. -/
def find? : AMap α → Nat → Option α
  | [], _ => none
  | (k, v) :: m, a => if k = a then some v else find? m a

/-- The value at a key, with the default for an unlisted one. -/
def getD (m : AMap α) (a : Nat) (d : α) : α := (m.find? a).getD d

/-- List a value at a key, keeping keys rising. -/
def insert : AMap α → Nat → α → AMap α
  | [], a, v => [(a, v)]
  | (k, w) :: m, a, v =>
    if a < k then (a, v) :: (k, w) :: m
    else if a = k then (a, v) :: m
    else (k, w) :: insert m a v

/-- Remove a key. -/
def erase : AMap α → Nat → AMap α
  | [], _ => []
  | (k, w) :: m, a => if k = a then erase m a else (k, w) :: erase m a

/-- Set a key to a value, keeping the canonical form with respect to a default. -/
def set [DecidableEq α] (d : α) (m : AMap α) (a : Nat) (v : α) : AMap α :=
  if v = d then m.erase a else m.insert a v

/-- Change the value at a listed key. -/
def modify (m : AMap α) (a : Nat) (f : α → α) : AMap α :=
  m.map (fun p => if p.1 = a then (p.1, f p.2) else p)

/-- The keys. -/
def keys (m : AMap α) : List Nat := m.map (·.1)

/-- Keys strictly rising, all above a bound. -/
def risingFrom : Nat → AMap α → Bool
  | _, [] => true
  | b, (k, _) :: m => decide (b ≤ k) && risingFrom (k + 1) m

/-- The canonical form: keys strictly rising and no default listed. -/
def wf [DecidableEq α] (d : α) (m : AMap α) : Bool :=
  risingFrom 0 m && m.all (fun p => decide (p.2 ≠ d))

end AMap

namespace Memory

/-- Read one byte. -/
def read (m : Memory) (a : Nat) : Byte := AMap.getD m a 0

/-- Write one byte. -/
def write (m : Memory) (a : Nat) (b : Byte) : Memory := AMap.set 0 m a b

/-- Read n bytes upward from an address. -/
def readBytes (m : Memory) (a : Nat) : Nat → List Byte
  | 0 => []
  | n + 1 => m.read a :: readBytes m (a + 1) n

/-- Write bytes upward from an address. -/
def writeBytes (m : Memory) (a : Nat) : List Byte → Memory
  | [] => m
  | b :: bs => writeBytes (m.write a b) (a + 1) bs

/-- Drop every byte of a range, which then reads as zero. -/
def clearRange (m : Memory) (a n : Nat) : Memory :=
  m.filter (fun p => decide (p.1 < a ∨ a + n ≤ p.1))

/-- The canonical form of a memory. -/
def wf (m : Memory) : Bool := AMap.wf 0 m

end Memory

/-! ## Byte order: every field of the device is little-endian (R137, R236, R465) -/

/-- The number that little-endian bytes spell. -/
def leNat : List Byte → Nat
  | [] => 0
  | b :: bs => b.toNat + 256 * leNat bs

/-- The n little-endian bytes of a number. -/
def leBytes : Nat → Nat → List Byte
  | 0, _ => []
  | n + 1, v => BitVec.ofNat 8 v :: leBytes n (v / 256)

/-- Read an n-byte little-endian number. -/
def Memory.readLE (m : Memory) (a n : Nat) : Nat := leNat (m.readBytes a n)

/-- Write an n-byte little-endian number. -/
def Memory.writeLE (m : Memory) (a n v : Nat) : Memory := m.writeBytes a (leBytes n v)

/-- Bytes o to o + n − 1 of a list as a little-endian number; bytes beyond the end read as zero. -/
def fieldLE (bs : List Byte) (o n : Nat) : Nat := leNat ((bs.drop o).take n)

/-- Bits lo to lo + n − 1 of a number. -/
def bits (v lo n : Nat) : Nat := v / 2 ^ lo % 2 ^ n

/-! ## One value for each compute die -/

/-- Four values, one for each of CD0 to CD3 (R8). -/
structure Quad (α : Type) where
  d0 : α
  d1 : α
  d2 : α
  d3 : α
  deriving DecidableEq, Repr

namespace Quad
variable {α : Type}

/-- The value of a die. -/
def get (q : Quad α) (d : DieId) : α :=
  match d with
  | 0 => q.d0
  | 1 => q.d1
  | 2 => q.d2
  | 3 => q.d3

/-- Replace the value of a die. -/
def set (q : Quad α) (d : DieId) (v : α) : Quad α :=
  match d with
  | 0 => { q with d0 := v }
  | 1 => { q with d1 := v }
  | 2 => { q with d2 := v }
  | 3 => { q with d3 := v }

/-- The same value on every die. -/
def fill (v : α) : Quad α := ⟨v, v, v, v⟩

/-- The four values in die order. -/
def toList (q : Quad α) : List α := [q.d0, q.d1, q.d2, q.d3]

/-- Apply a function on every die. -/
def map {β : Type} (f : α → β) (q : Quad α) : Quad β := ⟨f q.d0, f q.d1, f q.d2, f q.d3⟩

end Quad

/-- The four compute dies in order. -/
def allDies : List DieId := [0, 1, 2, 3]

end Sys2Proof.Machine
end

