-- ==== Sys2Proof/Machine/Crypto.lean ====
section
/-! DEFINITION. The cryptographic functions that rules name: CRC-32C, SHA-384 (FIPS 180-4), AES-256, and the XTS and CMAC
modes with which Rind encrypts and tags a block (R236, R240, R417, R418, R434). -/

namespace Sys2Proof.Machine

/-! ## CRC-32C -/

/-- n steps of the reflected CRC-32C register. -/
def crc32cShift : Nat → W32 → W32
  | 0, c => c
  | n + 1, c => crc32cShift n (if c.getLsbD 0 then (c >>> 1) ^^^ 0x82F63B78#32 else c >>> 1)

/-- CRC-32C of bytes: the register initialised to ones and the result inverted. -/
def crc32c (bs : List Byte) : Nat :=
  (~~~(bs.foldl (fun (c : W32) (b : Byte) => crc32cShift 8 (c ^^^ b.zeroExtend 32)) (BitVec.allOnes 32))).toNat

/-! ## SHA-384 -/

/-- Round constants 0 to 7 of SHA-512 (FIPS 180-4). -/
def shaK0 : List Nat := [
  0x428a2f98d728ae22, 0x7137449123ef65cd, 0xb5c0fbcfec4d3b2f, 0xe9b5dba58189dbbc,
  0x3956c25bf348b538, 0x59f111f1b605d019, 0x923f82a4af194f9b, 0xab1c5ed5da6d8118]

/-- Round constants 8 to 15 of SHA-512 (FIPS 180-4). -/
def shaK1 : List Nat := [
  0xd807aa98a3030242, 0x12835b0145706fbe, 0x243185be4ee4b28c, 0x550c7dc3d5ffb4e2,
  0x72be5d74f27b896f, 0x80deb1fe3b1696b1, 0x9bdc06a725c71235, 0xc19bf174cf692694]

/-- Round constants 16 to 23 of SHA-512 (FIPS 180-4). -/
def shaK2 : List Nat := [
  0xe49b69c19ef14ad2, 0xefbe4786384f25e3, 0x0fc19dc68b8cd5b5, 0x240ca1cc77ac9c65,
  0x2de92c6f592b0275, 0x4a7484aa6ea6e483, 0x5cb0a9dcbd41fbd4, 0x76f988da831153b5]

/-- Round constants 24 to 31 of SHA-512 (FIPS 180-4). -/
def shaK3 : List Nat := [
  0x983e5152ee66dfab, 0xa831c66d2db43210, 0xb00327c898fb213f, 0xbf597fc7beef0ee4,
  0xc6e00bf33da88fc2, 0xd5a79147930aa725, 0x06ca6351e003826f, 0x142929670a0e6e70]

/-- Round constants 32 to 39 of SHA-512 (FIPS 180-4). -/
def shaK4 : List Nat := [
  0x27b70a8546d22ffc, 0x2e1b21385c26c926, 0x4d2c6dfc5ac42aed, 0x53380d139d95b3df,
  0x650a73548baf63de, 0x766a0abb3c77b2a8, 0x81c2c92e47edaee6, 0x92722c851482353b]

/-- Round constants 40 to 47 of SHA-512 (FIPS 180-4). -/
def shaK5 : List Nat := [
  0xa2bfe8a14cf10364, 0xa81a664bbc423001, 0xc24b8b70d0f89791, 0xc76c51a30654be30,
  0xd192e819d6ef5218, 0xd69906245565a910, 0xf40e35855771202a, 0x106aa07032bbd1b8]

/-- Round constants 48 to 55 of SHA-512 (FIPS 180-4). -/
def shaK6 : List Nat := [
  0x19a4c116b8d2d0c8, 0x1e376c085141ab53, 0x2748774cdf8eeb99, 0x34b0bcb5e19b48a8,
  0x391c0cb3c5c95a63, 0x4ed8aa4ae3418acb, 0x5b9cca4f7763e373, 0x682e6ff3d6b2b8a3]

/-- Round constants 56 to 63 of SHA-512 (FIPS 180-4). -/
def shaK7 : List Nat := [
  0x748f82ee5defb2fc, 0x78a5636f43172f60, 0x84c87814a1f0ab72, 0x8cc702081a6439ec,
  0x90befffa23631e28, 0xa4506cebde82bde9, 0xbef9a3f7b2c67915, 0xc67178f2e372532b]

/-- Round constants 64 to 71 of SHA-512 (FIPS 180-4). -/
def shaK8 : List Nat := [
  0xca273eceea26619c, 0xd186b8c721c0c207, 0xeada7dd6cde0eb1e, 0xf57d4f7fee6ed178,
  0x06f067aa72176fba, 0x0a637dc5a2c898a6, 0x113f9804bef90dae, 0x1b710b35131c471b]

/-- Round constants 72 to 79 of SHA-512 (FIPS 180-4). -/
def shaK9 : List Nat := [
  0x28db77f523047d84, 0x32caab7b40c72493, 0x3c9ebe0a15c9bebc, 0x431d67c49c100d4c,
  0x4cc5d4becb3e42b6, 0x597f299cfc657e2a, 0x5fcb6fab3ad6faec, 0x6c44198c4a475817]

/-- The 80 round constants. -/
def shaKs : List Nat :=
  shaK0 ++ shaK1 ++ shaK2 ++ shaK3 ++ shaK4 ++ shaK5 ++ shaK6 ++ shaK7 ++ shaK8 ++ shaK9

/-- The eight working variables. -/
structure ShaState where
  a : W64
  b : W64
  c : W64
  d : W64
  e : W64
  f : W64
  g : W64
  h : W64
  deriving DecidableEq, Repr

/-- The initial hash value of SHA-384. -/
def shaInit : ShaState :=
  ⟨0xcbbb9d5dc1059ed8#64, 0x629a292a367cd507#64, 0x9159015a3070dd17#64, 0x152fecd8f70e5939#64,
   0x67332667ffc00b31#64, 0x8eb44a8768581511#64, 0xdb0c2e0d64f98fa7#64, 0x47b5481dbefa4fa4#64⟩

/-- The big-endian number of bytes. -/
def beNat (bs : List Byte) : Nat := bs.foldl (fun a b => a * 256 + b.toNat) 0

/-- The n big-endian bytes of a number. -/
def beBytes (n v : Nat) : List Byte := (leBytes n v).reverse

/-- One round: message word w and constant k. -/
def ShaState.round (x : ShaState) (w k : W64) : ShaState :=
  let s1 := (x.e.rotateRight 14) ^^^ (x.e.rotateRight 18) ^^^ (x.e.rotateRight 41)
  let ch := (x.e &&& x.f) ^^^ (~~~x.e &&& x.g)
  let t1 := x.h + s1 + ch + k + w
  let s0 := (x.a.rotateRight 28) ^^^ (x.a.rotateRight 34) ^^^ (x.a.rotateRight 39)
  let maj := (x.a &&& x.b) ^^^ (x.a &&& x.c) ^^^ (x.b &&& x.c)
  ⟨t1 + (s0 + maj), x.a, x.b, x.c, x.d + t1, x.e, x.f, x.g⟩

/-- The next word of the message schedule from the 16 words before it. -/
def shaNext (w : List W64) : W64 :=
  let x := w.getD 1 0
  let y := w.getD 14 0
  ((y.rotateRight 19) ^^^ (y.rotateRight 61) ^^^ (y >>> 6)) + w.getD 9 0
    + ((x.rotateRight 1) ^^^ (x.rotateRight 8) ^^^ (x >>> 7)) + w.getD 0 0

/-- The 80 rounds over a sliding window of 16 schedule words. -/
def shaRounds : List Nat → List W64 → ShaState → ShaState
  | [], _, x => x
  | k :: ks, w, x => shaRounds ks (w.drop 1 ++ [shaNext w]) (x.round (w.getD 0 0) (BitVec.ofNat 64 k))

/-- Add two states word by word. -/
def ShaState.add (x y : ShaState) : ShaState :=
  ⟨x.a + y.a, x.b + y.b, x.c + y.c, x.d + y.d, x.e + y.e, x.f + y.f, x.g + y.g, x.h + y.h⟩

/-- The 16 big-endian words of a 128-byte block. -/
def shaWords (bs : List Byte) : List W64 :=
  (List.range 16).map (fun i => BitVec.ofNat 64 (beNat ((bs.drop (8 * i)).take 8)))

/-- Absorb n blocks. -/
def shaBlocks : Nat → List Byte → ShaState → ShaState
  | 0, _, x => x
  | n + 1, bs, x => shaBlocks n (bs.drop 128) (x.add (shaRounds shaKs (shaWords bs) x))

/-- A padded message: a one bit, zeros, and the length in bits in 16 big-endian bytes. -/
def shaPad (bs : List Byte) : List Byte :=
  let zeros := (239 - bs.length % 128) % 128
  bs ++ [0x80#8] ++ List.replicate zeros 0 ++ beBytes 16 (8 * bs.length)

/-- SHA-384: 48 bytes. -/
def sha384 (bs : List Byte) : List Byte :=
  let p := shaPad bs
  let x := shaBlocks (p.length / 128) p shaInit
  [x.a, x.b, x.c, x.d, x.e, x.f].flatMap (fun w => beBytes 8 w.toNat)

/-! ## AES-256 (FIPS 197) -/

/-- Multiply by x in GF(2^8) modulo x^8 + x^4 + x^3 + x + 1. -/
def xtime (b : Byte) : Byte := if b.msb then (b <<< 1) ^^^ 0x1B#8 else b <<< 1

/-- Multiplication in GF(2^8), taking n bits of the second factor. -/
def gfMul : Nat → Byte → Byte → Byte
  | 0, _, _ => 0
  | n + 1, a, b => (if b.getLsbD 0 then a else 0) ^^^ gfMul n (xtime a) (b >>> 1)

/-- a^(2^(n+1) − 2), which for n = 7 is the inverse in GF(2^8) (and 0 for 0). -/
def gfInv : Nat → Byte → Byte
  | 0, _ => 1
  | n + 1, a => gfMul 8 (gfMul 8 a a) (gfInv n (gfMul 8 a a))

/-- SubBytes of one byte. -/
def sbox (a : Byte) : Byte :=
  let b := gfInv 7 a
  b ^^^ (b.rotateLeft 1) ^^^ (b.rotateLeft 2) ^^^ (b.rotateLeft 3) ^^^ (b.rotateLeft 4) ^^^ 0x63#8

/-- Bytes combined by exclusive or. -/
def xorBytes (x y : List Byte) : List Byte := x.zipWith (fun a b => a ^^^ b) y

/-- Word i of a list of bytes. -/
def word4 (bs : List Byte) (i : Nat) : List Byte := (bs.drop (4 * i)).take 4

/-- Expand a key: n further words after the list so far, the next being word i; `rc` is the next round constant. -/
def aesExpand : Nat → Nat → Byte → List Byte → List Byte
  | 0, _, _, ks => ks
  | n + 1, i, rc, ks =>
    let prev := word4 ks (i - 1)
    let t :=
      if i % 8 = 0 then xorBytes ((prev.drop 1 ++ prev.take 1).map sbox) [rc, 0, 0, 0]
      else if i % 8 = 4 then prev.map sbox else prev
    aesExpand n (i + 1) (if i % 8 = 0 then xtime rc else rc) (ks ++ xorBytes (word4 ks (i - 8)) t)

/-- The 15 round keys of a 32-byte key. -/
def aesKeys (key : List Byte) : List (List Byte) :=
  let ks := aesExpand 52 8 1 key
  (List.range 15).map (fun r => (ks.drop (16 * r)).take 16)

/-- ShiftRows: byte 4c + r comes from column c + r. -/
def shiftRows (b : List Byte) : List Byte :=
  (List.range 16).map (fun i => b.getD (4 * ((i / 4 + i % 4) % 4) + i % 4) 0)

/-- MixColumns of one column. -/
def mixColumn (a b c d : Byte) : List Byte :=
  let t := fun (x y z w : Byte) => xtime x ^^^ (xtime y ^^^ y) ^^^ z ^^^ w
  [t a b c d, t b c d a, t c d a b, t d a b c]

/-- MixColumns. -/
def mixColumns (b : List Byte) : List Byte :=
  (List.range 4).flatMap (fun c =>
    mixColumn (b.getD (4 * c) 0) (b.getD (4 * c + 1) 0) (b.getD (4 * c + 2) 0) (b.getD (4 * c + 3) 0))

/-- The rounds after the first key addition. -/
def aesRounds : List (List Byte) → List Byte → List Byte
  | [], b => b
  | [k], b => xorBytes (shiftRows (b.map sbox)) k
  | k :: ks, b => aesRounds ks (xorBytes (mixColumns (shiftRows (b.map sbox))) k)

/-- AES-256 of a 16-byte block under a 32-byte key. -/
def aes256 (key block : List Byte) : List Byte :=
  match aesKeys key with
  | k :: ks => aesRounds ks (xorBytes block k)
  | [] => block

/-! ## XTS and CMAC as Rind uses them (R417, R418) -/

/-- Multiply an XTS tweak by x (IEEE 1619), as a little-endian number. -/
def xtsNext (t : List Byte) : List Byte :=
  let n := leNat t
  leBytes 16 (if 2 ^ 127 ≤ n then (2 * n) % 2 ^ 128 ^^^ 0x87 else 2 * n)

/-- XTS encryption of n blocks of 16 bytes under key 1, from an encrypted tweak. -/
def xtsBlocks (key1 : List Byte) : Nat → List Byte → List Byte → List Byte
  | 0, _, _ => []
  | n + 1, t, bs =>
    xorBytes (aes256 key1 (xorBytes (bs.take 16) t)) t ++ xtsBlocks key1 n (xtsNext t) (bs.drop 16)

/-- AES-256-XTS of a 256-byte data unit under a tweak number. -/
def xtsEncrypt (key1 key2 : List Byte) (tweak : Nat) (bs : List Byte) : List Byte :=
  xtsBlocks key1 16 (aes256 key2 (leBytes 16 tweak)) bs

/-- Doubling in CMAC's field, as a big-endian number. -/
def cmacDouble (n : Nat) : Nat := if 2 ^ 127 ≤ n then (2 * n) % 2 ^ 128 ^^^ 0x87 else 2 * n

/-- The CBC-MAC of n blocks. -/
def cmacChain (key : List Byte) : Nat → List Byte → List Byte → List Byte
  | 0, _, x => x
  | n + 1, bs, x => cmacChain key n (bs.drop 16) (aes256 key (xorBytes x (bs.take 16)))

/-- AES-256-CMAC (SP 800-38B): 16 bytes. -/
def cmac (key bs : List Byte) : List Byte :=
  let l := beNat (aes256 key (List.replicate 16 0))
  let k1 := cmacDouble l
  let full := bs.length % 16 = 0 ∧ bs.length ≠ 0
  let n := if full then bs.length / 16 else bs.length / 16 + 1
  let rest := bs.drop (16 * (n - 1))
  let last :=
    if full then xorBytes rest (beBytes 16 k1)
    else xorBytes ((rest ++ [0x80#8] ++ List.replicate 16 0).take 16) (beBytes 16 (cmacDouble k1))
  aes256 key (xorBytes (cmacChain key (n - 1) bs (List.replicate 16 0)) last)

end Sys2Proof.Machine
end

