-- ==== Sys2Proof/Config.lean ====
section
/-! DEFINITION. What the spec leaves open: opaque constants with no body, so that nothing can be proved of
their values (the free values), and the facts fused into one part. -/

namespace Sys2Proof.Config

/-- Stochastic source of the key vault's CTR_DRBG (R412): word n of its output stream.
DESIGN CHOICE, safe: log entry 9. -/
opaque freeKeyWord : Nat → BitVec 64
/-- A free value for a result that the spec leaves undefined; the step supplies a fresh argument.
DESIGN CHOICE, safe: log entry 6. -/
opaque freeValue : Nat → BitVec 64
/-- Which FINISH a completion names when its last token is a stop token and its MAX_NEW-th (R258 gives both, one alike in every run,
R52): by MAX_NEW and STOP_TOKEN.
DESIGN CHOICE, safe: log entry 50. -/
opaque finishBoth : Nat → BitVec 32 → Nat
/-- The element that a FINISH by a count of zero writes (R400 divides by it; alike in every run, R52): by format code, dividend and
count.
DESIGN CHOICE, safe: log entry 51. -/
opaque divByZero : Nat → Nat → Nat → Nat
/-- The byte of a training table for a k that no signed byte holds (R291; alike in every run, R52).
DEDUCED, safe: log entry 133. -/
opaque kByte : Int → Nat
/-- The function-unit algorithm description of R538, which the manual cites and does not print: what it picks for function
code `f` (0 exp … 8 GELU), forward or derivative, at an input that R127 does not list, within the bounds of R126.
DESIGN CHOICE, safe: log entry 24. -/
opaque fnResult : Nat → Bool → BitVec 32 → BitVec 32
/-- How far the hub's binary64 power β^t lies from the exact power rounded to binary64 (R291): a result of 0, 1 or 2 modulo 3 stands
for one unit in the last place below, none, and one above; by the bits of β and by t.
DESIGN CHOICE, safe: log entry 139. -/
opaque powUlps : BitVec 32 → Nat → Nat
/-- ECDSA P-384 verification under the public key in the boot ROM (R434, R498): digest, signature.
DESIGN CHOICE, safe: log entry 97. -/
opaque ecdsaVerifies : List (BitVec 8) → List (BitVec 8) → Bool
/-- LMS verification under the public key in the boot ROM (R434, R498).
DESIGN CHOICE, safe: log entry 97. -/
opaque lmsVerifies : List (BitVec 8) → List (BitVec 8) → Bool
/-- The ECDSA P-384 signature that the device makes over a digest (R436).
DESIGN CHOICE, safe: log entry 97. -/
opaque ecdsaSign : List (BitVec 8) → Nat → List (BitVec 8)
/-- The LMS signature that the device makes over a digest with one leaf (R435, R436).
DESIGN CHOICE, safe: log entry 97. -/
opaque lmsSign : List (BitVec 8) → Nat → List (BitVec 8)
/-- The answer of the load-time checks 11, 12, 14 and 17 of R166 where the words of the plans leave it open, and of check 18, which
rests on declarations that the image of R163 does not carry; by check number and image.
DESIGN CHOICE, safe: log entry 26. -/
opaque loadCheckHolds : Nat → List (BitVec 8) → Bool
/-- MAX of the reserved move loop of a plan set (R323), which no field of the image of R163 labels.
DESIGN CHOICE, safe: log entry 30. -/
opaque moveLoopMax : List (BitVec 8) → Nat
/-- The identity fused into one part (R433, R480): the bytes of a CONST entry by index and subindex.
DESIGN CHOICE, safe: log entry 127. -/
opaque fusedBytes : Nat → Nat → List (BitVec 8)
/-- The same for a numeric entry.
DESIGN CHOICE, safe: log entry 127. -/
opaque fusedValue : Nat → Nat → Nat
/-- The factory calibration set (R481, R482) by subindex of 0x1100.
DESIGN CHOICE, safe: log entry 127. -/
opaque factoryCalibration : Nat → List (BitVec 8)
/-- The SHA-384 of the boot ROM (measurement 1 of R436).
DESIGN CHOICE, safe: log entry 127. -/
opaque bootRomDigest : List (BitVec 8)
/-- The identity certificate with its detached LMS signature (R433).
DESIGN CHOICE, safe: log entry 127. -/
opaque identityCert : List (BitVec 8)
/-- The PCI vendor ID of the device's configuration space (R357).
DESIGN CHOICE, safe: log entry 127. -/
opaque pciVendorId : Nat
/-- Order in which overlapping unordered accesses resolve (R221, R222): the byte left at an address when a copy's
source and destination overlap, by draw number; true takes the data the same copy already wrote.
DESIGN CHOICE, safe: log entry 19. -/
opaque overlapTakesNew : Nat → Nat → Bool

/-- Which of two unordered accesses of an external block prevails (R221), by the number of the operation that meets the other one and
the block's key: true takes what was written last.
DESIGN CHOICE, safe: log entry 183. -/
opaque raceTakesNew : Nat → Nat → Bool
/-- A byte that a copy of the hub delivers of a block that fails its check (R215, R424), by draw number and address: no plaintext of
the block, and nothing else is stated.
DESIGN CHOICE, safe: log entry 172. -/
opaque failedByte : Nat → Nat → BitVec 8
/-- The token position that a serving replay's plan set declares (R106), by PLAN_SET_ID and plan beat.
DESIGN CHOICE, safe: log entry 20. -/
opaque auditStep : Nat → Nat → Nat
/-- The site number that the compiler gives a rounding point (R106), by what names the point in the plan set.
DESIGN CHOICE, safe: log entry 20. -/
opaque auditSite : List Nat → Nat
/-- The flat index of a rounded element in its output tensor (R106), by the rounding point and by device, plan beat, cell, lane
and row.
DESIGN CHOICE, safe: log entry 20. -/
opaque auditElement : List Nat → List Nat → Nat
/-- The number of the chunk with which a total of a matrix product starts on an array (R104), by the rounding point and by device, plan
beat, cell, lane and row.
DESIGN CHOICE, safe: log entry 173. -/
opaque auditChunk : List Nat → List Nat → Nat

/-- Whether a temperature halfway between two degrees is rounded up (R437 states only the step of 1 °C).
DESIGN CHOICE, safe: log entry 92. -/
opaque tempTieUp : Bool

end Sys2Proof.Config
end

