-- ==== Sys2Proof/Machine/State.lean ====
section
/-! DEFINITION. The state of the device: every register, memory, queue, table and pin that the spec gives it, as
plain data, and the machine before its input power comes (R491). Parameters of the object dictionary
that no rule derives are held once, by number, in `DictState.params`; the counters among them too. -/

namespace Sys2Proof.Machine

/-! ## Why a step can stop -/

/-- Faults of a step. -/
inductive Fault where
  /-- Raised by WORD_DISPATCH, and through it by nothing else: a slot of the word holds an encoding that no table of
  the operation reference defines. Check 1 of R166 keeps such a word out of every loaded plan set, so no run of a
  loaded plan reaches it. Safe: the machine stops where the spec gives no effect. -/
  | undefinedEncoding
  /-- Raised by an operation whose operands the spec calls undefined (a tile outside accumulator memory, a row range
  outside the tile, an operand pair that the array refuses, a copy between two spaces of other dies, a count of 0).
  Check 1 of R166 refuses such a plan. Safe: the machine stops where the spec gives no effect. -/
  | undefinedOperation
  deriving DecidableEq, Repr

/-- Refusals of a step. -/
inductive Refusal where
  /-- Raised by an arm of `exec` whose meaning is not written yet. Safe: nothing is claimed of that command. -/
  | notModelled (mnemonic : String)
  deriving DecidableEq, Repr

/-! ## Front ends and queues (chapters "The Cerot Stream and Its Queues" and "The Beat") -/

/-- A pointer register (R144). -/
structure PtrReg where
  base : W32 := 0
  cellStride : W32 := 0
  step0 : W32 := 0
  step1 : W32 := 0
  step2 : W32 := 0
  step3 : W32 := 0
  deriving DecidableEq, Repr

/-- A loop in progress: its body's first word and length, its effective count, MAX, the iteration in progress, the nominal
cycle of the body's first word in iteration 0, D, and whether the loop lies in a hollow iteration (R158, R159). -/
structure LoopFrame where
  bodyWord : Nat
  bodyLen : Nat
  count : Nat
  max : Nat
  iter : Nat
  firstNominal : Nat
  delta : Nat
  outerHollow : Bool
  deriving DecidableEq, Repr

/-- A queue entry (R146, R147). -/
structure QEntry where
  op : Op
  issue : Issue
  wait : Option (BitVec 13 × W16)
  sig : Option (BitVec 13 × Nat)
  deriving DecidableEq, Repr

/-- An operation in progress: its start cycle, the epoch current at its start (R425) and the remote responses that it
still awaits (R373). -/
structure Running where
  /-- The model's own number of the operation, by which responses and answers find it. -/
  id : Nat
  slot : Slot
  entry : QEntry
  start : Nat
  epoch : W16
  awaiting : Nat
  deriving DecidableEq, Repr

/-- A tally declaration of the plan in progress (R152, R162). -/
structure Decl where
  tally : Nat
  remote : Bool
  advance : Nat
  deriving DecidableEq, Repr

/-- One value for each slot (R137). -/
structure Slots (α : Type) where
  a : α
  v : α
  f : α
  m0 : α
  m1 : α
  x : α
  t : α
  c : α
  deriving DecidableEq, Repr

/-- The front end of a compute die, its queues, tallies and counters. -/
structure FrontEnd where
  /-- A plan is open: its words are dispatched until the die closes (R31). -/
  planOpen : Bool := false
  /-- PLAN.END has been dispatched (R150), and whether it still stands in slot C's queue. -/
  ended : Bool := false
  endQueued : Bool := false
  planIndex : Nat := 0
  schedSlot : Nat := 0
  /-- The plan index delivered at BEAT − 128 (R32). -/
  delivered : Option Nat := none
  /-- Plans that this late die has still to open, oldest first: plan index, JOB_BEAT, BEAT_COUNT of its boundary, batch
  descriptor (R31). -/
  owed : List (Nat × Nat × Nat × List W32) := []
  /-- JOB_BEAT of the plan in progress, and the seed of its job, from which the pips took their keys at the opening (R133). -/
  planBeat : Nat := 0
  seed : W64 := 0
  /-- The training step of the plan in progress (R106, R400). -/
  trainStep : Nat := 0
  /-- Plan-store line of the plan's first word, the number of the next word and its nominal cycle (R141). -/
  line : Nat := 0
  wordNo : Nat := 0
  nominal : Nat := 0
  loops : List LoopFrame := []
  ptrs : AMap PtrReg := []
  mask : W64 := BitVec.allOnes 64
  scalars : AMap W32 := []
  queues : Slots (List QEntry)
  running : List Running := []
  tallies : AMap W32 := []
  bases : AMap W32 := []
  decls : List Decl := []
  /-- Tally values when the plan opened, for the tallies that it does not declare (R28). -/
  opened : AMap W32 := []
  /-- The die holds a halt request (R536). -/
  haltReq : Bool := false
  /-- The plan's issue has been stopped by a halt (R41). -/
  stopped : Bool := false
  nanNow : Nat := 0
  infNow : Nat := 0
  ovfNow : Nat := 0
  nanLast : Nat := 0
  infLast : Nat := 0
  ovfLast : Nat := 0
  /-- Promotions that overflowed in the plan in progress (R109). -/
  accOvfNow : Nat := 0
  /-- The drop-out key table (R295). -/
  dropKeys : AMap W64 := []
  inReset : Bool := false
  /-- BEAT_COUNT of the first boundary at which the die was found late on the plan that it holds (R55). -/
  lateSince : Option Nat := none
  /-- The plan that the die holds belongs to a job that has ended and been followed by another START (R86). -/
  stale : Bool := false
  /-- The operation that each slot started last in the plan in progress, with its cycle, by the slot's position (R169, R170). -/
  lastStart : AMap (Nat × Op) := []
  deriving DecidableEq, Repr

/-! ## Cells -/

/-- An exact value: NaN, an infinity, or (−1)^neg × m × 2^e (R58, R87). -/
inductive Num where
  | nan
  | inf (neg : Bool)
  | fin (neg : Bool) (m : Nat) (e : Int)
  deriving DecidableEq, Repr

/-- A staged row: the token position and its K and V bytes as written (R130, R190). -/
structure StageRow where
  pos : Nat
  k : List Byte
  v : List Byte
  deriving DecidableEq, Repr

/-- An open slot of a staging buffer (R130). -/
structure StageSlot where
  die : DieId
  cell : CellId
  seq : Nat
  head : Nat
  layer : Nat
  page : Nat
  rows : List StageRow
  deriving DecidableEq, Repr

/-- Rows that FLUSH.TAIL wrote in the current plan (R310, R313). -/
structure FlushRec where
  die : DieId
  head : Nat
  layer : Nat
  seq : Nat
  page : Nat
  positions : List Nat
  deriving DecidableEq, Repr

/-- How the operation that opened a total holds it (R91, R93): not opened in this plan, A32 with RNE or SR promotions, A16. -/
inductive TotalMode where
  | closed | a32 | a32Sr | a16
  deriving DecidableEq, Repr

/-- One row of 64 totals: how it is held, and the chunks promoted into it since it was opened (R91, R104). -/
structure TotalRow where
  mode : TotalMode := .closed
  chunks : Nat := 0
  deriving DecidableEq, Repr

/-- The registers of the cells. Vector registers are keyed (die × 64 + cell) × 64 + register and hold 64 lanes; tile
registers are keyed ((die × 64 + cell) × 2 + array) × 2 + (0 active, 1 shadow) and hold row after row of 64 exact
elements, an unlisted one being the zero tile; `pending` is keyed die × 2 + array (R180). -/
structure CellState where
  vregs : AMap (List W32) := []
  tiles : AMap (List Num) := []
  pending : List Nat := []
  /-- Rows of totals, keyed ((((die × 64 + cell) × 2 + array) × 16 + TILE) × 4 + column group) × 128 + row (R91). -/
  totalRows : AMap TotalRow := []
  staging : List StageSlot := []
  /-- Translation lists of the walkers, keyed die × 64 + cell (R128). -/
  xlat : AMap (List Nat) := []
  /-- Rows flushed in the current plan, for R310 and R313. -/
  flushed : List FlushRec := []
  deriving DecidableEq, Repr

/-! ## Memories and Rind -/

/-- Every memory of bytes. Keys: SRAM die × 2^28 + cell × 2^22 + address; HBM and LPDDR die × 2^38 + byte of the tier
space; plan stores die × 2^23 + byte; accumulators ((die × 64 + cell) × 2 + array) × 2^17 + byte; flash by byte. -/
structure MemState where
  sram : Memory := []
  /-- Valid bits of SRAM lines: keys with the bit set, die × 2^21 + cell × 2^15 + line (R431). -/
  sramValid : AMap Bool := []
  hbm : Memory := []
  lpddr : Memory := []
  plan : Memory := []
  acc : Memory := []
  /-- Firmware, parameter and log areas of the module flash (R497). -/
  flash : Memory := []
  /-- Physical faults that memories hold: 64-bit SRAM words with a double-bit and a single-bit error, plan-store lines
  likewise, and external blocks (frame × 256 + block) with an uncorrectable or a corrected error, and those whose tag no
  longer matches. No command of the table makes one; a write repairs it. -/
  sramDouble : AMap Bool := []
  sramSingle : AMap Bool := []
  planDouble : AMap Bool := []
  planSingle : AMap Bool := []
  memDouble : AMap Bool := []
  memSingle : AMap Bool := []
  tagBad : AMap Bool := []
  deriving DecidableEq, Repr

/-- A page in a keying list (R420, R422): done bits, and for a sweep entry the old generation. -/
structure KeyingEntry where
  frame : Nat
  doneBits : BitVec 256
  sweepOld : Option Nat
  deriving DecidableEq, Repr

/-- States of a key slot (R412). -/
inductive SlotState where
  | free | active | rotating | removing
  deriving DecidableEq, Repr

/-- One generation's keys: an AES-256-XTS pair and an AES-CMAC key (R412). -/
structure KeySet where
  gen : Nat
  xts1 : BitVec 256
  xts2 : BitVec 256
  cmac : BitVec 256
  deriving DecidableEq, Repr

/-- A key slot of the vault (R412); unlisted slots are FREE. -/
structure KeySlot where
  state : SlotState
  owner : Nat
  gen : Nat
  keys : List KeySet
  deriving DecidableEq, Repr

/-- A sweep in progress: its slot, the old generation, pages swept so far (R422). -/
structure Sweep where
  slot : Nat
  oldGen : Nat
  swept : Nat
  deriving DecidableEq, Repr

/-- Rind engines and the key vault. -/
structure RindState where
  /-- The attribute that a page not listed carries: 0 at reset, slot 1 generation 0 after a scrub (R213, R429). -/
  attrDefault : W16 := 0
  attrs : AMap W16 := []
  keying : List KeyingEntry := []
  slots : AMap KeySlot := []
  sweeps : List Sweep := []
  /-- Words already drawn from the DRBG (R412). -/
  drawn : Nat := 0
  /-- The key drawn at each power-on for the links inside the module. -/
  linkKey : Option (BitVec 256) := none
  deriving DecidableEq, Repr

/-! ## The beat and the orchard -/

/-- Kinds of beat, codes 0 to 4 (R25). -/
inductive BeatKind where
  | normal | catchUp | idle | halt | free
  deriving DecidableEq, Repr

/-- What the device knows of a neighbour's beat claim (R42, R43): source, its priority, the sender's depth and path
latency. -/
structure Claim where
  source : Nat
  priority : Nat
  depth : Nat
  latency : Nat
  deriving DecidableEq, Repr

/-- Beat counters, the orchard's clock and the echoes. -/
structure BeatState where
  count : Nat := 0
  /-- BEAT_CYCLES, GUARD_CYCLES, BEAT_SOURCE_PRIORITY and IDLE_MAX in force: a write takes effect at the next FREE boundary
  (R22, R23, R30, R42, R50). -/
  cycles : Nat := 65536
  guard : Nat := 1024
  priority : Nat := 128
  idleMax : Nat := 12
  jobBeat : Nat := 0
  kind : BeatKind := .free
  nextKind : BeatKind := .free
  /-- Boundaries for which the source has decided a kind ahead of its marker: (boundary, kind). -/
  announced : List (Nat × BeatKind) := []
  /-- The first NORMAL beat of the job is still to come (R26). -/
  firstNormal : Bool := false
  /-- The last beats were catch-up beats and the next checked boundary is the first after them (R39). -/
  afterCatchUp : Bool := false
  /-- An overrun of this device at the current boundary (R37) and the dies late. -/
  overrun : Bool := false
  /-- Own closure result of the current boundary is known (R47). -/
  closureKnown : Bool := false
  echoSent : Bool := false
  /-- Echoes of children for the current boundary, by link. -/
  echoes : AMap EchoF := []
  /-- Last echo of each child, and consecutive boundaries at which it was missing. -/
  lastEcho : AMap EchoF := []
  missing : AMap Nat := []
  /-- Children: links whose partner's parent link ends here (R47). -/
  children : List Nat := []
  lostChildren : List Nat := []
  claims : AMap Claim := []
  /-- BEAT_SOURCE_ID of the last marker of each link, whatever became of its claim; 0xFFFF when its sender knows none (R42). -/
  heard : AMap Nat := []
  markersMissed : Nat := 0
  /-- Links on which a source with another period or guard has been logged (R24). -/
  mismatched : List Nat := []
  /-- NORMAL, IDLE and CATCH_UP beats of the telemetry interval in progress (R485). -/
  beatsNormal : Nat := 0
  beatsIdle : Nat := 0
  beatsCatchUp : Nat := 0
  /-- Guard correction of the beat in progress in cycles (R45). -/
  correction : Int := 0
  /-- Newest aggregated echo at the source: MISSING_COUNT and boundary (R447). -/
  aggMissing : Nat := 0
  aggIdle : Nat := 0
  /-- Beats of the hold so far (R447) and whether it has expired. -/
  holdBeats : Nat := 0
  holdExpired : Bool := false
  /-- Boundaries that the source has announced as the hold's (R447). -/
  holdTicks : List Nat := []
  /-- The snapshot of the beat in progress has been taken (R32, R33). -/
  snapTaken : Bool := false
  /-- Thermal limit of R483 in watts. -/
  thermalLimit : Nat := 2500
  deriving DecidableEq, Repr

/-! ## Jobs and training -/

/-- Job states, codes 0 to 5 (R299). -/
inductive JobPhase where
  | none | loaded | starting | running | stopping | halted
  deriving DecidableEq, Repr

/-- A range entry of a job description (R269). -/
structure RangeEntry where
  press : Bool
  keySlot : Nat
  firstPage : Nat
  pages : Nat
  deriving DecidableEq, Repr

/-- Optimizers, codes 0 to 2 (R269). -/
inductive Optimizer where
  | adamw | sgdm | sign
  deriving DecidableEq, Repr

/-- A train entry of a job description (R269). -/
structure TrainEntry where
  handle : Nat
  slotA : Nat
  slotB : Nat
  optimizer : Optimizer
  keep : Nat
  lr : W32
  beta1 : W32
  beta2 : W32
  epsilon : W32
  weightDecay : W32
  warmup : Nat
  deriving DecidableEq, Repr

/-- A job description (R268). -/
structure JobDesc where
  microBatches : Nat
  jobTag : Nat
  updateSlot : Nat
  updateBeats : Nat
  jobSeed : W64
  startBeat : Nat
  planSetId : Nat
  firstStep : Nat
  maxSteps : Nat
  fillChunkBlocks : Nat
  fillChunksPerBeat : Nat
  gradHeadroom : Nat
  tableTally : Nat
  straddle : Nat
  releaseSlot : Nat
  endSlot : Nat
  ranges : List RangeEntry
  trains : List TrainEntry
  deriving DecidableEq, Repr

/-- Decisions of the update-skip unit, codes 0 to 2 (R290). -/
inductive Update where
  | apply | skip | none
  deriving DecidableEq, Repr

/-- A trained adapter in the running job (R286 to R291): its statistics, version, the loss-scale exponents and k of
the step in progress and the next one, and whether its stash is held. -/
structure TrainState where
  handle : Nat
  lossLog2 : Int
  streak : Nat
  stepCount : Nat
  history : List Nat
  head : Nat
  version : Nat
  stashHeld : Bool
  lossEven : Int
  lossOdd : Int
  kEven : Int
  kOdd : Int
  lastUpdate : Update
  /-- The stash was still held at UPDATE_SLOT, so the update is NONE (R288). -/
  conflict : Bool
  deriving DecidableEq, Repr

/-- A plan-set header (R163). -/
structure PlanSet where
  scheduleLength : Nat
  beatLog2 : Nat
  nondeterministic : Bool
  rowInvariant : Bool
  audit : Bool
  training : Bool
  guardDiv256 : Nat
  orchardSize : Nat
  planCount : Nat
  planSetId : Nat
  baseFingerprint : List Byte
  imageDigest : List Byte
  /-- The plan table (R164): schedule slot, MIX_CODE, plan index. -/
  table : List (Nat × Nat × Nat)
  /-- MAX of the reserved move loop of the plan set (R323), which the image does not label. -/
  moveLoopMax : Nat
  deriving DecidableEq, Repr

/-- Jobs and training. -/
structure JobState where
  phase : JobPhase := .none
  planSet : Option PlanSet := none
  desc : Option JobDesc := none
  trains : List TrainState := []
  /-- JOB_BEAT and NEXT_STEP of the schedule-state record of a resumed job (R457). -/
  resumeBeat : Option Nat := none
  /-- The first step of the job for R275 and R290. -/
  firstStepNow : Nat := 0
  /-- STOP consumed at a snapshot; ABORT given; a loss ends the job at the next END_SLOT of step s + 1 (R450). -/
  stopWritten : Bool := false
  stopTaken : Bool := false
  abortGiven : Bool := false
  lossEndStep : Option Nat := none
  /-- The update phase in progress, and the last step whose update phase closed. -/
  inUpdate : Bool := false
  lastStepUpdated : Option Nat := none
  /-- The step for whose beats the update decision was last made (R290), and update phases closed (R294). -/
  decidedFor : Option Nat := none
  phasesClosed : Nat := 0
  nonfiniteSeen : Bool := false
  overflowSeen : Bool := false
  /-- NEXT_STEP of the newest partner copy that this job has begun (R440). -/
  copyBegun : Option Nat := none
  deriving DecidableEq, Repr

/-! ## Matters, adapters and admission -/

/-- The base install states, codes 0 to 2 (R235). -/
inductive BasePhase where
  | none | installing | valid
  deriving DecidableEq, Repr

/-- A manifest segment (R236). -/
structure Segment where
  die : DieId
  firstPage : Nat
  bytes : Nat
  digest : List Byte
  deriving DecidableEq, Repr

/-- A base install in progress (R237). -/
structure Install where
  fingerprint : List Byte
  segments : List Segment
  doneSegs : List Nat
  deriving DecidableEq, Repr

/-- A registered adapter (R240, R245, R246): its registration number, the header fields that rules read, its pages in
ADAPTER_STORE (the same on every die), whether it is INVALID (R238), and the beat at which a revocation took effect. -/
structure Adapter where
  serial : Nat
  matter : Nat
  keySlot : Nat
  rank : Nat
  trainState : Bool
  layerFirst : Nat
  layerCount : Nat
  targets : Nat
  fingerprint : List Byte
  seed : W64
  tensorOffset : Nat
  serveBytes : Nat
  stateBytes : Nat
  recordBytes : Nat
  slotPages : Nat
  storePage : Nat
  storePages : Nat
  invalid : Bool
  revoking : Bool
  /-- A revocation has been taken but the boundary at which it takes effect has not come, and since when. -/
  revokedAt : Nat
  /-- Ring entries to complete when the handle is freed. -/
  evictions : List EntryId
  copied : Bool
  deriving DecidableEq, Repr

/-- States of a cache slot (R254). -/
inductive CachePhase where
  | filling | resident
  deriving DecidableEq, Repr

/-- An occupied cache slot (R254); unlisted slots are FREE. Its pin count is the number of requests that hold it and of
standing pins on it. -/
structure CacheSlot where
  phase : CachePhase
  adapter : Nat
  handle : Nat
  /-- Pinned by the running job, whose SLOT_A or SLOT_B it is (R271). -/
  trained : Bool
  lastAdmit : Nat
  chunksLeft : Nat
  chunksDone : Nat
  /-- The fill is complete, and rows may join from the next slot-0 boundary on (R253). -/
  ready : Bool
  deriving DecidableEq, Repr

/-- A bundle (R249), bound to a registration and not to a handle number. -/
structure Bundle where
  adapter : Nat
  handle : Nat
  context : Option Nat
  /-- Its context has been released or dropped since it was defined (R319). -/
  contextGone : Bool
  hold : Bool
  revoked : Bool
  deriving DecidableEq, Repr

/-- States of a request (R250); COMPLETE requests are not listed. -/
inductive ReqPhase where
  | queued | taken | active
  deriving DecidableEq, Repr

/-- Completion statuses (R351). -/
inductive Status where
  | ok | badEntry | cancelled | noRequest | notAllowed | windowRange | bufferTooSmall | jobEnded | tenantReleased
  | unknownMatter | adapterRevoked | baseMismatch | badRecord | keySlotMismatch | adapterTooLarge | adapterLimit
  | storeFull | adapterPinned | adapterInTraining | unknownAdapter | unknownBundle | bundleMatterMismatch | holdLimit
  | seqTooLong | ptInconsistent | seqUnknown | seqBusy | contextDropped | contextParked
  deriving DecidableEq, Repr

/-- A request or a context prefill (R250, R343, R346). -/
structure Request where
  phase : ReqPhase
  /-- Order of consumption, by which the newest request is known (R255). -/
  order : Nat
  id : EntryId
  isContext : Bool
  f : SubmitF
  matter : Nat
  punnet : Nat
  span : Nat
  adapter : Option Nat
  handle : Nat
  context : Option Nat
  seq : Option Nat
  slot : Option Nat
  /-- Tokens still to re-prefill (KIND 3), with the next position; prompt tokens already prefilled; tokens finished. -/
  reFrom : Nat
  reTo : Nat
  promptDone : Nat
  produced : Nat
  /-- Prompt tokens of this entry in the step in progress, and whether it has a decode row in it. -/
  stepTokens : Nat
  stepDecode : Bool
  /-- The status with which it leaves at the next slot-0 boundary, and whether STOP_TOKEN ended it. -/
  leaving : Option Status
  stopHit : Bool
  deriving DecidableEq, Repr

/-- A row of the step's tables (R258). -/
structure Row where
  slot : Nat
  punnet : Nat
  kind : Nat
  final : Bool
  seq : Nat
  context : Nat
  pos : Nat
  tokens : Nat
  req : Nat
  deriving DecidableEq, Repr

/-! ## Attention and the KV cache -/

/-- States of a sequence (R304); unlisted sequences are FREE. -/
inductive SeqPhase where
  | opened | kept | contextHbm | contextParked
  deriving DecidableEq, Repr

/-- A sequence record (R305); fields marked "die" are the same on every die, because the model allocates alike. -/
structure SeqRec where
  phase : SeqPhase
  fmt : Nat
  gen : Nat
  punnet : Nat
  keySlot : Nat
  keep : Bool
  matter : Nat
  length : Nat
  droppedFrom : Option Nat
  pagesPerList : Nat
  extent : Nat
  runPage : Nat
  tokLogPage : Nat
  tokLogPages : Nat
  positionBase : Nat
  lastUsed : Nat
  /-- Frames reserved and not yet mapped, per die (R320). -/
  reserved : Nat
  /-- The context is being filled by its prefill. -/
  filling : Bool
  /-- A context's run lies in LPDDR (R323). -/
  runLp : Bool
  /-- The fingerprint of the base it was prefilled against, and whether an END has made it INVALID (R238). -/
  base : List Byte
  invalid : Bool := false
  deriving DecidableEq, Repr

/-- A page-table entry (R306). -/
structure Pte where
  frame : Nat
  valid : Bool
  dropped : Bool
  used : Nat
  keySlot : Nat
  gen : Nat
  fmt : Nat
  deriving DecidableEq, Repr

/-- Rows that a flush reported: the hub adds them to USED at the next boundary, if the entry still maps the frame (R313). -/
structure AddUsed where
  die : DieId
  index : Nat
  frame : Nat
  rows : Nat
  deriving DecidableEq, Repr

/-- A context move in progress (R323): its sequence, direction, entry to complete, pages moved, both runs. -/
structure Move where
  seq : Nat
  park : Bool
  id : Option EntryId
  moved : Nat
  srcPage : Nat
  dstPage : Nat
  pages : Nat
  deriving DecidableEq, Repr

/-- Sequence records, page tables and frame allocation. -/
structure KvTables where
  seqs : AMap SeqRec := []
  /-- GEN last used by each sequence ID (R308). -/
  gens : AMap Nat := []
  /-- PTE pools, per die by pool index (R307). -/
  ptes : Quad (AMap Pte) := Quad.fill []
  /-- Frames of the KV region in use: key die × 2^22 + page of the tier; pages of the CONTEXT region in use likewise. -/
  usedFrames : AMap Bool := []
  usedContext : AMap Bool := []
  deriving DecidableEq, Repr

/-! ## Commands that wait -/

/-- Commands of the matter range (R414). -/
inductive MatterCmd where
  | create (id : W32)
  | remove (id : W32)
  | rotate (slot : Nat)
  deriving DecidableEq, Repr

/-- Ring commands that take effect at step 2 of the following admission cycle (R341). -/
inductive LateCmd where
  | evictCache (handle : Nat)
  | evictRevoke (handle : Nat)
  | bundleDefine (f : BundleF)
  | bundleRelease (bundle : Nat)
  deriving DecidableEq, Repr

/-- Page edits (R318). -/
inductive PageEdit where
  | keep (set : Bool)
  | release
  | truncate (position : Nat)
  | drop (position : Nat)
  | park
  | unpark
  deriving DecidableEq, Repr

/-- A CANCEL that waits for requests to leave (R344): its entry, the count to report, the requests still to complete. -/
structure CancelWait where
  id : EntryId
  count : Nat
  left : List Nat
  deriving DecidableEq, Repr

/-- What a SUBMIT is checked against when PAGE_EDITs consumed with it have changed it since: sequences, waiting edits and bundles as
they stood after step 2 (R348). -/
structure StepTwo where
  tables : KvTables
  deferred : List (EntryId × Nat × PageEdit)
  bundles : AMap Bundle
  deriving DecidableEq, Repr

/-- Admission. -/
structure AdmState where
  base : BasePhase := .none
  fingerprint : List Byte := []
  prevFingerprint : List Byte := []
  install : Option Install := none
  adapters : AMap Adapter := []
  nextSerial : Nat := 0
  bundles : AMap Bundle := []
  slots : AMap CacheSlot := []
  /-- Slots whose fill has chunks left, in admission order (R253). -/
  fills : List Nat := []
  requests : AMap Request := []
  nextOrder : Nat := 0
  cancels : List CancelWait := []
  /-- Entries consumed for step 2 of a later cycle: since the last cycle, and those that the next cycle applies (R252, R341). -/
  late : List (EntryId × LateCmd) := []
  lateDue : List (EntryId × LateCmd) := []
  /-- A matter command written, taken at a snapshot, and due at the next boundary (R414). -/
  matterWritten : Option MatterCmd := none
  matterTaken : Option MatterCmd := none
  matterDue : Option MatterCmd := none
  /-- Page attributes to set at the next boundary: (frame, key slot) (R214, R420). -/
  rekeys : List (Nat × Nat) := []
  /-- The batch descriptor S0 to S15 for the next boundary, the step's mix and rows, and the chosen plan. -/
  desc : List W32 := []
  stepMix : Nat := 0
  rows : List Row := []
  plan : Option Nat := none
  /-- Ring entries consumed in this beat (R338). -/
  consumed : Nat := 0
  /-- Requests named by a table fault, to leave at the next slot-0 boundary (R312). -/
  faultedSeqs : List Nat := []
  /-- Ring commands that came after the snapshot, oldest first: the next cycle consumes them (R33). -/
  heldCmds : List (EntryId × Instr) := []
  /-- Set by the first PAGE_EDIT consumed after step 2, until the next step 2 (R348). -/
  stepTwo : Option StepTwo := none
  deriving DecidableEq, Repr

/-! ## Sequences in force and in the making -/

/-- Sequences, page tables and frames: `live` is what every translation reads; `next` is what the edit set of the next
boundary makes of it, edited in the order of R317 and taken over as one step at that boundary. -/
structure KvState where
  live : KvTables := {}
  next : KvTables := {}
  /-- What a late die still reads: the tables of the plan that it holds, then those of each plan that it has still to open
  (R30, R31); empty for a die on time. -/
  views : Quad (List KvTables) := Quad.fill []
  /-- USED additions, applied last (R317). -/
  added : List AddUsed := []
  /-- PAGE_EDIT entries to complete at the boundary of their edit set, in order (R318). -/
  done : List (EntryId × Status) := []
  /-- Entries counted against KV_EDITS_PER_BEAT in the edit set being formed (R317). -/
  editCount : Nat := 0
  deferred : List (EntryId × Nat × PageEdit) := []
  moves : List Move := []
  /-- KV_MOVE_PAGES_PER_BEAT in force (R323). -/
  moveRate : Nat := 64
  /-- Sequences already reported by PT_INCONSISTENT (R312). -/
  reported : List Nat := []
  deriving DecidableEq, Repr

/-! ## The host interface -/

/-- Ring states, codes 0 to 3 (R336). -/
inductive RingPhase where
  | disabled | enabled | quarantined | draining
  deriving DecidableEq, Repr

/-- A ring's counters (R336) and its fetched entries (R334). -/
structure Ring where
  phase : RingPhase := .disabled
  cause : Nat := 0
  pi : W32 := 0
  sqCi : W32 := 0
  cpl : W32 := 0
  cqCi : W32 := 0
  fetched : List (W32 × List Byte) := []
  /-- Entries consumed with no completion yet, by counter n (R338, R355). -/
  outstanding : List W32 := []
  unsignalled : Nat := 0
  oldestBeat : Nat := 0
  statusDirty : Bool := false
  piHeld : Bool := false
  ciHeld : Bool := false
  deriving DecidableEq, Repr

/-- What the device has sent to the outside, oldest first. -/
inductive Output where
  | completion (ring : Nat) (address : Nat) (bytes : List Byte)
  | statusLine (ring : Nat) (address : Nat) (bytes : List Byte)
  | readShared (address : Nat)
  | readCurrent (address : Nat)
  | msix (vector : Nat)
  | flit (l : Nat) (bytes : List Byte)
  | response (source : Nat) (doe : Bool) (bytes : List Byte)
  | doeError
  | notify (address : List Byte) (port : Nat) (bytes : List Byte)
  | bisnp (offset : Nat)
  | hostData (offset : Nat) (data : List Byte) (poison : Bool)
  | hostWritten (offset : Nat)
  | advertisement (source address : Nat)
  | measurements (bytes ecdsa lms : List Byte)
  | aer (protocol : CxlProtocol)
  | ioRead (address bytes : Nat)
  deriving DecidableEq, Repr

/-- Who waits for a write of the window: an operation of a die, a message of another device, or a CHECKPOINT or a RESTORE of the
hub. -/
inductive Owner where
  | op (d : DieId) (id : Nat)
  | message (m : Message)
  | checkpoint (e : EntryId)
  | restore
  deriving DecidableEq, Repr

/-- A block of the window to be written once the host has answered for each of its lines (R331). -/
structure SnoopBlock where
  owner : Owner
  offset : Nat
  lines : List Nat
  data : List Byte
  deriving DecidableEq, Repr

/-- Rings, interrupts and window accesses. -/
structure HostState where
  rings : AMap Ring := []
  /-- The mask bit of an MSI-X vector, set after reset.
  PRESUMED, unsafe: log entry 171. -/
  maskedVectors : AMap Bool := []
  pendingVectors : AMap Bool := []
  /-- Window blocks whose write waits for back-invalidations (R331, R232), oldest first. -/
  snoops : List SnoopBlock := []
  /-- CHECKPOINTs whose last line waits for the host, with the bytes written and the last step that they report. -/
  writing : List (EntryId × Nat × Nat) := []
  /-- Per-ring and per-key accumulations of events limited to one per 1,024 beats: key → (beat, count since). -/
  limited : AMap (Nat × Nat) := []
  spdmSession : Bool := false
  memActive : Bool := false
  deriving DecidableEq, Repr

/-! ## The fabric -/

/-- Link states, codes 0 to 6 (R377). -/
inductive LinkPhase where
  | disabled | down | training | discovery | up | mismatch | quarantined
  deriving DecidableEq, Repr

/-- A flit that waits at a link's transmitter: the link and channel whose receive buffer holds it, the input by which it entered the
die, as a bit of IN_MASK (R379), and the flit. -/
structure Waiting where
  src : Option (Nat × Nat)
  input : Nat
  flit : Flit
  deriving DecidableEq, Repr

/-- A link's layer state (R365 to R368, R376, R385 to R388). -/
structure Link where
  phase : LinkPhase := .down
  txSeq : BitVec 12 := 0
  rxSeq : BitVec 12 := 0
  /-- Flits sent and not acknowledged, oldest first (R365). -/
  retry : List Flit := []
  /-- Replays of one sequence number since the last acknowledgement, and that number (R366). -/
  replays : Nat := 0
  replaySeq : BitVec 12 := 0
  /-- Good sequenced flits received since the last acknowledgement sent (R365). -/
  unacked : Nat := 0
  /-- Credits held per virtual channel, and credits owed to the partner (R368). -/
  credits : List Nat := [64, 64, 64, 64, 64, 64, 64, 64]
  owed : List Nat := [0, 0, 0, 0, 0, 0, 0, 0]
  /-- Flits waiting for credit, oldest first (R368, R369). -/
  queue : List Waiting := []
  /-- The channel served last among channels 0 to 5, that among the CTL channels, and per channel the input served last (R369). -/
  lastChannel : Nat := 5
  lastControl : Nat := 7
  lastInput : AMap Nat := []
  /-- Latencies of the replies so far, in sixteenths of a cycle (R376). -/
  probes : List Nat := []
  latencyKnown : Bool := false
  /-- The last HELLO received since DISCOVERY was entered, if any (R375, R377). -/
  hello : Option HelloF := none
  /-- Violations per beat within the last 1,024 beats: (beat, count), and this beat's first one (code, header, count). -/
  violBeats : List (Nat × Nat) := []
  violNow : Option (Nat × W64 × Nat) := none
  deriving DecidableEq, Repr

/-- A place in a memory of this device or of another (R175, R210): a byte of a cell's SRAM, a block of a tier space, a byte
of another device. -/
inductive Loc where
  | sram (d : DieId) (c a : Nat)
  | ext (lp : Bool) (d : DieId) (b : Nat)
  | remote (dev : Nat) (d : DieId) (tier cell byte : Nat)
  deriving DecidableEq, Repr

/-- A remote request awaiting its response (R371, R373): its MSG and TXN, class, message type, the die that sent it, its
running operation, where READ_DATA goes, and the epoch current at the operation's start (R425). -/
structure Pending where
  txn : Nat
  cls : Nat
  type : Nat
  die : DieId
  op : Nat
  dest : Option Loc
  address : Nat
  epoch : W16
  deriving DecidableEq, Repr

/-- A block waiting at a Press unit (R405). -/
structure PressBlock where
  die : DieId
  lpddr : Bool
  dataBlock : Nat
  op : PressOp
  data : List Byte
  epoch : W16
  /-- The local operation that awaits this block, if one sent it. -/
  op' : Option (DieId × Nat)
  /-- The message that brought the block, without its data, and whether this is its last block. -/
  answer : Option Message
  last : Bool
  deriving DecidableEq, Repr

/-- A RED flit that a die does not pass on while the queue of its Press unit is full, with the link buffer that holds it (R405). -/
structure HeldFlit where
  die : DieId
  src : Option (Nat × Nat)
  flit : Flit
  deriving DecidableEq, Repr

/-- A block of a tier space that a running operation has written, with what it held before (R221). -/
structure OpenWrite where
  lp : Bool
  die : DieId
  block : Nat
  owner : DieId × Nat
  old : List Byte
  deriving DecidableEq, Repr

/-- Links, routes and messages. -/
structure FabState where
  /-- Blocks that running operations have written, for what R221 leaves open. -/
  writes : List OpenWrite := []
  links : AMap Link := []
  sealed : Bool := false
  sealedGen : W32 := 0
  pendings : List Pending := []
  /-- Requests that wait for a free message number (R370), oldest first. -/
  backlog : List (Pending × Message) := []
  /-- The number of the next operation that starts. -/
  nextOp : Nat := 0
  /-- Arriving blocks per Press unit, keyed die × 10 + controller, oldest first (R405). -/
  pressQueues : AMap (List PressBlock) := []
  /-- RED flits that wait for room in a Press unit's queue, oldest first (R405). -/
  redWaiting : List HeldFlit := []
  /-- PRESS messages of which a block could not be applied, until their last block is dealt with (R424). -/
  pressFailed : List Message := []
  /-- Messages with a HEAD received and DATA still to come, keyed by (SRC_DEV, SRC_DIE, CLASS, MSG): flits wanted. -/
  openMsgs : AMap (Nat × Message) := []
  /-- Messages whose rest is discarded, by the same key (R386). -/
  discarding : List Nat := []
  /-- WRITEs whose last block has come and that wait for the host's answers to snoops (R331). -/
  answering : List Message := []
  /-- Last messages of operations, which carry their destination signals, held until the others are answered (R195, R394). -/
  lastMsgs : List (Pending × Message) := []
  /-- Messages on their way through this device, by link and identity, with the DATA flits still to come (R385). -/
  transit : AMap Nat := []
  /-- Such messages whose rest is discarded (R386). -/
  transitDrop : List Nat := []
  /-- Die and destination of the first routed flit dropped since the last ROUTE_DROP (R390). -/
  firstDrop : Option (Nat × Nat) := none
  deriving DecidableEq, Repr

/-! ## The object dictionary and the event log -/

/-- One saved parameter copy in flash (R477): its generation, validity, and the RWP values. -/
structure SavedCopy where
  valid : Bool
  generation : Nat
  params : AMap Nat
  blobs : AMap (List Byte)
  deriving DecidableEq, Repr

/-- A staged BLOB write (R468). -/
structure StagedBlob where
  doe : Bool
  index : Nat
  sub : Nat
  total : Nat
  bytes : List Byte
  deriving DecidableEq, Repr

/-- A kept GPP response (R469). -/
structure KeptResponse where
  source : Nat
  seq : W32
  bytes : List Byte
  deriving DecidableEq, Repr

/-- The dictionary: numeric parameters and BLOB or STR32 values by index × 256 + subindex where they differ from their
defaults, the GPP queue, and saving. -/
structure DictState where
  params : AMap Nat := []
  blobs : AMap (List Byte) := []
  kept : List KeptResponse := []
  staged : Option StagedBlob := none
  /-- A SAVE in progress: its request and the values taken at its start. -/
  saving : Option (GppMsg × AMap Nat × AMap (List Byte)) := none
  /-- Answers over DOE that wait for the answer of an earlier SAVE over DOE (R357), oldest first: route word and object. -/
  held : List (Nat × List Byte) := []
  copy0 : SavedCopy := ⟨true, 0, [], []⟩
  copy1 : SavedCopy := ⟨false, 0, [], []⟩
  /-- Region layout in force (R212): the values of 0x5000.03 to 0x5000.09 and of KV_PTE_PAGES (R324) at the last start-up. -/
  layout : List Nat := [1250000, 512, 131072, 16384, 64, 786432, 262144, 8192]
  deriving DecidableEq, Repr

/-- Event classes (R486). -/
inductive EvClass where
  | info | note | fault | halt
  deriving DecidableEq, Repr

/-- An event record (R486). -/
structure EventRec where
  beat : Nat
  seq : Nat
  powerOn : Nat
  code : Nat
  cls : EvClass
  source : Nat
  detail : List Byte
  deriving DecidableEq, Repr

/-- The event log (R488). -/
structure LogState where
  records : List EventRec := []
  nextSeq : Nat := 0
  committed : Nat := 0
  /-- Records in flash, oldest first. -/
  flash : List EventRec := []
  /-- Records held in always-on retention memory until the next start-up (R492, R525, R528). -/
  retained : List EventRec := []
  acked : Nat := 0
  /-- Numbers of the alerting records that ALERT_ACK has not passed, oldest first (R488). -/
  alerted : List Nat := []
  alertLow : Bool := false
  deriving DecidableEq, Repr

/-! ## Tenants, resilience, boot -/

/-- Tenant states, codes 0 to 3 (R409). -/
inductive TenantPhase where
  | unbound | bound | releasing | scrubbing
  deriving DecidableEq, Repr

/-- Causes of a release (R439). -/
inductive ReleaseCause where
  | command | tspUnlock | ideLost
  deriving DecidableEq, Repr

/-- A release that has been asked for (R427). -/
structure Release where
  mode : ReleaseMode
  cause : ReleaseCause
  beat : Nat
  taken : Bool
  deriving DecidableEq, Repr

/-- The tenant. -/
structure TenantState where
  phase : TenantPhase := .unbound
  epoch : W16 := 0
  scrubRecorded : Bool := false
  /-- The slot-1 key of the scrub that set SCRUB_RECORDED, in the always-on domain (R413). -/
  keptKey : Option KeySet := none
  locked : Bool := false
  ideIo : Bool := false
  ideMem : Bool := false
  release : Option Release := none
  /-- The origin that TENANT_RELEASED reports: 1 the release, 2 a reset (R439), and whether one is owed. -/
  owedRelease : Bool := false
  lmsNext : Nat := 0
  lmsLimit : Nat := 0
  deriving DecidableEq, Repr

/-- A partner copy in progress (R440 to R445). -/
structure PartnerCopy where
  image : Nat
  nextStep : Nat
  /-- Blocks of every die already named by a descriptor (R445). -/
  moved : Nat
  /-- Writes of the newest header that have not been answered yet (R444). -/
  head : List Nat
  /-- The final header has been sent. -/
  sent : Bool
  /-- JOB_BEAT behind the plans whose loops move what a descriptor has named. -/
  lastBeat : Nat
  deriving DecidableEq, Repr

/-- A count of a stand-in table (R451): how often the plan of a schedule slot adds to a tally of a die in place of a lost
source. -/
structure StandinRow where
  source : Nat
  slot : Nat
  die : Nat
  tally : Nat
  count : Nat
  deriving DecidableEq, Repr

/-- How a RESTORE ended (R454, R459): the failing entry and its status, or the entries restored and the first handle given. -/
inductive RestoreEnd where
  | failed (entry status : Nat)
  | done (entries first : Nat)
  deriving DecidableEq, Repr

/-- Resilience. -/
structure ResState where
  copying : Option PartnerCopy := none
  /-- The image at the partner that holds the newest complete copy; none where this device does not know (R444). -/
  lastImage : Option Nat := none
  /-- A loaded stand-in table. -/
  standin : Option (List StandinRow) := none
  lossApplied : Option Nat := none
  /-- LOSS_APPLY_BEAT as it was last written, while its boundary has not come (R449). -/
  lossPending : Option Nat := none
  /-- Reads of the partner's images that a RESTORE awaits, what has been read by its orchard-global address, and the image chosen
  (R454). -/
  awaiting : List Nat := []
  fetched : AMap (List Byte) := []
  image : Option Nat := none
  /-- A RESTORE that waits for the host to answer for the lines of its schedule-state record (R331, R454). -/
  restored : Option RestoreEnd := none
  deriving DecidableEq, Repr

/-- Device states, codes 0 to 6 (R473). -/
inductive DevState where
  | off | boot | idle | admitted | running | halted | fault
  deriving DecidableEq, Repr

/-- Boot stages, codes 0 to 9 (R516). -/
inductive BootStage where
  | off | rom | recoveryWait | recoveryFetch | dies | memoryTraining | scrub | done | fault | resetHeld
  deriving DecidableEq, Repr

/-- Firmware states, codes 0 to 4 (R516). -/
inductive FwPhase where
  | none | staging | staged | writing | written
  deriving DecidableEq, Repr

/-- Work that the hub drives while no plan runs (R216), each completed by HUB_COPY_DONE. -/
inductive HubOp where
  | load (offset : Nat)
  | segment (offset index : Nat)
  | register (handle : Nat) (id : Option EntryId) (offset : Nat)
  /-- `wrote` holds the record as it was taken, with its status and last step. -/
  | checkpoint (id : EntryId) (handle dst maxBytes : Nat) (wrote : Option (Status × List Byte × Nat))
  | prepare
  | fwStage (offset bytes : Nat)
  | restore (offset : Nat)
  deriving DecidableEq, Repr

/-- Boot, power and firmware. -/
structure BootState where
  dev : DevState := .off
  stage : BootStage := .off
  /-- The always-on domain runs: the input power is above 30.0 V (R491, R525). -/
  alwaysOn : Bool := false
  regulators : Bool := false
  feedId : Byte := 0xFF
  slotId : BitVec 6 := 63
  modResetHeld : Bool := false
  perstHeld : Bool := false
  /-- Power-up waits for POWER_CMD 1 whatever BOOT_POLICY holds (R492, R529). -/
  stayOff : Bool := false
  thermTripLow : Bool := false
  tripped : Bool := false
  /-- Whole seconds in OFF since the trip, and since OFF was entered (R529, R532). -/
  offSeconds : Nat := 0
  fw : FwPhase := .none
  fwImage : List Byte := []
  hub : List HubOp := []
  /-- Both blade pairs are in the operating range (R524). -/
  inputOk : Bool := false
  /-- A power-up has been asked for and waits for the input (R491, R524). -/
  upAsked : Bool := false
  /-- Seconds since power-on. -/
  uptime : Nat := 0
  /-- The memories lost their contents with the reset that this start-up follows, so that it trains them anew and applies the
  region layout (R212, R504). -/
  memLost : Bool := true
  /-- The next power good is a power-on: the input came back, or POWER_DOWN came before (R492, R495). -/
  cold : Bool := true
  /-- TENANT_STATE when a reset ended the tenancy, for the events of the start-up (R505). -/
  endedIn : Option TenantPhase := none
  /-- RESET_CAUSE of the reset in progress (R504). -/
  cause : Nat := 0
  /-- Host physical address and size of the image that a RECOVER fetches (R502). -/
  recover : Nat × Nat := (0, 0)
  /-- TEMP_OFFSETS when stage 3 last began: the trip comparators go by them (R528). -/
  tripOffsets : List Byte := []
  /-- Dies whose reset waits for their keying lists and sweep entries to empty (R507). -/
  dieWaits : List DieId := []
  deriving DecidableEq, Repr

/-! ## The machine -/

/-- The whole device. -/
structure State where
  /-- Commands waiting, first in, first out. -/
  pending : List Instr := []
  fe : Quad FrontEnd
  cells : CellState := {}
  mem : MemState := {}
  rind : RindState := {}
  beat : BeatState := {}
  job : JobState := {}
  adm : AdmState := {}
  kv : KvState := {}
  host : HostState := {}
  fab : FabState := {}
  dict : DictState := {}
  log : LogState := {}
  ten : TenantState := {}
  res : ResState := {}
  boot : BootState := {}
  /-- Everything sent to the outside, oldest first. -/
  out : List Output := []
  /-- The model's own counter of free values drawn. -/
  free : Nat := 0
  deriving DecidableEq, Repr

/-- Eight empty queues (R28). -/
def Slots.empty : Slots (List QEntry) := ⟨[], [], [], [], [], [], [], []⟩

/-- A front end with nothing loaded, every tally zero and every cell enabled.
DESIGN CHOICE, unsafe: log entry 4. -/
def FrontEnd.reset : FrontEnd := { queues := Slots.empty }

/-- The machine before input power: DEVICE_STATE 0 OFF, every parameter at its default, memories empty, no tenant,
SCRUB_RECORDED 0 and TENANT_EPOCH 0 (R491, R495).
DESIGN CHOICE, unsafe: log entries 3, 4. -/
def State.reset : State := { fe := Quad.fill FrontEnd.reset }

end Sys2Proof.Machine
end

