-- ==== Sys2Proof/Machine/Events.lean ====
section
/-! DEFINITION. The events of the device: their codes and classes as the chapters list them. -/

namespace Sys2Proof.Machine

namespace Ev

abbrev beatOverrun : Nat := 0x7101
abbrev beatOverrunHalt : Nat := 0x7102
abbrev beatMarkerLost : Nat := 0x7103
abbrev beatSkew : Nat := 0x7104
abbrev beatConfigMismatch : Nat := 0x7105
abbrev beatTooDeep : Nat := 0x7106
abbrev beatTooShort : Nat := 0x7107
abbrev numNonfiniteSeen : Nat := 0x4001
abbrev numOverflowSeen : Nat := 0x4002
abbrev sramCorrected : Nat := 0x5301
abbrev sramUncorrectable : Nat := 0x5302
abbrev planLoadRefused : Nat := 0x8301
abbrev planCountClamped : Nat := 0x8302
abbrev planStoreCorrected : Nat := 0x8303
abbrev planStoreUncorrectable : Nat := 0x8304
abbrev tallyRemoteDropped : Nat := 0x8305
abbrev opRange : Nat := 0x5401
abbrev opBaseWrite : Nat := 0x5402
abbrev opUnroutable : Nat := 0x1401
abbrev tallyUnroutable : Nat := 0x1402
abbrev memCorrected : Nat := 0x5101
abbrev memUncorrectable : Nat := 0x5102
abbrev memLayoutApplied : Nat := 0x5103
abbrev admitDeferred : Nat := 0x6001
abbrev cacheExhausted : Nat := 0x6002
abbrev revokeForced : Nat := 0x6003
abbrev baseInstalled : Nat := 0x6004
abbrev baseInstallFailed : Nat := 0x6005
abbrev updateSkipped : Nat := 0x4101
abbrev stashConflict : Nat := 0x6101
abbrev jobStarted : Nat := 0x8401
abbrev jobStartRefused : Nat := 0x8402
abbrev jobEnded : Nat := 0x8403
abbrev jobTagMismatch : Nat := 0x8404
abbrev ptInconsistent : Nat := 0x6201
abbrev kvPagesDropped : Nat := 0x6202
abbrev kvExhausted : Nat := 0x6203
abbrev cxlLinkDegraded : Nat := 0x2001
abbrev cxlLinkFailed : Nat := 0x2002
abbrev ringBadEntry : Nat := 0x2003
abbrev ringQuarantined : Nat := 0x2004
abbrev cxlMalformed : Nat := 0x2005
abbrev hostPoisonRead : Nat := 0x2006
abbrev linkUp : Nat := 0x1001
abbrev linkDown : Nat := 0x1002
abbrev linkMismatch : Nat := 0x1003
abbrev linkViolation : Nat := 0x1004
abbrev linkQuarantined : Nat := 0x1005
abbrev routeCommitted : Nat := 0x1006
abbrev routeRefused : Nat := 0x1007
abbrev routeGenMismatch : Nat := 0x1008
abbrev routeDrop : Nat := 0x1009
abbrev remoteError : Nat := 0x100A
abbrev routeLinkDown : Nat := 0x100B
abbrev pressI32Overflow : Nat := 0x4201
abbrev pressQuantSaturated : Nat := 0x4202
abbrev pressCountExceeded : Nat := 0x4203
abbrev tenantAdmitted : Nat := 0x3001
abbrev tenantReleaseBegun : Nat := 0x3002
abbrev tenantReleased : Nat := 0x3003
abbrev matterCreated : Nat := 0x3004
abbrev matterRemoved : Nat := 0x3005
abbrev rotateStarted : Nat := 0x3006
abbrev rotateDone : Nat := 0x3007
abbrev rindTagFail : Nat := 0x3008
abbrev epochDrop : Nat := 0x3009
abbrev sramUnwritten : Nat := 0x300A
abbrev keyingDeferred : Nat := 0x300B
abbrev lmsExhausted : Nat := 0x300C
abbrev deviceLost : Nat := 0x7201
abbrev lossHoldExpired : Nat := 0x7202
abbrev lossApplied : Nat := 0x7203
abbrev lossRefused : Nat := 0x7204
abbrev partnerCopyDone : Nat := 0x7205
abbrev partnerCopyLate : Nat := 0x7206
abbrev partnerWriteRefused : Nat := 0x7207
abbrev statsRebuilt : Nat := 0x7208
abbrev restoreDone : Nat := 0x7209
abbrev jobResumed : Nat := 0x720A
abbrev gppDropped : Nat := 0x8501
abbrev paramsSaved : Nat := 0x8502
abbrev saveFailed : Nat := 0x8503
abbrev paramsLoadFailed : Nat := 0x8504
abbrev paramsDefaulted : Nat := 0x8505
abbrev calWritten : Nat := 0x8506
abbrev thermalThrottle : Nat := 0x8507
abbrev thermalClear : Nat := 0x8508
abbrev haltCleared : Nat := 0x8509
abbrev bootStarted : Nat := 0x8101
abbrev bootComplete : Nat := 0x8102
abbrev bootFailed : Nat := 0x8103
abbrev fwImageInvalid : Nat := 0x8104
abbrev fwRecovered : Nat := 0x8105
abbrev fwUpdateWritten : Nat := 0x8106
abbrev fwUpdateRefused : Nat := 0x8107
abbrev fwFusesAdvanced : Nat := 0x8108
abbrev dieReset : Nat := 0x8109
abbrev resetDuringTenancy : Nat := 0x810A
abbrev powerDown : Nat := 0x810B
abbrev watchdogReset : Nat := 0x8201
abbrev thermalTrip : Nat := 0x8601
abbrev inputUndervoltage : Nat := 0x8602
abbrev inputOvervoltage : Nat := 0x8603
abbrev powerPairLost : Nat := 0x8604
abbrev coolantFlowLow : Nat := 0x8605
abbrev coolantInletHigh : Nat := 0x8606

end Ev

/-- The codes of class FAULT. -/
def codesFault : List Nat := [
  Ev.beatMarkerLost, Ev.beatConfigMismatch, Ev.cxlLinkFailed, Ev.lmsExhausted, Ev.deviceLost, Ev.bootFailed,
  Ev.fwImageInvalid, Ev.thermalTrip, Ev.inputUndervoltage, Ev.inputOvervoltage, Ev.powerPairLost]

/-- The codes of class HALT. -/
def codesHalt : List Nat := [
  Ev.beatOverrunHalt, Ev.beatSkew, Ev.sramUncorrectable, Ev.planStoreUncorrectable, Ev.opRange, Ev.opBaseWrite,
  Ev.opUnroutable, Ev.tallyUnroutable, Ev.memUncorrectable, Ev.stashConflict, Ev.jobTagMismatch, Ev.remoteError,
  Ev.rindTagFail, Ev.sramUnwritten]

/-- The codes of class INFO. -/
def codesInfo : List Nat := [
  Ev.sramCorrected, Ev.planStoreCorrected, Ev.memCorrected, Ev.baseInstalled, Ev.jobStarted, Ev.jobEnded,
  Ev.kvPagesDropped, Ev.linkUp, Ev.routeCommitted, Ev.tenantAdmitted, Ev.tenantReleased, Ev.matterCreated,
  Ev.matterRemoved, Ev.rotateStarted, Ev.rotateDone, Ev.partnerCopyDone, Ev.restoreDone, Ev.jobResumed,
  Ev.paramsSaved, Ev.paramsDefaulted, Ev.thermalClear, Ev.haltCleared, Ev.bootStarted, Ev.bootComplete,
  Ev.fwUpdateWritten, Ev.dieReset, Ev.powerDown]

/-- The class of an event (R486); every code that is in no list is a NOTE. -/
def eventClass (code : Nat) : EvClass :=
  if codesHalt.contains code then .halt
  else if codesFault.contains code then .fault
  else if codesInfo.contains code then .info
  else .note

/-- The code of a class (R486). -/
def EvClass.code : EvClass → Nat
  | .info => 0
  | .note => 1
  | .fault => 2
  | .halt => 3

end Sys2Proof.Machine
end

