-- ==== Sys2Proof/Machine/Params.lean ====
section
/-! DEFINITION. The parameters of the object dictionary as their chapters list them: number, type, access, default
and range. -/

namespace Sys2Proof.Machine

/-- Types of parameter values (R470). -/
inductive PType where
  | bool | u8 | u16 | u32 | u64 | i16 | i32 | q1616 | str32 | blob
  deriving DecidableEq, Repr

/-- Access rights, codes 0 to 5 (R471). -/
inductive Acc where
  | ro | rw | wo | rwi | rwp | const
  deriving DecidableEq, Repr

/-- A parameter: its key (index × 256 + subindex), type, access, the default of a numeric one as raw bits, and the
range of the values that a write may give (the size in bytes of a BLOB). -/
structure Param where
  key : Nat
  type : PType
  acc : Acc
  dflt : Nat
  lo : Int
  hi : Int
  deriving DecidableEq, Repr

/-- The code of a type (R470). -/
def PType.code : PType → Nat
  | .bool => 1 | .u8 => 2 | .u16 => 3 | .u32 => 4 | .u64 => 5
  | .i16 => 6 | .i32 => 7 | .q1616 => 8 | .str32 => 9 | .blob => 10

/-- The size of a value in bytes, 0 for a BLOB (R470). -/
def PType.size : PType → Nat
  | .bool => 1 | .u8 => 1 | .u16 => 2 | .u32 => 4 | .u64 => 8
  | .i16 => 2 | .i32 => 4 | .q1616 => 4 | .str32 => 32 | .blob => 0

/-- The code of an access right (R471). -/
def Acc.code : Acc → Nat
  | .ro => 0 | .rw => 1 | .wo => 2 | .rwi => 3 | .rwp => 4 | .const => 5

/-- Parameters 0x100001 to 0x100018. -/
def dictPart0 : List Param := [
  ⟨0x100001, .str32, .const, 0, 32, 32⟩,
  ⟨0x100002, .str32, .const, 0, 32, 32⟩,
  ⟨0x100003, .str32, .const, 0, 32, 32⟩,
  ⟨0x100004, .u8, .ro, 0, 0, 255⟩,
  ⟨0x100005, .u8, .wo, 0, 1, 2⟩,
  ⟨0x100006, .u8, .ro, 0, 0, 255⟩,
  ⟨0x100007, .u64, .const, 0, 0, 18446744073709551615⟩,
  ⟨0x100008, .u8, .ro, 0, 0, 255⟩,
  ⟨0x100009, .u8, .ro, 0, 0, 255⟩,
  ⟨0x10000A, .u8, .ro, 0, 0, 255⟩,
  ⟨0x10000B, .blob, .rwp, 0, 16, 16⟩,
  ⟨0x10000C, .bool, .ro, 0, 0, 1⟩,
  ⟨0x10000D, .u32, .ro, 0, 0, 4294967295⟩,
  ⟨0x10000E, .u32, .ro, 0, 0, 4294967295⟩,
  ⟨0x100010, .str32, .const, 0, 32, 32⟩,
  ⟨0x100011, .u8, .const, 0, 0, 255⟩,
  ⟨0x100012, .i16, .const, 0, -32768, 32767⟩,
  ⟨0x100013, .i16, .const, 0, -32768, 32767⟩,
  ⟨0x100014, .str32, .const, 0, 32, 32⟩,
  ⟨0x100018, .str32, .const, 0, 32, 32⟩]

/-- Parameters 0x100019 to 0x110001. -/
def dictPart1 : List Param := [
  ⟨0x100019, .u8, .const, 0, 0, 255⟩,
  ⟨0x10001A, .i16, .const, 0, -32768, 32767⟩,
  ⟨0x10001B, .i16, .const, 0, -32768, 32767⟩,
  ⟨0x10001C, .str32, .const, 0, 32, 32⟩,
  ⟨0x100020, .str32, .const, 0, 32, 32⟩,
  ⟨0x100021, .u8, .const, 0, 0, 255⟩,
  ⟨0x100022, .i16, .const, 0, -32768, 32767⟩,
  ⟨0x100023, .i16, .const, 0, -32768, 32767⟩,
  ⟨0x100024, .str32, .const, 0, 32, 32⟩,
  ⟨0x100028, .str32, .const, 0, 32, 32⟩,
  ⟨0x100029, .u8, .const, 0, 0, 255⟩,
  ⟨0x10002A, .i16, .const, 0, -32768, 32767⟩,
  ⟨0x10002B, .i16, .const, 0, -32768, 32767⟩,
  ⟨0x10002C, .str32, .const, 0, 32, 32⟩,
  ⟨0x100030, .str32, .const, 0, 32, 32⟩,
  ⟨0x100031, .u8, .const, 0, 0, 255⟩,
  ⟨0x100032, .i16, .const, 0, -32768, 32767⟩,
  ⟨0x100033, .i16, .const, 0, -32768, 32767⟩,
  ⟨0x100034, .str32, .const, 0, 32, 32⟩,
  ⟨0x110001, .blob, .rwp, 0, 84, 84⟩]

/-- Parameters 0x110002 to 0x12000D. -/
def dictPart2 : List Param := [
  ⟨0x110002, .blob, .rwp, 0, 76, 76⟩,
  ⟨0x110003, .blob, .rwp, 0, 384, 384⟩,
  ⟨0x110004, .blob, .rwp, 0, 32, 32⟩,
  ⟨0x110005, .blob, .rwp, 0, 6144, 6144⟩,
  ⟨0x110006, .blob, .rwp, 0, 2048, 2048⟩,
  ⟨0x110007, .blob, .ro, 0, 0, 4294967295⟩,
  ⟨0x110008, .bool, .ro, 1, 0, 1⟩,
  ⟨0x120001, .u32, .rwi, 65536, 16384, 1048576⟩,
  ⟨0x120002, .u32, .rwi, 1024, 512, 131072⟩,
  ⟨0x120003, .u8, .rwp, 128, 0, 255⟩,
  ⟨0x120004, .u16, .ro, 65535, 0, 65535⟩,
  ⟨0x120005, .u8, .ro, 0, 0, 255⟩,
  ⟨0x120006, .u64, .ro, 0, 0, 18446744073709551615⟩,
  ⟨0x120007, .u64, .ro, 0, 0, 18446744073709551615⟩,
  ⟨0x120008, .u8, .ro, 255, 0, 255⟩,
  ⟨0x120009, .u8, .ro, 0, 0, 255⟩,
  ⟨0x12000A, .u32, .ro, 0, 0, 4294967295⟩,
  ⟨0x12000B, .i16, .ro, 0, -32768, 32767⟩,
  ⟨0x12000C, .u16, .ro, 0, 0, 65535⟩,
  ⟨0x12000D, .u32, .ro, 0, 0, 4294967295⟩]

/-- Parameters 0x12000E to 0x130009. -/
def dictPart3 : List Param := [
  ⟨0x12000E, .u32, .ro, 0, 0, 4294967295⟩,
  ⟨0x12000F, .u32, .ro, 0, 0, 4294967295⟩,
  ⟨0x120010, .u8, .ro, 0, 0, 255⟩,
  ⟨0x120011, .u8, .ro, 0, 0, 255⟩,
  ⟨0x120012, .u8, .rwp, 12, 0, 15⟩,
  ⟨0x120013, .u32, .ro, 0, 0, 4294967295⟩,
  ⟨0x120014, .u64, .ro, 0, 0, 18446744073709551615⟩,
  ⟨0x120015, .u32, .ro, 0, 0, 4294967295⟩,
  ⟨0x120016, .u32, .ro, 0, 0, 4294967295⟩,
  ⟨0x120017, .u32, .ro, 0, 0, 4294967295⟩,
  ⟨0x120018, .u32, .ro, 0, 0, 4294967295⟩,
  ⟨0x130001, .u16, .rw, 2500, 500, 2500⟩,
  ⟨0x130002, .u16, .rwp, 2500, 500, 2500⟩,
  ⟨0x130003, .u16, .ro, 2500, 0, 65535⟩,
  ⟨0x130004, .u8, .rwp, 95, 70, 105⟩,
  ⟨0x130005, .u8, .const, 110, 0, 255⟩,
  ⟨0x130006, .u8, .ro, 0, 0, 255⟩,
  ⟨0x130007, .u32, .ro, 0, 0, 4294967295⟩,
  ⟨0x130008, .q1616, .ro, 0, -2147483648, 2147483647⟩,
  ⟨0x130009, .u16, .ro, 0, 0, 65535⟩]

/-- Parameters 0x13000A to 0x130028. -/
def dictPart4 : List Param := [
  ⟨0x13000A, .u16, .ro, 0, 0, 65535⟩,
  ⟨0x13000B, .u16, .ro, 0, 0, 65535⟩,
  ⟨0x130010, .u16, .ro, 0, 0, 65535⟩,
  ⟨0x130011, .u16, .ro, 0, 0, 65535⟩,
  ⟨0x130012, .u16, .ro, 0, 0, 65535⟩,
  ⟨0x130013, .u16, .ro, 0, 0, 65535⟩,
  ⟨0x130014, .u16, .ro, 0, 0, 65535⟩,
  ⟨0x130015, .u16, .ro, 0, 0, 65535⟩,
  ⟨0x130016, .u16, .ro, 0, 0, 65535⟩,
  ⟨0x130017, .u16, .ro, 0, 0, 65535⟩,
  ⟨0x130018, .u16, .ro, 0, 0, 65535⟩,
  ⟨0x130020, .i16, .ro, 0, -32768, 32767⟩,
  ⟨0x130021, .i16, .ro, 0, -32768, 32767⟩,
  ⟨0x130022, .i16, .ro, 0, -32768, 32767⟩,
  ⟨0x130023, .i16, .ro, 0, -32768, 32767⟩,
  ⟨0x130024, .i16, .ro, 0, -32768, 32767⟩,
  ⟨0x130025, .i16, .ro, 0, -32768, 32767⟩,
  ⟨0x130026, .i16, .ro, 0, -32768, 32767⟩,
  ⟨0x130027, .i16, .ro, 0, -32768, 32767⟩,
  ⟨0x130028, .i16, .ro, 0, -32768, 32767⟩]

/-- Parameters 0x130029 to 0x140017. -/
def dictPart5 : List Param := [
  ⟨0x130029, .i16, .ro, 0, -32768, 32767⟩,
  ⟨0x140001, .u8, .ro, 0, 0, 255⟩,
  ⟨0x140002, .u8, .ro, 0, 0, 255⟩,
  ⟨0x140003, .u8, .rwp, 0, 0, 1⟩,
  ⟨0x140004, .u8, .wo, 0, 1, 2⟩,
  ⟨0x140005, .u8, .wo, 0, 1, 3⟩,
  ⟨0x140006, .u8, .rw, 0, 0, 3⟩,
  ⟨0x140007, .u8, .ro, 0, 0, 255⟩,
  ⟨0x140008, .u8, .ro, 0, 0, 255⟩,
  ⟨0x140009, .blob, .ro, 0, 0, 4294967295⟩,
  ⟨0x14000A, .u32, .ro, 0, 0, 4294967295⟩,
  ⟨0x14000B, .u8, .ro, 255, 0, 255⟩,
  ⟨0x140010, .u8, .wo, 0, 1, 3⟩,
  ⟨0x140011, .u64, .rw, 0, 0, 18446744073709551615⟩,
  ⟨0x140012, .u32, .rw, 0, 2124, 25165824⟩,
  ⟨0x140013, .u8, .ro, 0, 0, 255⟩,
  ⟨0x140014, .u8, .ro, 0, 0, 255⟩,
  ⟨0x140015, .u32, .ro, 0, 0, 4294967295⟩,
  ⟨0x140016, .blob, .ro, 0, 0, 4294967295⟩,
  ⟨0x140017, .u8, .ro, 0, 0, 255⟩]

/-- Parameters 0x140018 to 0x200011. -/
def dictPart6 : List Param := [
  ⟨0x140018, .u8, .ro, 0, 0, 255⟩,
  ⟨0x140019, .u32, .ro, 0, 0, 4294967295⟩,
  ⟨0x14001A, .u32, .ro, 0, 0, 4294967295⟩,
  ⟨0x200001, .u16, .rwi, 65535, 0, 65535⟩,
  ⟨0x200002, .u32, .ro, 0, 0, 4294967295⟩,
  ⟨0x200003, .u32, .rw, 0, 0, 4294967295⟩,
  ⟨0x200004, .u64, .rw, 0, 0, 18446744073709551615⟩,
  ⟨0x200005, .u8, .ro, 0, 0, 255⟩,
  ⟨0x200006, .u32, .ro, 0, 0, 4294967295⟩,
  ⟨0x200007, .blob, .rw, 0, 8192, 8192⟩,
  ⟨0x200008, .blob, .rw, 0, 8192, 8192⟩,
  ⟨0x200009, .blob, .rw, 0, 8192, 8192⟩,
  ⟨0x20000A, .blob, .rw, 0, 8192, 8192⟩,
  ⟨0x20000B, .blob, .ro, 0, 0, 4294967295⟩,
  ⟨0x20000C, .blob, .ro, 0, 0, 4294967295⟩,
  ⟨0x20000D, .blob, .ro, 0, 0, 4294967295⟩,
  ⟨0x20000E, .blob, .ro, 0, 0, 4294967295⟩,
  ⟨0x20000F, .blob, .rw, 0, 32, 32⟩,
  ⟨0x200010, .blob, .ro, 0, 0, 4294967295⟩,
  ⟨0x200011, .u8, .const, 64, 0, 255⟩]

/-- Parameters 0x200012 to 0x220001. -/
def dictPart7 : List Param := [
  ⟨0x200012, .u8, .const, 16, 0, 255⟩,
  ⟨0x200013, .u16, .const, 1024, 0, 65535⟩,
  ⟨0x200014, .u16, .const, 256, 0, 65535⟩,
  ⟨0x200015, .u16, .const, 1024, 0, 65535⟩,
  ⟨0x200016, .u16, .rwp, 64, 1, 4096⟩,
  ⟨0x200017, .u64, .ro, 0, 0, 18446744073709551615⟩,
  ⟨0x210001, .u8, .const, 40, 0, 255⟩,
  ⟨0x210002, .u8, .const, 1, 0, 255⟩,
  ⟨0x210003, .u8, .const, 16, 0, 255⟩,
  ⟨0x210004, .u16, .const, 252, 0, 65535⟩,
  ⟨0x210005, .u32, .const, 65536, 0, 4294967295⟩,
  ⟨0x210006, .u16, .const, 1, 0, 65535⟩,
  ⟨0x210007, .u64, .ro, 0, 0, 18446744073709551615⟩,
  ⟨0x210008, .u64, .ro, 0, 0, 18446744073709551615⟩,
  ⟨0x210009, .u64, .ro, 0, 0, 18446744073709551615⟩,
  ⟨0x21000A, .u64, .ro, 0, 0, 18446744073709551615⟩,
  ⟨0x21000B, .u64, .ro, 0, 0, 18446744073709551615⟩,
  ⟨0x21000C, .u64, .ro, 0, 0, 18446744073709551615⟩,
  ⟨0x21000D, .u64, .ro, 0, 0, 18446744073709551615⟩,
  ⟨0x220001, .u8, .ro, 0, 0, 255⟩]

/-- Parameters 0x220002 to 0x30000B. -/
def dictPart8 : List Param := [
  ⟨0x220002, .u8, .ro, 0, 0, 255⟩,
  ⟨0x220003, .u8, .ro, 0, 0, 255⟩,
  ⟨0x220004, .u64, .ro, 0, 0, 18446744073709551615⟩,
  ⟨0x220005, .u16, .const, 2048, 0, 65535⟩,
  ⟨0x220006, .u16, .rw, 64, 0, 2047⟩,
  ⟨0x220007, .u16, .ro, 0, 0, 65535⟩,
  ⟨0x220008, .u64, .ro, 0, 0, 18446744073709551615⟩,
  ⟨0x220009, .u64, .ro, 0, 0, 18446744073709551615⟩,
  ⟨0x22000A, .u64, .ro, 0, 0, 18446744073709551615⟩,
  ⟨0x300001, .u8, .ro, 0, 0, 255⟩,
  ⟨0x300002, .u16, .ro, 0, 0, 65535⟩,
  ⟨0x300003, .u16, .rwi, 1, 0, 65535⟩,
  ⟨0x300004, .u8, .rwp, 0, 0, 1⟩,
  ⟨0x300005, .u8, .wo, 0, 1, 2⟩,
  ⟨0x300006, .u8, .rw, 0, 0, 1⟩,
  ⟨0x300007, .u64, .rw, 0, 0, 18446744073709551615⟩,
  ⟨0x300008, .u8, .ro, 0, 0, 255⟩,
  ⟨0x300009, .bool, .ro, 0, 0, 1⟩,
  ⟨0x30000A, .bool, .ro, 0, 0, 1⟩,
  ⟨0x30000B, .u32, .ro, 0, 0, 4294967295⟩]

/-- Parameters 0x300010 to 0x300032. -/
def dictPart9 : List Param := [
  ⟨0x300010, .u8, .wo, 0, 1, 3⟩,
  ⟨0x300011, .u32, .rw, 0, 1, 4294967294⟩,
  ⟨0x300012, .u16, .rw, 0, 0, 4095⟩,
  ⟨0x300013, .u8, .ro, 0, 0, 255⟩,
  ⟨0x300014, .u16, .ro, 0, 0, 65535⟩,
  ⟨0x300015, .u16, .ro, 0, 0, 65535⟩,
  ⟨0x300016, .u16, .rw, 0, 0, 4095⟩,
  ⟨0x300017, .u8, .ro, 0, 0, 255⟩,
  ⟨0x300018, .u32, .ro, 0, 0, 4294967295⟩,
  ⟨0x300019, .u8, .ro, 0, 0, 255⟩,
  ⟨0x30001A, .u32, .ro, 0, 0, 4294967295⟩,
  ⟨0x30001B, .u32, .ro, 0, 0, 4294967295⟩,
  ⟨0x30001C, .u32, .ro, 0, 0, 4294967295⟩,
  ⟨0x300020, .u64, .ro, 0, 0, 18446744073709551615⟩,
  ⟨0x300021, .u64, .ro, 0, 0, 18446744073709551615⟩,
  ⟨0x300022, .u32, .ro, 0, 0, 4294967295⟩,
  ⟨0x300023, .u64, .ro, 0, 0, 18446744073709551615⟩,
  ⟨0x300030, .blob, .ro, 0, 0, 4294967295⟩,
  ⟨0x300031, .u32, .ro, 0, 0, 4294967295⟩,
  ⟨0x300032, .u32, .ro, 0, 0, 4294967295⟩]

/-- Parameters 0x400001 to 0x400014. -/
def dictPart10 : List Param := [
  ⟨0x400001, .u16, .ro, 0, 0, 65535⟩,
  ⟨0x400002, .u16, .const, 8192, 0, 65535⟩,
  ⟨0x400003, .u16, .const, 1024, 0, 65535⟩,
  ⟨0x400004, .u16, .ro, 0, 0, 65535⟩,
  ⟨0x400005, .u16, .ro, 0, 0, 65535⟩,
  ⟨0x400006, .u16, .ro, 0, 0, 65535⟩,
  ⟨0x400007, .u16, .rwp, 256, 1, 1024⟩,
  ⟨0x400008, .u16, .const, 4096, 0, 65535⟩,
  ⟨0x400009, .u16, .rwp, 512, 0, 1000⟩,
  ⟨0x40000A, .u16, .rwp, 256, 16, 4096⟩,
  ⟨0x40000B, .u32, .rwi, 16384, 16, 65536⟩,
  ⟨0x40000C, .u8, .rwi, 2, 1, 16⟩,
  ⟨0x40000D, .u32, .ro, 0, 0, 4294967295⟩,
  ⟨0x40000E, .u32, .ro, 0, 0, 4294967295⟩,
  ⟨0x40000F, .u64, .ro, 0, 0, 18446744073709551615⟩,
  ⟨0x400010, .u8, .wo, 0, 1, 4⟩,
  ⟨0x400011, .u64, .rw, 0, 0, 18446744073709551615⟩,
  ⟨0x400012, .u16, .rw, 0, 0, 4095⟩,
  ⟨0x400013, .u8, .ro, 0, 0, 255⟩,
  ⟨0x400014, .blob, .ro, 0, 0, 4294967295⟩]

/-- Parameters 0x400015 to 0x410011. -/
def dictPart11 : List Param := [
  ⟨0x400015, .u16, .ro, 0, 0, 65535⟩,
  ⟨0x400016, .u8, .ro, 0, 0, 255⟩,
  ⟨0x400017, .u32, .const, 65536, 0, 4294967295⟩,
  ⟨0x410001, .u8, .rwi, 0, 0, 128⟩,
  ⟨0x410002, .u8, .rwi, 8, 4, 8⟩,
  ⟨0x410003, .u8, .const, 128, 0, 255⟩,
  ⟨0x410004, .u32, .const, 131072, 0, 4294967295⟩,
  ⟨0x410005, .u32, .rwp, 8192, 1024, 65536⟩,
  ⟨0x410006, .u32, .ro, 0, 0, 4294967295⟩,
  ⟨0x410007, .u32, .ro, 0, 0, 4294967295⟩,
  ⟨0x410008, .u32, .ro, 0, 0, 4294967295⟩,
  ⟨0x410009, .u32, .ro, 0, 0, 4294967295⟩,
  ⟨0x41000A, .u32, .ro, 0, 0, 4294967295⟩,
  ⟨0x41000B, .u32, .ro, 0, 0, 4294967295⟩,
  ⟨0x41000C, .u32, .const, 65536, 0, 4294967295⟩,
  ⟨0x41000D, .u16, .rwp, 64, 0, 4096⟩,
  ⟨0x41000E, .u64, .ro, 0, 0, 18446744073709551615⟩,
  ⟨0x41000F, .u64, .ro, 0, 0, 18446744073709551615⟩,
  ⟨0x410010, .blob, .rwi, 0, 0, 2048⟩,
  ⟨0x410011, .u32, .ro, 0, 0, 4294967295⟩]

/-- Parameters 0x410012 to 0x420014. -/
def dictPart12 : List Param := [
  ⟨0x410012, .u8, .rwi, 0, 0, 3⟩,
  ⟨0x420001, .u8, .wo, 0, 1, 4⟩,
  ⟨0x420002, .u64, .rw, 0, 0, 18446744073709551615⟩,
  ⟨0x420003, .u8, .ro, 0, 0, 255⟩,
  ⟨0x420004, .u8, .ro, 0, 0, 255⟩,
  ⟨0x420005, .u32, .ro, 0, 0, 4294967295⟩,
  ⟨0x420006, .u64, .ro, 0, 0, 18446744073709551615⟩,
  ⟨0x420007, .u64, .ro, 0, 0, 18446744073709551615⟩,
  ⟨0x420008, .u16, .ro, 0, 0, 65535⟩,
  ⟨0x420009, .u64, .ro, 0, 0, 18446744073709551615⟩,
  ⟨0x42000A, .u64, .ro, 0, 0, 18446744073709551615⟩,
  ⟨0x42000B, .u32, .ro, 0, 0, 4294967295⟩,
  ⟨0x42000C, .i16, .const, 12, -32768, 32767⟩,
  ⟨0x42000D, .u16, .const, 1000, 0, 65535⟩,
  ⟨0x42000E, .u32, .ro, 0, 0, 4294967295⟩,
  ⟨0x420010, .u16, .rw, 0, 0, 511⟩,
  ⟨0x420011, .u16, .ro, 0, 0, 65535⟩,
  ⟨0x420012, .i16, .ro, 0, -32768, 32767⟩,
  ⟨0x420013, .u16, .ro, 0, 0, 65535⟩,
  ⟨0x420014, .u32, .ro, 0, 0, 4294967295⟩]

/-- Parameters 0x420015 to 0x430011. -/
def dictPart13 : List Param := [
  ⟨0x420015, .u64, .ro, 0, 0, 18446744073709551615⟩,
  ⟨0x420016, .i16, .ro, 0, -32768, 32767⟩,
  ⟨0x420017, .u8, .ro, 0, 0, 255⟩,
  ⟨0x430001, .u64, .ro, 0, 0, 18446744073709551615⟩,
  ⟨0x430002, .u64, .ro, 0, 0, 18446744073709551615⟩,
  ⟨0x430003, .u64, .ro, 0, 0, 18446744073709551615⟩,
  ⟨0x430004, .u32, .ro, 0, 0, 4294967295⟩,
  ⟨0x430005, .u32, .ro, 0, 0, 4294967295⟩,
  ⟨0x430006, .u32, .ro, 0, 0, 4294967295⟩,
  ⟨0x430007, .u64, .ro, 18446744073709551615, 0, 18446744073709551615⟩,
  ⟨0x430008, .bool, .wo, 0, 0, 1⟩,
  ⟨0x430009, .u8, .const, 64, 0, 255⟩,
  ⟨0x43000A, .u8, .const, 30, 0, 255⟩,
  ⟨0x43000B, .u8, .const, 38, 0, 255⟩,
  ⟨0x43000C, .u32, .const, 65536, 0, 4294967295⟩,
  ⟨0x43000D, .bool, .ro, 0, 0, 1⟩,
  ⟨0x43000E, .u8, .const, 8, 0, 255⟩,
  ⟨0x43000F, .u16, .const, 1, 0, 65535⟩,
  ⟨0x430010, .u64, .ro, 0, 0, 18446744073709551615⟩,
  ⟨0x430011, .u16, .const, 1, 0, 65535⟩]

/-- Parameters 0x500001 to 0x500020. -/
def dictPart14 : List Param := [
  ⟨0x500001, .u32, .const, 532150, 0, 4294967295⟩,
  ⟨0x500002, .u32, .const, 473022, 0, 4294967295⟩,
  ⟨0x500003, .u32, .rwp, 1250000, 0, 4294967295⟩,
  ⟨0x500004, .u16, .rwp, 512, 16, 1024⟩,
  ⟨0x500005, .u32, .rwp, 131072, 0, 4294967295⟩,
  ⟨0x500006, .u32, .rwp, 16384, 0, 4294967295⟩,
  ⟨0x500007, .u16, .rwp, 64, 0, 954⟩,
  ⟨0x500008, .u32, .rwp, 786432, 0, 4294967295⟩,
  ⟨0x500009, .u32, .rwp, 262144, 0, 4294967295⟩,
  ⟨0x50000A, .bool, .ro, 0, 0, 1⟩,
  ⟨0x500010, .u64, .ro, 0, 0, 18446744073709551615⟩,
  ⟨0x500011, .u64, .ro, 0, 0, 18446744073709551615⟩,
  ⟨0x500012, .u64, .ro, 0, 0, 18446744073709551615⟩,
  ⟨0x500013, .u64, .ro, 0, 0, 18446744073709551615⟩,
  ⟨0x500014, .u64, .ro, 0, 0, 18446744073709551615⟩,
  ⟨0x500015, .u64, .ro, 0, 0, 18446744073709551615⟩,
  ⟨0x500016, .u64, .ro, 0, 0, 18446744073709551615⟩,
  ⟨0x500017, .u64, .ro, 0, 0, 18446744073709551615⟩,
  ⟨0x500018, .u64, .ro, 0, 0, 18446744073709551615⟩,
  ⟨0x500020, .u64, .ro, 0, 0, 18446744073709551615⟩]

/-- Parameters 0x500021 to 0x580016. -/
def dictPart15 : List Param := [
  ⟨0x500021, .u32, .ro, 0, 0, 4294967295⟩,
  ⟨0x580001, .u16, .rw, 65535, 0, 65535⟩,
  ⟨0x580002, .u16, .rw, 65535, 0, 65535⟩,
  ⟨0x580003, .u16, .rwp, 1, 1, 65535⟩,
  ⟨0x580004, .bool, .rwp, 0, 0, 1⟩,
  ⟨0x580005, .u8, .ro, 0, 0, 255⟩,
  ⟨0x580006, .u64, .ro, 0, 0, 18446744073709551615⟩,
  ⟨0x580007, .u32, .ro, 0, 0, 4294967295⟩,
  ⟨0x580008, .u32, .ro, 0, 0, 4294967295⟩,
  ⟨0x580009, .u64, .ro, 0, 0, 18446744073709551615⟩,
  ⟨0x58000A, .u64, .ro, 0, 0, 18446744073709551615⟩,
  ⟨0x58000B, .u32, .rwp, 4096, 16, 65536⟩,
  ⟨0x58000C, .u8, .rwp, 1, 0, 16⟩,
  ⟨0x580010, .u16, .rwp, 1024, 16, 16384⟩,
  ⟨0x580011, .u16, .rw, 65535, 0, 65535⟩,
  ⟨0x580012, .u64, .rw, 0, 0, 18446744073709551615⟩,
  ⟨0x580013, .u8, .ro, 0, 0, 255⟩,
  ⟨0x580014, .u8, .wo, 0, 1, 2⟩,
  ⟨0x580015, .u64, .rw, 0, 0, 18446744073709551615⟩,
  ⟨0x580016, .u8, .ro, 0, 0, 255⟩]

/-- Parameters 0x580018 to 0x600017. -/
def dictPart16 : List Param := [
  ⟨0x580018, .u8, .wo, 0, 1, 1⟩,
  ⟨0x580019, .u64, .rw, 0, 0, 18446744073709551615⟩,
  ⟨0x58001A, .u32, .ro, 0, 0, 4294967295⟩,
  ⟨0x58001B, .u8, .wo, 0, 1, 1⟩,
  ⟨0x58001C, .u64, .rw, 0, 0, 18446744073709551615⟩,
  ⟨0x58001D, .bool, .ro, 0, 0, 1⟩,
  ⟨0x58001E, .u64, .ro, 0, 0, 18446744073709551615⟩,
  ⟨0x58001F, .u32, .ro, 0, 0, 4294967295⟩,
  ⟨0x600001, .u16, .const, 1024, 0, 65535⟩,
  ⟨0x600002, .u32, .ro, 0, 0, 4294967295⟩,
  ⟨0x600003, .u32, .ro, 0, 0, 4294967295⟩,
  ⟨0x600004, .u32, .ro, 0, 0, 4294967295⟩,
  ⟨0x600010, .u8, .ro, 0, 0, 255⟩,
  ⟨0x600011, .u8, .ro, 0, 0, 255⟩,
  ⟨0x600012, .u8, .ro, 0, 0, 255⟩,
  ⟨0x600013, .u8, .ro, 0, 0, 255⟩,
  ⟨0x600014, .u8, .ro, 0, 0, 255⟩,
  ⟨0x600015, .u8, .ro, 0, 0, 255⟩,
  ⟨0x600016, .u8, .ro, 0, 0, 255⟩,
  ⟨0x600017, .u8, .ro, 0, 0, 255⟩]

/-- Parameters 0x600018 to 0x700003. -/
def dictPart17 : List Param := [
  ⟨0x600018, .u8, .ro, 0, 0, 255⟩,
  ⟨0x600019, .u8, .ro, 0, 0, 255⟩,
  ⟨0x60001A, .u8, .ro, 0, 0, 255⟩,
  ⟨0x60001B, .u8, .ro, 0, 0, 255⟩,
  ⟨0x60001C, .u8, .ro, 0, 0, 255⟩,
  ⟨0x60001D, .u8, .ro, 0, 0, 255⟩,
  ⟨0x60001E, .u8, .ro, 0, 0, 255⟩,
  ⟨0x60001F, .u8, .ro, 0, 0, 255⟩,
  ⟨0x600020, .u8, .ro, 0, 0, 255⟩,
  ⟨0x600021, .u8, .ro, 0, 0, 255⟩,
  ⟨0x600022, .u8, .ro, 0, 0, 255⟩,
  ⟨0x600023, .u8, .ro, 0, 0, 255⟩,
  ⟨0x600024, .u8, .ro, 0, 0, 255⟩,
  ⟨0x600025, .u8, .ro, 0, 0, 255⟩,
  ⟨0x600026, .u8, .ro, 0, 0, 255⟩,
  ⟨0x600027, .u8, .ro, 0, 0, 255⟩,
  ⟨0x600028, .u8, .ro, 0, 0, 255⟩,
  ⟨0x700001, .u32, .ro, 0, 0, 4294967295⟩,
  ⟨0x700002, .u32, .ro, 0, 0, 4294967295⟩,
  ⟨0x700003, .u32, .ro, 0, 0, 4294967295⟩]

/-- Parameters 0x700005 to 0x70000C. -/
def dictPart18 : List Param := [
  ⟨0x700005, .blob, .ro, 0, 0, 4294967295⟩,
  ⟨0x700006, .u32, .ro, 0, 0, 4294967295⟩,
  ⟨0x700007, .u32, .ro, 0, 0, 4294967295⟩,
  ⟨0x700008, .u32, .ro, 0, 0, 4294967295⟩,
  ⟨0x700009, .u32, .ro, 0, 0, 4294967295⟩,
  ⟨0x70000A, .u8, .rwp, 12, 0, 15⟩,
  ⟨0x70000B, .u32, .wo, 0, 0, 4294967295⟩,
  ⟨0x70000C, .u32, .ro, 4294967295, 0, 4294967295⟩]

/-- Every parameter that is not of one link or one ring. -/
def dictTable : List Param :=
  dictPart0 ++ dictPart1 ++ dictPart2 ++ dictPart3 ++ dictPart4 ++ dictPart5 ++ dictPart6 ++ dictPart7 ++ dictPart8 ++ dictPart9 ++ dictPart10 ++ dictPart11 ++ dictPart12 ++ dictPart13 ++ dictPart14 ++ dictPart15 ++ dictPart16 ++ dictPart17 ++ dictPart18

/-- The parameters 0x2010 + n of a link, by subindex (R389). -/
def linkTable : List Param := [
  ⟨0x1, .u8, .ro, 1, 0, 255⟩,
  ⟨0x2, .u8, .wo, 0, 1, 4⟩,
  ⟨0x3, .u16, .rw, 0, 0, 4095⟩,
  ⟨0x4, .u16, .rw, 0, 0, 4095⟩,
  ⟨0x5, .u16, .ro, 0, 0, 65535⟩,
  ⟨0x6, .u16, .ro, 0, 0, 65535⟩,
  ⟨0x7, .u16, .ro, 65535, 0, 65535⟩,
  ⟨0x8, .u8, .ro, 255, 0, 255⟩,
  ⟨0x9, .u8, .ro, 0, 0, 255⟩,
  ⟨0xA, .str32, .ro, 0, 32, 32⟩,
  ⟨0xB, .u32, .ro, 0, 0, 4294967295⟩,
  ⟨0xC, .u64, .ro, 0, 0, 18446744073709551615⟩,
  ⟨0xD, .u64, .ro, 0, 0, 18446744073709551615⟩,
  ⟨0xE, .u64, .ro, 0, 0, 18446744073709551615⟩,
  ⟨0xF, .u64, .ro, 0, 0, 18446744073709551615⟩,
  ⟨0x10, .u8, .ro, 0, 0, 255⟩,
  ⟨0x11, .u8, .ro, 0, 0, 255⟩]

/-- The parameters 0x2210 + r of a ring, by subindex (R358). -/
def ringTable : List Param := [
  ⟨0x1, .u8, .wo, 0, 1, 2⟩,
  ⟨0x2, .u8, .ro, 0, 0, 255⟩,
  ⟨0x3, .u64, .rw, 0, 0, 18446744073709551615⟩,
  ⟨0x4, .u16, .rw, 256, 16, 4096⟩,
  ⟨0x5, .u64, .rw, 0, 0, 18446744073709551615⟩,
  ⟨0x6, .u16, .rw, 256, 16, 4096⟩,
  ⟨0x7, .u64, .rw, 0, 0, 18446744073709551615⟩,
  ⟨0x8, .u64, .rw, 0, 0, 18446744073709551615⟩,
  ⟨0x9, .u64, .rw, 0, 0, 18446744073709551615⟩,
  ⟨0xA, .u16, .rw, 0, 0, 2047⟩,
  ⟨0xB, .u16, .rw, 1, 1, 4096⟩,
  ⟨0xC, .u16, .rw, 0, 0, 1024⟩,
  ⟨0xD, .u8, .ro, 0, 0, 255⟩]

/-- The entry at a key, if one exists. A ring's RING_VECTOR defaults to its own number (R358). -/
def lookupParam (key : Nat) : Option Param :=
  let i := key / 256
  if 0x2010 ≤ i ∧ i ≤ 0x203F then
    (linkTable.find? (fun p => p.key == key % 256)).map (fun p => { p with key := key })
  else if 0x2210 ≤ i ∧ i ≤ 0x224F then
    (ringTable.find? (fun p => p.key == key % 256)).map
      (fun p => { p with key := key, dflt := if key % 256 == 0x0A then i - 0x2210 else p.dflt })
  else dictTable.find? (fun p => p.key == key)

/-- The default of a numeric parameter. -/
def defaultParam (key : Nat) : Nat := ((lookupParam key).map (·.dflt)).getD 0

/-- Every key that exists, in rising order (for DESCRIBE with NEXT). -/
def allKeys : List Nat :=
  let flat := dictTable.map (·.key)
  let links := (List.range 48).flatMap (fun n => linkTable.map (fun p => (0x2010 + n) * 256 + p.key))
  let rings := (List.range 64).flatMap (fun r => ringTable.map (fun p => (0x2210 + r) * 256 + p.key))
  flat.filter (· < 0x201000) ++ links ++ flat.filter (fun k => 0x201000 ≤ k ∧ k < 0x221000) ++ rings
    ++ flat.filter (0x221000 ≤ ·)

namespace P

/-- BEAT_CYCLES (R55). -/
abbrev beatCycles : Nat := 0x120001
/-- GUARD_CYCLES (R55). -/
abbrev guardCycles : Nat := 0x120002
/-- BEAT_SOURCE_PRIORITY (R55). -/
abbrev beatSourcePriority : Nat := 0x120003
/-- BEAT_SOURCE_ID (R55). -/
abbrev beatSourceId : Nat := 0x120004
/-- BEAT_ROLE (R55). -/
abbrev beatRole : Nat := 0x120005
/-- BEAT_COUNT (R55). -/
abbrev beatCount : Nat := 0x120006
/-- JOB_BEAT (R55). -/
abbrev jobBeat : Nat := 0x120007
/-- BEAT_PARENT_LINK (R55). -/
abbrev beatParentLink : Nat := 0x120008
/-- BEAT_DEPTH (R55). -/
abbrev beatDepth : Nat := 0x120009
/-- BEAT_PATH_LATENCY (R55). -/
abbrev beatPathLatency : Nat := 0x12000A
/-- BEAT_LAST_CORRECTION (R55). -/
abbrev beatLastCorrection : Nat := 0x12000B
/-- BEAT_MAX_CORRECTION (R55). -/
abbrev beatMaxCorrection : Nat := 0x12000C
/-- OVERRUN_COUNT (R55). -/
abbrev overrunCount : Nat := 0x12000D
/-- CATCH_UP_COUNT (R55). -/
abbrev catchUpCount : Nat := 0x12000E
/-- IDLE_BEAT_COUNT (R55). -/
abbrev idleBeatCount : Nat := 0x12000F
/-- IDLE_REQUEST (R55). -/
abbrev idleRequest : Nat := 0x120010
/-- IDLE_GRANTED (R55). -/
abbrev idleGranted : Nat := 0x120011
/-- IDLE_MAX (R55). -/
abbrev idleMax : Nat := 0x120012
/-- CLOSE_STATUS (R55). -/
abbrev closeStatus : Nat := 0x120013
/-- LAST_OVERRUN_BEAT (R55). -/
abbrev lastOverrunBeat : Nat := 0x120014
/-- SLIP_HIGH_CD0 … SLIP_HIGH_CD3 (R55), the first of its row. -/
abbrev slipHigh (i : Nat) : Nat := 0x120015 + i
/-- NUM_NAN_TOTAL (R85). -/
abbrev numNanTotal : Nat := 0x430001
/-- NUM_INF_TOTAL (R85). -/
abbrev numInfTotal : Nat := 0x430002
/-- NUM_OVERFLOW_TOTAL (R85). -/
abbrev numOverflowTotal : Nat := 0x430003
/-- NUM_LAST_NAN (R85). -/
abbrev numLastNan : Nat := 0x430004
/-- NUM_LAST_INF (R85). -/
abbrev numLastInf : Nat := 0x430005
/-- NUM_LAST_OVERFLOW (R85). -/
abbrev numLastOverflow : Nat := 0x430006
/-- NUM_FIRST_NONFINITE_BEAT (R85). -/
abbrev numFirstNonfiniteBeat : Nat := 0x430007
/-- NUM_CLEAR (R85). -/
abbrev numClear : Nat := 0x430008
/-- CHUNK_DEPTH (R109). -/
abbrev chunkDepth : Nat := 0x430009
/-- CHUNK_TRUNC_BITS (R109). -/
abbrev chunkTruncBits : Nat := 0x43000A
/-- CHUNK_ADDER_BITS (R109). -/
abbrev chunkAdderBits : Nat := 0x43000B
/-- A32_SR_THRESHOLD (R109). -/
abbrev a32SrThreshold : Nat := 0x43000C
/-- AUDIT_ACTIVE (R109). -/
abbrev auditActive : Nat := 0x43000D
/-- AUDIT_RATE_DIV (R109). -/
abbrev auditRateDiv : Nat := 0x43000E
/-- AUDIT_GEN_VERSION (R109). -/
abbrev auditGenVersion : Nat := 0x43000F
/-- ACC_OVERFLOW_TOTAL (R109). -/
abbrev accOverflowTotal : Nat := 0x430010
/-- FN_ALG_VERSION (R109). -/
abbrev fnAlgVersion : Nat := 0x430011
/-- HBM_PAGES_PER_STACK (R233). -/
abbrev hbmPagesPerStack : Nat := 0x500001
/-- LPDDR_PAGES_PER_PACKAGE (R233). -/
abbrev lpddrPagesPerPackage : Nat := 0x500002
/-- BASE_PAGES (R233). -/
abbrev basePages : Nat := 0x500003
/-- ADAPTER_SLOT_PAGES (R233). -/
abbrev adapterSlotPages : Nat := 0x500004
/-- CHECKPOINT_PAGES (R233). -/
abbrev checkpointPages : Nat := 0x500005
/-- PRESS_PAGES (R233). -/
abbrev pressPages : Nat := 0x500006
/-- HDM_SIZE (R233). -/
abbrev hdmSize : Nat := 0x500007
/-- ADAPTER_STORE_PAGES (R233). -/
abbrev adapterStorePages : Nat := 0x500008
/-- PARTNER_PAGES (R233). -/
abbrev partnerPages : Nat := 0x500009
/-- LAYOUT_PENDING (R233). -/
abbrev layoutPending : Nat := 0x50000A
/-- REGION_BASE (R233). -/
abbrev regionBase : Nat := 0x500010
/-- REGION_ADAPTER_CACHE (R233). -/
abbrev regionAdapterCache : Nat := 0x500011
/-- REGION_CHECKPOINT (R233). -/
abbrev regionCheckpoint : Nat := 0x500012
/-- REGION_PRESS (R233). -/
abbrev regionPress : Nat := 0x500013
/-- REGION_KV (R233). -/
abbrev regionKv : Nat := 0x500014
/-- REGION_HDM (R233). -/
abbrev regionHdm : Nat := 0x500015
/-- REGION_ADAPTER_STORE (R233). -/
abbrev regionAdapterStore : Nat := 0x500016
/-- REGION_PARTNER (R233). -/
abbrev regionPartner : Nat := 0x500017
/-- REGION_CONTEXT (R233). -/
abbrev regionContext : Nat := 0x500018
/-- MEM_CORRECTED_COUNT (R233). -/
abbrev memCorrectedCount : Nat := 0x500020
/-- MEM_UNCORRECTABLE_COUNT (R233). -/
abbrev memUncorrectableCount : Nat := 0x500021
/-- ADAPTERS_REGISTERED (R263). -/
abbrev adaptersRegistered : Nat := 0x400001
/-- ADAPTERS_MAX (R263). -/
abbrev adaptersMax : Nat := 0x400002
/-- CACHE_SLOTS (R263). -/
abbrev cacheSlots : Nat := 0x400003
/-- CACHE_RESIDENT (R263). -/
abbrev cacheResident : Nat := 0x400004
/-- CACHE_PINNED (R263). -/
abbrev cachePinned : Nat := 0x400005
/-- BUNDLES_DEFINED (R263). -/
abbrev bundlesDefined : Nat := 0x400006
/-- ADMIT_MAX_NEW (R263). -/
abbrev admitMaxNew : Nat := 0x400007
/-- ADMIT_MAX_ROWS (R263). -/
abbrev admitMaxRows : Nat := 0x400008
/-- ADMIT_HOLD_MAX (R263). -/
abbrev admitHoldMax : Nat := 0x400009
/-- ADMIT_REVOKE_MAX_BEATS (R263). -/
abbrev admitRevokeMaxBeats : Nat := 0x40000A
/-- FILL_CHUNK_BLOCKS (R263). -/
abbrev fillChunkBlocks : Nat := 0x40000B
/-- FILL_CHUNKS_PER_BEAT (R263). -/
abbrev fillChunksPerBeat : Nat := 0x40000C
/-- REQUESTS_QUEUED (R263). -/
abbrev requestsQueued : Nat := 0x40000D
/-- REQUESTS_ACTIVE (R263). -/
abbrev requestsActive : Nat := 0x40000E
/-- ROWS_DEFERRED (R263). -/
abbrev rowsDeferred : Nat := 0x40000F
/-- BASE_CMD (R263). -/
abbrev baseCmd : Nat := 0x400010
/-- BASE_ARG_OFFSET (R263). -/
abbrev baseArgOffset : Nat := 0x400011
/-- BASE_ARG_INDEX (R263). -/
abbrev baseArgIndex : Nat := 0x400012
/-- BASE_STATE (R263). -/
abbrev baseState : Nat := 0x400013
/-- BASE_FINGERPRINT (R263). -/
abbrev baseFingerprint : Nat := 0x400014
/-- BASE_SEGMENTS_DONE (R263). -/
abbrev baseSegmentsDone : Nat := 0x400015
/-- BASE_RESULT (R263). -/
abbrev baseResult : Nat := 0x400016
/-- REQUESTS_MAX (R263). -/
abbrev requestsMax : Nat := 0x400017
/-- JOB_CMD (R299). -/
abbrev jobCmd : Nat := 0x420001
/-- JOB_ARG_OFFSET (R299). -/
abbrev jobArgOffset : Nat := 0x420002
/-- JOB_RESULT (R299). -/
abbrev jobResult : Nat := 0x420003
/-- JOB_STATE (R299). -/
abbrev jobState : Nat := 0x420004
/-- JOB_TAG (R299). -/
abbrev jobTag : Nat := 0x420005
/-- JOB_STEP (R299). -/
abbrev jobStep : Nat := 0x420006
/-- PLAN_SET_ID (R299). -/
abbrev planSetId : Nat := 0x420007
/-- TRAIN_COUNT (R299). -/
abbrev trainCount : Nat := 0x420008
/-- UPDATES_APPLIED (R299). -/
abbrev updatesApplied : Nat := 0x420009
/-- UPDATES_SKIPPED (R299). -/
abbrev updatesSkipped : Nat := 0x42000A
/-- STASH_CONFLICTS (R299). -/
abbrev stashConflicts : Nat := 0x42000B
/-- LOSS_SCALE_INIT (R299). -/
abbrev lossScaleInit : Nat := 0x42000C
/-- LOSS_SCALE_GROWTH (R299). -/
abbrev lossScaleGrowth : Nat := 0x42000D
/-- JOB_PREP_BEATS (R299). -/
abbrev jobPrepBeats : Nat := 0x42000E
/-- TRAIN_SEL (R299). -/
abbrev trainSel : Nat := 0x420010
/-- TRAIN_HANDLE (R299). -/
abbrev trainHandle : Nat := 0x420011
/-- TRAIN_LOSS_LOG2 (R299). -/
abbrev trainLossLog2 : Nat := 0x420012
/-- TRAIN_STREAK (R299). -/
abbrev trainStreak : Nat := 0x420013
/-- TRAIN_VERSION (R299). -/
abbrev trainVersion : Nat := 0x420014
/-- TRAIN_STEP_COUNT (R299). -/
abbrev trainStepCount : Nat := 0x420015
/-- TRAIN_GRAD_K (R299). -/
abbrev trainGradK : Nat := 0x420016
/-- TRAIN_LAST_UPDATE (R299). -/
abbrev trainLastUpdate : Nat := 0x420017
/-- KV_LAYERS (R324). -/
abbrev kvLayers : Nat := 0x410001
/-- KV_HEADS (R324). -/
abbrev kvHeads : Nat := 0x410002
/-- KV_HEAD_DIM (R324). -/
abbrev kvHeadDim : Nat := 0x410003
/-- KV_SEQ_MAX (R324). -/
abbrev kvSeqMax : Nat := 0x410004
/-- KV_PTE_PAGES (R324). -/
abbrev kvPtePages : Nat := 0x410005
/-- KV_FRAMES (R324). -/
abbrev kvFrames : Nat := 0x410006
/-- KV_FRAMES_FREE (R324). -/
abbrev kvFramesFree : Nat := 0x410007
/-- KV_FRAMES_RESERVED (R324). -/
abbrev kvFramesReserved : Nat := 0x410008
/-- KV_SEQ_OPEN (R324). -/
abbrev kvSeqOpen : Nat := 0x410009
/-- KV_SEQ_KEPT (R324). -/
abbrev kvSeqKept : Nat := 0x41000A
/-- KV_CONTEXTS (R324). -/
abbrev kvContexts : Nat := 0x41000B
/-- KV_EDITS_PER_BEAT (R324). -/
abbrev kvEditsPerBeat : Nat := 0x41000C
/-- KV_MOVE_PAGES_PER_BEAT (R324). -/
abbrev kvMovePagesPerBeat : Nat := 0x41000D
/-- KV_PAGES_DROPPED (R324). -/
abbrev kvPagesDropped : Nat := 0x41000E
/-- KV_REPREFILL_TOKENS (R324). -/
abbrev kvReprefillTokens : Nat := 0x41000F
/-- KV_SCALE_TABLE (R324). -/
abbrev kvScaleTable : Nat := 0x410010
/-- KV_WALK_FAULTS (R324). -/
abbrev kvWalkFaults : Nat := 0x410011
/-- KV_FORMAT (R324). -/
abbrev kvFormat : Nat := 0x410012
/-- LINK_RATE (R358). -/
abbrev linkRate : Nat := 0x220001
/-- LINK_WIDTH (R358). -/
abbrev linkWidth : Nat := 0x220002
/-- IDE_STATE (R358). -/
abbrev ideState : Nat := 0x220003
/-- HDM_BYTES (R358). -/
abbrev hdmBytes : Nat := 0x220004
/-- MSIX_VECTORS (R358). -/
abbrev msixVectors : Nat := 0x220005
/-- EVENT_VECTOR (R358). -/
abbrev eventVector : Nat := 0x220006
/-- CACHE_LINES_HELD (R358). -/
abbrev cacheLinesHeld : Nat := 0x220007
/-- BAD_ENTRY_COUNT (R358). -/
abbrev badEntryCount : Nat := 0x220008
/-- CXL_MALFORMED_COUNT (R358). -/
abbrev cxlMalformedCount : Nat := 0x220009
/-- RINGS_QUARANTINED (R358). -/
abbrev ringsQuarantined : Nat := 0x22000A
/-- DEVICE_ID (R389). -/
abbrev deviceId : Nat := 0x200001
/-- ROUTE_GEN_ACTIVE (R389). -/
abbrev routeGenActive : Nat := 0x200002
/-- ROUTE_GEN_PENDING (R389). -/
abbrev routeGenPending : Nat := 0x200003
/-- ROUTE_COMMIT_BEAT (R389). -/
abbrev routeCommitBeat : Nat := 0x200004
/-- ROUTE_STATUS (R389). -/
abbrev routeStatus : Nat := 0x200005
/-- ROUTE_REFUSE_DETAIL (R389). -/
abbrev routeRefuseDetail : Nat := 0x200006
/-- ROUTE_PENDING_CD0 … CD3 (R389), the first of its row. -/
abbrev routePending (i : Nat) : Nat := 0x200007 + i
/-- ROUTE_ACTIVE_CD0 … CD3 (R389), the first of its row. -/
abbrev routeActive (i : Nat) : Nat := 0x20000B + i
/-- D2D_ORDER_PENDING (R389). -/
abbrev d2dOrderPending : Nat := 0x20000F
/-- D2D_ORDER_ACTIVE (R389). -/
abbrev d2dOrderActive : Nat := 0x200010
/-- VC_CREDITS (R389). -/
abbrev vcCredits : Nat := 0x200011
/-- RETRY_LIMIT (R389). -/
abbrev retryLimit : Nat := 0x200012
/-- ARB_AGE_LIMIT (R389). -/
abbrev arbAgeLimit : Nat := 0x200013
/-- QUARANTINE_COUNT (R389). -/
abbrev quarantineCount : Nat := 0x200014
/-- QUARANTINE_WINDOW (R389). -/
abbrev quarantineWindow : Nat := 0x200015
/-- HELLO_INTERVAL (R389). -/
abbrev helloInterval : Nat := 0x200016
/-- ROUTE_DROPS (R389). -/
abbrev routeDrops : Nat := 0x200017
/-- PRESS_UNITS (R407). -/
abbrev pressUnits : Nat := 0x210001
/-- PRESS_HBM_CYCLES (R407). -/
abbrev pressHbmCycles : Nat := 0x210002
/-- PRESS_LPDDR_CYCLES (R407). -/
abbrev pressLpddrCycles : Nat := 0x210003
/-- PRESS_PAGE_DATA_BLOCKS (R407). -/
abbrev pressPageDataBlocks : Nat := 0x210004
/-- PRESS_MAX_CONTRIBUTIONS (R407). -/
abbrev pressMaxContributions : Nat := 0x210005
/-- PRESS_QUANT_GEN_VERSION (R407). -/
abbrev pressQuantGenVersion : Nat := 0x210006
/-- PRESS_APPLIED (R407). -/
abbrev pressApplied : Nat := 0x210007
/-- PRESS_BF16_APPLIED (R407). -/
abbrev pressBf16Applied : Nat := 0x210008
/-- PRESS_POISON_WRITTEN (R407). -/
abbrev pressPoisonWritten : Nat := 0x210009
/-- PRESS_I32_OVERFLOWS (R407). -/
abbrev pressI32Overflows : Nat := 0x21000A
/-- PRESS_QUANT_SATURATED (R407). -/
abbrev pressQuantSaturated : Nat := 0x21000B
/-- PRESS_COUNT_EXCEEDED (R407). -/
abbrev pressCountExceeded : Nat := 0x21000C
/-- PRESS_RED_STALL (R407). -/
abbrev pressRedStall : Nat := 0x21000D
/-- TENANT_STATE (R438). -/
abbrev tenantState : Nat := 0x300001
/-- TENANT_EPOCH (R438). -/
abbrev tenantEpoch : Nat := 0x300002
/-- TENANT_EPOCH_NEXT (R438). -/
abbrev tenantEpochNext : Nat := 0x300003
/-- TENANT_MODE (R438). -/
abbrev tenantMode : Nat := 0x300004
/-- TENANT_CMD (R438). -/
abbrev tenantCmd : Nat := 0x300005
/-- TENANT_ARG_MODE (R438). -/
abbrev tenantArgMode : Nat := 0x300006
/-- TENANT_ARG_BEAT (R438). -/
abbrev tenantArgBeat : Nat := 0x300007
/-- TENANT_RESULT (R438). -/
abbrev tenantResult : Nat := 0x300008
/-- SCRUB_RECORDED (R438). -/
abbrev scrubRecorded : Nat := 0x300009
/-- TSP_LOCKED (R438). -/
abbrev tspLocked : Nat := 0x30000A
/-- RELEASE_COUNT (R438). -/
abbrev releaseCount : Nat := 0x30000B
/-- MATTER_CMD (R438). -/
abbrev matterCmd : Nat := 0x300010
/-- MATTER_ARG_ID (R438). -/
abbrev matterArgId : Nat := 0x300011
/-- MATTER_ARG_SLOT (R438). -/
abbrev matterArgSlot : Nat := 0x300012
/-- MATTER_RESULT (R438). -/
abbrev matterResult : Nat := 0x300013
/-- MATTER_RESULT_SLOT (R438). -/
abbrev matterResultSlot : Nat := 0x300014
/-- MATTERS_ACTIVE (R438). -/
abbrev mattersActive : Nat := 0x300015
/-- KEY_SEL (R438). -/
abbrev keySel : Nat := 0x300016
/-- KEY_SLOT_STATE (R438). -/
abbrev keySlotState : Nat := 0x300017
/-- KEY_SLOT_OWNER (R438). -/
abbrev keySlotOwner : Nat := 0x300018
/-- KEY_GEN_CURRENT (R438). -/
abbrev keyGenCurrent : Nat := 0x300019
/-- SWEEP_PAGES_LEFT (R438). -/
abbrev sweepPagesLeft : Nat := 0x30001A
/-- ROTATIONS (R438). -/
abbrev rotations : Nat := 0x30001B
/-- KEYING_PAGES (R438). -/
abbrev keyingPages : Nat := 0x30001C
/-- RIND_TAG_FAILS (R438). -/
abbrev rindTagFails : Nat := 0x300020
/-- EPOCH_DROPS (R438). -/
abbrev epochDrops : Nat := 0x300021
/-- SRAM_UNWRITTEN_READS (R438). -/
abbrev sramUnwrittenReads : Nat := 0x300022
/-- RELEASE_HOST_DROPS (R438). -/
abbrev releaseHostDrops : Nat := 0x300023
/-- IDENTITY_CERT (R438). -/
abbrev identityCert : Nat := 0x300030
/-- LMS_NEXT_LEAF (R438). -/
abbrev lmsNextLeaf : Nat := 0x300031
/-- LMS_LEAF_LIMIT (R438). -/
abbrev lmsLeafLimit : Nat := 0x300032
/-- COPY_PARTNER (R459). -/
abbrev copyPartner : Nat := 0x580001
/-- COPY_HOSTED (R459). -/
abbrev copyHosted : Nat := 0x580002
/-- PARTNER_INTERVAL (R459). -/
abbrev partnerInterval : Nat := 0x580003
/-- ALLOW_SHARED_FEED (R459). -/
abbrev allowSharedFeed : Nat := 0x580004
/-- FEED_ID (R459). -/
abbrev feedId : Nat := 0x580005
/-- PARTNER_LAST_STEP (R459). -/
abbrev partnerLastStep : Nat := 0x580006
/-- PARTNER_COPIES (R459). -/
abbrev partnerCopies : Nat := 0x580007
/-- PARTNER_COPIES_LATE (R459). -/
abbrev partnerCopiesLate : Nat := 0x580008
/-- HOSTED_IMAGE0_STEP (R459). -/
abbrev hostedImage0Step : Nat := 0x580009
/-- HOSTED_IMAGE1_STEP (R459). -/
abbrev hostedImage1Step : Nat := 0x58000A
/-- PARTNER_CHUNK_BLOCKS (R459). -/
abbrev partnerChunkBlocks : Nat := 0x58000B
/-- PARTNER_CHUNKS_PER_BEAT (R459). -/
abbrev partnerChunksPerBeat : Nat := 0x58000C
/-- LOSS_HOLD_BEATS (R459). -/
abbrev lossHoldBeats : Nat := 0x580010
/-- LOSS_DEVICE (R459). -/
abbrev lossDevice : Nat := 0x580011
/-- LOSS_APPLY_BEAT (R459). -/
abbrev lossApplyBeat : Nat := 0x580012
/-- LOSS_STATE (R459). -/
abbrev lossState : Nat := 0x580013
/-- STANDIN_CMD (R459). -/
abbrev standinCmd : Nat := 0x580014
/-- STANDIN_OFFSET (R459). -/
abbrev standinOffset : Nat := 0x580015
/-- STANDIN_STATE (R459). -/
abbrev standinState : Nat := 0x580016
/-- RESTORE_CMD (R459). -/
abbrev restoreCmd : Nat := 0x580018
/-- RESTORE_OFFSET (R459). -/
abbrev restoreOffset : Nat := 0x580019
/-- RESTORE_RESULT (R459). -/
abbrev restoreResult : Nat := 0x58001A
/-- RESUME_CMD (R459). -/
abbrev resumeCmd : Nat := 0x58001B
/-- RESUME_OFFSET (R459). -/
abbrev resumeOffset : Nat := 0x58001C
/-- STORE_TORN (R459). -/
abbrev storeTorn : Nat := 0x58001D
/-- RECOVERY_STEP (R459). -/
abbrev recoveryStep : Nat := 0x58001E
/-- STATS_REBUILT (R459). -/
abbrev statsRebuilt : Nat := 0x58001F
/-- PART_NUMBER (R480). -/
abbrev partNumber : Nat := 0x100001
/-- VENDOR (R480). -/
abbrev vendor : Nat := 0x100002
/-- MODULE_SERIAL (R480). -/
abbrev moduleSerial : Nat := 0x100003
/-- DEVICE_STATE (R480). -/
abbrev deviceState : Nat := 0x100004
/-- DEVICE_CMD (R480). -/
abbrev deviceCmd : Nat := 0x100005
/-- DEVICE_RESULT (R480). -/
abbrev deviceResult : Nat := 0x100006
/-- MAC_ADDRESS (R480). -/
abbrev macAddress : Nat := 0x100007
/-- PLCA_NODE_ID (R480). -/
abbrev plcaNodeId : Nat := 0x100008
/-- SLOT_ID (R480). -/
abbrev slotId : Nat := 0x100009
/-- PLCA_STATUS (R480). -/
abbrev plcaStatus : Nat := 0x10000A
/-- GPP_NOTIFY_ADDR (R480). -/
abbrev gppNotifyAddr : Nat := 0x10000B
/-- PARAMS_UNSAVED (R480). -/
abbrev paramsUnsaved : Nat := 0x10000C
/-- SAVE_COUNT (R480). -/
abbrev saveCount : Nat := 0x10000D
/-- GPP_DROPPED (R480). -/
abbrev gppDropped : Nat := 0x10000E
/-- DIE_LOT_CD0 … DIE_LOT_HD (R480). -/
abbrev dieLot (i : Nat) : Nat := 0x100010 + 8 * i
/-- DIE_WAFER_CD0 … DIE_WAFER_HD (R480). -/
abbrev dieWafer (i : Nat) : Nat := 0x100011 + 8 * i
/-- DIE_X_CD0 … DIE_X_HD (R480). -/
abbrev dieX (i : Nat) : Nat := 0x100012 + 8 * i
/-- DIE_Y_CD0 … DIE_Y_HD (R480). -/
abbrev dieY (i : Nat) : Nat := 0x100013 + 8 * i
/-- DIE_STEPPING_CD0 … DIE_STEPPING_HD (R480). -/
abbrev dieStepping (i : Nat) : Nat := 0x100014 + 8 * i
/-- TEMP_OFFSETS (R482). -/
abbrev tempOffsets : Nat := 0x110001
/-- CURRENT_GAINS (R482). -/
abbrev currentGains : Nat := 0x110002
/-- FABRIC_TX_PRESETS (R482). -/
abbrev fabricTxPresets : Nat := 0x110003
/-- CXL_TX_PRESETS (R482). -/
abbrev cxlTxPresets : Nat := 0x110004
/-- HBM_TRAIN_SEEDS (R482). -/
abbrev hbmTrainSeeds : Nat := 0x110005
/-- LPDDR_TRAIN_SEEDS (R482). -/
abbrev lpddrTrainSeeds : Nat := 0x110006
/-- CAL_ORIGIN (R482). -/
abbrev calOrigin : Nat := 0x110007
/-- CAL_VALID (R482). -/
abbrev calValid : Nat := 0x110008
/-- POWER_CAP (R484). -/
abbrev powerCap : Nat := 0x130001
/-- POWER_CAP_DEFAULT (R484). -/
abbrev powerCapDefault : Nat := 0x130002
/-- POWER_CAP_EFFECTIVE (R484). -/
abbrev powerCapEffective : Nat := 0x130003
/-- THROTTLE_TEMP (R484). -/
abbrev throttleTemp : Nat := 0x130004
/-- TRIP_TEMP (R484). -/
abbrev tripTemp : Nat := 0x130005
/-- THERMAL_STATE (R484). -/
abbrev thermalState : Nat := 0x130006
/-- THROTTLE_COUNT (R484). -/
abbrev throttleCount : Nat := 0x130007
/-- INPUT_VOLTAGE (R484). -/
abbrev inputVoltage : Nat := 0x130008
/-- INPUT_POWER (R484). -/
abbrev inputPower : Nat := 0x130009
/-- POWER_BUSY_AVG (R484). -/
abbrev powerBusyAvg : Nat := 0x13000A
/-- POWER_IDLE_AVG (R484). -/
abbrev powerIdleAvg : Nat := 0x13000B
/-- RAIL_POWER_CD0 … CD3 (R484), the first of its row. -/
abbrev railPower (i : Nat) : Nat := 0x130010 + i
/-- RAIL_POWER_HBM (R484). -/
abbrev railPowerHbm : Nat := 0x130014
/-- RAIL_POWER_LPDDR (R484). -/
abbrev railPowerLpddr : Nat := 0x130015
/-- RAIL_POWER_SERDES (R484). -/
abbrev railPowerSerdes : Nat := 0x130016
/-- RAIL_POWER_HUB (R484). -/
abbrev railPowerHub : Nat := 0x130017
/-- RAIL_POWER_D2D (R484). -/
abbrev railPowerD2d : Nat := 0x130018
/-- TEMP_CD0 … TEMP_CD3 (R484), the first of its row. -/
abbrev temp (i : Nat) : Nat := 0x130020 + i
/-- TEMP_HUB (R484). -/
abbrev tempHub : Nat := 0x130024
/-- TEMP_HBM_MAX (R484). -/
abbrev tempHbmMax : Nat := 0x130025
/-- TEMP_LPDDR_MAX (R484). -/
abbrev tempLpddrMax : Nat := 0x130026
/-- TEMP_COOLANT_IN (R484). -/
abbrev tempCoolantIn : Nat := 0x130027
/-- TEMP_COOLANT_OUT (R484). -/
abbrev tempCoolantOut : Nat := 0x130028
/-- TEMP_REGULATOR_MAX (R484). -/
abbrev tempRegulatorMax : Nat := 0x130029
/-- TELEM_INTERVAL (R485). -/
abbrev telemInterval : Nat := 0x600001
/-- TELEM_SEQ (R485). -/
abbrev telemSeq : Nat := 0x600002
/-- UPTIME (R485). -/
abbrev uptime : Nat := 0x600003
/-- POWER_ON_COUNT (R485). -/
abbrev powerOnCount : Nat := 0x600004
/-- ARRAY_BUSY_CD0 … CD3 (R485), the first of its row. -/
abbrev arrayBusy (i : Nat) : Nat := 0x600010 + i
/-- HBM_UTIL_CD0 … CD3 (R485), the first of its row. -/
abbrev hbmUtil (i : Nat) : Nat := 0x600014 + i
/-- LPDDR_UTIL_CD0 … CD3 (R485), the first of its row. -/
abbrev lpddrUtil (i : Nat) : Nat := 0x600018 + i
/-- FABRIC_TX_CD0 … CD3 (R485), the first of its row. -/
abbrev fabricTx (i : Nat) : Nat := 0x60001C + i
/-- FABRIC_RX_CD0 … CD3 (R485), the first of its row. -/
abbrev fabricRx (i : Nat) : Nat := 0x600020 + i
/-- BEATS_NORMAL (R485). -/
abbrev beatsNormal : Nat := 0x600024
/-- BEATS_IDLE (R485). -/
abbrev beatsIdle : Nat := 0x600025
/-- BEATS_CATCH_UP (R485). -/
abbrev beatsCatchUp : Nat := 0x600026
/-- ROW_FILL (R485). -/
abbrev rowFill : Nat := 0x600027
/-- TELEM_CACHE_PINNED (R485). -/
abbrev telemCachePinned : Nat := 0x600028
/-- EVENT_NEXT_SEQ (R489). -/
abbrev eventNextSeq : Nat := 0x700001
/-- EVENT_OLDEST (R489). -/
abbrev eventOldest : Nat := 0x700002
/-- EVENT_COMMITTED (R489). -/
abbrev eventCommitted : Nat := 0x700003
/-- EVENT_RECORDS (R489). -/
abbrev eventRecords : Nat := 0x700005
/-- EVENT_COUNT_INFO … EVENT_COUNT_HALT (R489), the first of its row. -/
abbrev eventCountInfo (i : Nat) : Nat := 0x700006 + i
/-- ALERT_MASK (R489). -/
abbrev alertMask : Nat := 0x70000A
/-- ALERT_ACK (R489). -/
abbrev alertAck : Nat := 0x70000B
/-- ALERT_PENDING (R489). -/
abbrev alertPending : Nat := 0x70000C
/-- BOOT_STAGE (R516). -/
abbrev bootStage : Nat := 0x140001
/-- BOOT_FAULT (R516). -/
abbrev bootFault : Nat := 0x140002
/-- BOOT_POLICY (R516). -/
abbrev bootPolicy : Nat := 0x140003
/-- POWER_CMD (R516). -/
abbrev powerCmd : Nat := 0x140004
/-- RESET_CMD (R516). -/
abbrev resetCmd : Nat := 0x140005
/-- RESET_ARG_DIE (R516). -/
abbrev resetArgDie : Nat := 0x140006
/-- RESET_CAUSE (R516). -/
abbrev resetCause : Nat := 0x140007
/-- DIE_RESET_STATE (R516). -/
abbrev dieResetState : Nat := 0x140008
/-- DOMAIN_CLOCK_STATUS (R516). -/
abbrev domainClockStatus : Nat := 0x140009
/-- BOOT_TIME_MS (R516). -/
abbrev bootTimeMs : Nat := 0x14000A
/-- BOOT_FAULT_UNIT (R516). -/
abbrev bootFaultUnit : Nat := 0x14000B
/-- FW_CMD (R516). -/
abbrev fwCmd : Nat := 0x140010
/-- FW_ARG_OFFSET (R516). -/
abbrev fwArgOffset : Nat := 0x140011
/-- FW_ARG_BYTES (R516). -/
abbrev fwArgBytes : Nat := 0x140012
/-- FW_RESULT (R516). -/
abbrev fwResult : Nat := 0x140013
/-- FW_STATE (R516). -/
abbrev fwState : Nat := 0x140014
/-- FW_VERSION (R516). -/
abbrev fwVersion : Nat := 0x140015
/-- FW_DIGEST (R516). -/
abbrev fwDigest : Nat := 0x140016
/-- FW_SECURITY_VERSION (R516). -/
abbrev fwSecurityVersion : Nat := 0x140017
/-- FW_FUSE_COUNT (R516). -/
abbrev fwFuseCount : Nat := 0x140018
/-- FW_STAGED_VERSION (R516). -/
abbrev fwStagedVersion : Nat := 0x140019
/-- WATCHDOG_COUNT (R516). -/
abbrev watchdogCount : Nat := 0x14001A
/-- LINK_STATE of link n (R389). -/
abbrev linkState (n : Nat) : Nat := (0x2010 + n) * 256 + 0x1
/-- LINK_CTRL of link n (R389). -/
abbrev linkCtrl (n : Nat) : Nat := (0x2010 + n) * 256 + 0x2
/-- ORDER0_PENDING of link n (R389). -/
abbrev order0Pending (n : Nat) : Nat := (0x2010 + n) * 256 + 0x3
/-- ORDER1_PENDING of link n (R389). -/
abbrev order1Pending (n : Nat) : Nat := (0x2010 + n) * 256 + 0x4
/-- ORDER0_ACTIVE of link n (R389). -/
abbrev order0Active (n : Nat) : Nat := (0x2010 + n) * 256 + 0x5
/-- ORDER1_ACTIVE of link n (R389). -/
abbrev order1Active (n : Nat) : Nat := (0x2010 + n) * 256 + 0x6
/-- PARTNER_ID of link n (R389). -/
abbrev partnerId (n : Nat) : Nat := (0x2010 + n) * 256 + 0x7
/-- PARTNER_LINK of link n (R389). -/
abbrev partnerLink (n : Nat) : Nat := (0x2010 + n) * 256 + 0x8
/-- PARTNER_FEED of link n (R389). -/
abbrev partnerFeed (n : Nat) : Nat := (0x2010 + n) * 256 + 0x9
/-- PARTNER_SERIAL of link n (R389). -/
abbrev partnerSerial (n : Nat) : Nat := (0x2010 + n) * 256 + 0xA
/-- LINK_LATENCY of link n (R389). -/
abbrev linkLatency (n : Nat) : Nat := (0x2010 + n) * 256 + 0xB
/-- FEC_CORRECTED of link n (R389). -/
abbrev fecCorrected (n : Nat) : Nat := (0x2010 + n) * 256 + 0xC
/-- CRC_ERRORS of link n (R389). -/
abbrev crcErrors (n : Nat) : Nat := (0x2010 + n) * 256 + 0xD
/-- RETRIES of link n (R389). -/
abbrev retries (n : Nat) : Nat := (0x2010 + n) * 256 + 0xE
/-- LINK_VIOLATIONS of link n (R389). -/
abbrev linkViolations (n : Nat) : Nat := (0x2010 + n) * 256 + 0xF
/-- LAST_VIOLATION of link n (R389). -/
abbrev lastViolation (n : Nat) : Nat := (0x2010 + n) * 256 + 0x10
/-- LINK_DOWN_CAUSE of link n (R389). -/
abbrev linkDownCause (n : Nat) : Nat := (0x2010 + n) * 256 + 0x11
/-- RING_CTRL of ring r (R358). -/
abbrev ringCtrl (r : Nat) : Nat := (0x2210 + r) * 256 + 0x1
/-- RING_STATE of ring r (R358). -/
abbrev ringState (r : Nat) : Nat := (0x2210 + r) * 256 + 0x2
/-- SQ_BASE of ring r (R358). -/
abbrev sqBase (r : Nat) : Nat := (0x2210 + r) * 256 + 0x3
/-- SQ_SIZE of ring r (R358). -/
abbrev sqSize (r : Nat) : Nat := (0x2210 + r) * 256 + 0x4
/-- CQ_BASE of ring r (R358). -/
abbrev cqBase (r : Nat) : Nat := (0x2210 + r) * 256 + 0x5
/-- CQ_SIZE of ring r (R358). -/
abbrev cqSize (r : Nat) : Nat := (0x2210 + r) * 256 + 0x6
/-- PI_LINE of ring r (R358). -/
abbrev piLine (r : Nat) : Nat := (0x2210 + r) * 256 + 0x7
/-- CQ_CI_LINE of ring r (R358). -/
abbrev cqCiLine (r : Nat) : Nat := (0x2210 + r) * 256 + 0x8
/-- STATUS_LINE of ring r (R358). -/
abbrev statusLine (r : Nat) : Nat := (0x2210 + r) * 256 + 0x9
/-- RING_VECTOR of ring r (R358). -/
abbrev ringVector (r : Nat) : Nat := (0x2210 + r) * 256 + 0xA
/-- RING_MOD_COUNT of ring r (R358). -/
abbrev ringModCount (r : Nat) : Nat := (0x2210 + r) * 256 + 0xB
/-- RING_MOD_BEATS of ring r (R358). -/
abbrev ringModBeats (r : Nat) : Nat := (0x2210 + r) * 256 + 0xC
/-- RING_QUARANTINE_CAUSE of ring r (R358). -/
abbrev ringQuarantineCause (r : Nat) : Nat := (0x2210 + r) * 256 + 0xD

end P

end Sys2Proof.Machine
end

