-- ==== Sys2Proof/Machine/Ops.lean ====
section
/-! DEFINITION. Operations that every family shares: parameters, free values, outputs, the event log, halt requests,
device state and MSI-X. -/

namespace Sys2Proof.Machine

/-- What a meaning answers. -/
abbrev Result := Host.Outcome State Fault Refusal

/-! ## Parameters -/

/-- The stored value of a numeric parameter, or its default (R470, R540). -/
def State.param (s : State) (k : Nat) : Nat := (s.dict.params.find? k).getD (defaultParam k)

/-- Store a numeric parameter. -/
def State.setParam (s : State) (k v : Nat) : State :=
  { s with dict := { s.dict with params := AMap.set (defaultParam k) s.dict.params k v } }

/-- 2 to the width of a parameter in bits.
DESIGN CHOICE, unsafe: log entry 11. -/
def paramModulus (k : Nat) : Nat := ((lookupParam k).map (fun p => 2 ^ (8 * p.type.size))).getD 1

/-- Add to a counter parameter, modulo its width.
DESIGN CHOICE, unsafe: log entry 11. -/
def State.bump (s : State) (k n : Nat) : State := s.setParam k ((s.param k + n) % paramModulus k)

/-- A parameter as a two's complement number of w bits. -/
def State.paramInt (s : State) (k w : Nat) : Int := (BitVec.ofNat w (s.param k)).toInt

/-- The raw bits of a signed number of w bits. -/
def rawInt (w : Nat) (v : Int) : Nat := (BitVec.ofInt w v).toNat

/-- Bytes padded or cut to a length. -/
def fitted (n : Nat) (bs : List Byte) : List Byte := (bs ++ List.replicate n 0).take n

/-- Bytes held to the size and the encoding of a calibration entry (R481, R482): gains from 0.5 to 2.0, presets P0 to P10. -/
def calFit (sub : Nat) (bs : List Byte) : List Byte :=
  match sub with
  | 1 => fitted 84 bs
  | 2 => (List.range 19).flatMap (fun i => leBytes 4 (max 32768 (min 131072 (fieldLE bs (4 * i) 4))))
  | 3 => fitted 384 bs
  | 4 => (List.range 16).flatMap (fun i => leBytes 2 (min 10 (fieldLE bs (2 * i) 2)))
  | 5 => fitted 6144 bs
  | _ => fitted 2048 bs

/-- A fused number of a die, held to its range: the wafer from 1 to 25, the column and the row from −128 to 127 (R480).
DESIGN CHOICE, safe: log entry 127. -/
def dieNumber (sub : Nat) : Nat :=
  let v := Config.fusedValue 0x1000 sub
  if sub % 8 = 1 then 1 + v % 25 else rawInt 16 ((v % 256 : Nat) - 128 : Int)

/-- One of the 62 letters and digits. -/
def alphanumeric (v : Nat) : Byte :=
  BitVec.ofNat 8 (if v % 62 < 10 then 48 + v % 62 else if v % 62 < 36 then 55 + v % 62 else 61 + v % 62)

/-- The lot of a die: 7 alphanumerics (R480).
DESIGN CHOICE, safe: log entry 127. -/
def dieLotBytes (sub : Nat) : List Byte :=
  (List.range 7).map (fun i => alphanumeric (fieldLE (Config.fusedBytes 0x1000 sub) i 1))

/-- The default of a BLOB or STR32 parameter that a write may change (R389, R480, R482).
DESIGN CHOICE, safe: log entry 127. -/
def defaultBlob (k : Nat) : List Byte :=
  if k = P.gppNotifyAddr then
    [0xFF, 0x02, 0, 0, 0, 0, 0, 0, 0, 0, 0, 0, 0, 0, 0, 1]
  else if P.tempOffsets ≤ k ∧ k ≤ P.lpddrTrainSeeds then calFit (k % 256) (Config.factoryCalibration (k % 256))
  else if P.routePending 0 ≤ k ∧ k ≤ P.routeActive 3 then List.replicate 8192 0
  else if k = P.d2dOrderPending ∨ k = P.d2dOrderActive then List.replicate 32 0
  else if k = P.calOrigin then List.replicate 39 0
  else []

/-- The stored value of a BLOB or STR32 parameter, or its default. -/
def State.blob (s : State) (k : Nat) : List Byte := (s.dict.blobs.find? k).getD (defaultBlob k)

/-- Store a BLOB or STR32 parameter. -/
def State.setBlob (s : State) (k : Nat) (v : List Byte) : State :=
  { s with dict := { s.dict with blobs := AMap.set (defaultBlob k) s.dict.blobs k v } }

/-! ## Free values and outputs -/

/-- The next free value, 64 bits that nothing constrains.
DESIGN CHOICE, safe: log entry 6. -/
def State.freeWord (s : State) : BitVec 64 := Config.freeValue s.free

/-- The state after a free value has been drawn.
DESIGN CHOICE, safe: log entry 6. -/
def State.drawn (s : State) : State := { s with free := s.free + 1 }

/-- Send something to the outside.
DESIGN CHOICE, safe: log entry 146. -/
def State.emit (s : State) (o : Output) : State := { s with out := s.out ++ [o] }

/-- Send several things in order. -/
def State.emits (s : State) (os : List Output) : State := { s with out := s.out ++ os }

/-! ## Front ends and links -/

/-- The front end of a die. -/
def State.front (s : State) (d : DieId) : FrontEnd := s.fe.get d

/-- Replace the front end of a die. -/
def State.setFront (s : State) (d : DieId) (f : FrontEnd) : State := { s with fe := s.fe.set d f }

/-- Change the front end of a die. -/
def State.modFront (s : State) (d : DieId) (f : FrontEnd → FrontEnd) : State := s.setFront d (f (s.front d))

/-- The link record of link n. -/
def State.link (s : State) (n : Nat) : Link := s.fab.links.getD n {}

/-- Replace the record of link n. -/
def State.setLink (s : State) (n : Nat) (l : Link) : State :=
  { s with fab := { s.fab with links := AMap.set {} s.fab.links n l } }

/-- The record of a ring. -/
def State.ring (s : State) (r : Nat) : Ring := s.host.rings.getD r {}

/-- Replace the record of a ring. -/
def State.setRing (s : State) (r : Nat) (x : Ring) : State :=
  { s with host := { s.host with rings := AMap.set {} s.host.rings r x } }

/-! ## MSI-X (R356) -/

/-- Signal an MSI-X vector: send its message, or set its pending bit while it is masked. -/
def State.signal (s : State) (v : Nat) : State :=
  if s.host.maskedVectors.getD v true then
    { s with host := { s.host with pendingVectors := AMap.set false s.host.pendingVectors v true } }
  else s.emit (.msix v)

/-- Signal EVENT_VECTOR; in OFF the port has no power (R473). -/
def State.signalEvent (s : State) : State :=
  if s.boot.dev = .off then s else s.signal (s.param P.eventVector)

/-- Enter a device state; a change of state signals EVENT_VECTOR (R356, R474). -/
def State.setDev (s : State) (d : DevState) : State :=
  if s.boot.dev = d then s else State.signalEvent { s with boot := { s.boot with dev := d } }

/-! ## The event log (R486 to R488) -/

/-- A detail of an event: fields of given sizes in bytes, in order, then zeros up to 14 bytes (R487). -/
def detail (fields : List (Nat × Nat)) : List Byte :=
  ((fields.flatMap (fun (f : Nat × Nat) => leBytes f.1 f.2)) ++ List.replicate 14 0).take 14

/-- The source code of the hub (R486). -/
abbrev hubSource : Nat := 4

/-- The 32 bytes of a record (R486). -/
def EventRec.bytes (r : EventRec) : List Byte :=
  leBytes 8 r.beat ++ leBytes 4 r.seq ++ leBytes 2 r.powerOn ++ leBytes 2 r.code
    ++ leBytes 1 r.cls.code ++ leBytes 1 r.source ++ r.detail

/-- A record's byte offset in EVENT_RECORDS (R489). -/
def recordOffset (seq : Nat) : Nat := 32 * (seq % 2 ^ 27)

/-- The NOTIFY message of a record (R465, R488); its SEQ is stated nowhere and is a free value.
DESIGN CHOICE, safe: log entry 48. -/
def notifyBytes (seq : W32) (r : EventRec) : List Byte :=
  leBytes 1 1 ++ leBytes 1 0x10 ++ leBytes 1 0 ++ leBytes 1 0 ++ leBytes 4 seq.toNat ++ leBytes 2 0x7000
    ++ leBytes 1 5 ++ leBytes 1 10 ++ leBytes 4 (recordOffset r.seq) ++ leBytes 4 0 ++ leBytes 2 32
    ++ leBytes 1 0 ++ leBytes 1 0 ++ r.bytes

/-- Append a record, keeping the 16,384 newest (R488). -/
def keepRecords (l : List EventRec) (r : EventRec) : List EventRec :=
  (l ++ [r]).drop ((l.length + 1) - 16384)

/-- The next record for an event. -/
def State.record (s : State) (code source : Nat) (d : List Byte) : EventRec :=
  { beat := s.beat.count, seq := s.log.nextSeq, powerOn := s.param P.powerOnCount % 65536, code := code,
    cls := eventClass code, source := source, detail := d }

/-- The UDP port of GPP (R462, R488). -/
abbrev gppPort : Nat := 47125

/-- Write a record into the log under the next number: count its class, drive MOD_ALERT_N low and send NOTIFY to GPP_NOTIFY_ADDR
when the class alerts, and signal EVENT_VECTOR for a FAULT or HALT record (R356, R488).
DESIGN CHOICE, safe: log entry 48. -/
def State.logRecord (s : State) (x : EventRec) : State :=
  let r := { x with seq := s.log.nextSeq }
  let s1 := { s with log := { s.log with records := keepRecords s.log.records r,
                                         nextSeq := (s.log.nextSeq + 1) % 2 ^ 32 } }
  let s2 := s1.bump (P.eventCountInfo r.cls.code) 1
  let s3 := if (s2.param P.alertMask).testBit r.cls.code then
      ({ s2 with log := { s2.log with alerted := s2.log.alerted ++ [r.seq], alertLow := true } }.emit
        (.notify (s2.blob P.gppNotifyAddr) gppPort (notifyBytes (s2.freeWord.truncate 32) r))).drawn
    else s2
  if r.cls = .fault ∨ r.cls = .halt then s3.signalEvent else s3

/-- Log an event as it is raised (R486 to R488). -/
def State.log' (s : State) (code source : Nat) (d : List Byte) : State := s.logRecord (s.record code source d)

/-- Log an event of the hub with detail fields. -/
def State.event (s : State) (code : Nat) (fields : List (Nat × Nat)) : State := s.log' code hubSource (detail fields)

/-- Log an event of a compute die with detail fields. -/
def State.dieEvent (s : State) (d : DieId) (code : Nat) (fields : List (Nat × Nat)) : State :=
  s.log' code d.val (detail fields)

/-- A count that a record's detail holds in 4 bytes saturates (R487). -/
def sat32 (n : Nat) : Nat := min n (2 ^ 32 - 1)

/-- The key under which a rate-limited event is counted.
DEDUCED, unsafe: log entry 12. -/
def limitKey (code sub : Nat) : Nat := code * 2 ^ 40 + sub

/-- 1,024 beats have passed since boundary b.
DEDUCED, unsafe: log entry 12. -/
def limitPassed (b now : Nat) : Bool := decide (b + 1024 ≤ now)

/-- The next occurrence under a key is logged.
DEDUCED, unsafe: log entry 12. -/
def State.limitOpen (s : State) (code sub : Nat) : Bool :=
  (s.host.limited.find? (limitKey code sub)).all (fun (x : Nat × Nat) => limitPassed x.1 s.beat.count)

/-- An event that is logged at most once per 1,024 beats, under a key of its own: the first occurrence logs at once
and later ones are counted until 1,024 beats have passed. `fields` gets the count since the last such
event.
DEDUCED, unsafe: log entry 12. -/
def State.limited (s : State) (code source sub n : Nat) (fields : Nat → List (Nat × Nat)) : State :=
  let k := limitKey code sub
  match s.host.limited.find? k with
  | some (b, c) =>
    if limitPassed b s.beat.count then
      State.log' { s with host := { s.host with limited := s.host.limited.insert k (s.beat.count, 0) } } code source
        (detail (fields (sat32 (c + n))))
    else { s with host := { s.host with limited := s.host.limited.insert k (b, c + n) } }
  | none =>
    State.log' { s with host := { s.host with limited := s.host.limited.insert k (s.beat.count, 0) } } code source
      (detail (fields (sat32 n)))

/-! ## The running job -/

/-- JOB_TAG of the job that START accepted, 0 while there is none (R272, R299). -/
def State.runningTag (s : State) : Nat := (s.job.desc.map (·.jobTag)).getD 0

/-! ## Halt requests (R41, R536) -/

/-- The job is RUNNING or STOPPING (R27). -/
def State.jobActive (s : State) : Bool := s.job.phase = .running || s.job.phase = .stopping

/-- A job is present. -/
def State.jobPresent (s : State) : Bool :=
  match s.job.phase with
  | .none | .loaded => false
  | _ => true

/-- A die sets HALT_REQ; the request is held only while a job is RUNNING or STOPPING (R536). -/
def State.requestHalt (s : State) (d : DieId) : State :=
  if s.jobActive then s.modFront d (fun f => { f with haltReq := true }) else s

/-- The device as a whole sets HALT_REQ: every die holds it.
DEDUCED, safe: log entry 13. -/
def State.requestHaltAll (s : State) : State := allDies.foldl State.requestHalt s

/-- Some die holds a halt request. -/
def State.haltHeld (s : State) : Bool := s.fe.toList.any (·.haltReq)

/-! ## Arithmetic shared by several families -/

/-- Round up to a multiple. -/
def roundUp (n m : Nat) : Nat := (n + m - 1) / m * m

/-- Quotient rounded up. -/
def ceilDiv (n m : Nat) : Nat := (n + m - 1) / m

/-- The lowest number below `n` for which `used` fails (the lowest free index of a table). -/
def lowestFree (n : Nat) (used : Nat → Bool) : Option Nat := (List.range n).find? (fun i => !used i)

/-- The lowest key that a map with rising keys does not list, below a bound. -/
def firstGap {α : Type} (bound : Nat) : Nat → AMap α → Option Nat
  | next, [] => if next < bound then some next else none
  | next, (k, _) :: m => if next < k then (if next < bound then some next else none) else firstGap bound (k + 1) m

/-- A whole message of bytes as text of 7-bit characters. -/
def asciiBytes (t : String) : List Byte := t.toList.map (fun c => BitVec.ofNat 8 c.toNat)

/-- A STR32 value (R470). -/
def str32 (t : String) : List Byte := (asciiBytes t ++ List.replicate 32 0).take 32

end Sys2Proof.Machine
end

