-- ==== Sys2Proof/Machine/Memory.lean ====
section
/-! DEFINITION. Memory tiers, regions, page attributes, keying and the reads and writes of every byte memory (chapters
"Memory Tiers and Explicit Copies" and "Tenants, Keys and Memory Protection"). -/

namespace Sys2Proof.Machine

/-! ## Keys of the byte memories -/

/-- Key of a cell SRAM byte. -/
def sramKey (d : DieId) (c a : Nat) : Nat := d.val * 2 ^ 28 + c * 2 ^ 22 + a
/-- Key of a byte of a tier space. -/
def extKey (d : DieId) (b : Nat) : Nat := d.val * 2 ^ 38 + b
/-- Key of a plan-store byte. -/
def planKey (d : DieId) (b : Nat) : Nat := d.val * 2 ^ 23 + b
/-- Key of a byte of accumulator memory. -/
def accKey (d : DieId) (c arr b : Nat) : Nat := ((d.val * 64 + c) * 2 + arr) * 2 ^ 17 + b
/-- Key of an SRAM line's valid bit. -/
def lineKey (d : DieId) (c line : Nat) : Nat := d.val * 2 ^ 21 + c * 2 ^ 15 + line

/-! ## Tiers and regions (R207 to R211) -/

/-- Usable pages of a tier space of one die (R207): HBM, or LPDDR. -/
def tierPages (lp : Bool) : Nat := if lp then 1892088 else 3192900

/-- Controllers of a tier on one die (R208). -/
def tierControllers (lp : Bool) : Nat := if lp then 4 else 6

/-- The Press or Rind controller number of a page: 0 to 5 HBM, 6 to 9 LPDDR (R208). -/
def controllerOf (lp : Bool) (page : Nat) : Nat := if lp then 6 + page % 4 else page % 6

/-- The index of a controller on its tier, as event details carry it (R11): HBM stacks 0 to 5, LPDDR packages 0 to 3. -/
def localCtrl (c : Nat) : Nat := if c < 6 then c else c - 6

/-- The frame number of a page (R209). -/
def frameOf (lp : Bool) (d : DieId) (page : Nat) : Nat :=
  (if lp then 2 ^ 31 else 0) + d.val * 2 ^ 29 + page

/-- The tier bit of a frame number. -/
def frameLp (f : Nat) : Bool := f.testBit 31
/-- The page of a frame number. -/
def framePage (f : Nat) : Nat := f % 2 ^ 22

/-- The die that two bits name. -/
def dieOf (n : Nat) : DieId := ⟨n % 4, Nat.mod_lt n (by decide)⟩

/-- The die of a frame number. -/
def frameDie (f : Nat) : DieId := dieOf (f / 2 ^ 29)

/-- The regions of the two tiers, in order (R211). -/
inductive Region where
  | base | cache | checkpoint | press | kv | hdm | store | partner | context
  deriving DecidableEq, Repr

/-- The values of a layout as the dictionary holds them, in the order of `layoutOf`. -/
def State.layoutWanted (s : State) : List Nat :=
  (List.range 7).map (fun i => s.param (P.basePages + i)) ++ [s.param P.kvPtePages]

/-- A layout parameter in force: BASE, slot, CHECKPOINT, PRESS, HDM, STORE, PARTNER in the order 0 to 6 (R212), and
KV_PTE_PAGES (R309, R324). -/
def State.layoutOf (s : State) (i : Nat) : Nat := s.dict.layout.getD i 0

/-- A region lies in LPDDR. -/
def Region.isLp : Region → Bool
  | .hdm | .store | .partner | .context => true
  | _ => false

/-- Pages per die of a region of a layout (R211). -/
def regionPagesOf (l : List Nat) : Region → Nat
  | .base => l.getD 0 0
  | .cache => 1024 * l.getD 1 0
  | .checkpoint => l.getD 2 0
  | .press => l.getD 3 0
  | .kv => 3192900 - (l.getD 0 0 + 1024 * l.getD 1 0 + l.getD 2 0 + l.getD 3 0)
  | .hdm => 1024 * l.getD 4 0
  | .store => l.getD 5 0
  | .partner => l.getD 6 0
  | .context => 1892088 - (1024 * l.getD 4 0 + l.getD 5 0 + l.getD 6 0)

/-- First page of a region of a layout (R211). -/
def regionFirstOf (l : List Nat) : Region → Nat
  | .base => 0
  | .cache => l.getD 0 0
  | .checkpoint => l.getD 0 0 + 1024 * l.getD 1 0
  | .press => l.getD 0 0 + 1024 * l.getD 1 0 + l.getD 2 0
  | .kv => l.getD 0 0 + 1024 * l.getD 1 0 + l.getD 2 0 + l.getD 3 0
  | .hdm => 0
  | .store => 1024 * l.getD 4 0
  | .partner => 1024 * l.getD 4 0 + l.getD 5 0
  | .context => 1024 * l.getD 4 0 + l.getD 5 0 + l.getD 6 0

/-- Pages per die of a region in force. -/
def State.regionPages (s : State) (r : Region) : Nat := regionPagesOf s.dict.layout r
/-- First page of a region in force. -/
def State.regionFirst (s : State) (r : Region) : Nat := regionFirstOf s.dict.layout r

/-- A page of a tier space lies in a region. -/
def State.inRegion (s : State) (r : Region) (lp : Bool) (page : Nat) : Bool :=
  lp == r.isLp && decide (s.regionFirst r ≤ page) && decide (page < s.regionFirst r + s.regionPages r)

/-! ## The host window (R229) -/

/-- Bytes of the window. -/
def State.windowBytes (s : State) : Nat := s.layoutOf 4 * 2 ^ 28

/-- The die of a window offset. -/
def windowDie (o : Nat) : DieId := dieOf (o / 2 ^ 16)

/-- The LPDDR byte of a window offset on its die. -/
def windowByte (o : Nat) : Nat := o / 2 ^ 18 * 65536 + o % 65536

/-- The block of a window offset. -/
def windowBlock (o : Nat) : Nat := windowByte o / 256

/-- The memory key of a window offset. -/
def windowKey (o : Nat) : Nat := extKey (windowDie o) (windowByte o)

/-- The window offset of a byte of the HDM region of a die. -/
def windowOffset (d : DieId) (b : Nat) : Nat := b / 65536 * 2 ^ 18 + d.val * 2 ^ 16 + b % 65536

/-- A range of the window exists. -/
def State.inWindow (s : State) (o n : Nat) : Bool := decide (o + n ≤ s.windowBytes)

/-- Bytes of the window. -/
def State.windowRead (s : State) (o : Nat) : Nat → List Byte
  | 0 => []
  | n + 1 => s.mem.lpddr.read (windowKey o) :: State.windowRead s (o + 1) n

/-! ## Byte memories of one die -/

/-- The byte memory of a tier. -/
def State.tier (s : State) (lp : Bool) : Memory := if lp then s.mem.lpddr else s.mem.hbm

/-- Replace the byte memory of a tier. -/
def State.setTier (s : State) (lp : Bool) (m : Memory) : State :=
  if lp then { s with mem := { s.mem with lpddr := m } } else { s with mem := { s.mem with hbm := m } }

/-- Bytes of a tier space.
DESIGN CHOICE, unsafe: log entry 7. -/
def State.extRead (s : State) (lp : Bool) (d : DieId) (b n : Nat) : List Byte :=
  (s.tier lp).readBytes (extKey d b) n

/-! ## Keys and attributes (R213, R412, R420 to R424) -/

/-- The record of a key slot; an unlisted slot is FREE. -/
def State.keySlot (s : State) (n : Nat) : KeySlot := s.rind.slots.getD n ⟨.free, 0, 0, []⟩

/-- Replace the record of a key slot. -/
def State.setKeySlot (s : State) (n : Nat) (k : KeySlot) : State :=
  { s with rind := { s.rind with slots := AMap.set ⟨.free, 0, 0, []⟩ s.rind.slots n k } }

/-- A key slot holds keys of a generation.
DESIGN CHOICE, unsafe: log entry 8. -/
def State.hasKey (s : State) (slot gen : Nat) : Bool := (s.keySlot slot).keys.any (fun k => k.gen == gen)

/-- The attribute of a page (R213). -/
def State.attr (s : State) (frame : Nat) : W16 := s.rind.attrs.getD frame s.rind.attrDefault

/-- An attribute word (R213). -/
def attrWord (slot gen : Nat) : W16 := BitVec.ofNat 16 (slot * 16 + gen % 8 * 2)

/-- The key slot of an attribute. -/
def attrSlot (a : W16) : Nat := a.toNat / 16
/-- The generation of an attribute. -/
def attrGen (a : W16) : Nat := a.toNat / 2 % 8

/-- The keying or sweep entry of a page. -/
def State.keyingOf (s : State) (frame : Nat) : Option KeyingEntry :=
  s.rind.keying.find? (fun e => e.frame == frame)

/-- Pages in the keying list of the controller of a page (R420). -/
def State.keyingCount (s : State) (frame : Nat) : Nat :=
  (s.rind.keying.filter (fun e => frameLp e.frame == frameLp frame && frameDie e.frame == frameDie frame
    && controllerOf (frameLp e.frame) (framePage e.frame) == controllerOf (frameLp frame) (framePage frame))).length

/-- Drop the physical faults of a range of blocks, which a fresh write repairs (R225, R418). -/
def MemState.clearBlocks (m : MemState) (frame first n : Nat) : MemState :=
  let f := fun (x : AMap Bool) => x.filter (fun p => decide (p.1 < frame * 256 + first ∨ frame * 256 + first + n ≤ p.1))
  { m with memDouble := f m.memDouble, memSingle := f m.memSingle, tagBad := f m.tagBad }

/-- Drop every byte of a page. -/
def State.clearPage (s : State) (frame : Nat) : State :=
  let lp := frameLp frame
  let s1 := s.setTier lp ((s.tier lp).clearRange (extKey (frameDie frame) (framePage frame * 65536)) 65536)
  { s1 with mem := s1.mem.clearBlocks frame 0 256 }

/-- Set a page's attribute other than through a sweep: the page enters its engine's keying list and its blocks read as
zeros until they are written (R420). -/
def State.keyPage (s : State) (frame slot gen : Nat) : State :=
  let s1 := s.clearPage frame
  { s1 with rind := { s1.rind with attrs := AMap.set s1.rind.attrDefault s1.rind.attrs frame (attrWord slot gen),
                                   keying := s1.rind.keying.filter (fun e => e.frame != frame)
                                              ++ [⟨frame, 0, none⟩] } }

/-- Key consecutive pages of a tier of a die. -/
def State.keyRange (s : State) (lp : Bool) (d : DieId) (first slot gen : Nat) : Nat → State
  | 0 => s
  | n + 1 => (s.keyPage (frameOf lp d first) slot gen).keyRange lp d (first + 1) slot gen n

/-- The current generation of a slot. -/
def State.genOf (s : State) (slot : Nat) : Nat := (s.keySlot slot).gen

/-- Key consecutive pages on every die under the current generation of a slot. -/
def State.keyAllDies (s : State) (lp : Bool) (first n slot : Nat) : State :=
  allDies.foldl (fun t d => t.keyRange lp d first slot (t.genOf slot) n) s

/-- Why a block's read fails: 1 TAG, 2 KEY_ABSENT (R424); none when it passes. A block of a keyed page that nothing has
written yet reads as zeros and is not checked (R420).
DESIGN CHOICE, unsafe: log entry 8. -/
def State.blockFail (s : State) (frame block : Nat) : Option Nat :=
  let a := s.attr frame
  let tag := fun (_ : Unit) => if s.mem.tagBad.getD (frame * 256 + block) false then some 1 else none
  match s.keyingOf frame with
  | some e =>
    match e.sweepOld with
    | none => if e.doneBits.getLsbD block then (if s.hasKey (attrSlot a) (attrGen a) then tag () else some 2) else none
    | some g =>
      let gen := if e.doneBits.getLsbD block then s.genOf (attrSlot a) else g
      if s.hasKey (attrSlot a) gen then tag () else some 2
  | none => if s.hasKey (attrSlot a) (attrGen a) then tag () else some 2

/-- The engine of a frame: die × 10 + controller (R208, R213). -/
def engineOf (frame : Nat) : Nat := (frameDie frame).val * 10 + controllerOf (frameLp frame) (framePage frame)

/-- Pages in an engine's keying list. -/
def State.engineLoad (s : State) (e : Nat) : Nat := s.rind.keying.countP (fun k => engineOf k.frame == e)

/-- A frame is a page of slot and generation that no sweep entry holds. -/
def State.unswept (s : State) (slot gen frame : Nat) : Bool :=
  s.attr frame == attrWord slot gen && !(s.rind.keying.any (fun e => e.frame == frame))

/-- The first unswept page of an engine among `n` pages from page p on, in steps of the controllers of its tier. -/
def State.scanSweep (s : State) (slot gen : Nat) (lp : Bool) (d : DieId) : Nat → Nat → Option Nat
  | 0, _ => none
  | n + 1, p =>
    if tierPages lp ≤ p then none
    else if s.unswept slot gen (frameOf lp d p) then some (frameOf lp d p)
    else s.scanSweep slot gen lp d n (p + tierControllers lp)

/-- The next page that an engine takes into a sweep, in ascending page order: among the listed pages when the attribute of an
unlisted page is another. -/
def State.nextSweep (s : State) (slot gen e : Nat) : Option Nat :=
  let lp := decide (6 ≤ e % 10)
  let d := dieOf (e / 10)
  let first := if lp then e % 10 - 6 else e % 10
  if s.rind.attrDefault = attrWord slot gen then
    s.scanSweep slot gen lp d (tierPages lp / tierControllers lp + 1) first
  else
    (List.find? (fun (p : Nat × W16) => engineOf p.1 == e && s.unswept slot gen p.1) s.rind.attrs).map
      (fun (p : Nat × W16) => p.1)

/-- A sweep pauses on a die in reset, and on one whose reset waits for its lists (R507). -/
def State.sweepPaused (s : State) (d : DieId) : Bool := (s.front d).inReset || s.boot.dieWaits.contains d

/-- An engine takes up to n further pages of a sweep, unless it pauses or its list is full (R420, R422). -/
def State.takeSweep (s : State) (slot gen e : Nat) : Nat → State
  | 0 => s
  | n + 1 =>
    match (if s.sweepPaused (dieOf (e / 10)) || decide (4096 ≤ s.engineLoad e) then none else s.nextSweep slot gen e) with
    | some f =>
      State.takeSweep { s with rind := { s.rind with keying := s.rind.keying ++ [⟨f, 0, some gen⟩] } } slot gen e n
    | none => s

/-- Every engine that has fewer than 16 pages of a sweep listed takes more (R422). -/
def State.fillSweeps (s : State) (e : Nat) : State :=
  s.rind.sweeps.foldl (fun (t : State) (w : Sweep) =>
    t.takeSweep w.slot w.oldGen e
      (16 - t.rind.keying.countP (fun (x : KeyingEntry) =>
        engineOf x.frame == e && x.sweepOld.isSome && attrSlot (t.attr x.frame) == w.slot))) s

/-- Every block of a keyed page has been written, the last ones by its engine, and the page leaves the list (R420); a sweep may take it
then (R422). -/
def State.keyedPage (s : State) (frame : Nat) : State :=
  let s1 := { s with rind := { s.rind with keying := s.rind.keying.filter (fun e => e.frame != frame || e.sweepOld.isSome) } }
  if s.rind.sweeps.isEmpty then s1 else s1.fillSweeps (engineOf frame)

/-- A page has been swept: it takes its slot's new generation and leaves the list, and its engine takes the next (R422). -/
def State.leaveSweep (s : State) (frame old : Nat) : State :=
  let slot := attrSlot (s.attr frame)
  let bumpSweep := fun (w : Sweep) => if w.slot = slot then { w with swept := w.swept + 1 } else w
  let s1 := { s with rind := { s.rind with
    attrs := AMap.set s.rind.attrDefault s.rind.attrs frame (attrWord slot (s.genOf slot)),
    keying := s.rind.keying.filter (fun x => x.frame != frame),
    sweeps := s.rind.sweeps.map bumpSweep } }
  if s1.rind.sweeps.any (fun w => w.slot == slot && w.oldGen == old) then s1.takeSweep slot old (engineOf frame) 1 else s1

/-- Mark a block of a keyed or swept page as written under the new attribute; a page whose 256 blocks have all been written leaves
the list (R420, R422).
DEDUCED, safe: log entry 145. -/
def State.markDone (s : State) (frame block : Nat) : State :=
  match s.keyingOf frame with
  | none => s
  | some e =>
    let bits := e.doneBits ||| (1#256 <<< block)
    let s1 := { s with rind := { s.rind with keying := s.rind.keying.map (fun x =>
      if x.frame = frame then { x with doneBits := bits } else x) } }
    if bits = BitVec.allOnes 256 then
      match e.sweepOld with
      | none => s1.keyedPage frame
      | some old => s1.leaveSweep frame old
    else s1

/-- Write bytes of one block of a tier space, with a fresh tag.
DEDUCED, safe: log entry 145. -/
def State.extWriteBlock (s : State) (lp : Bool) (d : DieId) (b : Nat) (bytes : List Byte) : State :=
  let frame := frameOf lp d (b / 65536)
  let block := b / 256 % 256
  let s1 := s.setTier lp ((s.tier lp).writeBytes (extKey d b) bytes)
  State.markDone { s1 with mem := s1.mem.clearBlocks frame block 1 } frame block

/-- Write bytes of a tier space, block by block; `fuel` bounds the number of blocks. -/
def State.extWrite (s : State) (lp : Bool) (d : DieId) (b : Nat) (bytes : List Byte) : Nat → State
  | 0 => s
  | fuel + 1 =>
    match bytes with
    | [] => s
    | _ =>
      let n := 256 - b % 256
      (s.extWriteBlock lp d b (bytes.take n)).extWrite lp d (b + n) (bytes.drop n) fuel

/-- Write bytes of a tier space.
DEDUCED, safe: log entry 145. -/
def State.extPut (s : State) (lp : Bool) (d : DieId) (b : Nat) (bytes : List Byte) : State :=
  s.extWrite lp d b bytes (bytes.length / 256 + 2)

/-- Write bytes of the window. -/
def State.windowWrite (s : State) (o : Nat) (bytes : List Byte) : Nat → State
  | 0 => s
  | fuel + 1 =>
    match bytes with
    | [] => s
    | _ =>
      let n := 256 - o % 256
      (s.extWriteBlock true (windowDie o) (windowByte o) (bytes.take n)).windowWrite (o + n) (bytes.drop n) fuel

/-- Write bytes of the window. -/
def State.windowPut (s : State) (o : Nat) (bytes : List Byte) : State :=
  s.windowWrite o bytes (bytes.length / 256 + 2)

/-! ## Cell SRAM (R117, R121, R431) -/

/-- The end of cell SRAM. -/
abbrev sramEnd : Nat := 0x300000

/-- Bytes of a cell's SRAM.
DESIGN CHOICE, unsafe: log entry 7. -/
def State.sramRead (s : State) (d : DieId) (c a n : Nat) : List Byte := s.mem.sram.readBytes (sramKey d c a) n

/-- Set a line's valid bit; a line whose bit was clear is zeroed first (R431). -/
def MemState.touchLine (m : MemState) (d : DieId) (c line : Nat) : MemState :=
  if m.sramValid.getD (lineKey d c line) false then m
  else { m with sram := m.sram.clearRange (sramKey d c (line * 128)) 128,
                sramValid := AMap.set false m.sramValid (lineKey d c line) true }

/-- Touch consecutive lines. -/
def MemState.touchLines (m : MemState) (d : DieId) (c line : Nat) : Nat → MemState
  | 0 => m
  | n + 1 => (m.touchLine d c line).touchLines d c (line + 1) n

/-- The lines that n bytes at an address lie in. -/
def lineCount (a n : Nat) : Nat := if n = 0 then 0 else (a + n - 1) / 128 - a / 128 + 1

/-- Write bytes of a cell's SRAM; a word that is written in whole or in part holds no error afterwards (R121).
DESIGN CHOICE, unsafe: log entry 178. -/
def State.sramWrite (s : State) (d : DieId) (c a : Nat) (bytes : List Byte) : State :=
  let m := s.mem.touchLines d c (a / 128) (lineCount a bytes.length)
  let clr := fun (x : AMap Bool) => x.filter (fun p =>
    decide (p.1 * 8 < sramKey d c a / 8 * 8 ∨ sramKey d c a + bytes.length ≤ p.1 * 8))
  { s with mem := { m with sram := m.sram.writeBytes (sramKey d c a) bytes,
                           sramDouble := clr m.sramDouble, sramSingle := clr m.sramSingle } }

/-- The first line of a range whose valid bit is clear, as its address. -/
def State.firstUnwritten (s : State) (d : DieId) (c a n : Nat) : Option Nat :=
  ((List.range (lineCount a n)).find? (fun i => !s.mem.sramValid.getD (lineKey d c (a / 128 + i)) false)).map
    (fun i => (a / 128 + i) * 128)

/-- The first 64-bit word of a range with a double-bit error, as its address (words are keyed by sramKey ÷ 8). -/
def State.firstDouble (s : State) (d : DieId) (c a n : Nat) : Option Nat :=
  (List.find? (fun (p : Nat × Bool) =>
    decide (sramKey d c a / 8 ≤ p.1 ∧ p.1 * 8 < sramKey d c a + n)) s.mem.sramDouble).map
      (fun (p : Nat × Bool) => p.1 * 8 % 2 ^ 22)

/-- Words of a range with a corrected error. -/
def State.singlesIn (s : State) (d : DieId) (c a n : Nat) : Nat :=
  (s.mem.sramSingle.filter (fun (p : Nat × Bool) =>
    decide (sramKey d c a / 8 ≤ p.1 ∧ p.1 * 8 < sramKey d c a + n))).length

/-- Correct the single-bit errors of a range: counted, logged by the die at most once per 1,024 beats, and written back (R121). -/
def State.correctSram (s : State) (d : DieId) (c a n : Nat) : State :=
  let k := s.singlesIn d c a n
  if k = 0 then s
  else
    let s1 := { s with mem := { s.mem with sramSingle := s.mem.sramSingle.filter (fun (p : Nat × Bool) =>
      decide (¬ (sramKey d c a / 8 ≤ p.1 ∧ p.1 * 8 < sramKey d c a + n))) } }
    s1.limited Ev.sramCorrected d.val d.val k (fun n => [(1, c), (4, n)])

end Sys2Proof.Machine
end

