-- ==== Sys2Proof/Machine/Keys.lean ====
section
/-! DEFINITION. The key vault and the Rind engines: drawing and zeroising keys, the ciphertext and tag of a block, keying
lists, sweeps, and the matter commands as they are written (R412 to R423). -/

namespace Sys2Proof.Machine

/-! ## Keys (R412, R413) -/

/-- A 256-bit key from four words of the vault's generator.
DESIGN CHOICE, safe: log entry 9. -/
def drawnKey (n : Nat) : BitVec 256 :=
  Config.freeKeyWord n ++ Config.freeKeyWord (n + 1) ++ Config.freeKeyWord (n + 2) ++ Config.freeKeyWord (n + 3)

/-- The keys of a generation, drawn from word n of the generator on.
DESIGN CHOICE, safe: log entry 9. -/
def drawnKeys (n gen : Nat) : KeySet := ⟨gen, drawnKey n, drawnKey (n + 4), drawnKey (n + 8)⟩

/-- The vault has drawn the keys of one generation.
DESIGN CHOICE, safe: log entry 9. -/
def State.vaultDrawn (s : State) : State := { s with rind := { s.rind with drawn := s.rind.drawn + 12 } }

/-- A free slot. -/
def KeySlot.free : KeySlot := ⟨.free, 0, 0, []⟩

/-- Pages that still carry a slot and a generation whose keys are drawn anew: their blocks were written under other keys and fail
their tags until they are written again (R416, R419). -/
def State.outdate (s : State) (slot gen : Nat) : State :=
  let pages := AMap.keys (s.rind.attrs.filter (fun (p : Nat × W16) => p.2 == attrWord slot gen && (s.keyingOf p.1).isNone))
  { s with mem := { s.mem with tagBad := pages.foldl (fun (m : AMap Bool) f =>
      (List.range 256).foldl (fun (x : AMap Bool) b => AMap.set false x (f * 256 + b) true) m) s.mem.tagBad } }

/-- Give a slot an owner at generation 0 with new keys (R415). -/
def State.openSlot (s : State) (n owner : Nat) : State :=
  State.vaultDrawn ((s.outdate n 0).setKeySlot n ⟨.active, owner, 0, [drawnKeys s.rind.drawn 0]⟩)

/-- Zeroise every key of every slot (R428 step 4). -/
def State.zeroise (s : State) : State := { s with rind := { s.rind with slots := [], sweeps := [] } }

/-- The slot that the vault holds for a matter (R415). -/
def State.matterSlot (s : State) (m : Nat) : Option Nat :=
  (List.find? (fun (p : Nat × KeySlot) => decide (2 ≤ p.1) && p.2.owner == m && p.2.state != .free) s.rind.slots).map
    (fun (p : Nat × KeySlot) => p.1)

/-- The slot of a matter whose slot is not being removed (R416). -/
def State.liveMatterSlot (s : State) (m : Nat) : Option Nat :=
  (s.matterSlot m).filter (fun n => (s.keySlot n).state != .removing)

/-- The matter that owns a slot. -/
def State.slotMatter (s : State) (n : Nat) : Nat := (s.keySlot n).owner

/-- The lowest free slot from 2 upward (R415). -/
def State.freeSlot (s : State) : Option Nat :=
  (List.range 4094).find? (fun i => (s.keySlot (i + 2)).state == .free) |>.map (· + 2)

/-! ## What Rind writes to memory (R417, R418) -/

/-- The keys under which a block is stored. -/
def State.blockKeys (s : State) (frame block : Nat) : Option KeySet :=
  let a := s.attr frame
  let gen := match s.keyingOf frame with
    | some ⟨_, done, some old⟩ => if done.getLsbD block then s.genOf (attrSlot a) else old
    | _ => attrGen a
  (s.keySlot (attrSlot a)).keys.find? (fun k => k.gen == gen)

/-- The tweak of a block (R417). -/
def rindTweak (frame block gen : Nat) : Nat := frame + block * 2 ^ 32 + gen * 2 ^ 40

/-- The ciphertext of a block's plaintext (R417). -/
def rindCipher (k : KeySet) (frame block : Nat) (plain : List Byte) : List Byte :=
  xtsEncrypt (leBytes 32 k.xts1.toNat) (leBytes 32 k.xts2.toNat) (rindTweak frame block k.gen) plain

/-- The tag of a block's ciphertext (R418). -/
def rindTag (k : KeySet) (frame block : Nat) (cipher : List Byte) : List Byte :=
  (cmac (leBytes 32 k.cmac.toNat)
    (cipher ++ leBytes 4 frame ++ leBytes 1 block ++ leBytes 1 k.gen ++ [0, 0])).take 8

/-- The ciphertext and the tag that memory holds for a block, none when its key is absent.
DESIGN CHOICE, unsafe: log entry 8. -/
def State.stored (s : State) (frame block : Nat) : Option (List Byte × List Byte) :=
  (s.blockKeys frame block).map (fun k =>
    let c := rindCipher k frame block
      (s.extRead (frameLp frame) (frameDie frame) (framePage frame * 65536 + block * 256) 256)
    (c, rindTag k frame block c))

/-! ## Keying lists (R420) -/

/-- Pages that an action would key, with those already due at the next boundary, per engine. -/
def State.engineDue (s : State) (frames : List Nat) (e : Nat) : Nat :=
  frames.countP (fun f => engineOf f == e) + s.adm.rekeys.countP (fun (x : Nat × Nat) => engineOf x.1 == e)

/-- The engine whose list would overflow if the frames were keyed at the next boundary.
DEDUCED, unsafe: log entry 144. -/
def State.engineFull (s : State) (frames : List Nat) : Option Nat :=
  (List.range 40).find? (fun e => frames.any (fun f => engineOf f == e) &&
    decide (4096 < s.engineLoad e + s.engineDue frames e))

/-- An attribute change waits for the next boundary (R420).
DEDUCED, unsafe: log entry 144. -/
def State.keyingDeferred (s : State) (e : Nat) : State :=
  s.log' Ev.keyingDeferred (e / 10) (detail [(1, localCtrl (e % 10))])

/-- Queue attribute changes for the next boundary. -/
def State.rekey (s : State) (frames : List Nat) (slot : Nat) : State :=
  { s with adm := { s.adm with rekeys := s.adm.rekeys ++ frames.map (fun f => (f, slot)) } }

/-- The attribute changes of a boundary take effect (R214, R420). While a die is in reset they are held (R506). -/
def State.applyRekeys (s : State) : State :=
  if s.fe.toList.any (·.inReset) then s
  else
  s.adm.rekeys.foldl (fun (t : State) (x : Nat × Nat) => t.keyPage x.1 x.2 (t.genOf x.2))
    { s with adm := { s.adm with rekeys := [] } }

/-- Key a page that the hub writes whole in the same action: no block of it waits, so it is in no list.
DEDUCED, safe: log entry 141. -/
def State.keyWhole (s : State) (frame slot : Nat) : State :=
  let s1 := s.clearPage frame
  { s1 with rind := { s1.rind with
      attrs := AMap.set s1.rind.attrDefault s1.rind.attrs frame (attrWord slot (s1.genOf slot)),
      keying := s1.rind.keying.filter (fun e => e.frame != frame) } }

/-- Key consecutive whole pages of a tier of a die.
DEDUCED, safe: log entry 141. -/
def State.keyWholeRange (s : State) (lp : Bool) (d : DieId) (first slot : Nat) : Nat → State
  | 0 => s
  | n + 1 => (s.keyWhole (frameOf lp d first) slot).keyWholeRange lp d (first + 1) slot n

/-! ## Rotation (R421 to R423) -/

/-- Every engine takes its first 16 pages (R422). -/
def State.beginSweep (s : State) (slot gen : Nat) : State :=
  (List.range 40).foldl (fun (t : State) e => t.takeSweep slot gen e 16)
    { s with rind := { s.rind with sweeps := s.rind.sweeps ++ [⟨slot, gen, 0⟩] } }

/-- The blocks of a page that a sweep cannot read: each is logged with cause SWEEP and keeps failing (R424).
DEDUCED, unsafe: log entry 54. -/
def State.sweepFails (s : State) (frame : Nat) (e : KeyingEntry) : State :=
  (List.range 256).foldl (fun (t : State) b =>
    if !e.doneBits.getLsbD b && s.mem.tagBad.getD (frame * 256 + b) false then
      (t.bump P.rindTagFails 1).dieEvent (frameDie frame) Ev.rindTagFail [(4, frame), (1, b), (1, 3), (2, 0), (2, 0)]
    else t) s

/-- A page has been swept: it takes its slot's new generation and leaves the list, and its engine takes the next (R422).
DEDUCED, unsafe: log entry 54. -/
def State.sweptPage (s : State) (frame : Nat) (e : KeyingEntry) (old : Nat) : State :=
  (s.sweepFails frame e).leaveSweep frame old

/-- A page is done by a sweep, if one has it listed (R422). -/
def State.sweepDone (s : State) (frame : Nat) : State :=
  match s.keyingOf frame with
  | some ⟨f, b, some old⟩ => s.sweptPage frame ⟨f, b, some old⟩ old
  | _ => s

/-- Pages of a slot that still carry a generation, listed or not. -/
def State.pagesLeft (s : State) (slot gen : Nat) : Nat :=
  let listed := s.rind.attrs.countP (fun (p : Nat × W16) => p.2 == attrWord slot gen)
  if s.rind.attrDefault = attrWord slot gen then
    listed + 4 * (tierPages false + tierPages true) - s.rind.attrs.length
  else listed

/-- The sweep of a slot. -/
def State.sweepOf (s : State) (slot : Nat) : Option Sweep := s.rind.sweeps.find? (fun w => w.slot == slot)

/-- ROTATE_DONE (R423): once no page is left the old generation's keys are zeroised and the slot is ACTIVE again. The event names
the generation that is gone.
DEDUCED, unsafe: log entry 191. -/
def execRotateDone (slot : Nat) (s : State) : Result :=
  match s.sweepOf slot with
  | some w =>
    if s.pagesLeft slot w.oldGen = 0 then
      let k := s.keySlot slot
      let s1 := s.setKeySlot slot { k with state := if k.state = .rotating then .active else k.state,
                                           keys := k.keys.filter (fun x => x.gen != w.oldGen) }
      let s2 := { s1 with rind := { s1.rind with sweeps := s1.rind.sweeps.filter (fun x => x.slot != slot) } }
      .next ((s2.bump P.rotations 1).event Ev.rotateDone [(2, slot), (1, w.oldGen), (4, w.swept)])
    else .next s
  | none => .next s

/-- Apply ROTATE to a slot (R421): its result code. -/
def State.rotateSlot (s : State) (slot : Nat) : State × Nat :=
  let k := s.keySlot slot
  match k.state with
  | .rotating => (s, 4)
  | .free | .removing => (s, 5)
  | .active =>
    let g := (k.gen + 1) % 8
    let s1 := State.vaultDrawn ((s.outdate slot g).setKeySlot slot
      ⟨.rotating, k.owner, g, drawnKeys s.rind.drawn g :: k.keys.filter (fun x => x.gen == k.gen)⟩)
    ((s1.beginSweep slot k.gen).event Ev.rotateStarted [(2, slot), (1, g)], 0)

/-! ## Matter commands as written (R414) -/

/-- A matter command waits to be applied. -/
def State.matterPending (s : State) : Bool :=
  s.adm.matterWritten.isSome || s.adm.matterTaken.isSome || s.adm.matterDue.isSome

/-- A CREATE or REMOVE outside IDs 1 to 0xFFFF_FFFE is refused with the range error (R414). -/
def matterRange : MatterCmd → Bool
  | .create id | .remove id => id != 0 && id != 0xFFFF_FFFF
  | .rotate slot => decide (slot ≤ 4095)

/-- Why a write of MATTER_CMD is refused: 6 STATE, 8 RANGE (R414, R467). -/
def State.matterRefused (s : State) (c : MatterCmd) : Option Nat :=
  if s.ten.phase ≠ .bound ∨ s.matterPending then some 6
  else if matterRange c then none else some 8

/-- A write of MATTER_CMD is accepted and waits for the next snapshot. -/
def State.writeMatter (s : State) (c : MatterCmd) : State :=
  if (s.matterRefused c).isSome then s else { s with adm := { s.adm with matterWritten := some c } }

/-- CREATE (R414, R415). -/
def execCreate (id : W32) (s : State) : Result := .next (s.writeMatter (.create id))

/-- REMOVE (R414, R416). -/
def execRemove (id : W32) (s : State) : Result := .next (s.writeMatter (.remove id))

/-- ROTATE (R414, R421). -/
def execRotate (slot : Nat) (s : State) : Result := .next (s.writeMatter (.rotate slot))

end Sys2Proof.Machine
end

