-- ==== Sys2Proof/Machine/Num.lean ====
section
/-! DEFINITION. Exact numbers, the stored formats, rounding, block scales, chunks and promotion (chapters "Number
Formats, Block Scales and Rounding" and "Accumulation, Totals and Audit Replay"). -/

namespace Sys2Proof.Machine

/-! ## Formats -/

/-- Bits of an element (R58, R59, R171). -/
def fmtWidth : Fmt → Nat
  | .fp16 => 16 | .bf16 => 16 | .e5m2 => 8 | .e4m3 => 8 | .e3m2 => 6 | .e2m3 => 6 | .e2m1 => 4
  | .int8 => 8 | .int4 => 4 | .u16l => 16 | .f32 => 32

/-- Exponent bits of a floating-point format (R58). -/
def fmtExpBits : Fmt → Nat
  | .fp16 => 5 | .bf16 => 8 | .e5m2 => 5 | .e4m3 => 4 | .e3m2 => 3 | .e2m3 => 2 | .e2m1 => 2
  | .f32 => 8 | .int8 => 0 | .int4 => 0 | .u16l => 0

/-- Mantissa bits of a floating-point format (R58). -/
def fmtManBits : Fmt → Nat
  | .fp16 => 10 | .bf16 => 7 | .e5m2 => 2 | .e4m3 => 3 | .e3m2 => 2 | .e2m3 => 3 | .e2m1 => 1
  | .f32 => 23 | .int8 => 0 | .int4 => 0 | .u16l => 0

/-- Exponent bias (R58). -/
def fmtBias : Fmt → Nat
  | .fp16 => 15 | .bf16 => 127 | .e5m2 => 15 | .e4m3 => 7 | .e3m2 => 3 | .e2m3 => 1 | .e2m1 => 1
  | .f32 => 127 | .int8 => 0 | .int4 => 0 | .u16l => 0

/-- The format is block-scaled (R171). -/
def fmtBlocked : Fmt → Bool
  | .e5m2 | .e4m3 | .e3m2 | .e2m3 | .e2m1 | .int8 | .int4 => true
  | .fp16 | .bf16 | .u16l | .f32 => false

/-- The format is an integer one (R59). -/
def fmtInt : Fmt → Bool
  | .int8 | .int4 => true
  | _ => false

/-- Largest exponent field and mantissa that encode a finite value: (m, e) with largest finite = m × 2^e (R58). For
INT8 and INT4 the positive limit. -/
def fmtMax : Fmt → Nat × Int
  | .fp16 => (2047, 5) | .bf16 => (255, 120) | .e5m2 => (7, 13) | .e4m3 => (14, 5) | .e3m2 => (7, 2)
  | .e2m3 => (15, -1) | .e2m1 => (3, 1) | .f32 => (16777215, 104) | .int8 => (127, 0) | .int4 => (7, 0)
  | .u16l => (0, 0)

/-- The format holds infinities (R58). -/
def fmtHasInf : Fmt → Bool
  | .fp16 | .bf16 | .e5m2 | .f32 => true
  | _ => false

/-- Subnormal codes of the format are flushed on the main path (R76, R78). -/
def fmtFlushes : Fmt → Bool
  | .fp16 | .bf16 | .e5m2 | .e4m3 | .f32 => true
  | _ => false

/-- The canonical NaN (R80); 0 where the format has none. -/
def fmtNan : Fmt → Nat
  | .fp16 => 0x7E00 | .bf16 => 0x7FC0 | .e5m2 => 0x7E | .e4m3 => 0x7F | .f32 => 0x7FC00000
  | _ => 0

/-- The code of an infinity. -/
def fmtInf (f : Fmt) (neg : Bool) : Nat :=
  (if neg then 2 ^ (fmtWidth f - 1) else 0) + (2 ^ fmtExpBits f - 1) * 2 ^ fmtManBits f

/-! ## U16L (R62, R63, R537) -/

/-- The largest m below 2^24 with m^256 below 2^(23·256 + f), built from the top bit down. -/
def u16lBelow (f : Nat) : Nat → Nat → Nat
  | 0, acc => acc
  | k + 1, acc =>
    let t := acc + 2 ^ k
    u16lBelow f k (if t ^ 256 < 2 ^ (23 * 256 + f) then t else acc)

/-- The 24-bit significand of the expansion of a code with LOG_FRAC f (R537): the smallest m with m ≥ 2^(23 + f/256). -/
def u16lSignificand (f : Nat) : Nat := if f = 0 then 2 ^ 23 else u16lBelow f 24 0 + 1

/-- The expansion of a U16L code to a binary32 value, rounded upward (R62, R537). -/
def u16lValue (c : Nat) : Num :=
  if c < 0x200 then .fin false 0 0
  else .fin false (u16lSignificand (c % 256)) (((c / 256 : Nat) : Int) - 128 - 23)

/-- floor(n × log2(m × 2^e)) for m > 0 (log2 of m^n is exact in integers). -/
def floorLog2 (n m : Nat) (e : Int) : Int := (Nat.log2 (m ^ n) : Int) + n * e

/-! ## Values of codes -/

/-- The value of an element code (R58, R59, R62). -/
def decodeElem (f : Fmt) (code : Nat) : Num :=
  match f with
  | .int8 => let v := (BitVec.ofNat 8 code).toInt; .fin (decide (v < 0)) v.natAbs 0
  | .int4 => let v := (BitVec.ofNat 4 code).toInt; .fin (decide (v < 0)) v.natAbs 0
  | .u16l => u16lValue (code % 65536)
  | _ =>
    let p := fmtManBits f
    let neg := code.testBit (fmtWidth f - 1)
    let ex := bits code p (fmtExpBits f)
    let m := code % 2 ^ p
    let top := 2 ^ fmtExpBits f - 1
    if fmtHasInf f && decide (ex = top) then (if m = 0 then .inf neg else .nan)
    else if f = .e4m3 ∧ ex = top ∧ m = 7 then .nan
    else if ex = 0 then .fin neg m (1 - (fmtBias f : Int) - p)
    else .fin neg (2 ^ p + m) ((ex : Int) - fmtBias f - p)

/-- The code is subnormal in a format whose subnormals are flushed (R76, R78). -/
def isSubnormal (f : Fmt) (code : Nat) : Bool :=
  fmtFlushes f && decide (bits code (fmtManBits f) (fmtExpBits f) = 0) && decide (code % 2 ^ fmtManBits f ≠ 0)

/-- The value of a code where a unit interprets it arithmetically: flushed on the main path (R76, R79). -/
def readElem (audit : Bool) (f : Fmt) (code : Nat) : Num :=
  match decodeElem f code with
  | .fin neg m e => if !audit && isSubnormal f code then .fin neg 0 0 else .fin neg m e
  | v => v

/-! ## Exact arithmetic -/

namespace Num

/-- A signed dyadic integer at exponent e. -/
def ofInt (v : Int) (e : Int) : Num := .fin (decide (v < 0)) v.natAbs e

/-- The sign bit. -/
def isNeg : Num → Bool
  | .nan => false
  | .inf n => n
  | .fin n _ _ => n

/-- The value is zero. -/
def isZero : Num → Bool
  | .fin _ m _ => m == 0
  | _ => false

/-- The value is a NaN. -/
def isNan : Num → Bool
  | .nan => true
  | _ => false

/-- The value is an infinity. -/
def isInf : Num → Bool
  | .inf _ => true
  | _ => false

/-- Multiply by a power of two. -/
def scale (x : Num) (k : Int) : Num :=
  match x with
  | .fin n m e => .fin n m (e + k)
  | v => v

/-- Negate. -/
def neg : Num → Num
  | .nan => .nan
  | .inf n => .inf (!n)
  | .fin n m e => .fin (!n) m e

/-- Magnitude. -/
def abs : Num → Num
  | .nan => .nan
  | .inf _ => .inf false
  | .fin _ m e => .fin false m e

/-- The integer m × 2^(e − f) with its sign, for f ≤ e. -/
def toIntAt (neg : Bool) (m : Nat) (e f : Int) : Int :=
  let v : Int := ((m * 2 ^ (e - f).toNat : Nat) : Int)
  if neg then -v else v

/-- The exact sum. An exact zero is +0 unless both terms are negative zeros (R84: as IEEE 754, round to nearest). -/
def add (x y : Num) : Num :=
  match x, y with
  | .nan, _ => .nan
  | _, .nan => .nan
  | .inf a, .inf b => if a = b then .inf a else .nan
  | .inf a, _ => .inf a
  | _, .inf b => .inf b
  | .fin a m e, .fin b n f =>
    let g := min e f
    let v := toIntAt a m e g + toIntAt b n f g
    if v = 0 then .fin (a && b && m == 0 && n == 0) 0 0 else ofInt v g

/-- The exact product (R87, R88). -/
def mul (x y : Num) : Num :=
  match x, y with
  | .nan, _ => .nan
  | _, .nan => .nan
  | .inf a, .inf b => .inf (a != b)
  | .inf a, .fin b n _ => if n = 0 then .nan else .inf (a != b)
  | .fin a m _, .inf b => if m = 0 then .nan else .inf (a != b)
  | .fin a m e, .fin b n f => .fin (a != b) (m * n) (e + f)

/-- Less than; false when either is a NaN. -/
def lt (x y : Num) : Bool :=
  match x, y with
  | .nan, _ => false
  | _, .nan => false
  | .inf a, .inf b => a && !b
  | .inf a, _ => a
  | _, .inf b => !b
  | .fin a m e, .fin b n f =>
    let g := min e f
    decide (toIntAt a m e g < toIntAt b n f g)

/-- Equal in value; +0 equals −0; false when either is a NaN. -/
def eq (x y : Num) : Bool := !x.isNan && !y.isNan && !lt x y && !lt y x

/-- Less than or equal. -/
def le (x y : Num) : Bool := lt x y || eq x y

end Num

/-! ## Rounding (R71, R72) -/

/-- A rounded magnitude k × 2^u on the grid with p mantissa bits and least exponent q, by mode and draw r. -/
def roundMag (p : Nat) (q : Int) (integer : Bool) (mode : Rnd) (r m : Nat) (e : Int) : Nat × Int :=
  if m = 0 then (0, q)
  else
    let u : Int := if integer then 0 else max ((Nat.log2 m : Int) + e - p) q
    if u ≤ e then (m * 2 ^ (e - u).toNat, u)
    else
      let d := 2 ^ (u - e).toNat
      let lo := m / d
      let rem := m % d
      let up : Bool := match mode with
        | .rne => decide (d < 2 * rem) || (decide (2 * rem = d) && decide (lo % 2 = 1))
        | .rtz => false
        | .sr => decide (r < 256 * rem / d)
      (if up then lo + 1 else lo, u)

/-- k × 2^u exceeds m × 2^e. -/
def magLt (m : Nat) (e : Int) (k : Nat) (u : Int) : Bool :=
  let g := min e u
  decide (m * 2 ^ (e - g).toNat < k * 2 ^ (u - g).toNat)

/-- The code of a finite grid magnitude k × 2^u of a floating-point format. -/
def encodeMag (f : Fmt) (neg : Bool) (k : Nat) (u : Int) : Nat :=
  let p := fmtManBits f
  let sign := if neg then 2 ^ (fmtWidth f - 1) else 0
  if k = 0 then sign
  else
    let e := (Nat.log2 k : Int) + u
    let low := 1 - (fmtBias f : Int)
    if e < low then sign + k * 2 ^ (u - (low - p)).toNat
    else
      let mant := if Nat.log2 k ≤ p then k * 2 ^ (p - Nat.log2 k) else k / 2 ^ (Nat.log2 k - p)
      sign + ((e + fmtBias f).toNat * 2 ^ p) + mant % 2 ^ p

/-- What one element counts (R82, R535). -/
structure Counts where
  nan : Nat := 0
  inf : Nat := 0
  ovf : Nat := 0
  acc : Nat := 0
  deriving DecidableEq, Repr

/-- The sum of two counts. -/
def Counts.add (a b : Counts) : Counts := ⟨a.nan + b.nan, a.inf + b.inf, a.ovf + b.ovf, a.acc + b.acc⟩

/-- n times a count. -/
def Counts.times (n : Nat) (a : Counts) : Counts := ⟨n * a.nan, n * a.inf, n * a.ovf, n * a.acc⟩

/-- Replace a subnormal code by a zero of its sign on the main path (R77). -/
def flushCode (audit : Bool) (f : Fmt) (code : Nat) : Nat :=
  if !audit && isSubnormal f code then code / 2 ^ (fmtWidth f - 1) * 2 ^ (fmtWidth f - 1) else code

/-- Conversion of one exact value, already divided by its block's scale, into an element code (R63, R71 to R77, R81). A NaN
into a format without one gives 0; the block is then made NaN by the caller. -/
def convertElem (audit : Bool) (f : Fmt) (mode : Rnd) (ovf : Ovf) (r : Nat) (v : Num) : Nat × Counts :=
  match f with
  | .u16l =>
    match v with
    | .nan => (0xFFFF, { nan := 1 })
    | .inf neg => (if neg then 0 else 0xFFFF, { inf := 1 })
    | .fin neg m e =>
      if neg || decide (m = 0) then (0, {})
      else
        let fl := floorLog2 256 m e + 32768
        if fl < 512 then (0, {})
        else
          let t : Int := match mode with
            | .rtz => fl
            | .rne => (floorLog2 512 m e + 65536 + 1) / 2
            | .sr => if (r : Int) < (floorLog2 65536 m e) % 256 then fl + 1 else fl
          if 65535 < t then (0xFFFF, { ovf := 1 }) else (t.toNat, {})
  | .int8 | .int4 =>
    let w := fmtWidth f
    let lim := fun (neg : Bool) => if neg then 2 ^ (w - 1) else 2 ^ (w - 1) - 1
    let code := fun (neg : Bool) (k : Nat) => if neg then (2 ^ w - k) % 2 ^ w else k
    match v with
    | .nan => (0, {})
    | .inf neg => (code neg (lim neg), { inf := 1 })
    | .fin neg m e =>
      let k := (roundMag 0 0 true mode r m e).1
      if lim neg < k then (code neg (lim neg), { ovf := 1 }) else (code neg k, {})
  | _ =>
    let big := fun (neg : Bool) => encodeMag f neg (fmtMax f).1 (fmtMax f).2
    match v with
    | .nan => (fmtNan f, if fmtHasInf f || f == .e4m3 then { nan := 1 } else {})
    | .inf neg =>
      if fmtHasInf f then (fmtInf f neg, { inf := 1 })
      else if f = .e4m3 then (fmtNan f, { nan := 1 })
      else (big neg, { inf := 1 })
    | .fin neg m e =>
      let ku := roundMag (fmtManBits f) (1 - (fmtBias f : Int) - fmtManBits f) false mode r m e
      if magLt (fmtMax f).1 (fmtMax f).2 ku.1 ku.2 then
        match ovf with
        | .sat => (big neg, { ovf := 1 })
        | .strict =>
          if fmtHasInf f then (fmtInf f neg, { ovf := 1, inf := 1 })
          else if f = .e4m3 then (fmtNan f, { ovf := 1, nan := 1 })
          else (big neg, { ovf := 1 })
      else (flushCode audit f (encodeMag f neg ku.1 ku.2), {})

/-- A binary32 result of the vector or function unit: rounded once with RNE, an overflow gives the infinity of its sign
(R122, R535). -/
def roundF32 (audit : Bool) (v : Num) : W32 × Counts :=
  let r := convertElem audit .f32 .rne .strict 0 v
  (BitVec.ofNat 32 r.1, r.2)

/-- A move's result: canonical NaN, no count (R80, R535). -/
def moveF32 (v : Num) : W32 := BitVec.ofNat 32 (convertElem true .f32 .rne .strict 0 v).1

/-- The value of a binary32 word as an operand. -/
def readF32 (audit : Bool) (w : W32) : Num := readElem audit .f32 w.toNat

/-! ## Block scales (R64 to R70) -/

/-- Values in a block (R172). -/
def blkSize : Blk → Nat
  | .b16 => 16 | .b32 => 32 | .b64 => 64 | .b128 => 128

/-- Scale bytes of one row of 64 elements (R178). -/
def blkPerRow : Blk → Nat
  | .b16 => 4 | .b32 => 2 | .b64 => 1 | .b128 => 1

/-- The exponent of the largest finite element (R68). -/
def fmtEmax : Fmt → Int
  | .e5m2 => 15 | .e4m3 => 8 | .e3m2 => 4 | .e2m3 => 2 | .e2m1 => 2 | .int8 => 6 | .int4 => 2
  | _ => 0

/-- The constant p24 (R68). -/
def fmtP24 : Fmt → Nat
  | .e5m2 => 0xE00000 | .e4m3 => 0xE00000 | .e3m2 => 0xE00000 | .e2m3 => 0xF00000 | .e2m1 => 0xC00000
  | .int8 => 0xFE0000 | .int4 => 0xE00000
  | _ => 0

/-- The largest finite magnitude of a block, as a non-negative value. -/
def blockAmax : List Num → Num
  | [] => .fin false 0 0
  | x :: xs =>
    match x with
    | .fin _ m e => if Num.lt (blockAmax xs) (.fin false m e) then .fin false m e else blockAmax xs
    | _ => blockAmax xs

/-- The scale exponent of a block under FIT or FLOOR (R69, R70). -/
def scaleExponent (f : Fmt) (fit : Bool) (block : List Num) : Int :=
  match blockAmax block with
  | .fin _ m e =>
    if m = 0 then 0
    else
      let l := Nat.log2 m
      let ex := (l : Int) + e
      let m24 := if l ≤ 23 then m * 2 ^ (23 - l) else m / 2 ^ (l - 23)
      let s := ex - fmtEmax f
      max (if fit && decide (fmtP24 f < m24) then s + 1 else s) (-127)
  | _ => 0

/-- The exponent that a scale code gives, or none for 0xFF, a NaN block (R65). -/
def scaleOf (code : Nat) : Option Int := if code = 0xFF then none else some ((code : Int) - 127)

/-- The value of an element under its block's scale code (R64, R65). -/
def scaledElem (audit : Bool) (f : Fmt) (code : Nat) (sc : Nat) : Num :=
  match scaleOf sc with
  | none => .nan
  | some k => (readElem audit f code).scale k

/-- A target that holds no NaN: a NaN input makes its whole block NaN (R81). -/
def fmtNanless : Fmt → Bool
  | .e3m2 | .e2m3 | .e2m1 | .int8 | .int4 => true
  | _ => false

/-- Convert one block (R67, R69, R81): under SET the scale code is given. The answer is the scale code, the element codes
and the counts.
DEDUCED, unsafe: log entry 152. -/
def convertBlock (audit : Bool) (f : Fmt) (rule : Rule) (setCode : Nat) (mode : Rnd) (ovf : Ovf)
    (draws : List Nat) (block : List Num) : Nat × List Nat × Counts :=
  let n := block.length
  let nanBlock : Bool := (fmtNanless f && block.any Num.isNan) || (decide (rule = .set) && decide (setCode = 0xFF))
  if nanBlock then (0xFF, List.replicate n 0, { nan := n })
  else
    let e : Int := match rule with
      | .set => (setCode : Int) - 127
      | .fit => scaleExponent f true block
      | .floor => scaleExponent f false block
    let rs := (block.zip draws).map (fun (x : Num × Nat) => convertElem audit f mode ovf x.2 (x.1.scale (-e)))
    ((e + 127).toNat, rs.map (·.1), rs.foldl (fun a x => a.add x.2) {})

/-! ## Packing (R66) -/

/-- Element i of a packed row of elements of w bits. -/
def elemAt (w : Nat) (row : List Byte) (i : Nat) : Nat := bits (leNat row) (w * i) w

/-- The elements of a packed row. -/
def unpackRow (w n : Nat) (row : List Byte) : List Nat :=
  let v := leNat row
  (List.range n).map (fun i => bits v (w * i) w)

/-- The number that packed codes of w bits spell, element 0 lowest. -/
def packNat (w : Nat) : List Nat → Nat
  | [] => 0
  | c :: cs => c % 2 ^ w + 2 ^ w * packNat w cs

/-- The bytes of a row of packed codes. -/
def packRow (w : Nat) (codes : List Nat) : List Byte := leBytes (w * codes.length / 8) (packNat w codes)

/-! ## Chunks and promotion (R89 to R92) -/

/-- The value of a chunk. -/
inductive Chunk where
  | nan
  | inf (neg : Bool)
  | val (s : Int) (emax : Int)
  deriving DecidableEq, Repr

/-- floor(log2 |p|) of a non-zero finite product. -/
def prodExp : Num → Option Int
  | .fin _ m e => if m = 0 then none else some ((Nat.log2 m : Int) + e)
  | _ => none

/-- The larger of two exponents. -/
def maxExp : Option Int → Option Int → Option Int
  | none, b => b
  | a, none => a
  | some a, some b => some (max a b)

/-- A product truncated toward zero at 2^(emax − 30). -/
def truncTerm (emax : Int) : Num → Int
  | .fin neg m e =>
    let k := e - (emax - 30)
    let t : Int := if 0 ≤ k then ((m * 2 ^ k.toNat : Nat) : Int) else ((m / 2 ^ (-k).toNat : Nat) : Int)
    if neg then -t else t
  | _ => 0

/-- The reduction of a chunk (R90). -/
def chunkSum (ps : List Num) : Chunk :=
  if ps.any Num.isNan then .nan
  else
    let pinf := ps.any (fun p => p.isInf && !p.isNeg)
    let ninf := ps.any (fun p => p.isInf && p.isNeg)
    if pinf && ninf then .nan
    else if pinf then .inf false
    else if ninf then .inf true
    else
      match ps.foldl (fun a p => maxExp a (prodExp p)) none with
      | none => .val 0 0
      | some emax => .val (ps.foldl (fun a p => a + truncTerm emax p) 0) emax

/-- Add a chunk to a total (R92); the total and the answer are codes of the total's format. -/
def promote (audit a16 sr : Bool) (r : Nat) (total : Nat) (c : Chunk) : Nat × Counts :=
  let f : Fmt := if a16 then .bf16 else .f32
  match decodeElem f total, c with
  | .nan, _ => (fmtNan f, {})
  | _, .nan => (fmtNan f, {})
  | .inf a, .inf b => if a = b then (fmtInf f a, {}) else (fmtNan f, {})
  | .inf a, _ => (fmtInf f a, {})
  | _, .inf b => (fmtInf f b, {})
  | .fin n m e, .val s emax =>
    if s = 0 then (total, {})
    else
      match Num.add (.fin n m e) (Num.ofInt s (emax - 30)) with
      | .fin neg k u =>
        if k = 0 then (0, {})
        else
          let mode : Rnd := if a16 || sr then .sr else .rne
          let g := roundMag (fmtManBits f) (1 - (fmtBias f : Int) - fmtManBits f) false mode r k u
          if magLt (fmtMax f).1 (fmtMax f).2 g.1 g.2 then (fmtInf f neg, { ovf := 1, acc := 1 })
          else (flushCode audit f (encodeMag f neg g.1 g.2), {})
      | _ => (fmtNan f, {})

/-! ## Generators (R106, R133, R134) -/

/-- The mixing function (R106). -/
def mix64 (z : W64) : W64 :=
  let a := (z ^^^ (z >>> 30)) * 0xBF58476D1CE4E5B9#64
  let b := (a ^^^ (a >>> 27)) * 0x94D049BB133111EB#64
  b ^^^ (b >>> 31)

/-- The key of a pip (R133). -/
def pipKey (jobSeed : W64) (jobBeat die cell lane : Nat) : W64 :=
  mix64 (mix64 (jobSeed ^^^ mix64 (BitVec.ofNat 64 jobBeat))
    ^^^ BitVec.ofNat 64 (die * 2 ^ 12 + cell * 2 ^ 6 + lane))

/-- A draw of a pip at nominal cycle c and position p (R134). -/
def pipDraw (key : W64) (c p : Nat) : Nat := (mix64 (key ^^^ BitVec.ofNat 64 (16 * c + p)) >>> 56).toNat

/-- The audit generator (R106). -/
def auditDraw (jobSeed : W64) (step site element index : Nat) : Nat :=
  let key := mix64 (mix64 (jobSeed ^^^ mix64 (BitVec.ofNat 64 step)) ^^^ BitVec.ofNat 64 site)
  ((mix64 (key ^^^ BitVec.ofNat 64 (index * 2 ^ 32 + element))) &&& 0xFF#64).toNat

end Sys2Proof.Machine
end

