-- ==== Sys2Proof/Machine/Flags.lean ====
section
/-! DEFINITION. The sticky counters that take the place of flags (R82, R83, R84, R535): NaN results, infinite results
and overflows of each die, latched at the boundary that closes a plan. -/

namespace Sys2Proof.Machine

/-- Each per-die counter stops at 2^32 − 1 (R82). -/
def satAdd32 (a b : Nat) : Nat := min (a + b) (2 ^ 32 - 1)

/-- Add an operation's counts to a die's counters of the plan in progress (R82, R92). -/
def FrontEnd.count (f : FrontEnd) (c : Counts) : FrontEnd :=
  { f with nanNow := satAdd32 f.nanNow c.nan, infNow := satAdd32 f.infNow c.inf, ovfNow := satAdd32 f.ovfNow c.ovf,
           accOvfNow := f.accOvfNow + c.acc }

/-- Add an operation's counts to a die's counters. -/
def State.count (s : State) (d : DieId) (c : Counts) : State := s.modFront d (fun f => f.count c)

/-- Latch a front end's counters (R82). -/
def FrontEnd.latch (f : FrontEnd) : FrontEnd :=
  { f with nanLast := f.nanNow, infLast := f.infNow, ovfLast := f.ovfNow,
           nanNow := 0, infNow := 0, ovfNow := 0, accOvfNow := 0 }

/-- Refresh the last-beat sums over the four dies, each stopping at 2^32 − 1 (R85). -/
def State.lastSums (s : State) : State :=
  let sum := fun (g : FrontEnd → Nat) => s.fe.toList.foldl (fun a f => satAdd32 a (g f)) 0
  ((s.setParam P.numLastNan (sum (·.nanLast))).setParam P.numLastInf (sum (·.infLast))).setParam P.numLastOverflow
    (sum (·.ovfLast))

/-- Latch the counts of a die that closes a plan: add them to the running totals, note the first non-finite beat, log the
first non-finite and the first overflow of the job, and clear them (R82, R83, R86). A plan of a job before the last START is no beat
of the current job, so it adds to the totals and marks nothing else. NUM_FIRST_NONFINITE_BEAT keeps the beat that was latched first,
dies in order at one boundary, though a late die may latch an earlier one after it.
DEDUCED, unsafe: log entry 168. DESIGN CHOICE, unsafe: log entry 194. -/
def State.latchCounts (s : State) (d : DieId) : State :=
  let f := s.front d
  let s1 := (((s.bump P.numNanTotal f.nanNow).bump P.numInfTotal f.infNow).bump P.numOverflowTotal f.ovfNow).bump
    P.accOverflowTotal f.accOvfNow
  let s2 := s1.modFront d FrontEnd.latch
  if f.stale then s2.lastSums
  else
  let beat := f.planBeat
  let s3 :=
    if f.nanNow + f.infNow ≠ 0 then
      let t := if s2.param P.numFirstNonfiniteBeat = 2 ^ 64 - 1 then s2.setParam P.numFirstNonfiniteBeat beat else s2
      if t.job.nonfiniteSeen then t
      else { (t.dieEvent d Ev.numNonfiniteSeen [(4, beat % 2 ^ 32), (4, f.nanNow), (4, f.infNow)]) with
             job := { t.job with nonfiniteSeen := true } }
    else s2
  let s4 :=
    if f.ovfNow ≠ 0 ∧ s3.job.overflowSeen = false then
      { (s3.dieEvent d Ev.numOverflowSeen [(8, beat), (4, f.ovfNow)]) with
        job := { s3.job with overflowSeen := true } }
    else s3
  s4.lastSums

/-- Set entries to their defaults. -/
def State.toDefaults (s : State) (ks : List Nat) : State := ks.foldl (fun t k => t.setParam k (defaultParam k)) s

/-- The totals start afresh with a job, and no beat of it has shown a non-finite result (R83, R109).
DEDUCED, unsafe: log entry 156. -/
def State.jobTotals (s : State) : State :=
  s.toDefaults [P.numNanTotal, P.numInfTotal, P.numOverflowTotal, P.numFirstNonfiniteBeat, P.accOverflowTotal]

/-- Clear 0x4300.01 to 0x4300.07 and the promotion overflows (R83, R85, R109).
DEDUCED, unsafe: log entry 156. -/
def State.clearTotals (s : State) : State := s.jobTotals.toDefaults [P.numLastNan, P.numLastInf, P.numLastOverflow]

end Sys2Proof.Machine
end

