-- ==== Sys2Proof/Machine/Operands.lean ====
section
/-! DEFINITION. Operand forms of the operations: pointers, SRAM accesses, the operands of slots V and F, rounding draws, and
the run-time faults that an operand can raise (R144, R173, R174, R205). -/

namespace Sys2Proof.Machine

/-! ## Run-time faults (R205, R206) -/

/-- A run-time fault of an operation, with what its event record names. -/
inductive Trip where
  | range (cell : Nat)
  | baseWrite
  | unroutable (dev : Nat)
  | tallyUnroutable (dev : Nat)
  | unwritten (die : DieId) (cell addr : Nat)
  | sramDouble (die : DieId) (cell addr : Nat)
  | memDouble (frame block : Nat)
  | tag (frame block cause : Nat)
  deriving DecidableEq, Repr

/-- What an operation's effect answers: done, a run-time fault that makes it hollow, or an operand that the spec calls
undefined. -/
inductive Done where
  | ok (s : State)
  | trip (t : Trip)
  | undef
  deriving Repr

/-- Continue after a step of an effect. -/
def Done.andThen (x : Done) (f : State → Done) : Done :=
  match x with
  | .ok s => f s
  | .trip t => .trip t
  | .undef => .undef

/-- The number of a slot in event details: its position in the word (R137).
DEDUCED, unsafe: log entry 21. -/
def slotNo : Slot → Nat
  | .a => 0 | .v => 1 | .f => 2 | .m0 => 3 | .m1 => 4 | .x => 5 | .t => 6 | .c => 7

/-- A die logs a run-time fault and sets HALT_REQ (R205, R206, R225, R424, R431). A fault of cell SRAM is logged by the die whose cell it
is, which sets HALT_REQ too for a double-bit error (R121).
DEDUCED, unsafe: log entry 200. -/
def State.raise (s : State) (d : DieId) (slot : Slot) (i : Issue) (t : Trip) : State :=
  let plan := (s.front d).planIndex
  let at' : List (Nat × Nat) := [(2, plan), (2, i.word)]
  let s1 := match t with
    | .range c => s.dieEvent d Ev.opRange (at' ++ [(1, slotNo slot), (1, c)])
    | .baseWrite => s.dieEvent d Ev.opBaseWrite (at' ++ [(1, slotNo slot)])
    | .unroutable dev => s.dieEvent d Ev.opUnroutable (at' ++ [(2, dev)])
    | .tallyUnroutable dev => s.dieEvent d Ev.tallyUnroutable (at' ++ [(2, dev)])
    | .unwritten x c a => (s.bump P.sramUnwrittenReads 1).dieEvent x Ev.sramUnwritten [(1, c), (4, a)]
    | .sramDouble x c a => (s.dieEvent x Ev.sramUncorrectable [(1, c), (4, a)]).requestHalt x
    | .memDouble f b => (s.bump P.memUncorrectableCount 1).dieEvent d Ev.memUncorrectable ([(4, f), (1, b)] ++ at')
    | .tag f b c => (s.bump P.rindTagFails 1).dieEvent d Ev.rindTagFail ([(4, f), (1, b), (1, c)] ++ at')
  s1.requestHalt d

/-! ## Pointers and cells (R144, R145, R174) -/

/-- A pointer's value in cell c (R144). -/
def ptrAt (p : Ptr) (c : Nat) : Nat := (p.base + BitVec.ofNat 32 c * p.stride).toNat

/-- The byte address of a broadcast unit's operand: bits 21:0 of the value plus the line offset (R174). -/
def ptrSram (p : Ptr) (off : BitVec 10) (c : Nat) : Nat := (ptrAt p c + off.toNat * 128) % 2 ^ 32 % 2 ^ 22

/-- The same for a scale or index operand, whose offset counts bytes (R174, R179, R181). -/
def ptrBytes (p : Ptr) (off : BitVec 10) (c : Nat) : Nat := (ptrAt p c + off.toNat) % 2 ^ 32 % 2 ^ 22

/-- The cells enabled in a mask, in order (R145). -/
def maskCells (m : W64) : List Nat := (List.range 64).filter (fun c => m.getLsbD c)

/-- The audit mode of the running plan set (R103). -/
def State.audit (s : State) : Bool := (s.job.planSet.map (·.audit)).getD false

/-! ## SRAM accesses -/

/-- One access to a cell's SRAM: its cell, address, length, whether it writes and whether it is a line operand. -/
structure Touch where
  cell : Nat
  addr : Nat
  len : Nat
  write : Bool
  line : Bool
  deriving DecidableEq, Repr

/-- The fault of one access, if any: range or alignment, an unwritten line, a double-bit error (R174, R205, R431,
R121).
DEDUCED, unsafe: log entries 22, 151. -/
def State.touchTrip (s : State) (d : DieId) (t : Touch) : Option Trip :=
  if (t.line && t.addr % 128 ≠ 0) || decide (sramEnd < t.addr + t.len) then some (.range t.cell)
  else if t.write then none
  else
    match s.firstUnwritten d t.cell t.addr t.len with
    | some a => some (.unwritten d t.cell a)
    | none => (s.firstDouble d t.cell t.addr t.len).map (fun a => .sramDouble d t.cell a)

/-- The first fault of several accesses.
DEDUCED, unsafe: log entry 22. -/
def State.touchesTrip (s : State) (d : DieId) : List Touch → Option Trip
  | [] => none
  | t :: ts =>
    match s.touchTrip d t with
    | some x => some x
    | none => s.touchesTrip d ts

/-- Correct the single-bit errors that reads meet (R121). -/
def State.correctTouches (s : State) (d : DieId) (ts : List Touch) : State :=
  ts.foldl (fun t x => if x.write then t else t.correctSram d x.cell x.addr x.len) s

/-! ## Vector registers -/

/-- Key of a vector register. -/
def vregKey (d : DieId) (c r : Nat) : Nat := (d.val * 64 + c) * 64 + r

/-- The 64 lanes of a vector register; registers read as +0 at each plan opening (R122). -/
def State.vreg (s : State) (d : DieId) (c r : Nat) : List W32 :=
  let v := s.cells.vregs.getD (vregKey d c r) (List.replicate 64 0)
  (List.range 64).map (fun j => v.getD j 0)

/-- Replace a vector register. -/
def State.setVreg (s : State) (d : DieId) (c r : Nat) (v : List W32) : State :=
  { s with cells := { s.cells with vregs := AMap.set (List.replicate 64 0) s.cells.vregs (vregKey d c r) v } }

/-! ## Operands of slots V and F (R173, R187) -/

/-- Bytes of a row of 64 elements. -/
def rowBytes (f : Fmt) : Nat := fmtWidth f * 64 / 8

/-- Lines that an SRAM operand reads (R187). -/
def opndLines (o : Opnd) (f : Fmt) : Nat :=
  match o with
  | .sram _ _ => (rowBytes f + 127) / 128
  | _ => 0

/-- An SRAM operand is allowed in FP16, BF16 and F32 only (R186, R192). -/
def opndFmtOk (o : Opnd) (f : Fmt) : Bool :=
  match o with
  | .sram _ _ => f = .fp16 || f = .bf16 || f = .f32
  | _ => true

/-- The SRAM access of an operand read in cell c. -/
def opndReads (o : Opnd) (f : Fmt) (c : Nat) : List Touch :=
  match o with
  | .sram p off => [⟨c, ptrSram p off c, rowBytes f, false, true⟩]
  | _ => []

/-- The SRAM access of a destination written in cell c. -/
def opndWrites (o : Opnd) (f : Fmt) (c : Nat) : List Touch :=
  match o with
  | .sram p off => [⟨c, ptrSram p off c, rowBytes f, true, true⟩]
  | _ => []

/-- The 64 values of an operand, flushed on the main path (R76, R173). -/
def State.opnd (s : State) (d : DieId) (c : Nat) (f : Fmt) (o : Opnd) : List Num :=
  match o with
  | .reg r => (s.vreg d c r.val).map (readF32 s.audit)
  | .sram p off =>
    (unpackRow (fmtWidth f) 64 (s.sramRead d c (ptrSram p off c) (rowBytes f))).map (readElem s.audit f)
  | .scalar w => List.replicate 64 (readF32 s.audit w)
  | .none => List.replicate 64 (.fin false 0 0)

/-- A destination can hold 64 lanes (R173). -/
def opndIsDest (o : Opnd) : Bool :=
  match o with
  | .reg _ => true
  | .sram _ _ => true
  | _ => false

/-- Write 64 binary32 lanes to a destination; an SRAM destination is written as F32 (R187). -/
def State.putLanes (s : State) (d : DieId) (c : Nat) (o : Opnd) (v : List W32) : State :=
  match o with
  | .reg r => s.setVreg d c r.val v
  | .sram p off => s.sramWrite d c (ptrSram p off c) (v.flatMap (fun w => leBytes 4 w.toNat))
  | _ => s

/-! ## Rounding draws (R73, R106, R134) -/

/-- The seed of the running job. -/
def State.jobSeed (s : State) : W64 := (s.job.desc.map (·.jobSeed)).getD 0

/-- The training step of a JOB_BEAT of the running job. -/
def State.trainStepOf (s : State) (jb : Nat) : Nat :=
  (s.job.desc.map (·.firstStep)).getD 0 + jb / (s.job.planSet.map (·.scheduleLength)).getD 1

/-- What names a rounding point in a plan set: the set, the die, the plan, and the nominal cycle and position of the draw. -/
def State.roundingSite (s : State) (d : DieId) (c p : Nat) : List Nat :=
  [(s.job.planSet.map (·.planSetId)).getD 0, d.val, (s.front d).planIndex, c, p]

/-- The logical step of the plan in progress (R106): the training step of a TRAINING plan set; the token position that a serving
plan set declares is in no field of it.
DESIGN CHOICE, safe: log entry 20. -/
def State.auditStep (s : State) (d : DieId) : Nat :=
  let beat := (s.front d).planBeat
  match s.job.planSet with
  | some p =>
    if p.training then (s.front d).trainStep
    else Config.auditStep p.planSetId beat
  | none => Config.auditStep 0 beat

/-- A draw of the audit generator (R106) with its index; the site and the element are free functions of the rounding.
DESIGN CHOICE, safe: log entry 20. -/
def State.auditDrawAt (s : State) (d : DieId) (cell lane c p row index : Nat) : Nat :=
  let k := s.roundingSite d c p
  auditDraw (s.front d).seed (s.auditStep d) (Config.auditSite k % 2 ^ 16)
    (Config.auditElement k [s.param P.deviceId, (s.front d).planBeat, cell, lane, row] % 2 ^ 32) index

/-- The draw of a conversion in one lane: the pip at nominal cycle `c` and position `p` on the main path; in audit replay
the audit generator with index 0.
DESIGN CHOICE, safe: log entry 20. -/
def State.convDraw (s : State) (d : DieId) (cell lane c p row : Nat) : Nat :=
  if s.audit then s.auditDrawAt d cell lane c p row 0
  else pipDraw (pipKey (s.front d).seed (s.front d).planBeat d.val cell lane) c p

/-- The chunk of its reduction that the first promotion into a total adds: 0 but for a total that another array has handed on, which
no field of an operation tells (R104).
DESIGN CHOICE, safe: log entry 173. -/
def State.firstChunk (s : State) (d : DieId) (cell lane c p row : Nat) : Nat :=
  Config.auditChunk (s.roundingSite d c p) [s.param P.deviceId, (s.front d).planBeat, cell, lane, row]

/-- The draw of a promotion in one lane (R94, R106, R134); in audit replay its index is one more than the number of the chunk, which
counts on from the total's first chunk (R104).
DESIGN CHOICE, safe: log entries 20, 173. -/
def State.promDraw (s : State) (d : DieId) (cell lane c p row chunk : Nat) : Nat :=
  if s.audit then s.auditDrawAt d cell lane c p row (s.firstChunk d cell lane c p row + chunk + 1)
  else pipDraw (pipKey (s.front d).seed (s.front d).planBeat d.val cell lane) c p

/-- Run one cell's effect for every enabled cell, after every access of every cell has been checked: a fault in any one cell
makes the operation hollow in all (R205). -/
def State.broadcast (s : State) (d : DieId) (i : Issue) (touches : Nat → List Touch) (eff : State → Nat → State) :
    Done :=
  let cells := maskCells i.mask
  let ts := cells.flatMap touches
  match s.touchesTrip d ts with
  | some t => .trip t
  | none => .ok (cells.foldl eff (s.correctTouches d ts)).drawn

end Sys2Proof.Machine
end

