-- ==== Sys2Proof/Machine/ArrayOps.lean ====
section
/-! DEFINITION. The effects of slot A: tile loads, array operations and drains (R112 to R115, R176 to R184). -/

namespace Sys2Proof.Machine

/-! ## Tile registers (R180) -/

/-- Key of a tile register: 0 active, 1 shadow.
DEDUCED, safe: log entry 23. -/
def tileKey (d : DieId) (c arr sh : Nat) : Nat := ((d.val * 64 + c) * 2 + arr) * 2 + sh

/-- A tile register, row after row; an unlisted one is the zero tile. -/
def State.tile (s : State) (d : DieId) (c arr sh : Nat) : List Num := s.cells.tiles.getD (tileKey d c arr sh) []

/-- Replace a tile register. -/
def State.setTile (s : State) (d : DieId) (c arr sh : Nat) (t : List Num) : State :=
  { s with cells := { s.cells with tiles := AMap.set [] s.cells.tiles (tileKey d c arr sh) t } }

/-- Element (k, n) of a tile: reduction index k, output column n (R178). -/
def tileElem (t : List Num) (k n : Nat) : Num := t.getD (k * 64 + n) (.fin false 0 0)

/-- The shadow of an array is pending, in all 64 cells alike (R180). -/
def State.shadowPending (s : State) (d : DieId) (arr : Nat) : Bool := s.cells.pending.contains (d.val * 2 + arr)

/-- Make a shadow pending. -/
def State.setPendingTile (s : State) (d : DieId) (arr : Nat) : State :=
  if s.shadowPending d arr then s
  else { s with cells := { s.cells with pending := (d.val * 2 + arr) :: s.cells.pending } }

/-- Exchange the registers of one array in one cell. -/
def State.swapCell (s : State) (d : DieId) (arr : Nat) (c : Nat) : State :=
  (s.setTile d c arr 0 (s.tile d c arr 1)).setTile d c arr 1 (s.tile d c arr 0)

/-- Swap an array's registers in every cell; the shadow is then spent (R180). -/
def State.swapArray (s : State) (d : DieId) (arr : Nat) : State :=
  let s1 := (List.range 64).foldl (fun t c => t.swapCell d arr c) s
  { s1 with cells := { s1.cells with pending := s1.cells.pending.filter (fun k => k ≠ d.val * 2 + arr) } }

/-- The arrays that an operation names (R181). -/
def selArrays : ArraySel → List Nat
  | .a0 => [0]
  | .a1 => [1]
  | .both => [0, 1]

/-- The swap of an MMA, which a hollow one performs too (R159, R182). -/
def State.mmaSwap (s : State) (d : DieId) (f : MmaF) : State :=
  if f.swap then (selArrays f.array).foldl (fun t a => t.swapArray d a) s else s

/-! ## TLOAD (R179, R114) -/

/-- The SRAM that a tile load reads in cell c. -/
def tloadTouches (f : TloadF) (c : Nat) : List Touch :=
  ⟨c, ptrSram f.src f.srcOff c, 64 * rowBytes f.fmt, false, true⟩ ::
    (if fmtBlocked f.fmt then [⟨c, ptrBytes f.sc f.scOff c, 64 * blkPerRow f.blk, false, false⟩] else [])

/-- The stored tile of a cell, element (i, j) at i × 64 + j, with each element's block scale attached (R114, R178). -/
def State.storedTile (s : State) (d : DieId) (f : TloadF) (c : Nat) : List Num :=
  let rb := rowBytes f.fmt
  let base := ptrSram f.src f.srcOff c
  let per := blkPerRow f.blk
  let scs := if fmtBlocked f.fmt then s.sramRead d c (ptrBytes f.sc f.scOff c) (64 * per) else []
  (List.range 64).flatMap (fun r =>
    let codes := unpackRow (fmtWidth f.fmt) 64 (s.sramRead d c (base + r * rb) rb)
    (List.range 64).map (fun j =>
      let code := codes.getD j 0
      if fmtBlocked f.fmt then
        scaledElem s.audit f.fmt code (scs.getD (r * per + j * per / 64) 0).toNat
      else readElem s.audit f.fmt code))

/-- A tile with rows and columns exchanged (R114). -/
def transposeTile (t : List Num) : List Num :=
  (List.range 64).flatMap (fun r => (List.range 64).map (fun c => tileElem t c r))

/-- A tile load: the shadow becomes pending in every cell and the enabled cells take the tile (R180). -/
def effTload (s : State) (d : DieId) (i : Issue) (tr : Bool) (f : TloadF) : Done :=
  if f.fmt = .u16l ∨ f.fmt = .f32 then .undef
  else
    (s.setPendingTile d f.loader.val).broadcast d i (tloadTouches f) (fun t c =>
      let tile := t.storedTile d f c
      t.setTile d c f.loader.val 1 (if tr then transposeTile tile else tile))

/-! ## MMA (R181, R182) -/

/-- Rows and columns of a tile of totals (R96). -/
def shapeRows : Shape → Nat
  | .s16x256 => 16 | .s32x128 => 32 | .s32x256 => 32 | .s64x64 => 64 | .s64x128 => 64 | .s128x64 => 128

/-- Columns of a tile of totals (R96). -/
def shapeCols : Shape → Nat
  | .s16x256 => 256 | .s32x128 => 128 | .s32x256 => 256 | .s64x64 => 64 | .s64x128 => 128 | .s128x64 => 64

/-- Bytes of a total (R91). -/
def totalBytes (a16 : Bool) : Nat := if a16 then 2 else 4

/-- The tile lies in accumulator memory and starts on its boundary (R96, R181). -/
def tileFits (tile : Nat) (sh : Shape) (a16 : Bool) : Bool :=
  (a16 || tile % 2 == 0) && decide (tile * 8192 + shapeRows sh * shapeCols sh * totalBytes a16 ≤ 131072)

/-- The array accepts a pair of formats (R177). -/
def pairOk (w x : Fmt) : Bool :=
  let isF := fun (f : Fmt) => !fmtInt f && f != .u16l && f != .f32
  (isF w && isF x) || (fmtInt w && fmtInt x)

/-- Input vectors per cycle for a pair of formats (R112). -/
def vectorsPerCycle (w x : Fmt) : Nat :=
  let n := max (fmtWidth w) (fmtWidth x)
  if n = 16 then 1 else if n = 8 then 2 else 4

/-- The byte of a total within its array's accumulator memory; totals lie row after row.
DEDUCED, safe: log entry 23. -/
def totalAt (tile : Nat) (sh : Shape) (a16 : Bool) (row col : Nat) : Nat :=
  tile * 8192 + (row * shapeCols sh + col) * totalBytes a16

/-- A total's code.
DEDUCED, safe: log entry 23. -/
def State.total (s : State) (d : DieId) (c arr : Nat) (b : Nat) (a16 : Bool) : Nat :=
  s.mem.acc.readLE (accKey d c arr b) (totalBytes a16)

/-- Write a total's code.
DEDUCED, safe: log entry 23. -/
def State.setTotal (s : State) (d : DieId) (c arr : Nat) (b : Nat) (a16 : Bool) (v : Nat) : State :=
  { s with mem := { s.mem with acc := s.mem.acc.writeLE (accKey d c arr b) (totalBytes a16) v } }

/-- The SRAM that an MMA reads in cell c. -/
def mmaTouches (f : MmaF) (c : Nat) : List Touch :=
  let nv := f.nvec.val + 1
  ⟨c, ptrSram f.inp f.inOff c, nv * rowBytes f.inFmt, false, true⟩ ::
    (if fmtBlocked f.inFmt then [⟨c, ptrBytes f.isc f.iscOff c, nv * blkPerRow f.inBlk, false, false⟩] else [])

/-- Input vector j of an MMA in cell c (R178). -/
def State.inputVector (s : State) (d : DieId) (f : MmaF) (c j : Nat) : List Num :=
  let rb := rowBytes f.inFmt
  let per := blkPerRow f.inBlk
  let codes := unpackRow (fmtWidth f.inFmt) 64 (s.sramRead d c (ptrSram f.inp f.inOff c + j * rb) rb)
  let scs := if fmtBlocked f.inFmt then s.sramRead d c (ptrBytes f.isc f.iscOff c + j * per) per else []
  (List.range 64).map (fun k =>
    let code := codes.getD k 0
    if fmtBlocked f.inFmt then scaledElem s.audit f.inFmt code (scs.getD (k * per / 64) 0).toNat
    else readElem s.audit f.inFmt code)

/-- The products of one output column (R87, R89). -/
def columnProducts (x : List Num) (t : List Num) (n : Nat) : List Num :=
  (List.range 64).map (fun k => Num.mul (x.getD k (.fin false 0 0)) (tileElem t k n))

/-- Key of a row of totals. -/
def rowKey (d : DieId) (c arr tile grp row : Nat) : Nat := ((((d.val * 64 + c) * 2 + arr) * 16 + tile) * 4 + grp) * 128 + row

/-- A row of totals as the plan holds it; a row not listed has not been opened. -/
def State.totalRow (s : State) (d : DieId) (c arr tile grp row : Nat) : TotalRow :=
  s.cells.totalRows.getD (rowKey d c arr tile grp row) {}

/-- Replace a row of totals' record. -/
def State.setTotalRow (s : State) (d : DieId) (c arr tile grp row : Nat) (x : TotalRow) : State :=
  { s with cells := { s.cells with totalRows := AMap.set {} s.cells.totalRows (rowKey d c arr tile grp row) x } }

/-- How an MMA would open its totals (R91, R93, R181). -/
def mmaMode (f : MmaF) : TotalMode := if f.a16 then .a16 else if f.psr then .a32Sr else .a32

/-- The row of totals into which an MMA promotes its vector j: with ACC clear it opens the row; with ACC set it adds to the row
as the operation that opened it chose (R91, R93, R181).
DEDUCED, unsafe: log entry 38. -/
def State.mmaRow (s : State) (d : DieId) (f : MmaF) (c arr j : Nat) : TotalRow :=
  let h := s.totalRow d c arr f.tile.val f.colgrp.val (f.row.val + j)
  if f.acc && h.mode != .closed then h else ⟨mmaMode f, 0⟩

/-- Promote one chunk into one total of a row (R91, R92, R182); a row that no operation of the plan has opened holds +0 (R99). -/
def State.mmaTotal (s : State) (d : DieId) (i : Issue) (f : MmaF) (h : TotalRow) (c arr : Nat) (x : List Num) (j n : Nat) :
    State :=
  let a16 := h.mode == .a16
  let b := totalAt f.tile.val f.shape a16 (f.row.val + j) (f.colgrp.val * 64 + n)
  let held := if f.acc && h.chunks != 0 then s.total d c arr b a16 else 0
  let v := vectorsPerCycle f.wFmt f.inFmt
  let r := s.promDraw d c n (i.nominal + j / v + 14) (4 * arr + j % v) j h.chunks
  let p := promote s.audit a16 (h.mode == .a32Sr) r held (chunkSum (columnProducts x (s.tile d c arr 0) n))
  (s.setTotal d c arr b a16 p.1).count d p.2

/-- One input vector entering one array of one cell. -/
def State.mmaVector (s : State) (d : DieId) (i : Issue) (f : MmaF) (c arr j : Nat) : State :=
  let x := s.inputVector d f c j
  let h := s.mmaRow d f c arr j
  ((List.range 64).foldl (fun t n => t.mmaTotal d i f h c arr x j n) s).setTotalRow d c arr f.tile.val f.colgrp.val
    (f.row.val + j) { h with chunks := h.chunks + 1 }

/-- One array of one cell. -/
def State.mmaCell (s : State) (d : DieId) (i : Issue) (f : MmaF) (c : Nat) : State :=
  (selArrays f.array).foldl (fun t arr =>
    (List.range (f.nvec.val + 1)).foldl (fun u j => u.mmaVector d i f c arr j) t) s

/-- The encodings of an MMA that the spec defines (R177, R181). -/
def mmaDefined (f : MmaF) : Bool :=
  pairOk f.wFmt f.inFmt && tileFits f.tile.val f.shape f.a16
    && decide (f.row.val + f.nvec.val + 1 ≤ shapeRows f.shape)
    && decide (f.colgrp.val < shapeCols f.shape / 64) && !(f.a16 && f.psr)
    && decide (6 ≤ f.rlen.toNat) && decide (f.rlen.toNat ≤ 24)

/-- The tile fits in the format in which the enabled cells hold the rows that an MMA adds to (R96, R181). -/
def State.mmaFits (s : State) (d : DieId) (i : Issue) (f : MmaF) : Bool :=
  (maskCells i.mask).all (fun c => (selArrays f.array).all (fun arr => (List.range (f.nvec.val + 1)).all (fun j =>
    tileFits f.tile.val f.shape ((s.mmaRow d f c arr j).mode == .a16))))

/-- An array operation (R182).
DEDUCED, safe: log entry 29. -/
def effMma (s : State) (d : DieId) (i : Issue) (f : MmaF) : Done :=
  if mmaDefined f && s.mmaFits d i f then
    (s.mmaSwap d f).broadcast d i (mmaTouches f) (fun t c => t.mmaCell d i f c)
  else .undef

/-! ## ACC.DRAIN (R183) -/

/-- The encodings of a drain that the spec defines. -/
def drainDefined (a16 : Bool) (f : DrainF) : Bool :=
  tileFits f.tile.val f.shape a16 && decide (f.row.val + f.nrows.val + 1 ≤ shapeRows f.shape)
    && decide (f.colgrp.val < shapeCols f.shape / 64) && decide (f.dst.val + f.nrows.val ≤ 63)

/-- A total widened exactly to binary32 with the count of a NaN or infinite one (R92, R183). -/
def drainTotal (a16 : Bool) (code : Nat) : W32 × Counts :=
  let v := decodeElem (if a16 then .bf16 else .f32) code
  (moveF32 v, if v.isNan then { nan := 1 } else if v.isInf then { inf := 1 } else {})

/-- A row of totals that a drain reads is held in A16; a row that no operation of the plan has opened holds +0, in either
format.
DEDUCED, unsafe: log entry 38. -/
def State.drainA16 (s : State) (d : DieId) (f : DrainF) (c k : Nat) : Bool :=
  let m := (s.totalRow d c f.array.val f.tile.val f.colgrp.val (f.row.val + k)).mode
  m == .a16 || m == .closed

/-- Drain one row of one cell into one register.
DEDUCED, unsafe: log entry 38. -/
def State.drainRow (s : State) (d : DieId) (f : DrainF) (c k : Nat) : State :=
  let a16 := s.drainA16 d f c k
  let opened := (s.totalRow d c f.array.val f.tile.val f.colgrp.val (f.row.val + k)).mode != .closed
  let rs := (List.range 64).map (fun n =>
    drainTotal a16 (if opened then s.total d c f.array.val
      (totalAt f.tile.val f.shape a16 (f.row.val + k) (f.colgrp.val * 64 + n)) a16 else 0))
  (s.setVreg d c (f.dst.val + k) (rs.map (·.1))).count d (rs.foldl (fun a x => a.add x.2) {})

/-- The tile fits in the format in which the enabled cells hold the rows that a drain reads (R96, R183). -/
def State.drainFits (s : State) (d : DieId) (i : Issue) (f : DrainF) : Bool :=
  (maskCells i.mask).all (fun c => (List.range (f.nrows.val + 1)).all (fun k => drainDefined (s.drainA16 d f c k) f))

/-- A drain.
DEDUCED, unsafe: log entry 38. -/
def effDrain (s : State) (d : DieId) (i : Issue) (f : DrainF) : Done :=
  if drainDefined true f && s.drainFits d i f then
    s.broadcast d i (fun _ => []) (fun t c => (List.range (f.nrows.val + 1)).foldl (fun u k => u.drainRow d f c k) t)
  else .undef

end Sys2Proof.Machine
end

