-- ==== Sys2Proof/Machine/Fabric.lean ====
section
/-! DEFINITION. The fabric below its messages: flits and their CRC, sequence numbers, credits and the retry buffer of a link,
violations, routes, and the sending of messages (R362 to R372, R378 to R388). -/

namespace Sys2Proof.Machine

/-! ## Flits (R362 to R364, R371) -/

/-- The 64 header bits of a flit (R363). -/
def headerNat (h : FlitHeader) : Nat :=
  h.ftype.toNat * 2 ^ 61 + h.cls.toNat * 2 ^ 59 + h.level.toNat * 2 ^ 58 + h.dstDev.toNat * 2 ^ 48
    + h.dstDie.val * 2 ^ 46 + h.srcDev.toNat * 2 ^ 36 + h.srcDie.val * 2 ^ 34 + h.msg.toNat * 2 ^ 22
    + h.epoch.toNat * 2 ^ 6 + h.launch.toNat

/-- n steps of the CRC-64 register (R364). -/
def crc64Shift : Nat → W64 → W64
  | 0, c => c
  | n + 1, c => crc64Shift n (if c.msb then (c <<< 1) ^^^ 0x42F0E1EBA9EA3693#64 else c <<< 1)

/-- The CRC-64 of ECMA-182 over bytes, the register initialised to ones and the result inverted (R364). -/
def crc64 (bs : List Byte) : W64 :=
  ~~~(bs.foldl (fun (c : W64) (b : Byte) => crc64Shift 8 (c ^^^ (b.zeroExtend 64 <<< 56))) (BitVec.allOnes 64))

/-- The 256 bytes of a flit sent under a sequence number (R362, R364). -/
def flitBytes (seq : BitVec 12) (f : Flit) : List Byte :=
  let body := leBytes 8 (headerNat f.hdr) ++ (f.payload ++ List.replicate 240 0).take 240
  body ++ leBytes 8 (crc64 (body ++ leBytes 2 seq.toNat)).toNat

/-- The optional destination signal of a descriptor: DSIG_EN and DSIG_TALLY. -/
def dsigBits : Option (BitVec 13) → Nat
  | some t => 2 ^ 159 + t.toNat * 2 ^ 146
  | none => 0

/-- The 256 bits of a descriptor (R371). -/
def descNat (x : Descriptor) : Nat :=
  x.type.toNat * 2 ^ 248 + x.status.toNat * 2 ^ 240 + x.address.toNat * 2 ^ 176 + x.blocks.toNat * 2 ^ 168
    + x.pop.toNat * 2 ^ 160 + dsigBits x.dsig + x.txn.toNat * 2 ^ 128 + x.jobTag.toNat * 2 ^ 96
    + x.tally.toNat * 2 ^ 83 + x.count.toNat * 2 ^ 67

/-- A descriptor from the payload of a HEAD or SINGLE flit (R371). -/
def readDesc (v : Nat) : Descriptor where
  type := BitVec.ofNat 8 (bits v 248 8)
  status := BitVec.ofNat 8 (bits v 240 8)
  address := BitVec.ofNat 64 (bits v 176 64)
  blocks := BitVec.ofNat 8 (bits v 168 8)
  pop := BitVec.ofNat 8 (bits v 160 8)
  dsig := if v.testBit 159 then some (BitVec.ofNat 13 (bits v 146 13)) else none
  txn := BitVec.ofNat 16 (bits v 128 16)
  jobTag := BitVec.ofNat 32 (bits v 96 32)
  tally := BitVec.ofNat 13 (bits v 83 13)
  count := BitVec.ofNat 16 (bits v 67 16)

/-- Cut a message's data into 240-byte pieces; `fuel` bounds their number (R370). -/
def pieces : Nat → List Byte → List (List Byte)
  | 0, _ => []
  | n + 1, bs => if bs.isEmpty then [] else bs.take 240 :: pieces n (bs.drop 240)

/-- The flits of a message: one SINGLE, or a HEAD and its DATA flits (R370). -/
def messageFlits (m : Message) : List Flit :=
  let word := leBytes 32 (descNat m.desc)
  if m.data.isEmpty then [⟨{ m.hdr with ftype := 3 }, word⟩]
  else ⟨{ m.hdr with ftype := 1 }, word⟩ ::
    (pieces (m.data.length / 240 + 1) m.data).map (fun p => (⟨{ m.hdr with ftype := 2 }, p⟩ : Flit))

/-! ## A link's transmitter and receiver (R365 to R369) -/

/-- The virtual channel of a flit (R368). -/
def flitChannel (f : Flit) : Nat := 2 * f.hdr.cls.toNat + f.hdr.level.toNat

/-- The link carries LLC and link-local CTL flits (R377). -/
def Link.carriesLocal (l : Link) : Bool :=
  l.phase = .discovery || l.phase = .up || l.phase = .mismatch || l.phase = .quarantined

/-- A flit of a channel may be sent: credit held and room in the retry buffer (R365, R368). -/
def Link.canSend (l : Link) (v : Nat) : Bool := decide (0 < l.credits.getD v 0) && decide (l.retry.length < 512)

/-- Send one flit: it takes the next sequence number and costs one credit (R365, R368). -/
def State.transmit (s : State) (n : Nat) (f : Flit) : State :=
  let l := s.link n
  let v := flitChannel f
  (s.setLink n { l with txSeq := l.txSeq + 1, retry := l.retry ++ [f],
                        credits := l.credits.set v (l.credits.getD v 0 - 1) }).emit (.flit n (flitBytes l.txSeq f))

/-- A buffer of a receiver is free again: the credit is owed to the partner (R368). -/
def State.returnCredit (s : State) (x : Option (Nat × Nat)) : State :=
  match x with
  | some (n, v) =>
    let l := s.link n
    s.setLink n { l with owed := l.owed.set v (l.owed.getD v 0 + 1) }
  | none => s

/-- TYPE of a HEAD or SINGLE flit. -/
def flitType (f : Flit) : Nat := (f.payload.getD 31 0).toNat

/-- A timing flit: a beat marker or a probe (R374). -/
def timingFlit (f : Flit) : Bool :=
  f.hdr.cls == 3 && f.hdr.ftype == 3 && (flitType f == 1 || flitType f == 4 || flitType f == 5)

/-- A link-local flit: a SINGLE of CTL whose TYPE is below 0x10 (R372). -/
def linkLocal (f : Flit) : Bool := f.hdr.cls == 3 && f.hdr.ftype == 3 && decide (flitType f < 16)

/-- The first of some numbers after `last`, round the circle of the n numbers from 0. -/
def nextAfter (n last : Nat) (l : List Nat) : Option Nat :=
  ((List.range n).map (fun k => (last + 1 + k) % n)).find? (fun v => l.contains v)

/-- The channels of a link with a flit and the leave to send one. -/
def Link.readyChannels (l : Link) : List Nat :=
  (List.range 8).filter (fun v => l.canSend v && l.queue.any (fun w => flitChannel w.flit == v))

/-- The channel of the next flit (R369): CTL first, but after 8 consecutive slots another channel that waits; each kind round-robin.
`ctl` counts the consecutive slots of CTL so far. -/
def Link.nextChannel (l : Link) (ctl : Nat) : Option Nat :=
  let control := l.readyChannels.filter (fun v => decide (6 ≤ v))
  let others := l.readyChannels.filter (fun v => decide (v < 6))
  if !control.isEmpty && (decide (ctl < 8) || others.isEmpty) then nextAfter 8 l.lastControl control
  else nextAfter 8 l.lastChannel others

/-- The input that a channel serves next (R369): round-robin, but the oldest flit first when it is aged. -/
def Link.nextInput (l : Link) (v : Nat) (aged : Bool) : Nat :=
  let ws := l.queue.filter (fun w => flitChannel w.flit == v)
  let oldest := (ws.head?.map (·.input)).getD 0
  if aged then oldest else (nextAfter 29 (l.lastInput.getD v 28) (ws.map (·.input))).getD oldest

/-- The flit that goes next, and the link with its turns moved on (R369): a timing flit goes first; flits of one channel from one
input leave in their order. -/
def Link.pick (l : Link) (ctl : Nat) (aged : Bool) : Option (Waiting × Link) :=
  match l.queue.find? (fun w => timingFlit w.flit && l.canSend (flitChannel w.flit)) with
  | some w => some (w, { l with queue := l.queue.erase w })
  | none =>
    match l.nextChannel ctl with
    | none => none
    | some v =>
      let i := l.nextInput v aged
      match l.queue.find? (fun w => flitChannel w.flit == v && w.input == i) with
      | none => none
      | some w => some (w, { l with queue := l.queue.erase w, lastInput := AMap.set 28 l.lastInput v i,
                                    lastChannel := if v < 6 then v else l.lastChannel,
                                    lastControl := if v < 6 then l.lastControl else v })

/-- The flits of one channel that wait came by different inputs: only then does age choose among them. -/
def Link.inputsMeet (l : Link) : Bool :=
  (List.range 8).any (fun v =>
    decide (1 < ((l.queue.filter (fun w => flitChannel w.flit == v)).map (·.input)).dedup.length))

/-- Send waiting flits of a link for up to `fuel` slots (R369). Whether the oldest flit of a channel has waited 1,024 cycles is a
free value, because the model keeps no clock.
DESIGN CHOICE, safe: log entry 185. -/
def State.drainQueue (s : State) (n : Nat) : Nat → Nat → State
  | 0, _ => s
  | fuel + 1, ctl =>
    let l := s.link n
    match l.pick ctl (l.inputsMeet && s.freeWord.getLsbD 0) with
    | none => s
    | some (w, l1) =>
      let s1 := if l.inputsMeet then s.drawn else s
      State.drainQueue (((s1.setLink n l1).transmit n w.flit).returnCredit w.src) n fuel
        (if 6 ≤ flitChannel w.flit && !timingFlit w.flit then ctl + 1 else 0)

/-- Try to send a link's waiting flits. -/
def State.pump (s : State) (n : Nat) : State := s.drainQueue n (s.link n).queue.length 0

/-- Queue a flit on a link and send what can be sent.
DESIGN CHOICE, safe: log entry 146. -/
def State.push (s : State) (n : Nat) (w : Waiting) : State :=
  let l := s.link n
  (s.setLink n { l with queue := l.queue ++ [w] }).pump n

/-- The compute die of a link (R11). -/
def linkDie (n : Nat) : DieId := ⟨n / 12 % 4, Nat.mod_lt _ (by decide)⟩

/-- SRC_DEV of a flit that a link's transmitter makes: zero while the device has no ID (R363). -/
def State.ownDev (s : State) : BitVec 10 := BitVec.ofNat 10 (if s.param P.deviceId = 0xFFFF then 0 else s.param P.deviceId)

/-- Send a link-layer control flit: LTYPE 0 CREDIT_ACK, 1 RETRY_REQ or 2 IDLE (R367). It is not sequenced. -/
def State.sendLlc (s : State) (n : Nat) (ltype retrySeq : Nat) : State :=
  let l := s.link n
  let cr := (List.range 8).foldl (fun a v => a + l.owed.getD v 0 % 256 * 2 ^ (160 + 8 * v)) 0
  let word := ltype * 2 ^ 248 + (l.rxSeq - 1).toNat * 2 ^ 236 + retrySeq * 2 ^ 224 + cr
  let h : FlitHeader := ⟨0, 0, 0, 0, 0, s.ownDev, linkDie n, 0, s.ten.epoch, 0⟩
  (s.setLink n { l with owed := List.replicate 8 0, unacked := 0 }).emit (.flit n (flitBytes 0 ⟨h, leBytes 32 word⟩))

/-- A sequenced flit was received good: its number is taken, and 32 of them are acknowledged at the latest (R365). -/
def State.rxGood (s : State) (n : Nat) : State :=
  let l := s.link n
  let s1 := s.setLink n { l with rxSeq := l.rxSeq + 1, unacked := l.unacked + 1 }
  if 32 ≤ l.unacked + 1 then s1.sendLlc n 0 0 else s1

/-- A link-local CTL flit of a link: SINGLE on CTL level 0 (R363, R372). -/
def State.localFlit (s : State) (n : Nat) (launch : BitVec 6) (payload : List Byte) : Flit :=
  ⟨⟨3, 3, 0, 0, 0, s.ownDev, linkDie n, 0, s.ten.epoch, launch⟩, payload⟩

/-- Send a link-local CTL flit on a link that carries it.
DESIGN CHOICE, safe: log entry 42. -/
def State.sendLocal (s : State) (n : Nat) (launch : BitVec 6) (payload : List Byte) : State :=
  if (s.link n).carriesLocal then s.push n ⟨none, 0, s.localFlit n launch payload⟩ else s

/-- A link-local flit arrived on a link: it is consumed at the port and its buffer is free again (R368, R372). -/
def State.rxLocal (s : State) (n : Nat) : State := (s.rxGood n).returnCredit (some (n, 6))

/-! ## Drops and violations (R377, R385 to R388) -/

/-- A routed flit is dropped and counted (R377, R380); the event tells of the first one since the last such event (R390). -/
def State.dropRouted (s : State) (d : DieId) (dest : Nat) : State :=
  let first := s.fab.firstDrop.getD (d.val, dest)
  let s1 : State := { s with fab := { s.fab with firstDrop := if s.limitOpen Ev.routeDrop 0 then none else some first } }
  (s1.bump P.routeDrops 1).limited Ev.routeDrop hubSource 0 1 (fun n => [(1, first.1), (2, first.2), (4, n)])

/-- Drop the routed flits that wait on a link; each buffer that held one is free again (R368).
DEDUCED, unsafe: log entry 176. -/
def State.purgeRouted (s : State) (n : Nat) (counted : Bool) : State :=
  let q := (s.link n).queue
  let s1 := s.setLink n { s.link n with queue := q.filter (fun w => linkLocal w.flit) }
  (q.filter (fun w => !linkLocal w.flit)).foldl (fun (t : State) w =>
    (if counted then t.dropRouted (linkDie n) w.flit.hdr.dstDev.toNat else t).returnCredit w.src) s1

/-- The key of a message on its way through this device from a link (R385). -/
def transitKey (n : Nat) (h : FlitHeader) : Nat :=
  ((((n * 1024 + h.dstDev.toNat) * 4 + h.dstDie.val) * 1024 + h.srcDev.toNat) * 4 + h.srcDie.val) * 16384
    + h.cls.toNat * 4096 + h.msg.toNat

/-- The link of such a key. -/
def transitLink (k : Nat) : Nat := k / (1024 * 4 * 1024 * 4 * 16384)

/-- A link's retry buffer, its queue, what it has learnt of its partner and the messages under way from it are discarded (R366,
R508). -/
def State.flushLink (s : State) (n : Nat) (p : LinkPhase) : State :=
  let s0 := s.purgeRouted n true
  let s1 : State := { s0 with fab := { s0.fab with transit := s0.fab.transit.filter (fun (x : Nat × Nat) => transitLink x.1 != n)
                                                   transitDrop := s0.fab.transitDrop.filter (fun k => transitLink k != n) } }
  s1.setLink n { s1.link n with phase := p, retry := [], queue := [], replays := 0, probes := [], latencyKnown := false,
                                hello := none }

/-- A link goes DOWN: both ends discard their retry buffers and every flit queued for it (R366, R377, R390). -/
def State.downLink (s : State) (n cause : Nat) : State :=
  let s1 := (s.flushLink n .down).setParam (P.linkDownCause n) cause
  if (s.link n).phase = .up then s1.event Ev.linkDown [(1, n), (1, cause)] else s1

/-- The same for a link that can go DOWN: one that is QUARANTINED discards them and stays so, since only LINK_CTRL 2 ends that
(R388). -/
def State.linkToDown (s : State) (n cause : Nat) : State :=
  if (s.link n).phase = .quarantined then s.flushLink n .quarantined else s.downLink n cause

/-- Violations of a link within the last 1,024 beats (R388). -/
def windowCount (now : Nat) (l : List (Nat × Nat)) : Nat :=
  (l.filter (fun p => decide (now < p.1 + 1024))).foldl (fun a p => a + p.2) 0

/-- Count a violation in its beat. -/
def addViolation (now : Nat) (l : List (Nat × Nat)) : List (Nat × Nat) :=
  let m := l.filter (fun p => decide (now < p.1 + 1024))
  match m.getLast? with
  | some p => if p.1 = now then m.dropLast ++ [(now, p.2 + 1)] else m ++ [(now, 1)]
  | none => [(now, 1)]

/-- A flit on a link breaks the protocol (R386, R388). -/
def State.violate (s : State) (n code : Nat) (hdr : W64) : State :=
  let l := s.link n
  let now := s.beat.count
  let vb := addViolation now l.violBeats
  let first := match l.violNow with
    | some (c, h, k) => (c, h, k + 1)
    | none => (code, hdr, 1)
  let s1 := (((s.setLink n { l with violBeats := vb, violNow := some first }).bump (P.linkViolations n) 1).setParam
    (P.lastViolation n) code).limited Ev.linkViolation hubSource n 1 (fun k => [(1, n), (1, code), (4, k)])
  if 256 ≤ windowCount now vb ∧ l.phase ≠ .quarantined then
    let s2 := s1.purgeRouted n false
    State.event (s2.setLink n { s2.link n with phase := .quarantined }) Ev.linkQuarantined [(1, n)]
  else s1

/-! ## Routes (R378 to R381) -/

/-- The active route entry of a die for a device (R378). -/
def State.routeEntry (s : State) (d : DieId) (dev : Nat) : Nat := fieldLE (s.blob (P.routeActive d.val)) (8 * dev) 8

/-- A die has an installed route to a device. -/
def State.routed (s : State) (d : DieId) (dev : Nat) : Bool :=
  decide (dev < 1024) && (s.routeEntry d dev).testBit 63

/-- PORT of a route entry. -/
def entryPort (e : Nat) : Nat := bits e 59 4
/-- LEVEL of a route entry. -/
def entryLevel (e : Nat) : Nat := bits e 58 1

/-- LINK_STATE (R377). -/
def LinkPhase.code : LinkPhase → Nat
  | .disabled => 0
  | .down => 1
  | .training => 2
  | .discovery => 3
  | .up => 4
  | .mismatch => 5
  | .quarantined => 6

/-- The links that the valid entries of a die's active route table name (R378, R383). -/
def State.routedLinks (s : State) (d : DieId) : List Nat :=
  (List.range 1024).filterMap (fun dev =>
    let e := s.routeEntry d dev
    if e.testBit 63 ∧ entryPort e < 12 then some (12 * d.val + entryPort e) else none)

/-- The first link that an active route entry names and that is not UP (R383). -/
def State.routedDown (s : State) : Option Nat :=
  let used := allDies.flatMap s.routedLinks
  (List.range 48).find? (fun n => (s.link n).phase != .up && used.contains n)

/-- The first UP link whose neighbour has reported another ROUTE_GEN (R383). -/
def State.otherRouteGen (s : State) : Option Nat :=
  (List.range 48).find? (fun n =>
    (s.link n).phase == .up && ((s.link n).hello.any (fun h => h.routeGen.toNat != s.param P.routeGenActive)))

/-- Why the fabric lets no job start, as the event that it logs and that event's detail (R383, R390).
DEDUCED, unsafe: log entry 135. -/
def State.routeRefusal (s : State) : Option (Nat × List (Nat × Nat)) :=
  match s.routedDown with
  | some n => some (Ev.routeLinkDown, [(1, n), (1, (s.link n).phase.code)])
  | none =>
    match s.otherRouteGen with
    | some n => some (Ev.routeGenMismatch, [(1, n), (4, (((s.link n).hello.map HelloF.routeGen).getD 0).toNat)])
    | none => none

/-- The IN_MASK bit of an input (R379). -/
def inputBit : FlitInput → Nat
  | .local => 0
  | .link l lv => 1 + 2 * (l.val % 12) + lv.toNat
  | .row lv => 25 + lv.toNat
  | .column lv => 27 + lv.toNat

/-- The link and channel of an input, if it is a link. -/
def inputLink (i : FlitInput) (f : Flit) : Option (Nat × Nat) :=
  match i with
  | .link l _ => some (l.val, flitChannel f)
  | _ => none

/-- The neighbour of a die in its row (R8, R16). -/
def rowNeighbour : DieId → DieId
  | 0 => 1 | 1 => 0 | 2 => 3 | 3 => 2

/-- The neighbour of a die in its column (R8, R16). -/
def columnNeighbour : DieId → DieId
  | 0 => 2 | 1 => 3 | 2 => 0 | 3 => 1

/-- A flit with no route or no leave to use it (R380): a violation if it came to this die by a link, else a counted drop. The buffer
that held it is free again. -/
def State.refuseFlit (s : State) (d : DieId) (inp : FlitInput) (origin : Option (Nat × Nat)) (code : Nat) (f : Flit) : State :=
  (match inp with
    | .link l _ => s.violate l.val code (BitVec.ofNat 64 (headerNat f.hdr))
    | _ => s.dropRouted d f.hdr.dstDev.toNat).returnCredit origin

/-- The hop of a delivery toward another die of the device, row first and then column (R16), with the input that it is there. -/
def deliveryHop (d x : DieId) : DieId × FlitInput :=
  if x = rowNeighbour d ∨ x = columnNeighbour (rowNeighbour d) then (rowNeighbour d, .row 0) else (columnNeighbour d, .column 0)

/-- Route a flit at a die (R380): the answer holds the die at which this device delivers it, if it does, with its buffer still
held. `origin` is that buffer; `fuel` bounds the die hops, whose channel orders rise strictly (R381). A flit toward a die in reset is
dropped and counted (R506). -/
def State.route (s : State) (origin : Option (Nat × Nat)) (f : Flit) : Nat → DieId → FlitInput → State × Option DieId
  | 0, d, _ => ((s.dropRouted d f.hdr.dstDev.toNat).returnCredit origin, none)
  | fuel + 1, d, inp =>
    if (s.front d).inReset then ((s.dropRouted d f.hdr.dstDev.toNat).returnCredit origin, none)
    else if s.param P.deviceId = f.hdr.dstDev.toNat then
      if f.hdr.dstDie = d then (s, some d)
      else s.route origin f fuel (deliveryHop d f.hdr.dstDie).1 (deliveryHop d f.hdr.dstDie).2
    else
      let e := s.routeEntry d f.hdr.dstDev.toNat
      if !e.testBit 63 then (s.refuseFlit d inp origin 3 f, none)
      else if !e.testBit (29 + inputBit inp) then (s.refuseFlit d inp origin 4 f, none)
      else
        let g : Flit := { f with hdr := { f.hdr with level := BitVec.ofNat 1 (entryLevel e) } }
        let port := entryPort e
        if port < 12 then
          let n := 12 * d.val + port
          if (s.link n).phase = .up then (s.push n ⟨origin, inputBit inp, g⟩, none)
          else if (s.link n).phase = .quarantined then (s.returnCredit origin, none)
          else ((s.dropRouted d f.hdr.dstDev.toNat).returnCredit origin, none)
        else if port = 12 then s.route origin g fuel (rowNeighbour d) (.row g.hdr.level)
        else s.route origin g fuel (columnNeighbour d) (.column g.hdr.level)

/-- Send a message of a die into the fabric. -/
def State.sendMessage (s : State) (d : DieId) (m : Message) : State :=
  (messageFlits m).foldl (fun (t : State) f => (t.route none f 20 d .local).1) s

/-! ## Requests and their numbers (R370, R371, R373) -/

/-- An orchard-global address (R210).
PRESUMED, unsafe: log entry 69. -/
def globalAddress (dev : Nat) (d : DieId) (tier cell byte : Nat) : Nat :=
  dev * 2 ^ 54 + d.val * 2 ^ 52 + tier * 2 ^ 50 + cell * 2 ^ 44 + byte

/-- The header of a request of a die. -/
def State.requestHeader (s : State) (d : DieId) (cls : Nat) (dev : Nat) (die : DieId) (msg : Nat) (epoch : W16) :
    FlitHeader :=
  ⟨0, BitVec.ofNat 2 cls, 0, BitVec.ofNat 10 dev, die, BitVec.ofNat 10 (s.param P.deviceId), d, BitVec.ofNat 12 msg, epoch, 0⟩

/-- Send a request under the lowest message number free for its die and class; with none free it waits (R370). -/
def State.request (s : State) (p : Pending) (m : Message) : State :=
  match lowestFree 4096 (fun n => s.fab.pendings.any (fun q => q.die == p.die && q.cls == p.cls && q.txn == n)) with
  | some n =>
    let hdr := { m.hdr with msg := BitVec.ofNat 12 n }
    let desc := { m.desc with txn := BitVec.ofNat 16 n }
    State.sendMessage { s with fab := { s.fab with pendings := s.fab.pendings ++ [{ p with txn := n }] } } p.die
      { m with hdr := hdr, desc := desc }
  | none => { s with fab := { s.fab with backlog := s.fab.backlog ++ [(p, m)] } }

/-- A message number came free: send the oldest request of its die and class that waits. -/
def State.nextRequest (s : State) (d : DieId) (cls : Nat) : State :=
  match List.find? (fun (x : Pending × Message) => x.1.die == d && x.1.cls == cls) s.fab.backlog with
  | some x => State.request { s with fab := { s.fab with backlog := s.fab.backlog.erase x } } x.1 x.2
  | none => s

/-- Answer a message (R373): the response echoes MSG and TXN.
DESIGN CHOICE, safe: log entry 146. -/
def State.respond (s : State) (m : Message) (type status : Nat) (cls : Nat) (data : List Byte) : State :=
  let hdr : FlitHeader := ⟨0, BitVec.ofNat 2 cls, 0, m.hdr.srcDev, m.hdr.srcDie, m.hdr.dstDev, m.hdr.dstDie, m.hdr.msg,
    s.ten.epoch, 0⟩
  let desc : Descriptor := ⟨BitVec.ofNat 8 type, BitVec.ofNat 8 status, m.desc.address, m.desc.blocks, 0, none,
    m.desc.txn, BitVec.ofNat 32 s.runningTag, 0, 0⟩
  s.sendMessage m.hdr.dstDie ⟨hdr, desc, data⟩

end Sys2Proof.Machine
end

