-- ==== Sys2Proof/Machine/Tally.lean ====
section
/-! DEFINITION. Tallies, and operations in progress: how one awaits its answers and how it completes (R149, R151 to R156,
R159, R195, R373). -/

namespace Sys2Proof.Machine

/-! ## Tallies (R151, R152) -/

/-- The value of a tally. -/
def State.tally (s : State) (d : DieId) (t : Nat) : W32 := (s.front d).tallies.getD t 0

/-- Add to a tally, modulo 2^32. -/
def State.addTally (s : State) (d : DieId) (t n : Nat) : State :=
  s.modFront d (fun f => { f with tallies := AMap.set 0 f.tallies t (f.tallies.getD t 0 + BitVec.ofNat 32 n) })

/-- The base of a tally. -/
def FrontEnd.base (f : FrontEnd) (t : Nat) : W32 := f.bases.getD t 0

/-- A value has reached base + w (R151). -/
def reached (value base : W32) (w : Nat) : Bool := decide ((value - (base + BitVec.ofNat 32 w)).toNat < 2 ^ 31)

/-- An operation's wait is met (R151). -/
def State.waitMet (s : State) (d : DieId) (w : Option (BitVec 13 × W16)) : Bool :=
  match w with
  | some (t, o) => reached (s.tally d t.toNat) ((s.front d).base t.toNat) o.toNat
  | none => true

/-- A remote tally operation arrives at a die: it is applied, or dropped when its job tag is not the running job's or no job
runs (R155, R156). -/
def State.receiveTally (s : State) (d : DieId) (t n tag : Nat) : State :=
  if s.jobActive && tag == s.runningTag then s.addTally d t n
  else s.limited Ev.tallyRemoteDropped d.val d.val 1 (fun k => [(4, k)])

/-! ## Operations in progress -/

/-- Change the record of a running operation. -/
def State.modRunning (s : State) (d : DieId) (id : Nat) (g : Running → Running) : State :=
  s.modFront d (fun f => { f with running := f.running.map (fun r => if r.id = id then g r else r) })

/-- An operation awaits n further answers. -/
def State.awaitMore (s : State) (d : DieId) (id n : Nat) : State :=
  s.modRunning d id (fun r => { r with awaiting := r.awaiting + n })

/-- Forget a running operation. -/
def State.dropRunning (s : State) (d : DieId) (id : Nat) : State :=
  let s1 := s.modFront d (fun f => { f with running := f.running.filter (fun r => r.id ≠ id) })
  if s.fab.writes.isEmpty && s.fab.lastMsgs.isEmpty then s1
  else { s1 with fab := { s1.fab with
           writes := s1.fab.writes.filter (fun w => w.owner != (d, id))
           lastMsgs := s1.fab.lastMsgs.filter (fun (x : Pending × Message) => (x.1.die, x.1.op) != (d, id)) } }

/-- Put an operation into the running list under a new number. -/
def State.beginOp (s : State) (d : DieId) (slot : Slot) (e : QEntry) (cycle : Nat) : State :=
  let s1 := s.modFront d (fun f => { f with running := f.running ++ [⟨s.fab.nextOp, slot, e, cycle, s.ten.epoch, 0⟩] })
  { s1 with fab := { s1.fab with nextOp := s1.fab.nextOp + 1 } }

/-- The places that a destination signal can go: a die of this device, a die of another device. -/
inductive SigPlace where
  | here (d : DieId)
  | away (dev : Nat) (d : DieId)
  deriving DecidableEq, Repr

/-- The destination die of a space, seen from die d (R175). -/
def State.spacePlace (s : State) (d : DieId) (sp : Space) (target : DieId) (dev : W32) : SigPlace :=
  match sp with
  | .sram | .hbm | .lpddr => .here d
  | .dieHbm | .dieLpddr | .dieSram => .here target
  | .devHbm | .devLpddr | .devSram => if dev.toNat = s.param P.deviceId then .here target else .away dev.toNat target

/-- The destination signal of an operation and where it goes (R159, R195). -/
def State.opSignal (s : State) (d : DieId) (o : Op) : Option (BitVec 13 × SigPlace) :=
  match o with
  | .copy f => f.dsig.map (fun t => (t, s.spacePlace d f.dstSpace f.targetDie f.dev))
  | .gather f => f.dsig.map (fun t => (t, .here d))
  | .press _ f => f.dsig.map (fun t => (t, s.spacePlace d f.dstSpace f.targetDie f.dev))
  | _ => none

/-- Apply an operation's own signal (R140, R149). -/
def State.ownSignal (s : State) (d : DieId) (e : QEntry) : State :=
  match e.sig with
  | some (t, n) => s.addTally d t.toNat n
  | none => s

/-- Apply a destination signal that falls on this device. -/
def State.nearSignal (s : State) (d : DieId) (o : Op) : State :=
  match s.opSignal d o with
  | some (t, .here x) => s.addTally x t.toNat 1
  | _ => s

/-- An operation has every answer it awaits (R232, R373). -/
def State.settled (s : State) (d : DieId) (r : Running) : Bool :=
  r.awaiting == 0 && !s.host.snoops.any (fun b => b.owner == .op d r.id)

/-- An operation completes: its destination signal on this device and its own signal are applied (R149, R195). -/
def State.finish (s : State) (d : DieId) (r : Running) : State :=
  ((s.dropRunning d r.id).nearSignal d r.entry.op).ownSignal d r.entry

/-- A hollow operation completes with its own signal; its destination signal has been sent or applied. -/
def State.finishHollow (s : State) (d : DieId) (r : Running) : State := (s.dropRunning d r.id).ownSignal d r.entry

/-- The running operation of a number. -/
def State.running? (s : State) (d : DieId) (id : Nat) : Option Running :=
  (s.front d).running.find? (fun r => r.id == id)

/-- Operations that complete with their last answer (R193, R199, R373): those that move data outside the die's cells and
those that send a tally operation. -/
def completesWhenSettled : Op → Bool
  | .copy _ | .gather _ | .press _ _ | .tallyAdd _ | .tallyRadd _ => true
  | _ => false

/-- Complete an operation if it has every answer. -/
def State.settle (s : State) (d : DieId) (id : Nat) : State :=
  match s.running? d id with
  | some r =>
    if s.settled d r then (if r.entry.issue.hollow then s.finishHollow d r else s.finish d r) else s
  | none => s

/-- Answers that an operation awaits. -/
def State.awaits (s : State) (d : DieId) (id : Nat) : Nat := ((s.running? d id).map (·.awaiting)).getD 0

/-- Send an operation's last message, whose answer it awaits already: it carries the destination signal, so it is held while
others are not answered (R195, R394). -/
def State.requestLast (s : State) (p : Pending) (m : Message) : State :=
  if s.awaits p.die p.op ≤ 1 then s.request p m
  else { s with fab := { s.fab with lastMsgs := s.fab.lastMsgs ++ [(p, m)] } }

/-- Send the held message of an operation that awaits nothing else. -/
def State.releaseLast (s : State) (d : DieId) (id : Nat) : State :=
  match List.find? (fun (x : Pending × Message) => x.1.die == d && x.1.op == id) s.fab.lastMsgs with
  | some x =>
    if s.awaits d id ≤ 1 then State.request { s with fab := { s.fab with lastMsgs := s.fab.lastMsgs.erase x } } x.1 x.2 else s
  | none => s

/-- One answer of an operation has come; with the last the operation completes. -/
def State.answered (s : State) (d : DieId) (id : Nat) : State :=
  ((s.modRunning d id (fun r => { r with awaiting := r.awaiting - 1 })).releaseLast d id).settle d id

/-! ## Remote tally operations (R154, R155, R159) -/

/-- The epoch of a running operation. -/
def State.opEpoch (s : State) (d : DieId) (id : Nat) : W16 := ((s.running? d id).map (·.epoch)).getD s.ten.epoch

/-- A descriptor with only its type set. -/
def plainDesc (type : Nat) : Descriptor := ⟨BitVec.ofNat 8 type, 0, 0, 0, 0, none, 0, 0, 0, 0⟩

/-- Send a remote tally operation to another device and await its acknowledgement. -/
def State.sendTally (s : State) (d : DieId) (id dev : Nat) (die : DieId) (t : BitVec 13) (n : W16) : State :=
  let m : Message := ⟨s.requestHeader d 3 dev die 0 (s.opEpoch d id),
    { plainDesc 0x10 with tally := t, count := n, jobTag := BitVec.ofNat 32 s.runningTag }, []⟩
  (s.awaitMore d id 1).request ⟨0, 3, 0x10, d, id, none, 0, s.opEpoch d id⟩ m

/-- The destination signal of a hollow operation (R159): on this die it is applied at once, elsewhere it goes as a remote
tally operation of count 1. -/
def State.hollowSignal (s : State) (d : DieId) (id : Nat) (o : Op) : State :=
  match s.opSignal d o with
  | some (t, .here x) => if x = d then s.addTally d t.toNat 1 else s.receiveTally x t.toNat 1 s.runningTag
  | some (t, .away dev x) => s.sendTally d id dev x t 1
  | none => s

/-- A copy or Press operation that expands over no enabled cell moves nothing, but it completes: its destination signal to another
device goes as a remote tally operation (R155, R194). -/
def State.bareSignal (s : State) (d : DieId) (id : Nat) (o : Op) : State :=
  match s.opSignal d o with
  | some (t, .away dev x) => s.sendTally d id dev x t 1
  | _ => s

/-- TALLY.RADD (R154): to this device it is applied on arrival, to another one it awaits the acknowledgement. A device without
a route, or any device while this one has no ID, is a run-time fault (R175, R205). -/
def effTallyRadd (s : State) (d : DieId) (id : Nat) (f : TallyRaddF) : Done :=
  if f.count = 0 then .undef
  else if s.param P.deviceId = 0xFFFF ∨ 1024 ≤ f.device.toNat then .trip (.tallyUnroutable f.device.toNat)
  else if f.device.toNat = s.param P.deviceId then .ok (s.receiveTally f.die f.tally.toNat f.count.toNat s.runningTag)
  else if s.routed d f.device.toNat then .ok (s.sendTally d id f.device.toNat f.die f.tally f.count)
  else .trip (.tallyUnroutable f.device.toNat)

/-- TALLY.ADD (R154). -/
def effTallyAdd (s : State) (d : DieId) (f : TallyAddF) : Done :=
  if f.count = 0 then .undef else .ok (s.addTally d f.tally.toNat f.count.toNat)

end Sys2Proof.Machine
end

