-- ==== Sys2Proof/Machine/Walker.lean ====
section
/-! DEFINITION. Reads of external blocks with their checks, page tables, the walkers and the staging buffers: the effects of
STAGE, WALK and FLUSH.TAIL (R128 to R132, R190, R197, R198, R225, R302 to R313, R424). -/

namespace Sys2Proof.Machine

/-! ## Checks of external blocks (R225, R424) -/

/-- The run-time fault of one block of a tier space. -/
def State.blockTrip (s : State) (lp : Bool) (d : DieId) (b : Nat) : Option Trip :=
  let frame := frameOf lp d (b / 256)
  let block := b % 256
  if s.mem.memDouble.getD (frame * 256 + block) false then some (.memDouble frame block)
  else (s.blockFail frame block).map (fun c => .tag frame block c)

/-- The first run-time fault of consecutive blocks. -/
def State.blocksTrip (s : State) (lp : Bool) (d : DieId) (b : Nat) : Nat → Option Trip
  | 0 => none
  | n + 1 =>
    match s.blockTrip lp d b with
    | some t => some t
    | none => s.blocksTrip lp d (b + 1) n

/-- Corrected errors that a tier's blocks from b to b + n − 1 hold at one controller. -/
def State.singlesAt (s : State) (lp : Bool) (d : DieId) (b n ctrl : Nat) : Nat :=
  let lo := frameOf lp d 0 * 256 + b
  s.mem.memSingle.countP (fun (p : Nat × Bool) =>
    decide (lo ≤ p.1 ∧ p.1 < lo + n) && controllerOf lp (p.1 / 256 % 2 ^ 22) == ctrl)

/-- Count the corrected errors of consecutive blocks of one controller; MEM_CORRECTED is logged at most once per 1,024 beats
(R225), with the controller's index on its tier (R11). -/
def State.correctCtrl (s : State) (lp : Bool) (d : DieId) (b n ctrl : Nat) : State :=
  let k := s.singlesAt lp d b n ctrl
  if k = 0 then s
  else (s.bump P.memCorrectedCount k).limited Ev.memCorrected d.val 0 k (fun m => [(1, localCtrl ctrl), (4, m)])

/-- Count the corrected errors that a read of consecutive blocks meets (R225). -/
def State.correctMem (s : State) (lp : Bool) (d : DieId) (b n : Nat) : State :=
  if s.mem.memSingle.isEmpty then s else (List.range 10).foldl (fun t c => t.correctCtrl lp d b n c) s

/-- A fault that a read with no operation of a plan behind it, and not of the host, meets is counted and logged (R121, R424, R431, R439);
it names no plan and no word.
DEDUCED, unsafe: log entry 201. -/
def State.countTrip (s : State) (d : DieId) (t : Trip) : State :=
  match t with
  | .tag f b c => (s.bump P.rindTagFails 1).dieEvent d Ev.rindTagFail [(4, f), (1, b), (1, c), (2, 0), (2, 0)]
  | .memDouble _ _ => s.bump P.memUncorrectableCount 1
  | .unwritten x c a => (s.bump P.sramUnwrittenReads 1).dieEvent x Ev.sramUnwritten [(1, c), (4, a)]
  | .sramDouble x c a => (s.dieEvent x Ev.sramUncorrectable [(1, c), (4, a)]).requestHalt x
  | _ => s

/-- Something that carries another tenant epoch is dropped and counted at a point of R425's table: 1 delivery, 2 remote tally
operation, 3 Press application, 5 response (R425, R439). -/
def State.epochDrop (s : State) (d : DieId) (point : Nat) : State :=
  (s.bump P.epochDrops 1).limited Ev.epochDrop d.val 0 1 (fun n => [(1, point), (4, n)])

/-! ## What a copy of the hub reads (R215, R216, R424) -/

/-- A range of bytes cut at the boundaries of blocks: start and length of each part. -/
def blockParts (o n : Nat) : List (Nat × Nat) :=
  (List.range (ceilDiv (o % 256 + n) 256)).map (fun k =>
    let a := max o ((o / 256 + k) * 256)
    (a, min (o + n) ((o / 256 + k + 1) * 256) - a))

/-- What a part within one block delivers: nothing of a block that fails its check.
DESIGN CHOICE, safe: log entry 172. -/
def State.checkedPart (s : State) (fails : Bool) (o n : Nat) (plain : List Byte) : List Byte :=
  if fails then (List.range n).map (fun i => Config.failedByte s.free (o + i)) else plain

/-- Bytes of a tier space as a copy of the hub reads them.
DESIGN CHOICE, safe: log entry 172. -/
def State.extGet (s : State) (lp : Bool) (d : DieId) (b n : Nat) : List Byte :=
  (blockParts b n).flatMap (fun (x : Nat × Nat) =>
    s.checkedPart (s.blockTrip lp d (x.1 / 256)).isSome x.1 x.2 (s.extRead lp d x.1 x.2))

/-- Bytes of the window as the hub reads them.
DESIGN CHOICE, safe: log entry 172. -/
def State.windowGet (s : State) (o n : Nat) : List Byte :=
  (blockParts o n).flatMap (fun (x : Nat × Nat) =>
    s.checkedPart (s.blockTrip true (windowDie x.1) (windowBlock x.1)).isSome x.1 x.2 (s.windowRead x.1 x.2))

/-- Count what a copy of the hub met in some blocks: failures, and corrected errors. -/
def State.hubMet (s : State) (lp : Bool) (blocks : List (DieId × Nat)) : State :=
  let fails := blocks.filterMap (fun (x : DieId × Nat) => (s.blockTrip lp x.1 x.2).map (fun t => (x.1, t)))
  let s1 := blocks.foldl (fun (t : State) (x : DieId × Nat) => t.correctMem lp x.1 x.2 1) s
  if fails.isEmpty then s1 else (fails.foldl (fun (t : State) (x : DieId × Trip) => t.countTrip x.1 x.2) s1).drawn

/-- Count what a copy of the hub met in n bytes of a tier space. -/
def State.extMet (s : State) (lp : Bool) (d : DieId) (b n : Nat) : State :=
  s.hubMet lp ((blockParts b n).map (fun (x : Nat × Nat) => (d, x.1 / 256)))

/-- Count what a copy of the hub met in n bytes of the window. -/
def State.windowMet (s : State) (o n : Nat) : State :=
  s.hubMet true ((blockParts o n).map (fun (x : Nat × Nat) => (windowDie x.1, windowBlock x.1)))

/-- The hub writes bytes within one block: a write of part of one checks the block that it merges into, and is not made where that
block fails, so that it stays a failed one (R215, R424). -/
def State.hubPart (s : State) (lp : Bool) (d : DieId) (b : Nat) (bytes : List Byte) : State :=
  if bytes.length = 256 then s.extWriteBlock lp d b bytes
  else
    match s.blockTrip lp d (b / 256) with
    | some t => s.countTrip d t
    | none => (s.correctMem lp d (b / 256) 1).extWriteBlock lp d b bytes

/-- The hub writes bytes of a tier space (R215, R216). -/
def State.hubPut (s : State) (lp : Bool) (d : DieId) (b : Nat) (bytes : List Byte) : State :=
  (blockParts b bytes.length).foldl (fun (t : State) (x : Nat × Nat) =>
    t.hubPart lp d x.1 ((bytes.drop (x.1 - b)).take x.2)) s

/-! ## Unordered accesses (R221) -/

/-- The writes of a block by operations that still run. -/
def State.openWrites (s : State) (lp : Bool) (d : DieId) (b : Nat) : List OpenWrite :=
  s.fab.writes.filter (fun w => w.lp == lp && w.die == d && w.block == b
    && (s.front w.owner.1).running.any (fun r => r.id == w.owner.2))

/-- A block as an operation or a remote message reads it: one that a running operation has written reads as the old or the new
block.
DESIGN CHOICE, safe: log entry 183. -/
def State.raceBlock (s : State) (lp : Bool) (d : DieId) (b : Nat) : List Byte :=
  match (s.openWrites lp d b).find? (fun _ => !Config.raceTakesNew s.fab.nextOp (extKey d b)) with
  | some w => w.old
  | none => s.extRead lp d (b * 256) 256

/-- Blocks as an operation or a remote message reads them.
DESIGN CHOICE, safe: log entry 183. -/
def State.raceRead (s : State) (lp : Bool) (d : DieId) (b n : Nat) : List Byte :=
  if s.fab.writes.isEmpty then s.extRead lp d (b * 256) (256 * n)
  else (List.range n).flatMap (fun k => s.raceBlock lp d (b + k))

/-- Some bytes within one block, read likewise. -/
def State.raceBytes (s : State) (lp : Bool) (d : DieId) (a n : Nat) : List Byte :=
  if s.fab.writes.isEmpty then s.extRead lp d a n else ((s.raceBlock lp d (a / 256)).drop (a % 256)).take n

/-- A write of a block gives way to what another running operation has written there: which of the two prevails is open.
DESIGN CHOICE, safe: log entry 183. -/
def State.raceLost (s : State) (owner : Option (DieId × Nat)) (lp : Bool) (d : DieId) (b : Nat) : Bool :=
  (s.openWrites lp d b).any (fun w => some w.owner != owner) && !Config.raceTakesNew s.fab.nextOp (extKey d b + 1)

/-- Write bytes for a remote message, a Press unit or a flush: each block ends up as one of its writers left it (R221). -/
def State.racePut (s : State) (lp : Bool) (d : DieId) (b : Nat) (bytes : List Byte) : State :=
  if s.fab.writes.isEmpty then s.extPut lp d b bytes
  else (blockParts b bytes.length).foldl (fun (t : State) (x : Nat × Nat) =>
    if t.raceLost none lp d (x.1 / 256) then t else t.extWriteBlock lp d x.1 ((bytes.drop (x.1 - b)).take x.2)) s

/-- Write a block for an operation: where another running operation has written it, the block ends up as one of the two left it.
DESIGN CHOICE, safe: log entry 183. -/
def State.raceStore (s : State) (owner : DieId × Nat) (lp : Bool) (d : DieId) (b : Nat) (data : List Byte) : State :=
  let old := s.extRead lp d (b * 256) 256
  let s1 := if s.raceLost (some owner) lp d b then s else s.extWriteBlock lp d (b * 256) data
  { s1 with fab := { s1.fab with writes := s1.fab.writes ++ [⟨lp, d, b, owner, old⟩] } }

/-! ## Page tables (R301 to R309) -/

/-- Tokens per page of a KV format code (R302). -/
def kvTpp (fmt : Nat) : Nat := if fmt < 2 then 128 else 256

/-- Bytes of K or of V of one token of a KV format code (R302). -/
def kvStride (fmt : Nat) : Nat := if fmt < 2 then 256 else 128

/-- The tables that a die's operations read: those of the plan that it holds (R30, R31). -/
def State.tablesOf (s : State) (d : DieId) : KvTables := ((s.kv.views.get d).head?).getD s.kv.live

/-- The sequence record of an ID as a die reads it, none when it is FREE or names no sequence (R304). -/
def State.seq? (s : State) (d : DieId) (q : Nat) : Option SeqRec := (s.tablesOf d).seqs.find? q

/-- Index of an entry in a die's PTE pool (R307). -/
def pteIndex (extent heads ppl layer head page : Nat) : Nat := extent + (layer * heads / 4 + head / 4) * ppl + page

/-- The entry with nothing in it. -/
def Pte.none : Pte := ⟨0, false, false, 0, 0, 0, 0⟩

/-- An entry of a die's pool. -/
def State.pte (s : State) (d : DieId) (i : Nat) : Pte := ((s.tablesOf d).ptes.get d).getD i Pte.none

/-- The index of the entry of a list page of a sequence. -/
def State.pteOf (s : State) (r : SeqRec) (layer head page : Nat) : Nat :=
  pteIndex r.extent (s.param P.kvHeads) r.pagesPerList layer head page

/-- First page of the KV frame pool of a die (R309). -/
def State.kvFirstFrame (s : State) : Nat := s.regionFirst .kv + 129 + s.layoutOf 7

/-- End of the KV frame pool of a die (R309). -/
def State.kvEndFrame (s : State) : Nat := s.regionFirst .kv + s.regionPages .kv - 8

/-- A frame number is a KV frame of a die's HBM (R311). -/
def State.isKvFrame (s : State) (d : DieId) (f : Nat) : Bool :=
  !frameLp f && frameDie f == d && decide (s.kvFirstFrame ≤ framePage f) && decide (framePage f < s.kvEndFrame)
    && decide (f = frameOf false d (framePage f))

/-- The first condition of R311 that holds, as its cause 1 SEQ to 5 ORDER; `after` says that an earlier walked entry of
the list was not full. -/
def State.pteFault (s : State) (d : DieId) (r : Option SeqRec) (p : Pte) (after : Bool) : Option Nat :=
  match r with
  | Option.none => some 1
  | some q =>
    if p.dropped then some 2
    else if p.valid && (p.gen != q.gen || p.keySlot != q.keySlot || p.fmt != q.fmt) then some 3
    else if p.valid && !s.isKvFrame d p.frame then some 4
    else if decide (kvTpp q.fmt < p.used) || (decide (0 < p.used) && (!p.valid || after)) then some 5
    else Option.none

/-- The same for a STAGE or a flush, whose entry must be valid (cause 6 UNMAPPED).
DEDUCED, unsafe: log entry 36. -/
def State.appendFault (s : State) (d : DieId) (r : Option SeqRec) (p : Pte) : Option Nat :=
  match s.pteFault d r p false with
  | some c => some c
  | Option.none => if p.valid then Option.none else some 6

/-- Report a table fault to the hub, once per sequence (R312). -/
def State.tableFault (s : State) (d : DieId) (q layer head page cause : Nat) : State :=
  let s1 := if s.adm.faultedSeqs.contains q then s
    else { s with adm := { s.adm with faultedSeqs := s.adm.faultedSeqs ++ [q] } }
  if s1.kv.reported.contains q then s1
  else
    State.dieEvent (State.bump { s1 with kv := { s1.kv with reported := s1.kv.reported ++ [q] } } P.kvWalkFaults 1)
      d Ev.ptInconsistent [(4, q), (1, layer), (1, head), (2, page), (1, cause)]

/-! ## WALK (R197, R310) -/

/-- Bytes that a walk delivers for one page. -/
def partBytes : Part → Nat
  | .kv => 65536
  | _ => 32768

/-- The entries that a walk of one cell translates: list page, entry, cause of its fault (R311). -/
def State.walkEntries (s : State) (d : DieId) (r : Option SeqRec) (layer head : Nat) :
    Nat → Nat → Bool → List (Nat × Pte × Option Nat)
  | _, 0, _ => []
  | page, n + 1, after =>
    let p := match r with
      | some q => s.pte d (s.pteOf q layer head page)
      | Option.none => Pte.none
    let tpp := kvTpp ((r.map (·.fmt)).getD 0)
    (page, p, s.pteFault d r p after) :: s.walkEntries d r layer head (page + 1) n (after || decide (p.used < tpp))

/-- The entries of a walk in cell c.
DEDUCED, unsafe: log entry 34. -/
def State.walkList (s : State) (d : DieId) (f : WalkF) (c : Nat) : List (Nat × Pte × Option Nat) :=
  let r := s.seq? d (ptrAt f.seq c)
  s.walkEntries d r f.layer.toNat (ptrAt f.head c) (ptrAt f.tok c / kvTpp ((r.map (·.fmt)).getD 0))
    (f.npage.val + 1) false

/-- The row staged for token k of a page in a cell's own buffer (R111, R129); of two rows for one token the newest.
DESIGN CHOICE, unsafe: log entry 179. -/
def State.stagedRow (s : State) (d : DieId) (c q head layer page tpp k : Nat) : Option StageRow :=
  ((s.cells.staging.filter (fun x => x.die == d && x.cell.val == c && x.seq == q && x.head == head
    && x.layer == layer && x.page == page)).flatMap (·.rows)).reverse.find? (fun r => r.pos % tpp == k)

/-- Token k of a page was flushed in the current plan (R310). -/
def State.flushedToken (s : State) (d : DieId) (q head layer page tpp k : Nat) : Bool :=
  s.cells.flushed.any (fun x => x.die == d && x.seq == q && x.head == head && x.layer == layer && x.page == page
    && x.positions.any (fun p => p % tpp == k))

/-- Token k of a page is delivered from memory. -/
def State.fromMemory (s : State) (d : DieId) (c q head layer page tpp k : Nat) (p : Pte) : Bool :=
  (s.stagedRow d c q head layer page tpp k).isNone &&
    (decide (k < p.used) || s.flushedToken d q head layer page tpp k)

/-- One half of a page as delivered: K (false) or V (true) of every token, +0 where no token is live (R310). -/
def State.walkHalf (s : State) (d : DieId) (c q head layer page fmt : Nat) (p : Pte) (v : Bool) : List Byte :=
  let w := kvStride fmt
  let tpp := kvTpp fmt
  (List.range tpp).flatMap (fun k =>
    match s.stagedRow d c q head layer page tpp k with
    | some r => ((if v then r.v else r.k) ++ List.replicate w 0).take w
    | Option.none =>
      if decide (k < p.used) || s.flushedToken d q head layer page tpp k then
        s.raceBytes false d (framePage p.frame * 65536 + (if v then 32768 else 0) + k * w) w
      else List.replicate w 0)

/-- The halves that a walk moves. -/
def partHalves : Part → List Bool
  | .k => [false]
  | .v => [true]
  | .kv => [false, true]

/-- The bytes that a walk delivers for one entry.
DEDUCED, unsafe: log entry 34. -/
def State.walkPage (s : State) (d : DieId) (f : WalkF) (c fmt : Nat) (e : Nat × Pte × Option Nat) : List Byte :=
  if e.2.2.isSome || !e.2.1.valid then List.replicate (partBytes f.part) 0
  else (partHalves f.part).flatMap (fun v =>
    s.walkHalf d c (ptrAt f.seq c) (ptrAt f.head c) f.layer.toNat e.1 fmt e.2.1 v)

/-- The blocks of a die's HBM that a walk of one cell reads: those that hold a token which it delivers from memory. -/
def State.walkBlocks (s : State) (d : DieId) (f : WalkF) (c : Nat) : List Nat :=
  let q := ptrAt f.seq c
  let fmt := ((s.seq? d q).map (·.fmt)).getD 0
  let tpp := kvTpp fmt
  let per := tpp / 128
  ((s.walkList d f c).filter (fun e => e.2.2.isNone && e.2.1.valid)).flatMap (fun e =>
    (partHalves f.part).flatMap (fun v =>
      ((List.range 128).filter (fun b => (List.range per).any (fun k =>
        s.fromMemory d c q (ptrAt f.head c) f.layer.toNat e.1 tpp (b * per + k) e.2.1))).map (fun b =>
          framePage e.2.1.frame * 256 + (if v then 128 else 0) + b)))

/-- The run-time fault of the blocks that a walk of one cell reads (R225, R424). -/
def State.walkTrip (s : State) (d : DieId) (f : WalkF) (c : Nat) : Option Trip :=
  (s.walkBlocks d f c).findSome? (fun b => s.blockTrip false d b)

/-- Count the corrected errors that a walk of one cell meets (R225). -/
def State.walkMet (s : State) (d : DieId) (f : WalkF) (c : Nat) : State :=
  if s.mem.memSingle.isEmpty then s
  else (s.walkBlocks d f c).foldl (fun (t : State) b => t.correctMem false d b 1) s

/-- One cell's share of a walk: the bytes, the translation list and the reported faults. -/
def State.walkCell (s : State) (d : DieId) (f : WalkF) (c : Nat) : State :=
  let es := s.walkList d f c
  let fmt := ((s.seq? d (ptrAt f.seq c)).map (·.fmt)).getD 0
  let data := es.flatMap (s.walkPage d f c fmt)
  let s1 := (s.walkMet d f c).sramWrite d c (ptrSram f.dst f.dstOff c) data
  let frames := es.map (fun e => e.2.1.frame)
  let s2 := { s1 with cells := { s1.cells with xlat := AMap.set [] s1.cells.xlat (d.val * 64 + c) frames } }
  es.foldl (fun (t : State) e =>
    match e.2.2 with
    | some cause => t.tableFault d (ptrAt f.seq c) f.layer.toNat (ptrAt f.head c) e.1 cause
    | Option.none => t) s2

/-- A walk.
DEDUCED, unsafe: log entry 31. -/
def effWalk (s : State) (d : DieId) (i : Issue) (f : WalkF) : Done :=
  if f.nom == 0 then .undef
  else
  match (maskCells i.mask).findSome? (fun c => s.walkTrip d f c) with
  | some t => .trip t
  | Option.none =>
    s.broadcast d i (fun c => [⟨c, ptrSram f.dst f.dstOff c, (f.npage.val + 1) * partBytes f.part, true, true⟩])
      (fun t c => t.walkCell d f c)

/-! ## Flushes (R131, R198, R313) -/

/-- The blocks that a flush merges: an 8-bit block of which only one token is written (R424).
DEDUCED, unsafe: log entry 36. -/
def State.mergeBlocks (s : State) (x : StageSlot) : List Nat :=
  match s.seq? x.die x.seq with
  | some q =>
    let p := s.pte x.die (s.pteOf q x.layer x.head x.page)
    if q.fmt < 2 || (s.appendFault x.die (some q) p).isSome then []
    else
      let ks := x.rows.map (fun r => r.pos % 256)
      (ks.filter (fun k => !ks.contains (if k % 2 = 0 then k + 1 else k - 1))).flatMap (fun k =>
        [framePage p.frame * 256 + k / 2, framePage p.frame * 256 + 128 + k / 2])
  | Option.none => []

/-- The run-time fault of the merge reads of a flush (R424). -/
def State.mergeTrip (s : State) (x : StageSlot) : Option Trip :=
  (s.mergeBlocks x).findSome? (fun b => s.blockTrip false x.die b)

/-- Write a slot's rows into its page, report them to the hub and close the slot; a table fault writes nothing (R312).
DEDUCED, unsafe: log entry 36. -/
def State.flushSlot (s : State) (x : StageSlot) : State :=
  let s0 := (s.mergeBlocks x).foldl (fun (t : State) b => t.correctMem false x.die b 1)
    { s with cells := { s.cells with staging := s.cells.staging.erase x } }
  let r := s0.seq? x.die x.seq
  let fmt := (r.map (·.fmt)).getD 0
  let idx := (r.map (fun q => s0.pteOf q x.layer x.head x.page)).getD 0
  let p := if r.isSome then s0.pte x.die idx else Pte.none
  match s0.appendFault x.die r p with
  | some cause => s0.tableFault x.die x.seq x.layer x.head x.page cause
  | Option.none =>
    let base := framePage p.frame * 65536
    let s1 := x.rows.foldl (fun (t : State) row =>
      let k := row.pos % kvTpp fmt
      (t.racePut false x.die (base + k * kvStride fmt) row.k).racePut false x.die (base + 32768 + k * kvStride fmt) row.v) s0
    let rec' : FlushRec := ⟨x.die, x.head, x.layer, x.seq, x.page, x.rows.map (·.pos)⟩
    let s2 := { s1 with cells := { s1.cells with flushed := s1.cells.flushed ++ [rec'] } }
    { s2 with kv := { s2.kv with added := s2.kv.added ++ [⟨x.die, idx, p.frame, x.rows.length⟩] } }

/-- The open slots of a cell for one (sequence, head, layer). -/
def State.openSlots (s : State) (d : DieId) (c q head layer : Nat) : List StageSlot :=
  s.cells.staging.filter (fun x => x.die == d && x.cell.val == c && x.seq == q && x.head == head && x.layer == layer)

/-- One cell's share of a tail flush (R198). -/
def State.flushCell (s : State) (d : DieId) (f : FlushF) (c : Nat) : State :=
  (s.openSlots d c (ptrAt f.seq c) (ptrAt f.head c) f.layer.toNat).foldl State.flushSlot s

/-- A tail flush names no open slot in any enabled cell (R198). -/
def State.flushesNone (s : State) (d : DieId) (i : Issue) (f : FlushF) : Bool :=
  (maskCells i.mask).all (fun c => (s.openSlots d c (ptrAt f.seq c) (ptrAt f.head c) f.layer.toNat).isEmpty)

/-- A tail flush. -/
def effFlush (s : State) (d : DieId) (i : Issue) (f : FlushF) : Done :=
  match (maskCells i.mask).findSome? (fun c =>
      (s.openSlots d c (ptrAt f.seq c) (ptrAt f.head c) f.layer.toNat).findSome? s.mergeTrip) with
  | some t => .trip t
  | Option.none => s.broadcast d i (fun _ => []) (fun t c => t.flushCell d f c)

/-! ## STAGE (R190, R303) -/

/-- A cell number. -/
def cellOf (c : Nat) : CellId := ⟨c % 64, Nat.mod_lt c (by decide)⟩

/-- Byte i of the KV scale table: 0x7F until a table is written (R324). -/
def State.scaleByte (s : State) (i : Nat) : Byte := (s.blob P.kvScaleTable).getD i 0x7F

/-- A KV scale byte: K (false) or V (true) of a layer and head (R303). -/
def State.kvScale (s : State) (layer head : Nat) (v : Bool) : Nat :=
  (s.scaleByte (2 * (layer * s.param P.kvHeads + head) + (if v then 1 else 0))).toNat

/-- The KV scale table as a whole (R303). -/
def State.scaleTable (s : State) : List Byte := (List.range (2 * s.param P.kvLayers * s.param P.kvHeads)).map s.scaleByte

/-- The hub's copy of the KV scale table in page 0 of each die's KV control area (R303, R309).
DEDUCED, unsafe: log entry 192. -/
def State.copyScales (s : State) : State :=
  allDies.foldl (fun (t : State) d => t.hubPut false d (s.regionFirst .kv * 65536) s.scaleTable) s

/-- Convert the 128 values of K or of V (R190, R303): quarters 2v and 2v + 1 draw at the nominal start + 3 + i. -/
def State.stageHalf (s : State) (d : DieId) (i : Issue) (f : StageF) (c : Nat) (v : Bool) : List Byte × Counts :=
  let q := if v then 2 else 0
  let vals := (s.vreg d c (f.src.val + q) ++ s.vreg d c (f.src.val + q + 1)).map (readF32 s.audit)
  let draws := (List.range 128).map (fun j => s.convDraw d c (j % 64) (i.nominal + 3 + q + j / 64) 8 (q + j / 64))
  if fmtBlocked f.fmt then
    let r := convertBlock s.audit f.fmt .set (s.kvScale f.layer.toNat (ptrAt f.head c) v) f.round f.ovf draws vals
    (packRow 8 r.2.1, r.2.2)
  else
    let rs := (vals.zip draws).map (fun (x : Num × Nat) => convertElem s.audit f.fmt f.round f.ovf x.2 x.1)
    (packRow 16 (rs.map (fun (x : Nat × Counts) => x.1)),
      rs.foldl (fun (a : Counts) (x : Nat × Counts) => a.add x.2) {})

/-- The slot with a row added; a new slot when none is open.
DEDUCED, unsafe: log entry 35. -/
def addRow (slots : List StageSlot) (d : DieId) (c q head layer page : Nat) (row : StageRow) :
    List StageSlot × StageSlot :=
  match List.find? (fun (x : StageSlot) => x.die == d && x.cell.val == c && x.seq == q && x.head == head
      && x.layer == layer && x.page == page) slots with
  | some x =>
    let y := { x with rows := x.rows ++ [row] }
    (slots.map (fun z => if z = x then y else z), y)
  | Option.none =>
    let y : StageSlot := ⟨d, cellOf c, q, head, layer, page, [row]⟩
    (slots ++ [y], y)

/-- Rows of a staging buffer that a slot takes: a row holds one token at 16 bits, two at 8 bits (R130). -/
def slotRows (x : StageSlot) : Nat :=
  if (x.rows.head?.map (fun r => r.k.length)).getD 0 ≤ 128 then ceilDiv x.rows.length 2 else x.rows.length

/-- The slots of a cell fit its staging buffer: 64 slots and 512 rows (R110, R130). -/
def stagingFits (slots : List StageSlot) (d : DieId) (c : Nat) : Bool :=
  let l := slots.filter (fun x => x.die == d && x.cell.val == c)
  decide (l.length ≤ 64) && decide ((l.map slotRows).sum ≤ 512)

/-- One cell's share of a STAGE: the row joins its slot, which flushes when it fills its tail page (R130, R131); a row for which the
buffer has no room is not taken.
DEDUCED, unsafe: log entry 35. DESIGN CHOICE, unsafe: log entry 175. -/
def State.stageCell (s : State) (d : DieId) (i : Issue) (f : StageF) (c : Nat) : State :=
  let q := ptrAt f.seq c
  let head := ptrAt f.head c
  let layer := f.layer.toNat
  let r := s.seq? d q
  let tpp := kvTpp ((r.map (·.fmt)).getD 0)
  let pos := ptrAt f.pos c
  let page := pos / tpp
  let p := match r with
    | some x => s.pte d (s.pteOf x layer head page)
    | Option.none => Pte.none
  let k := s.stageHalf d i f c false
  let v := s.stageHalf d i f c true
  let s1 := s.count d (k.2.add v.2)
  match s.appendFault d r p with
  | some cause => s1.tableFault d q layer head page cause
  | Option.none =>
    let a := addRow s1.cells.staging d c q head layer page ⟨pos, k.1, v.1⟩
    let s2 := { s1 with cells := { s1.cells with staging := a.1 } }
    if !stagingFits a.1 d c then s1
    else if tpp ≤ p.used + a.2.rows.length then s2.flushSlot a.2 else s2

/-- The encodings of a STAGE that the spec defines: its four source registers exist.
DEDUCED, safe: log entry 182. -/
def stageDefined (f : StageF) : Bool :=
  (f.fmt = .fp16 || f.fmt = .bf16 || f.fmt = .e4m3 || f.fmt = .e5m2) && decide (f.src.val + 3 ≤ 63)

/-- The run-time fault of the flush that a STAGE of one cell would make. -/
def State.stageTrip (s : State) (d : DieId) (f : StageF) (c : Nat) : Option Trip :=
  match s.seq? d (ptrAt f.seq c) with
  | some q =>
    let pos := ptrAt f.pos c
    let page := pos / kvTpp q.fmt
    let p := s.pte d (s.pteOf q f.layer.toNat (ptrAt f.head c) page)
    let a := addRow s.cells.staging d c (ptrAt f.seq c) (ptrAt f.head c) f.layer.toNat page ⟨pos, [], []⟩
    if kvTpp q.fmt ≤ p.used + a.2.rows.length then s.mergeTrip a.2 else Option.none
  | Option.none => Option.none

/-- A STAGE. -/
def effStage (s : State) (d : DieId) (i : Issue) (f : StageF) : Done :=
  if stageDefined f then
    match (maskCells i.mask).findSome? (fun c => s.stageTrip d f c) with
    | some t => .trip t
    | Option.none => s.broadcast d i (fun _ => []) (fun t c => t.stageCell d i f c)
  else .undef

end Sys2Proof.Machine
end

