-- ==== Sys2Proof/Machine/Movers.lean ====
section
/-! DEFINITION. Places in memory, and the effects of COPY and GATHER (R174, R175, R194 to R196, R205, R217 to R232). -/

namespace Sys2Proof.Machine

/-! ## Places (R174, R175) -/

/-- A space of this die. -/
def spaceNear : Space → Bool
  | .sram | .hbm | .lpddr => true
  | _ => false

/-- A space of a named device. -/
def spaceDev : Space → Bool
  | .devHbm | .devLpddr | .devSram => true
  | _ => false

/-- An SRAM place: the cell given, or bits 27:22 of the value (R174). -/
def sramLoc (d : DieId) (v : Nat) (cell : Option Nat) : Loc := .sram d (cell.getD (v / 2 ^ 22 % 64)) (v % 2 ^ 22)

/-- The place that a space and a resolved pointer value name (R175). -/
def State.place (s : State) (d : DieId) (sp : Space) (v : Nat) (cell : Option Nat) (t : DieId) (dev : W32) : Loc :=
  match sp with
  | .sram => sramLoc d v cell
  | .hbm => .ext false d v
  | .lpddr => .ext true d v
  | .dieHbm => .ext false t v
  | .dieLpddr => .ext true t v
  | .dieSram => sramLoc t v cell
  | .devHbm => if dev.toNat = s.param P.deviceId then .ext false t v else .remote dev.toNat t 1 0 (v * 256)
  | .devLpddr => if dev.toNat = s.param P.deviceId then .ext true t v else .remote dev.toNat t 2 0 (v * 256)
  | .devSram =>
    if dev.toNat = s.param P.deviceId then sramLoc t v cell
    else .remote dev.toNat t 0 (cell.getD (v / 2 ^ 22 % 64)) (v % 2 ^ 22)

/-- The run-time fault of naming a device (R175, R205). -/
def State.devTrip (s : State) (d : DieId) (sp : Space) (dev : W32) : Option Trip :=
  if spaceDev sp then
    if s.param P.deviceId = 0xFFFF ∨ 1024 ≤ dev.toNat then some (.unroutable dev.toNat)
    else if dev.toNat = s.param P.deviceId ∨ s.routed d dev.toNat then none
    else some (.unroutable dev.toNat)
  else none

/-- Bytes of a tier of another device, by its TIER code (R210). -/
def remoteBytes (tier : Nat) : Nat :=
  if tier = 0 then sramEnd else tierPages (tier == 2) * 65536

/-- The run-time fault of reading n blocks at a place.
DEDUCED, unsafe: log entry 151. -/
def State.readTrip (s : State) (cell : Nat) (n : Nat) : Loc → Option Trip
  | .sram d c a => s.touchTrip d ⟨c, a, 256 * n, false, true⟩
  | .ext lp d b => if tierPages lp * 256 < b + n then some (.range cell) else s.blocksTrip lp d b n
  | .remote _ _ t _ b =>
    if remoteBytes t < b + 256 * n ∨ (t = 0 ∧ b % 128 ≠ 0) then some (.range cell) else none

/-- Some block of a range lies in a region. -/
def State.touchesRegion (s : State) (r : Region) (lp : Bool) (b n : Nat) : Bool :=
  lp == r.isLp && decide (s.regionFirst r * 256 < b + n) && decide (b < (s.regionFirst r + s.regionPages r) * 256)
    && decide (0 < n)

/-- The run-time fault of writing n blocks at a place (R205).
DEDUCED, unsafe: log entry 151. -/
def State.writeTrip (s : State) (cell : Nat) (n : Nat) : Loc → Option Trip
  | .sram d c a => s.touchTrip d ⟨c, a, 256 * n, true, true⟩
  | .ext lp _ b =>
    if tierPages lp * 256 < b + n then some (.range cell)
    else if s.touchesRegion .base lp b n then some .baseWrite else none
  | .remote _ _ t _ b =>
    if remoteBytes t < b + 256 * n ∨ (t = 0 ∧ b % 128 ≠ 0) then some (.range cell) else none

/-- The bytes of n blocks at a place of this device. -/
def State.readLoc (s : State) (n : Nat) : Loc → List Byte
  | .sram d c a => s.sramRead d c a (256 * n)
  | .ext lp d b => s.extRead lp d (b * 256) (256 * n)
  | .remote .. => []

/-- The bytes of n blocks at a place of this device as an operation or a remote message reads them (R221). -/
def State.raceLoc (s : State) (n : Nat) : Loc → List Byte
  | .ext lp d b => s.raceRead lp d b n
  | x => s.readLoc n x

/-- Count the corrected errors of a read (R121, R225). -/
def State.correctLoc (s : State) (n : Nat) : Loc → State
  | .sram d c a => s.correctSram d c a (256 * n)
  | .ext lp d b => s.correctMem lp d b n
  | .remote .. => s

/-- A place k blocks further on. -/
def Loc.skip (x : Loc) (k : Nat) : Loc :=
  match x with
  | .sram d c a => .sram d c (a + 256 * k)
  | .ext lp d b => .ext lp d (b + k)
  | .remote dev d t c b => .remote dev d t c (b + 256 * k)

/-- Write one block of the window after a back-invalidation of its four lines (R331). -/
def State.snoopBlock (s : State) (o : Owner) (d : DieId) (b : Nat) (data : List Byte) : State :=
  let w := windowOffset d (b * 256)
  let lines := [w, w + 64, w + 128, w + 192]
  State.emits { s with host := { s.host with snoops := s.host.snoops ++ [⟨o, w, lines, data⟩] } }
    (lines.map (fun x => Output.bisnp x))

/-- Write bytes of the window block by block, each after a back-invalidation of its lines (R331). -/
def State.snoopWrite (s : State) (o : Owner) (w : Nat) (data : List Byte) : State :=
  (List.range (ceilDiv data.length 256)).foldl (fun (t : State) k =>
    t.snoopBlock o (windowDie (w + 256 * k)) (windowBlock (w + 256 * k)) ((data.drop (256 * k)).take 256)) s

/-- Write blocks of a tier space; a block of the window waits for the host (R331, R232). -/
def State.storeExt (s : State) (o : Owner) (lp : Bool) (d : DieId) (b : Nat) (data : List Byte) : Nat → State
  | 0 => s
  | n + 1 =>
    let s1 := if s.inRegion .hdm lp (b / 256) then s.snoopBlock o d b (data.take 256)
      else match o with
        | .op od id => s.raceStore (od, id) lp d b (data.take 256)
        | _ => s.racePut lp d (b * 256) (data.take 256)
    s1.storeExt o lp d (b + 1) (data.drop 256) n

/-- Write whole blocks at a place of this device. -/
def State.storeLoc (s : State) (o : Owner) (x : Loc) (data : List Byte) : State :=
  match x with
  | .sram d c a => s.sramWrite d c a data
  | .ext lp d b => s.storeExt o lp d b data (data.length / 256)
  | .remote .. => s

/-- Two ranges of n blocks share bytes.
DESIGN CHOICE, safe: log entry 19. -/
def overlaps (n : Nat) (x y : Loc) : Bool :=
  match x, y with
  | .sram d c a, .sram e k b => d == e && c == k && decide (a < b + 256 * n) && decide (b < a + 256 * n)
  | .ext l d a, .ext m e b => l == m && d == e && decide (a < b + n) && decide (b < a + n)
  | _, _ => false

/-- Move n blocks within the device when source and destination overlap: each destination block takes the original data or
data that the copy has already written there, and which is open (R222). -/
def State.moveOpen (s0 : State) (o : Owner) (x y : Loc) (n : Nat) : State :=
  let order := if Config.overlapTakesNew s0.free 0 then List.range n else (List.range n).reverse
  (order.foldl (fun (t : State) k =>
    t.storeLoc o (y.skip k) ((if Config.overlapTakesNew s0.free (k + 1) then t else s0).readLoc 1 (x.skip k))) s0).drawn

/-- Move n blocks within the device (R195, R217).
DESIGN CHOICE, safe: log entry 19. -/
def State.move (s : State) (o : Owner) (x y : Loc) (n : Nat) : State :=
  let s1 := s.correctLoc n x
  if overlaps n x y then s1.moveOpen o x y n else s1.storeLoc o y (s1.raceLoc n x)

/-! ## Remote copies (R371, R373) -/

/-- Cut n blocks at a byte address into messages of at most 256 blocks that stay within 64 KiB of the address; the parts are
(first block, blocks). -/
def cuts : Nat → Nat → Nat → Nat → List (Nat × Nat)
  | 0, _, _, _ => []
  | fuel + 1, byte, k, n =>
    if n = 0 then []
    else
      let m := min n (max 1 ((65536 - (byte + 256 * k) % 65536) / 256))
      (k, m) :: cuts fuel byte (k + m) (n - m)

/-- A block at a byte address crosses a 64 KiB boundary by itself: no message can carry it (R371). -/
def blockCrosses (byte : Nat) : Bool := decide (65536 < byte % 65536 + 256)

/-- The orchard-global address of a remote place. -/
def Loc.address : Loc → Nat
  | .remote dev d t c b => globalAddress dev d t c b
  | _ => 0

/-- Send one WRITE of n blocks (R373). -/
def State.sendWrite (s : State) (d : DieId) (id dev : Nat) (die : DieId) (addr n : Nat) (dsig : Option (BitVec 13))
    (data : List Byte) : State :=
  let m : Message := ⟨s.requestHeader d 0 dev die 0 (s.opEpoch d id),
    { plainDesc 0x20 with address := BitVec.ofNat 64 addr, blocks := BitVec.ofNat 8 (n - 1), dsig := dsig,
                          jobTag := BitVec.ofNat 32 s.runningTag }, data⟩
  let p : Pending := ⟨0, 0, 0x20, d, id, none, addr, s.opEpoch d id⟩
  if dsig.isSome then (s.awaitMore d id 1).requestLast p m else (s.awaitMore d id 1).request p m

/-- Send one READ of n blocks; its data go to a place of this device, or to the hub (R373, R454). -/
def State.sendRead (s : State) (d : DieId) (id dev : Nat) (die : DieId) (addr n : Nat) (dest : Option Loc) : State :=
  let m : Message := ⟨s.requestHeader d 0 dev die 0 (s.opEpoch d id),
    { plainDesc 0x21 with address := BitVec.ofNat 64 addr, blocks := BitVec.ofNat 8 (n - 1),
                          jobTag := BitVec.ofNat 32 s.runningTag }, []⟩
  (s.awaitMore d id 1).request ⟨0, 0, 0x21, d, id, dest, addr, s.opEpoch d id⟩ m

/-- One pass of a copy; `last` marks the pass whose last message carries the destination signal. A block that no message can carry
is not sent, and its answer is awaited for good.
DESIGN CHOICE, safe: log entry 188. -/
def State.transfer (s : State) (d : DieId) (id n : Nat) (dsig : Option (BitVec 13)) (last : Bool) (x y : Loc) : State :=
  match x, y with
  | .remote dev die _ _ b, _ =>
    (cuts (n + 1) b 0 n).foldl (fun (t : State) (p : Nat × Nat) =>
      if blockCrosses (b + 256 * p.1) then t.awaitMore d id 1
      else t.sendRead d id dev die (x.skip p.1).address p.2 (some (y.skip p.1))) s
  | _, .remote dev die _ _ b =>
    let s1 := s.correctLoc n x
    (cuts (n + 1) b 0 n).foldl (fun (t : State) (p : Nat × Nat) =>
      if blockCrosses (b + 256 * p.1) then t.awaitMore d id 1
      else t.sendWrite d id dev die (y.skip p.1).address p.2 (if last && p.1 + p.2 == n then dsig else none)
        (t.raceLoc p.2 (x.skip p.1))) s1
  | _, _ => s.move (.op d id) x y n

/-! ## COPY (R194, R195) -/

/-- The cells of a copy: every enabled one with EXPAND, else cell 0 for the pointers. -/
def passCells (expand : Bool) (mask : W64) : List Nat := if expand then maskCells mask else [0]

/-- The passes of a copy: source and destination of each. -/
def State.copyPasses (s : State) (d : DieId) (i : Issue) (f : CopyF) : List (Nat × Loc × Loc) :=
  (passCells f.expand i.mask).map (fun c =>
    let cell := if f.expand then some c else none
    (c, s.place d f.srcSpace (ptrAt f.src c) cell f.targetDie f.dev,
      s.place d f.dstSpace (ptrAt f.dst c) cell f.targetDie f.dev))

/-- The first run-time fault of passes of n blocks.
DEDUCED, unsafe: log entry 31. -/
def State.passesTrip (s : State) (n : Nat) : List (Nat × Loc × Loc) → Option Trip
  | [] => none
  | (c, x, y) :: ps =>
    match s.readTrip c n x with
    | some t => some t
    | none =>
      match s.writeTrip c n y with
      | some t => some t
      | none => s.passesTrip n ps

/-- Run passes in order, the last one with the destination signal. -/
def State.runPasses (s : State) (d : DieId) (id n : Nat) (dsig : Option (BitVec 13)) : List (Nat × Loc × Loc) → State
  | [] => s
  | (_, x, y) :: ps => (s.transfer d id n dsig ps.isEmpty x y).runPasses d id n dsig ps

/-- The encodings of a copy that the spec defines: NOM from 1, one end near (R194, R195). -/
def copyDefined (f : CopyF) : Bool := f.nom != 0 && (spaceNear f.srcSpace || spaceNear f.dstSpace)

/-- A copy (R195).
DEDUCED, unsafe: log entry 31. -/
def effCopy (s : State) (d : DieId) (id : Nat) (i : Issue) (f : CopyF) : Done :=
  let n := f.len.toNat + 1
  if !copyDefined f then .undef
  else
    match s.devTrip d f.srcSpace f.dev, s.devTrip d f.dstSpace f.dev with
    | some t, _ => .trip t
    | _, some t => .trip t
    | none, none =>
      match s.passesTrip n (s.copyPasses d i f) with
      | some t => .trip t
      | none =>
        let ps := s.copyPasses d i f
        .ok (if ps.isEmpty then s.bareSignal d id (.copy f) else s.runPasses d id n f.dsig ps)

/-! ## GATHER (R196, R226 to R228) -/

/-- The index list of a gather in cell c: its cell, address and number of entries. -/
def gatherList (f : GatherF) (c : Nat) : Nat × Nat × Nat :=
  let v := ptrAt f.idx c
  ((if f.expand then c else v / 2 ^ 22 % 64), v % 2 ^ 22, f.count.toNat + 1)

/-- The index list's entries. -/
def State.gatherIndices (s : State) (d : DieId) (f : GatherF) (c : Nat) : List Nat :=
  let l := gatherList f c
  (List.range l.2.2).map (fun k => leNat (s.sramRead d l.1 (l.2.1 + 4 * k) 4))

/-- The rows of a gather: source and destination of each row that is not skipped (R227). -/
def State.gatherRows (s : State) (d : DieId) (f : GatherF) (c : Nat) : List (Nat × Loc × Loc) :=
  let rb := f.rowBlocks.toNat + 1
  let src := s.place d f.srcSpace (ptrAt f.src c) none d 0
  let dst := s.place d f.dstSpace (ptrAt f.dst c) (if f.expand then some c else none) d 0
  ((s.gatherIndices d f c).zipIdx.filter (fun (x : Nat × Nat) => decide (x.1 ≠ 0xFFFFFFFF))).map
    (fun (x : Nat × Nat) => (c, src.skip (x.1 * rb), dst.skip (x.2 * rb)))

/-- The encodings of a gather that the spec defines (R196). -/
def gatherDefined (f : GatherF) : Bool :=
  f.nom != 0 && (f.srcSpace == .hbm || f.srcSpace == .lpddr) && (f.dstSpace == .sram || f.dstSpace == .hbm)

/-- A gather (R196).
DEDUCED, unsafe: log entry 31. -/
def effGather (s : State) (d : DieId) (id : Nat) (i : Issue) (f : GatherF) : Done :=
  let cells := passCells f.expand i.mask
  if !gatherDefined f then .undef
  else
    match s.touchesTrip d (cells.map (fun c => ⟨(gatherList f c).1, (gatherList f c).2.1, 4 * (f.count.toNat + 1),
        false, false⟩)) with
    | some t => .trip t
    | none =>
      let s := cells.foldl (fun (t : State) c =>
        t.correctSram d (gatherList f c).1 (gatherList f c).2.1 (4 * (f.count.toNat + 1))) s
      let rows := cells.flatMap (s.gatherRows d f)
      match s.passesTrip (f.rowBlocks.toNat + 1) rows with
      | some t => .trip t
      | none => .ok (s.runPasses d id (f.rowBlocks.toNat + 1) f.dsig rows)

end Sys2Proof.Machine
end

