-- ==== Sys2Proof/Machine/PressOps.lean ====
section
/-! DEFINITION. Press: the sender's operations, the block operations of a Press unit and their answers (R199, R200, R391 to
R405). -/

namespace Sys2Proof.Machine

/-! ## The Press layout (R392, R393) -/

/-- The block of a tier space that holds data block D. -/
def pressBlockAt (dB : Nat) : Nat := dB / 252 * 256 + dB % 252

/-- The byte of a tier space that holds the count of data block D. -/
def pressCountAt (dB : Nat) : Nat := dB / 252 * 65536 + 64512 + 4 * (dB % 252)

/-- Key of the queue of a Press unit. -/
def pressKey (d : DieId) (lp : Bool) (dB : Nat) : Nat := d.val * 10 + controllerOf lp (dB / 252)

/-! ## Block operations (R395 to R397) -/

/-- The pattern of a poisoned lane (R396). -/
abbrev poisonLane : Nat := 0x80000000

/-- One lane of ADD.I32: the result, and whether it overflowed (R396). -/
def addI32 (x y : Nat) : Nat × Bool :=
  if x = poisonLane ∨ y = poisonLane then (poisonLane, false)
  else
    let s := (BitVec.ofNat 32 x).toInt + (BitVec.ofNat 32 y).toInt
    if s < -(2 ^ 31 - 1) ∨ 2 ^ 31 - 1 < s then (poisonLane, true) else (rawInt 32 s, false)

/-- One lane of ADD.BF16 (R397). -/
def addBf16 (audit : Bool) (x y : Nat) : Nat × Counts :=
  convertElem audit .bf16 .rne .strict 0 (Num.add (readElem audit .bf16 x) (readElem audit .bf16 y))

/-- What an application does to a data block. -/
structure Applied where
  data : List Byte
  counts : Counts
  poisoned : Nat
  overflows : Nat
  deriving DecidableEq, Repr

/-- A block combined with the arriving one (R395). -/
def applyBlock (audit : Bool) (o : PressOp) (held arriving : List Byte) : Applied :=
  match o with
  | .maxE8 => ⟨(held.zip arriving).map (fun (p : Byte × Byte) => if p.1 < p.2 then p.2 else p.1), {}, 0, 0⟩
  | .addBf16 =>
    let rs := ((unpackRow 16 128 held).zip (unpackRow 16 128 arriving)).map (fun (p : Nat × Nat) =>
      addBf16 audit p.1 p.2)
    ⟨packRow 16 (rs.map (fun (r : Nat × Counts) => r.1)),
      rs.foldl (fun (a : Counts) (r : Nat × Counts) => a.add r.2) {}, 0, 0⟩
  | .addI32 | .qaddFp16 | .qaddBf16 =>
    let rs := ((unpackRow 32 64 held).zip (unpackRow 32 64 arriving)).map (fun (p : Nat × Nat) =>
      (addI32 p.1 p.2, p.1))
    let ov := (rs.filter (fun r => r.1.2)).length
    ⟨packRow 32 (rs.map (fun r => r.1.1)), { ovf := ov },
      (rs.filter (fun r => r.1.1 == poisonLane && r.2 != poisonLane)).length, ov⟩
  | .clear | .finishFp16 | .finishBf16 => ⟨List.replicate 256 0, {}, 0, 0⟩

/-- Why a Press unit cannot read the held block or its count: a run-time fault (R225, R424). A CLEAR reads no data block, and
writes its count into the block of counts.
DEDUCED, unsafe: log entry 40. -/
def State.heldTrip (s : State) (x : PressBlock) : Option Trip :=
  match (if x.op = .clear then none else s.blockTrip x.lpddr x.die (pressBlockAt x.dataBlock)) with
  | some t => some t
  | none => s.blockTrip x.lpddr x.die (pressCountAt x.dataBlock / 256)

/-- Write a data block and its count. -/
def State.putPress (s : State) (x : PressBlock) (data : List Byte) (count : Nat) : State :=
  (s.racePut x.lpddr x.die (pressBlockAt x.dataBlock * 256) data).racePut x.lpddr x.die (pressCountAt x.dataBlock)
    (leBytes 4 count)

/-- The numbers that an application adds to the Press parameters (R407, R408).
DEDUCED, unsafe: log entry 41. -/
def State.pressCounts (s : State) (x : PressBlock) (a : Applied) : State :=
  let ctrl := controllerOf x.lpddr (x.dataBlock / 252)
  let s1 := (s.bump P.pressApplied 1).bump P.pressPoisonWritten a.poisoned
  let s2 := if x.op = .addBf16 then s1.bump P.pressBf16Applied 1 else s1
  let s3 := (s2.bump P.pressI32Overflows a.overflows).count x.die a.counts
  if a.overflows = 0 then s3
  else s3.limited Ev.pressI32Overflow x.die.val 0 a.overflows (fun n => [(1, localCtrl ctrl), (4, n)])

/-- Count the corrected errors of a held block and of its count (R225). -/
def State.heldMet (s : State) (x : PressBlock) : State :=
  (if x.op = .clear then s else s.correctMem x.lpddr x.die (pressBlockAt x.dataBlock) 1).correctMem x.lpddr x.die
    (pressCountAt x.dataBlock / 256) 1

/-- A block whose held data can be read is applied with its count (R394, R395).
DEDUCED, unsafe: log entry 41. -/
def State.applyPress (s : State) (x : PressBlock) : State :=
  if x.op = .clear then
    ((s.heldMet x).putPress x (List.replicate 256 0) 0).pressCounts x ⟨[], {}, 0, 0⟩
  else
    let held := s.extRead x.lpddr x.die (pressBlockAt x.dataBlock * 256) 256
    let n := leNat (s.extRead x.lpddr x.die (pressCountAt x.dataBlock) 4)
    let a := applyBlock s.audit x.op held x.data
    ((s.heldMet x).putPress x a.data (satAdd32 n 1)).pressCounts x a

/-- Answer a remote PRESS: its destination signal, then PRESS_ACK (R373, R394). -/
def State.pressAnswer (s : State) (m : Message) : State :=
  let ok := m.desc.status = 0
  let s1 := match m.desc.dsig with
    | some t => if ok then s.addTally m.hdr.dstDie t.toNat 1 else s
    | none => s
  s1.respond m 0x32 m.desc.status.toNat 1 []

/-- A message without its data, by which its blocks are known. -/
def bareMessage (m : Message) : Message := { m with data := [] }

/-- A block of a PRESS message has been dealt with: with the last block the message is answered, POISON if one of its blocks could
not be applied (R373, R424).
DEDUCED, unsafe: log entry 40. -/
def State.messageBlockDone (s : State) (m : Message) (last : Bool) : State :=
  if last then
    State.pressAnswer { s with fab := { s.fab with pressFailed := s.fab.pressFailed.filter (fun y => y != m) } }
      (if s.fab.pressFailed.contains m then { m with desc := { m.desc with status := 2 } } else m)
  else s

/-- A block has been dealt with: its local operation or its message is answered. -/
def State.pressDone (s : State) (x : PressBlock) : State :=
  let s1 := match x.op' with
    | some (d, id) => s.answered d id
    | none => s
  match x.answer with
  | some m => s1.messageBlockDone m x.last
  | none => s1

/-- A run-time fault of a local operation that is already running: its operation completes hollow with its own signal.
DEDUCED, unsafe: log entry 40. -/
def State.failRunning (s : State) (d : DieId) (id : Nat) (t : Trip) : State :=
  match s.running? d id with
  | some r => (s.raise d r.slot r.entry.issue t).finishHollow d r
  | none => s

/-- A block that cannot be applied (R424).
DEDUCED, unsafe: log entry 40. -/
def State.pressFail (s : State) (x : PressBlock) (t : Trip) : State :=
  match x.op' with
  | some (d, id) => s.failRunning d id t
  | none =>
    let s1 := s.countTrip x.die t
    match x.answer with
    | some m => State.messageBlockDone { s1 with fab := { s1.fab with pressFailed := s1.fab.pressFailed ++ [m] } } m x.last
    | none => s1

/-- A Press unit deals with the block at the front of its queue (R394, R425). -/
def State.pressFront (s : State) (key : Nat) : State :=
  match s.fab.pressQueues.getD key [] with
  | [] => s
  | x :: q =>
    let s1 := { s with fab := { s.fab with pressQueues := AMap.set [] s.fab.pressQueues key q } }
    if x.epoch ≠ s.ten.epoch then
      s1.epochDrop x.die 3
    else
      match s1.heldTrip x with
      | some t => s1.pressFail x t
      | none => (s1.applyPress x).pressDone x

/-- A Press unit deals with n blocks. -/
def State.pressMany (s : State) (key : Nat) : Nat → State
  | 0 => s
  | n + 1 => (s.pressFront key).pressMany key n

/-- Every Press unit of the device deals with what waits. -/
def State.pressAll (s : State) : State :=
  (List.range 40).foldl (fun (t : State) k => t.pressMany k (t.fab.pressQueues.getD k []).length) s

/-- Add blocks to the queues of Press units in order.
DESIGN CHOICE, safe: log entry 140. -/
def State.pressEnqueue (s : State) (bs : List PressBlock) : State :=
  bs.foldl (fun (t : State) x =>
    let k := pressKey x.die x.lpddr x.dataBlock
    { t with fab := { t.fab with pressQueues := AMap.set [] t.fab.pressQueues k (t.fab.pressQueues.getD k [] ++ [x]) } }) s

/-! ## The sender (R199, R200, R398 to R400) -/

/-- The draw of phase 2 for lane e of destination data block D (R400). -/
def State.quantDraw (s : State) (d : DieId) (dB e : Nat) : Nat :=
  let qkey := mix64 (mix64 ((s.front d).seed ^^^ mix64 (BitVec.ofNat 64 (s.front d).trainStep))
    ^^^ (BitVec.ofNat 64 (s.param P.deviceId * 4) ||| BitVec.ofNat 64 d.val))
  (mix64 (qkey ^^^ (BitVec.ofNat 64 (dB * 64) ||| BitVec.ofNat 64 e)) >>> 56).toNat

/-- A magnitude as whole part and the 8 bits that follow the binary point. -/
def fixedParts (m : Nat) (e : Int) : Nat × Nat :=
  if 0 ≤ e then (m * 2 ^ e.toNat, 0)
  else (m / 2 ^ (-e).toNat, m % 2 ^ (-e).toNat * 256 / 2 ^ (-e).toNat)

/-- Quantise one value against a shared exponent (R399): the lane and whether it saturated. -/
def qadd (g : Num) (c r : Nat) : Nat × Bool :=
  match g with
  | .fin neg m e =>
    if c = 0xFF then (poisonLane, false)
    else
      let p := fixedParts m (e + 141 - c)
      let q := if r < p.2 then p.1 + 1 else p.1
      let lane := fun (v : Nat) => if neg then rawInt 32 (-(v : Int)) else v
      if 32767 < q then (lane 32767, true) else (lane q, false)
  | _ => (poisonLane, false)

/-- The format of a Press operation's 16-bit values. -/
def pressFmt : PressOp → Fmt
  | .qaddFp16 | .finishFp16 => .fp16
  | _ => .bf16

/-- A QADD: quantises at the sender. -/
def pressIsQadd : PressOp → Bool
  | .qaddFp16 | .qaddBf16 => true
  | _ => false

/-- A FINISH: reads a buffer. -/
def pressIsFinish : PressOp → Bool
  | .finishFp16 | .finishBf16 => true
  | _ => false

/-- The operation at the destination (R371). -/
def pressPop : PressOp → Nat
  | .clear => 1 | .maxE8 => 2 | .addBf16 => 4 | _ => 3

/-- The operation of a POP code. -/
def popOp (c : Nat) : Option PressOp :=
  match c with
  | 1 => some .clear
  | 2 => some .maxE8
  | 3 => some .addI32
  | 4 => some .addBf16
  | _ => none

/-- The data blocks that one source block sends. -/
def pressPer (o : PressOp) : Nat := if pressIsQadd o then 2 else 1

/-- One data block of quantised lanes with the number of saturations. -/
def State.quantBlock (s : State) (d : DieId) (o : PressOp) (codes : List Nat) (c dB : Nat) : List Byte × Nat :=
  let rs := codes.zipIdx.map (fun (p : Nat × Nat) =>
    qadd (readElem s.audit (pressFmt o) p.1) c (s.quantDraw d dB p.2))
  (packRow 32 (rs.map (fun (r : Nat × Bool) => r.1)), (rs.filter (fun (r : Nat × Bool) => r.2)).length)

/-- A place's auxiliary bytes: n shared codes (R200). -/
def State.auxBytes (s : State) (x : Loc) (n : Nat) : List Byte :=
  match x with
  | .sram d c a => s.sramRead d c a n
  | .ext lp d b => (s.raceRead lp d b (ceilDiv n 256)).take n
  | .remote .. => []

/-- Count the corrected errors of n auxiliary bytes (R121, R225). -/
def State.auxMet (s : State) (x : Loc) (n : Nat) : State :=
  match x with
  | .sram d c a => s.correctSram d c a n
  | .ext lp d b => s.correctMem lp d b (ceilDiv n 256)
  | .remote .. => s

/-- The run-time fault of reading n auxiliary bytes; they need only byte alignment (R174). -/
def State.auxTrip (s : State) (cell n : Nat) : Loc → Option Trip
  | .sram d c a => s.touchTrip d ⟨c, a, n, false, false⟩
  | .ext lp d b =>
    if tierPages lp * 256 < b + ceilDiv n 256 then some (.range cell) else s.blocksTrip lp d b (ceilDiv n 256)
  | .remote .. => some (.range cell)

/-- The data blocks that a pass sends, with its saturations: source at `x`, shared codes at `a`, first data block `dB`. -/
def State.pressData (s : State) (d : DieId) (o : PressOp) (n dB : Nat) (x a : Loc) : List (List Byte) × Nat :=
  if o = .clear then (List.replicate n [], 0)
  else if pressIsQadd o then
    let aux := s.auxBytes a (2 * n)
    let rs := (List.range (2 * n)).map (fun k =>
      let codes := ((unpackRow 16 128 (s.raceLoc 1 (x.skip (k / 2)))).drop (64 * (k % 2))).take 64
      s.quantBlock d o codes (aux.getD k 0).toNat (dB + k))
    (rs.map (fun (r : List Byte × Nat) => r.1), rs.foldl (fun (t : Nat) (r : List Byte × Nat) => t + r.2) 0)
  else ((List.range n).map (fun k => s.raceLoc 1 (x.skip k)), 0)

/-- Count the saturations of a QADD (R82, R399, R408). -/
def State.saturated (s : State) (d : DieId) (i : Issue) (n : Nat) : State :=
  if n = 0 then s
  else ((s.bump P.pressQuantSaturated n).count d { ovf := n }).limited Ev.pressQuantSaturated d.val 0 n
    (fun k => [(2, (s.front d).planIndex), (2, i.word), (4, k)])

/-- The Press blocks of data on this device. -/
def pressBlocks (x : DieId) (lp : Bool) (dB : Nat) (o : PressOp) (epoch : W16) (op' : Option (DieId × Nat))
    (answer : Option Message) (data : List (List Byte)) : List PressBlock :=
  data.zipIdx.map (fun (p : List Byte × Nat) =>
    ⟨x, lp, dB + p.2, o, p.1, epoch, op', answer, p.2 + 1 == data.length⟩)

/-- Cut n data blocks from data block dB into parts that stay within one page: (first, blocks). -/
def pressCuts : Nat → Nat → Nat → Nat → List (Nat × Nat)
  | 0, _, _, _ => []
  | fuel + 1, dB, k, n =>
    if n = 0 then []
    else
      let m := min n (252 - (dB + k) % 252)
      (k, m) :: pressCuts fuel dB (k + m) (n - m)

/-- The tier of a space that a Press operation writes: true for LPDDR. -/
def spaceLp : Space → Bool
  | .lpddr | .dieLpddr | .devLpddr => true
  | _ => false

/-- A space that a Press operation may write (R200). -/
def pressDstOk (o : PressOp) (sp : Space) : Bool :=
  if pressIsFinish o then spaceNear sp
  else match sp with
    | .hbm | .lpddr | .dieHbm | .dieLpddr | .devHbm | .devLpddr => true
    | _ => false

/-- Send one part to another device as a PRESS message. -/
def State.sendPress (s : State) (d : DieId) (id dev : Nat) (die : DieId) (o : PressOp) (lp : Bool) (dB n : Nat)
    (dsig : Option (BitVec 13)) (data : List Byte) : State :=
  let addr := globalAddress dev die (if lp then 2 else 1) 0 (pressBlockAt dB * 256)
  let m : Message := ⟨s.requestHeader d 2 dev die 0 (s.opEpoch d id),
    { plainDesc 0x40 with address := BitVec.ofNat 64 addr, blocks := BitVec.ofNat 8 (n - 1), dsig := dsig,
                          pop := BitVec.ofNat 8 (pressPop o), jobTag := BitVec.ofNat 32 s.runningTag }, data⟩
  let p : Pending := ⟨0, 2, 0x40, d, id, none, addr, s.opEpoch d id⟩
  if dsig.isSome then (s.awaitMore d id 1).requestLast p m else (s.awaitMore d id 1).request p m

/-- One pass of a sender: cell for pointers, source, shared codes, first data block. -/
structure PressPass where
  cell : Nat
  src : Loc
  aux : Loc
  dB : Nat
  deriving DecidableEq, Repr

/-- The passes of a Press operation that sends. -/
def State.pressPasses (s : State) (d : DieId) (i : Issue) (f : PressF) : List PressPass :=
  (passCells f.expand i.mask).map (fun c =>
    let cell := if f.expand then some c else none
    ⟨c, s.place d f.srcSpace (ptrAt f.src c) cell d 0, s.place d f.srcSpace (ptrAt f.aux c) cell d 0, ptrAt f.dst c⟩)

/-- The run-time fault of a destination of n data blocks (R205, R393). -/
def State.pressDstTrip (s : State) (f : PressF) (p : PressPass) (n : Nat) (near : Bool) : Option Trip :=
  let lp := spaceLp f.dstSpace
  let b := p.dB / 252 * 256
  let k := ((p.dB + n - 1) / 252 - p.dB / 252 + 1) * 256
  if tierPages lp * 256 < b + k then some (.range p.cell)
  else if near && (s.touchesRegion .base lp b k || s.touchesRegion .hdm lp b k) then some (.range p.cell)
  else none

/-- The run-time fault of a sender's pass. -/
def State.pressTrip (s : State) (o : PressOp) (f : PressF) (n : Nat) (near : Bool) (p : PressPass) : Option Trip :=
  match (if o = .clear then none else s.readTrip p.cell n p.src) with
  | some t => some t
  | none =>
    match (if pressIsQadd o then s.auxTrip p.cell (2 * n) p.aux else none) with
    | some t => some t
    | none => s.pressDstTrip f p (n * pressPer o) near

/-- Send one pass. -/
def State.pressPass (s : State) (d : DieId) (id : Nat) (i : Issue) (o : PressOp) (f : PressF) (n : Nat) (last : Bool)
    (p : PressPass) : State :=
  let s0 := if o = .clear then s else s.correctLoc n p.src
  let s0 := if pressIsQadd o then s0.auxMet p.aux (2 * n) else s0
  let r := s0.pressData d o n p.dB p.src p.aux
  let s1 := s0.saturated d i r.2
  match s1.spacePlace d f.dstSpace f.targetDie f.dev with
  | .here x =>
    (s1.awaitMore d id r.1.length).pressEnqueue
      (pressBlocks x (spaceLp f.dstSpace) p.dB o (s.opEpoch d id) (some (d, id)) none r.1)
  | .away dev x =>
    (pressCuts (r.1.length + 1) p.dB 0 r.1.length).foldl (fun (t : State) (q : Nat × Nat) =>
      t.sendPress d id dev x o (spaceLp f.dstSpace) (p.dB + q.1) q.2
        (if last && q.1 + q.2 == r.1.length then f.dsig else none) ((r.1.drop q.1).take q.2).flatten) s1

/-- Send passes in order. -/
def State.runPress (s : State) (d : DieId) (id : Nat) (i : Issue) (o : PressOp) (f : PressF) (n : Nat) :
    List PressPass → State
  | [] => s
  | p :: ps => (s.pressPass d id i o f n ps.isEmpty p).runPress d id i o f n ps

/-! ## FINISH (R401) -/

/-- One lane of a FINISH as an exact value with a sticky bit below the precision of the result; none where the spec divides by
a count of zero.
DESIGN CHOICE, safe: log entry 51. -/
def finishLane (l n c : Nat) : Option Num :=
  if l = poisonLane ∨ c = 0xFF ∨ 65536 < n then some .nan
  else if l = 0 then some (.fin false 0 0)
  else if n = 0 then none
  else
    let v := (BitVec.ofNat 32 l).toInt
    let q := v.natAbs * 2 ^ 40 / n
    let sticky := if v.natAbs * 2 ^ 40 % n = 0 then 0 else 1
    some (.fin (decide (v < 0)) (2 * q + sticky) ((c : Int) - 141 - 41))

/-- A data block of a FINISH source: the byte address of its lanes and of its count, on its die (R393). -/
inductive PressSrc where
  | sram (d : DieId) (c a n : Nat)
  | ext (lp : Bool) (d : DieId) (dB : Nat)
  deriving DecidableEq, Repr

/-- Data block k of a FINISH source. -/
def pressSrc (d : DieId) (sp : Space) (v : Nat) (cell : Option Nat) (k : Nat) : PressSrc :=
  match sp with
  | .sram =>
    let dB := v % 2 ^ 22 + k
    .sram d (cell.getD (v / 2 ^ 22 % 64)) (dB / 252 * 65536 + dB % 252 * 256) (dB / 252 * 65536 + 64512 + 4 * (dB % 252))
  | .lpddr => .ext true d (v + k)
  | _ => .ext false d (v + k)

/-- The run-time fault of reading a data block and its count. -/
def State.pressSrcTrip (s : State) (cell : Nat) : PressSrc → Option Trip
  | .sram d c a n => s.touchesTrip d [⟨c, a, 256, false, true⟩, ⟨c, n, 4, false, false⟩]
  | .ext lp d dB =>
    if tierPages lp < dB / 252 + 1 then some (.range cell)
    else
      match s.blockTrip lp d (pressBlockAt dB) with
      | some t => some t
      | none => s.blockTrip lp d (pressCountAt dB / 256)

/-- Count the corrected errors of a data block and its count (R121, R225). -/
def State.pressSrcMet (s : State) : PressSrc → State
  | .sram d c a n => (s.correctSram d c a 256).correctSram d c n 4
  | .ext lp d dB => (s.correctMem lp d (pressBlockAt dB) 1).correctMem lp d (pressCountAt dB / 256) 1

/-- The lanes and the count of a data block. -/
def State.pressSrcRead (s : State) : PressSrc → List Nat × Nat
  | .sram d c a n => (unpackRow 32 64 (s.sramRead d c a 256), leNat (s.sramRead d c n 4))
  | .ext lp d dB =>
    (unpackRow 32 64 (s.raceRead lp d (pressBlockAt dB) 1), leNat (s.raceBytes lp d (pressCountAt dB) 4))

/-- One converted lane: code and counts; a division by a count of zero is a free value, which counts as what it is (R82).
DESIGN CHOICE, safe: log entry 51. -/
def State.finishCode (s : State) (f : Fmt) (l n c : Nat) : Nat × Counts :=
  match finishLane l n c with
  | some v => convertElem s.audit f .rne .strict 0 v
  | none =>
    let code := Config.divByZero (if f = .fp16 then 0 else 1) l n % 65536
    let v := decodeElem f code
    (code, if v.isNan then { nan := 1 } else if v.isInf then { inf := 1 } else {})

/-- A FINISH met a count over 65,536 (R408). -/
def State.countExceeded (s : State) (d : DieId) (dB : Nat) : State :=
  (s.bump P.pressCountExceeded 1).limited Ev.pressCountExceeded d.val 0 1
    (fun _ => [(2, (s.front d).planIndex), (4, dB)])

/-- One pass of a FINISH. -/
def State.finishPass (s : State) (d : DieId) (id : Nat) (o : PressOp) (f : PressF) (n : Nat) (c : Nat) : State :=
  let cell := if f.expand then some c else none
  let auxAt := s.place d f.srcSpace (ptrAt f.aux c) cell d 0
  let aux := s.auxBytes auxAt n
  let s0 := (List.range n).foldl (fun (t : State) k => t.pressSrcMet (pressSrc d f.srcSpace (ptrAt f.src c) cell k))
    (s.auxMet auxAt n)
  let rs := (List.range n).map (fun k =>
    let b := s.pressSrcRead (pressSrc d f.srcSpace (ptrAt f.src c) cell k)
    (b.1.zipIdx.map (fun (l : Nat × Nat) => s.finishCode (pressFmt o) l.1 b.2 (aux.getD k 0).toNat), b.2))
  let data := rs.flatMap (fun (r : List (Nat × Counts) × Nat) => packRow 16 (r.1.map (fun (x : Nat × Counts) => x.1)))
  let counts := rs.foldl (fun (a : Counts) (r : List (Nat × Counts) × Nat) =>
    r.1.foldl (fun (b : Counts) (x : Nat × Counts) => b.add x.2) a) {}
  let s2 := (s0.storeLoc (.op d id) (s.place d f.dstSpace (ptrAt f.dst c) cell d 0) data).count d counts
  rs.zipIdx.foldl (fun (t : State) (r : (List (Nat × Counts) × Nat) × Nat) =>
    if 65536 < r.1.2 then t.countExceeded d (ptrAt f.src c + r.2) else t) s2

/-- The run-time fault of a FINISH pass. -/
def State.finishTrip (s : State) (d : DieId) (f : PressF) (n : Nat) (c : Nat) : Option Trip :=
  let cell := if f.expand then some c else none
  match (List.range n).findSome? (fun k => s.pressSrcTrip c (pressSrc d f.srcSpace (ptrAt f.src c) cell k)) with
  | some t => some t
  | none =>
    match s.auxTrip c n (s.place d f.srcSpace (ptrAt f.aux c) cell d 0) with
    | some t => some t
    | none => s.writeTrip c (n / 2) (s.place d f.dstSpace (ptrAt f.dst c) cell d 0)

/-- The encodings of a Press operation that the spec defines (R200, R401). -/
def pressDefined (o : PressOp) (f : PressF) : Bool :=
  f.nom != 0 && spaceNear f.srcSpace && pressDstOk o f.dstSpace && !(pressIsFinish o && f.len.toNat % 2 == 0)
    && (o != .clear || f.srcSpace == .sram)

/-- A Press operation (R199).
DEDUCED, unsafe: log entry 31. -/
def effPress (s : State) (d : DieId) (id : Nat) (i : Issue) (o : PressOp) (f : PressF) : Done :=
  let n := f.len.toNat + 1
  if !pressDefined o f then .undef
  else if pressIsFinish o then
    let cells := passCells f.expand i.mask
    match cells.findSome? (fun c => s.finishTrip d f n c) with
    | some t => .trip t
    | none => .ok (cells.foldl (fun (t : State) c => t.finishPass d id o f n c) s)
  else
    match s.devTrip d f.dstSpace f.dev with
    | some t => .trip t
    | none =>
      let near := match s.spacePlace d f.dstSpace f.targetDie f.dev with
        | .here _ => true
        | .away _ _ => false
      let ps := s.pressPasses d i f
      match ps.findSome? (s.pressTrip o f n near) with
      | some t => .trip t
      | none => .ok (if ps.isEmpty then s.bareSignal d id (.press o f) else s.runPress d id i o f n ps)

end Sys2Proof.Machine
end

