-- ==== Sys2Proof/Machine/FnUnit.lean ====
section
/-! DEFINITION. The function unit: the exact values of its functions and derivatives to more than 250 bits, the bounds of R126
around them, and the special results (R125 to R127, R538). -/

namespace Sys2Proof.Machine

/-! ## Transcendental functions in fixed point: integers count units of 2^−320 -/

/-- One, in fixed point. -/
abbrev fxOne : Int := 2 ^ 320

/-- The natural logarithm of 2, in fixed point. -/
def fxLn2 : Int :=
  0xb17217f7d1cf79abc9e3b39803f2f6af40f343267298b62d8a0d175b8baafa2be7b876206debac98

/-- √(2/π), in fixed point (R125). -/
def fxGeluC : Int :=
  0xcc42299ea1b284687e59e2805d5c717fa7053e60a24e0db1808e369004c73a5d3bf158aa88fa7b6e

/-- 0.044715, in fixed point (R125). -/
def fxGeluK : Int :=
  0xb727136a400fba8826aa8eb463497b7414a4d2b2bfdb4cc25072085b18548a9bcfd4bf0995aaf78

/-- 1.0. -/
def numOne : Num := .fin false 1 0
/-- +0. -/
def numZero : Num := .fin false 0 0
/-- 2.0. -/
def numTwo : Num := .fin false 1 1
/-- One half. -/
def numHalf : Num := .fin false 1 (-1)

/-- The value of a fixed-point number. -/
def fxNum (v : Int) : Num := Num.ofInt v (-320)

/-- A finite value in fixed point, rounded toward zero. -/
def toFx (neg : Bool) (m : Nat) (e : Int) : Int :=
  let a : Nat := if 0 ≤ e + 320 then m * 2 ^ (e + 320).toNat else m / 2 ^ (-(e + 320)).toNat
  if neg then -(a : Int) else a

/-- The Taylor series of e^r from a term on; the first argument is the number of terms. -/
def expTerms : Nat → Nat → Int → Int → Int
  | 0, _, _, _ => 0
  | n + 1, k, t, r => t + expTerms n (k + 1) (t * r / fxOne / (k + 1 : Nat)) r

/-- e^x. A magnitude of 512 or more gives 2^±700, beyond everything that its users distinguish. -/
def numExp (x : Num) : Num :=
  match x with
  | .fin neg m e =>
    if Num.le (.fin false 1 9) x.abs then .fin false 1 (if neg then -700 else 700)
    else
      let v := toFx neg m e
      let k := (v + fxLn2 / 2) / fxLn2
      .fin false (expTerms 80 0 fxOne (v - k * fxLn2)).toNat (k - 320)
  | v => v

/-- The series of artanh z from z^n on, in odd powers; the first argument is the number of terms. -/
def atanhTerms : Nat → Nat → Int → Int → Int
  | 0, _, _, _ => 0
  | k + 1, n, p, z2 => p / (n : Nat) + atanhTerms k (n + 2) (p * z2 / fxOne) z2

/-- log2 of m × 2^e for m > 0. -/
def numLog2 (m : Nat) (e : Int) : Num :=
  let l := Nat.log2 m
  let f : Int := ((m * 2 ^ 320 / 2 ^ l : Nat) : Int)
  let z := (f - fxOne) * fxOne / (f + fxOne)
  let ln := 2 * atanhTerms 110 1 z (z * z / fxOne)
  fxNum (((l : Int) + e) * fxOne + ln * fxOne / fxLn2)

/-- The quotient of two finite values to more than 250 bits. -/
def numDiv (a b : Num) : Num :=
  match a, b with
  | .fin x m e, .fin y n f =>
    let k := 256 + Nat.log2 n
    .fin (x != y) (m * 2 ^ k / n) (e - f - k)
  | _, _ => .nan

/-- The largest r with r² ≤ n, built from the top bit down. -/
def isqrt (n : Nat) : Nat → Nat → Nat
  | 0, r => r
  | k + 1, r => isqrt n k (if (r + 2 ^ k) * (r + 2 ^ k) ≤ n then r + 2 ^ k else r)

/-- The square root of a finite value that is not negative. -/
def numSqrt (x : Num) : Num :=
  match x with
  | .fin _ m e =>
    let s : Nat := if e % 2 = 0 then 512 else 513
    let n := m * 2 ^ s
    .fin false (isqrt n (Nat.log2 n / 2 + 1) 0) ((e - s) / 2)
  | v => v

/-- tanh x = 1 − 2 ÷ (e^(2x) + 1). -/
def numTanh (x : Num) : Num := numOne.add (numDiv numTwo ((numExp (x.mul numTwo)).add numOne)).neg

/-- σ(x) = 1 ÷ (1 + e^(−x)). -/
def numSigmoid (x : Num) : Num := numDiv numOne (numOne.add (numExp x.neg))

/-- ln(1 + e^x). -/
def numSoftplus (x : Num) : Num :=
  if Num.le (.fin false 1 9) x then x
  else
    match numOne.add (numExp x) with
    | .fin _ m e => (numLog2 m e).mul (fxNum fxLn2)
    | v => v

/-- t of the GELU rows: tanh(c × (x + 0.044715 × x³)). -/
def geluT (x : Num) : Num := numTanh ((fxNum fxGeluC).mul (x.add ((fxNum fxGeluK).mul (x.mul (x.mul x)))))

/-! ## The functions (R125) -/

/-- The forward form at a finite input that R127 does not list. -/
def fnExact (f : FnName) (x : Num) : Num :=
  match f with
  | .exp => numExp x
  | .log2 =>
    match x with
    | .fin _ m e => numLog2 m e
    | v => v
  | .recip => numDiv numOne x
  | .rsqrt => numDiv numOne (numSqrt x)
  | .tanh => numTanh x
  | .sigmoid => numSigmoid x
  | .softplus => numSoftplus x
  | .silu => x.mul (numSigmoid x)
  | .gelu => (numHalf.mul x).mul (numOne.add (geluT x))

/-- The derivative form at a finite SRC that R127 does not list: x or the saved output y, as R125 names it. -/
def fndExact (f : FnName) (x : Num) : Num :=
  match f with
  | .exp => x
  | .log2 => numDiv numOne (x.mul (fxNum fxLn2))
  | .recip => (x.mul x).neg
  | .rsqrt => ((x.mul (x.mul x)).scale (-1)).neg
  | .tanh => numOne.add (x.mul x).neg
  | .sigmoid => x.mul (numOne.add x.neg)
  | .softplus => numOne.add (numExp x.neg).neg
  | .silu =>
    let g := numSigmoid x
    g.mul (numOne.add (x.mul (numOne.add g.neg)))
  | .gelu =>
    let t := geluT x
    let k := numOne.add ((Num.fin false 3 0).mul ((fxNum fxGeluK).mul (x.mul x)))
    (numHalf.mul (numOne.add t)).add
      ((((numHalf.mul x).mul (numOne.add (t.mul t).neg)).mul (fxNum fxGeluC)).mul k)

/-! ## Special inputs (R127) -/

/-- The special results of the forward forms (R127).
DESIGN CHOICE, safe: log entry 24. -/
def fnSpecial (f : FnName) (x : Num) : Option Num :=
  if x.isNan then some .nan
  else
    match f, x with
    | .exp, .inf n => some (if n then numZero else .inf false)
    | .log2, .inf n => some (if n then .nan else .inf false)
    | .log2, .fin n m _ => if m = 0 then some (.inf true) else if n then some .nan else none
    | .recip, .inf n => some (.fin n 0 0)
    | .recip, .fin n m _ => if m = 0 then some (.inf n) else none
    | .rsqrt, .inf n => some (if n then .nan else numZero)
    | .rsqrt, .fin n m _ => if m = 0 then some (.inf n) else if n then some .nan else none
    | .tanh, .inf n => some (.fin n 1 0)
    | .sigmoid, .inf n => some (if n then numZero else numOne)
    | .softplus, .inf n => some (if n then numZero else .inf false)
    | .silu, .inf n => some (if n then .fin true 0 0 else .inf false)
    | .gelu, .inf n => some (if n then .fin true 0 0 else .inf false)
    | _, _ => none

/-- The special results of the derivative forms, whose input is SRC (R127).
DESIGN CHOICE, safe: log entry 24. -/
def fndSpecial (f : FnName) (x : Num) : Option Num :=
  if x.isNan then some .nan
  else
    match f, x with
    | .exp, .inf n => some (.inf n)
    | .exp, .fin n m _ => if m = 0 then some (.fin n 0 0) else none
    | .log2, .inf n => some (.fin n 0 0)
    | .log2, .fin n m _ => if m = 0 then some (.inf n) else none
    | .recip, .inf _ => some (.inf true)
    | .recip, .fin _ m _ => if m = 0 then some (.fin true 0 0) else none
    | .rsqrt, .inf n => some (.inf (!n))
    | .rsqrt, .fin n m _ => if m = 0 then some (.fin (!n) 0 0) else none
    | .tanh, .inf _ => some (.inf true)
    | .sigmoid, .inf _ => some (.inf true)
    | .softplus, .inf n => some (if n then .inf true else numOne)
    | .silu, .inf n => some (if n then .fin true 0 0 else numOne)
    | .gelu, .inf n => some (if n then .fin true 0 0 else numOne)
    | _, _ => none

/-! ## The bounds (R126) -/

/-- One unit in the last place of binary32 at a value. -/
def ulpAt (v : Num) : Num :=
  match v with
  | .fin _ m e => .fin false 1 (max ((Nat.log2 m : Int) + e) (-126) - 23)
  | w => w

/-- The larger of two magnitudes. -/
def numLarger (x y : Num) : Num := if Num.lt x y then y else x

/-- The distance from the exact value v within which a result lies (R126). -/
def fnBound (derivative : Bool) (f : FnName) (v : Num) : Num :=
  let ulps := fun (n : Nat) => (Num.fin false n 0).mul (ulpAt v)
  match f with
  | .recip | .rsqrt => ulps (if derivative then 2 else 1)
  | .exp | .log2 =>
    if derivative || Num.le numOne v.abs then ulps 2 else numLarger (ulps 2) (.fin false 1 (-22))
  | _ => if derivative then numLarger (ulps 4) (.fin false 1 (-22)) else numLarger (ulps 2) (.fin false 1 (-23))

/-- The place of the largest binary32 magnitude that is at most a value's, in the order of the codes, and whether it is that
value; 2^128 and more give the place of infinity. -/
def magFloor (v : Num) : Int × Bool :=
  match v with
  | .fin _ m e =>
    if Num.le (.fin false 1 128) v.abs then (0x7F800000, true)
    else
      let r := roundMag 23 (-149) false .rtz 0 m e
      ((encodeMag .f32 false r.1 r.2 : Nat), Num.eq (.fin false r.1 r.2) v.abs)
  | _ => (0x7F800000, true)

/-- The place of a magnitude rounded up. -/
def magCeil (v : Num) : Int := let r := magFloor v; if r.2 then r.1 else r.1 + 1

/-- The place of the largest binary32 value at most v, negative values counted downward. -/
def placeFloor (v : Num) : Int := if v.isNeg then -(magCeil v) else (magFloor v).1

/-- The place of the smallest binary32 value at least v. -/
def placeCeil (v : Num) : Int := if v.isNeg then -(magFloor v).1 else magCeil v

/-- The value at a place; at zero either sign. -/
def placeCode (k : Int) (negZero : Bool) : W32 :=
  if k = 0 then (if negZero then 0x80000000 else 0)
  else BitVec.ofNat 32 (if k < 0 then 2 ^ 31 + k.natAbs else k.natAbs)

/-- The binary32 value within a bound of v that a free word picks. -/
def pickWithin (w : W32) (v bound : Num) : W32 :=
  let b := bound.add (bound.scale (-40))
  let lo := placeCeil (v.add b.neg)
  let hi := placeFloor (v.add b)
  placeCode (lo + (w.toNat % ((hi - lo).toNat + 1) : Nat)) (w.getLsbD 31)

/-- A word holds a zero or a subnormal binary32 value, which R126 does not bound. -/
def belowNormal (w : W32) : Bool := w.extractLsb' 23 8 == 0

/-- The result at an input that R127 does not list, before flushing: beyond the binary32 range the infinity of its sign (R127);
else a value within the bound of R126, the one that the algorithm description of R538 gives being free; where the exact value is
not normal, a result that is not normal either lies outside R126, and stands.
DESIGN CHOICE, safe: log entries 24, 25. -/
def fnOrdinary (derivative : Bool) (f : FnName) (w : W32) (x : Num) : W32 :=
  let v := if derivative then fndExact f x else fnExact f x
  if Num.le (.fin false 1 128) v.abs then moveF32 (.inf v.isNeg)
  else if Num.lt v.abs (.fin false 1 (-126)) && belowNormal w then w
  else pickWithin w v (fnBound derivative f v)

/-- The code of a function (R192). -/
def fnCode : FnName → Nat
  | .exp => 0 | .log2 => 1 | .recip => 2 | .rsqrt => 3 | .tanh => 4 | .sigmoid => 5 | .softplus => 6
  | .silu => 7 | .gelu => 8

/-- The binary32 result of a function and whether a finite input overflowed; a subnormal result is flushed on the main path (R77).
DESIGN CHOICE, safe: log entries 24, 25. -/
def fnLane (audit derivative : Bool) (f : FnName) (x : Num) : W32 × Bool :=
  match (if derivative then fndSpecial f x else fnSpecial f x) with
  | some v => (moveF32 v, false)
  | none =>
    let w := fnOrdinary derivative f (Config.fnResult (fnCode f) derivative (moveF32 x)) x
    (BitVec.ofNat 32 (flushCode audit .f32 w.toNat), (decodeElem .f32 w.toNat).isInf)

end Sys2Proof.Machine
end

