-- ==== Sys2Proof/Machine/VectorOps.lean ====
section
/-! DEFINITION. The effects of slots V and F but for STAGE: arithmetic, conversions, drop-out and the function unit
(R122 to R127, R185 to R189, R192, R296). -/

namespace Sys2Proof.Machine

/-! ## Arithmetic (R185) -/

/-- Operands that an operation uses. -/
def vopArity : VOp → Nat
  | .add | .sub | .mul | .max | .min | .cmp => 2
  | .fma | .sel | .mask => 3
  | _ => 1

/-- The operands that an operation uses, in order. -/
def vopOperands (o : VOp) (f : VArithF) : List Opnd := [f.a, f.b, f.c].take (vopArity o)

/-- The larger of two values; NaN if either is NaN; +0 over −0. -/
def numMax (x y : Num) : Num :=
  if x.isNan || y.isNan then .nan
  else if Num.lt x y then y else if Num.lt y x then x else if x.isNeg then y else x

/-- The smaller of two values; NaN if either is NaN; −0 under +0. -/
def numMin (x y : Num) : Num :=
  if x.isNan || y.isNan then .nan
  else if Num.lt x y then x else if Num.lt y x then y else if x.isNeg then x else y

/-- The condition of VCMP (R185). -/
def vcmpHolds (flags : BitVec 4) (a b : Num) : Bool :=
  match flags.toNat % 4 with
  | 0 => Num.lt a b
  | 1 => Num.le a b
  | 2 => Num.eq a b
  | _ => !Num.eq a b

/-- The exact value of lane j before rounding, for the operations that round (R185). -/
def vopExact (o : VOp) (j : Nat) (a b c : Num) : Num :=
  match o with
  | .add => Num.add a b
  | .sub => Num.add a b.neg
  | .mul => Num.mul a b
  | .fma => Num.add (Num.mul a b) c
  | .iota => Num.add a (.fin false j 0)
  | _ => a

/-- The value that an operation that only moves, selects or compares puts in lane j (R185, R535). -/
def vopMove (o : VOp) (flags : BitVec 4) (a b c : Num) : Num :=
  match o with
  | .max => numMax a b
  | .min => numMin a b
  | .cmp => if vcmpHolds flags a b then numOne else numZero
  | .sel => if c.isZero then b else a
  | .relu => if a.isNan then .nan else if Num.lt numZero a then a else numZero
  | .abs => a.abs
  | .neg => a.neg
  | .mask => if (if flags.getLsbD 0 then Num.lt c b else Num.le b c) then a else .inf true
  | _ => a

/-- The operation rounds its result (R122, R535). -/
def vopRounds : VOp → Bool
  | .add | .sub | .mul | .fma | .iota => true
  | _ => false

/-- The result of lane j. -/
def vopLane (audit : Bool) (o : VOp) (flags : BitVec 4) (j : Nat) (a b c : Num) : W32 × Counts :=
  if vopRounds o then roundF32 audit (vopExact o j a b c) else (moveF32 (vopMove o flags a b c), {})

/-- One binary32 addition of a cross-lane sum: its value and whether it overflowed (R123, R535). -/
def sumStep (audit : Bool) (x y : Num) : Num × Nat :=
  let r := roundF32 audit (Num.add x y)
  (decodeElem .f32 r.1.toNat, r.2.ovf)

/-- One level of the tree: adjacent results are added (R123). -/
def treeLevel (audit : Bool) : List Num → List Num × Nat
  | x :: y :: rest =>
    let a := sumStep audit x y
    let t := treeLevel audit rest
    (a.1 :: t.1, a.2 + t.2)
  | l => (l, 0)

/-- Levels of the tree, with the additions that overflowed. -/
def treeSum (audit : Bool) : Nat → List Num → Num × Nat
  | 0, l => (l.headD numZero, 0)
  | n + 1, l =>
    let t := treeLevel audit l
    let u := treeSum audit n t.1
    (u.1, t.2 + u.2)

/-- The sequence of audit replay: element 0 and then each next one (R104). -/
def seqSum (audit : Bool) : List Num → Num × Nat
  | [] => (numZero, 0)
  | x :: xs => xs.foldl (fun a y => let r := sumStep audit a.1 y; (r.1, a.2 + r.2)) (x, 0)

/-- VRSUM over 64 lanes (R123, R104, R535). -/
def laneSum (audit : Bool) (l : List Num) : W32 × Counts :=
  let t := if audit then seqSum true l else treeSum false 6 l
  let c : Counts := if t.1.isNan then { nan := 64 } else if t.1.isInf then { inf := 64 } else {}
  (moveF32 t.1, { c with ovf := t.2 })

/-- VRMAX over 64 lanes. -/
def laneMax (l : List Num) : W32 := moveF32 (l.foldl numMax (.inf true))

/-- The 64 result lanes of an arithmetic operation. -/
def vopLanes (audit : Bool) (o : VOp) (flags : BitVec 4) (a b c : List Num) : List W32 × Counts :=
  match o with
  | .rsum => let r := laneSum audit a; (List.replicate 64 r.1, r.2)
  | .rmax => (List.replicate 64 (laneMax a), {})
  | _ =>
    let rs := (List.range 64).map (fun j =>
      vopLane audit o flags j (a.getD j numZero) (b.getD j numZero) (c.getD j numZero))
    (rs.map (·.1), rs.foldl (fun x y => x.add y.2) {})

/-- FLAGS that an operation states; otherwise they are zero (R185, R186). -/
def vopFlagsOk (o : VOp) (flags : BitVec 4) : Bool :=
  match o with
  | .cmp => decide (flags.toNat < 4)
  | .mask => decide (flags.toNat < 2)
  | _ => flags == 0

/-- The encodings of an arithmetic operation that the spec defines (R173, R186, R187). -/
def vopDefined (o : VOp) (f : VArithF) : Bool :=
  vopFlagsOk o f.flags && opndIsDest f.dst && (vopOperands o f).all (fun x => opndFmtOk x f.sfmt)
    && decide (((vopOperands o f).map (fun x => opndLines x f.sfmt)).sum ≤ 4)

/-- The SRAM that an arithmetic operation touches in cell c. -/
def vopTouches (o : VOp) (f : VArithF) (c : Nat) : List Touch :=
  (vopOperands o f).flatMap (fun x => opndReads x f.sfmt c) ++ opndWrites f.dst .f32 c

/-- One cell's share of an arithmetic operation. -/
def State.vopCell (s : State) (d : DieId) (o : VOp) (f : VArithF) (c : Nat) : State :=
  let v := fun (n : Nat) (x : Opnd) => if n < vopArity o then s.opnd d c f.sfmt x else []
  let r := vopLanes s.audit o f.flags (v 0 f.a) (v 1 f.b) (v 2 f.c)
  (s.putLanes d c f.dst r.1).count d r.2

/-- An arithmetic operation 0x01 to 0x11. -/
def effVop (s : State) (d : DieId) (i : Issue) (o : VOp) (f : VArithF) : Done :=
  if vopDefined o f then s.broadcast d i (vopTouches o f) (fun t c => t.vopCell d o f c) else .undef

/-! ## CVT (R188) -/

/-- Rows that a conversion takes. -/
def cvtRows (f : CvtF) : Nat := if f.rows2 then 2 else 1

/-- Scale bytes of a conversion: one for each block (R66). -/
def cvtScales (f : CvtF) : Nat := if f.blk = .b128 then 1 else blkPerRow f.blk * cvtRows f

/-- The encodings of a conversion to a stored format that the spec defines. -/
def cvtDefined (f : CvtF) : Bool :=
  (match f.dst with | .sram _ _ => true | _ => false)
    && (match f.src with | .reg r => decide (r.val + cvtRows f ≤ 64) | _ => false)
    && f.fmt != .f32
    && (if fmtBlocked f.fmt then (match f.scale with | .sram _ _ => true | _ => false)
        else (match f.scale with | .none => true | _ => false))
    && (f.rows2 || f.blk != .b128)

/-- The byte address of a scale operand: a specifier's line offset from its pointer (R173, R174). -/
def opndAddr (o : Opnd) (c : Nat) : Nat :=
  match o with
  | .sram p off => ptrSram p off c
  | _ => 0

/-- The SRAM that a conversion touches in cell c. -/
def cvtTouches (f : CvtF) (c : Nat) : List Touch :=
  [⟨c, opndAddr f.dst c, cvtRows f * rowBytes f.fmt, true, true⟩] ++
    (if fmtBlocked f.fmt then [⟨c, opndAddr f.scale c, cvtScales f, f.rule != .set, false⟩] else [])

/-- Split a list into blocks of n. -/
def blocksOf (n : Nat) : Nat → List Num → List (List Num)
  | 0, _ => []
  | k + 1, l => l.take n :: blocksOf n k (l.drop n)

/-- Convert rows of a block-scaled format: scale codes, element codes, counts. -/
def convertBlocks (audit : Bool) (f : CvtF) (sets : List Byte) (draws : List Nat) (vals : List Num) :
    List Byte × List Nat × Counts :=
  let n := blkSize f.blk
  let bs := (blocksOf n (cvtScales f) vals).zipIdx.map (fun (x : List Num × Nat) =>
    convertBlock audit f.fmt f.rule (sets.getD x.2 0).toNat f.round f.ovf (draws.drop (x.2 * n) |>.take n) x.1)
  (bs.map (fun b => BitVec.ofNat 8 b.1), bs.flatMap (fun b => b.2.1), bs.foldl (fun a b => a.add b.2.2) {})

/-- The draws of a conversion's rows, by lane and row (R134, R188). -/
def State.cvtDraws (s : State) (d : DieId) (i : Issue) (f : CvtF) (c : Nat) : List Nat :=
  (List.range (cvtRows f)).flatMap (fun row => (List.range 64).map (fun lane =>
    s.convDraw d c lane (i.nominal + (if f.rows2 then 4 + row else 3)) 8 row))

/-- The source rows of a conversion, flushed on the main path (R76). -/
def State.cvtSource (s : State) (d : DieId) (f : CvtF) (c : Nat) : List Num :=
  match f.src with
  | .reg r => (List.range (cvtRows f)).flatMap (fun k => (s.vreg d c (r.val + k)).map (readF32 s.audit))
  | _ => []

/-- Write the scale bytes of a conversion: under SET only 0xFF for a block with a NaN source in a format without one (R81, R188).
DEDUCED, unsafe: log entry 152. -/
def State.putScales (s : State) (d : DieId) (c : Nat) (f : CvtF) (vals : List Num) (scales : List Byte) : State :=
  if f.rule = .set then
    ((blocksOf (blkSize f.blk) (cvtScales f) vals).zip scales).zipIdx.foldl (fun (t : State) (x : (List Num × Byte) × Nat) =>
      if fmtNanless f.fmt && x.1.1.any Num.isNan then t.sramWrite d c (opndAddr f.scale c + x.2) [x.1.2] else t) s
  else s.sramWrite d c (opndAddr f.scale c) scales

/-- One cell's share of a conversion.
DEDUCED, unsafe: log entry 152. -/
def State.cvtCell (s : State) (d : DieId) (i : Issue) (f : CvtF) (c : Nat) : State :=
  let vals := s.cvtSource d f c
  let draws := s.cvtDraws d i f c
  if fmtBlocked f.fmt then
    let sets := if f.rule = .set then s.sramRead d c (opndAddr f.scale c) (cvtScales f) else []
    let r := convertBlocks s.audit f sets draws vals
    let s1 := s.sramWrite d c (opndAddr f.dst c) (packRow (fmtWidth f.fmt) r.2.1)
    (s1.putScales d c f vals r.1).count d r.2.2
  else
    let rs := (vals.zip draws).map (fun (x : Num × Nat) => convertElem s.audit f.fmt f.round f.ovf x.2 x.1)
    (s.sramWrite d c (opndAddr f.dst c) (packRow (fmtWidth f.fmt) (rs.map (·.1)))).count d
      (rs.foldl (fun a x => a.add x.2) {})

/-- A conversion to a stored format. -/
def effCvt (s : State) (d : DieId) (i : Issue) (f : CvtF) : Done :=
  if cvtDefined f then s.broadcast d i (cvtTouches f) (fun t c => t.cvtCell d i f c) else .undef

/-! ## UNP (R189) -/

/-- The encodings of an expansion that the spec defines. -/
def unpDefined (f : CvtF) : Bool :=
  (match f.src with | .sram _ _ => true | _ => false)
    && (match f.dst with | .reg r => decide (r.val + cvtRows f ≤ 64) | _ => false)
    && f.fmt != .f32
    && (if fmtBlocked f.fmt then (match f.scale with | .sram _ _ => true | _ => false)
        else (match f.scale with | .none => true | _ => false))
    && (f.rows2 || f.blk != .b128) && f.round == .rne && f.ovf == .sat && f.rule == .fit

/-- The SRAM that an expansion reads in cell c. -/
def unpTouches (f : CvtF) (c : Nat) : List Touch :=
  [⟨c, opndAddr f.src c, cvtRows f * rowBytes f.fmt, false, true⟩] ++
    (if fmtBlocked f.fmt then [⟨c, opndAddr f.scale c, cvtScales f, false, false⟩] else [])

/-- An expanded value: beyond the binary32 range it is an infinity, and counts one overflow and one infinite result; a NaN counts
as one (R189, R535). -/
def expandLane (audit : Bool) (v : Num) : W32 × Counts :=
  let r := convertElem audit .f32 .rne .strict 0 v
  (BitVec.ofNat 32 r.1, r.2)

/-- One cell's share of an expansion. -/
def State.unpCell (s : State) (d : DieId) (f : CvtF) (c : Nat) : State :=
  let codes := unpackRow (fmtWidth f.fmt) (64 * cvtRows f)
    (s.sramRead d c (opndAddr f.src c) (cvtRows f * rowBytes f.fmt))
  let scs := if fmtBlocked f.fmt then s.sramRead d c (opndAddr f.scale c) (cvtScales f) else []
  let rs := codes.zipIdx.map (fun (x : Nat × Nat) =>
    expandLane s.audit (if fmtBlocked f.fmt then
      scaledElem s.audit f.fmt x.1 (scs.getD (x.2 / blkSize f.blk) 0).toNat else readElem s.audit f.fmt x.1))
  let w : List W32 := rs.map (fun (x : W32 × Counts) => x.1)
  let s1 := match f.dst with
    | .reg r => (List.range (cvtRows f)).foldl (fun (t : State) k =>
        t.setVreg d c (r.val + k) ((w.drop (64 * k)).take 64)) s
    | _ => s
  s1.count d (rs.foldl (fun (a : Counts) (x : W32 × Counts) => a.add x.2) {})

/-- An expansion of a stored format. -/
def effUnp (s : State) (d : DieId) (i : Issue) (f : CvtF) : Done :=
  if unpDefined f then s.broadcast d i (unpTouches f) (fun t c => t.unpCell d f c) else .undef

/-! ## VDROP (R191, R296) -/

/-- The integer from 0 to 65,535 that a value is, if it is one. -/
def smallInt (v : Num) : Option Nat :=
  match v with
  | .fin neg m e =>
    if m = 0 then some 0
    else if neg then none
    else if 0 ≤ e then (if e ≤ 16 ∧ m * 2 ^ e.toNat < 65536 then some (m * 2 ^ e.toNat) else none)
    else if m % 2 ^ (-e).toNat = 0 ∧ m / 2 ^ (-e).toNat < 65536 then some (m / 2 ^ (-e).toNat) else none
  | _ => none

/-- The drop-out decision of one element (R296). -/
def dropLane (key : W64) (layer t keep : Nat) (v : Num) : W32 × Counts :=
  match smallInt v with
  | none => (0x7FC00000, { nan := 1 })
  | some e =>
    let ctr := BitVec.ofNat 64 (layer * 2 ^ 56) ||| BitVec.ofNat 64 (t * 2 ^ 16) ||| BitVec.ofNat 64 e
    if (mix64 (key ^^^ ctr) >>> 56).toNat < keep then (0x3F800000, {}) else (0, {})

/-- One cell's share of a drop-out mask. Positions in SRAM are read as binary32.
DESIGN CHOICE, unsafe: log entry 214. -/
def State.vdropCell (s : State) (d : DieId) (f : VdropF) (c : Nat) : State :=
  let key := (s.front d).dropKeys.getD f.keyEntry.toNat 0
  let rs := (s.opnd d c .f32 f.pos).map (dropLane key f.layer.toNat (ptrAt f.tok c) f.keep.toNat)
  (s.putLanes d c f.dst (rs.map (·.1))).count d (rs.foldl (fun a x => a.add x.2) {})

/-- A drop-out mask; KEEP is 1 to 255 (R191). -/
def effVdrop (s : State) (d : DieId) (i : Issue) (f : VdropF) : Done :=
  if opndIsDest f.dst && f.keep != 0 then
    s.broadcast d i (fun c => opndReads f.pos .f32 c ++ opndWrites f.dst .f32 c) (fun t c => t.vdropCell d f c)
  else .undef

/-! ## The function unit (R125 to R127, R192, R538) -/

/-- Counts of a binary32 result (R535). -/
def fnCounts (w : W32) (ovf : Bool) : Counts :=
  let v := decodeElem .f32 w.toNat
  { nan := if v.isNan then 1 else 0, inf := if v.isInf then 1 else 0, ovf := if ovf then 1 else 0 }

/-- The encodings of a function operation that the spec defines (R173, R192). -/
def fnDefined (f : FnF) : Bool := opndIsDest f.dst && opndFmtOk f.src f.sfmt && opndFmtOk f.dst f.ofmt

/-- The format of a function result: a register holds binary32. -/
def fnTarget (f : FnF) : Fmt :=
  match f.dst with
  | .sram _ _ => f.ofmt
  | _ => .f32

/-- One cell's share of a function operation. -/
def State.fnCell (s : State) (d : DieId) (i : Issue) (dv : Bool) (f : FnF) (c : Nat) : State :=
  let rs := (s.opnd d c f.sfmt f.src).map (fnLane s.audit dv f.func)
  if fnTarget f = .f32 then
    (s.putLanes d c f.dst (rs.map (·.1))).count d (rs.foldl (fun a x => a.add (fnCounts x.1 x.2)) {})
  else
    let cs := rs.zipIdx.map (fun (x : (W32 × Bool) × Nat) =>
      let r := convertElem s.audit f.ofmt f.round f.ovf (s.convDraw d c x.2 (i.nominal + 8) 9 0)
        (readF32 s.audit x.1.1)
      (r.1, { r.2 with ovf := r.2.ovf + (if x.1.2 then 1 else 0) }))
    (s.sramWrite d c (opndAddr f.dst c) (packRow 16 (cs.map (·.1)))).count d (cs.foldl (fun a x => a.add x.2) {})

/-- A function operation, forward or derivative. -/
def effFn (s : State) (d : DieId) (i : Issue) (dv : Bool) (f : FnF) : Done :=
  if fnDefined f then
    s.broadcast d i (fun c => opndReads f.src f.sfmt c ++ opndWrites f.dst (fnTarget f) c)
      (fun t c => t.fnCell d i dv f c)
  else .undef

end Sys2Proof.Machine
end

