-- ==== Sys2Proof/Machine/WordDecode.lean ====
section
/-! DEFINITION. The Cerot word: its slots, its operand fields, and the resolution of pointers and scalars at dispatch (R137 to
R146, R171 to R204). -/

namespace Sys2Proof.Machine

/-! ## Codes (R171 to R173, R175) -/

/-- Format of a code. -/
def fmtOf : Nat → Option Fmt
  | 0 => some .fp16 | 1 => some .bf16 | 2 => some .e5m2 | 3 => some .e4m3 | 4 => some .e3m2 | 5 => some .e2m3
  | 6 => some .e2m1 | 7 => some .int8 | 8 => some .int4 | 9 => some .u16l | 10 => some .f32 | _ => none

/-- Rounding mode of a code. -/
def rndOf : Nat → Option Rnd
  | 0 => some .rne | 1 => some .rtz | 2 => some .sr | _ => none

/-- Overflow mode of a code. -/
def ovfOf (n : Nat) : Ovf := if n = 0 then .sat else .strict

/-- Block size of a code. -/
def blkOf : Nat → Blk
  | 0 => .b16 | 1 => .b32 | 2 => .b64 | _ => .b128

/-- Scale rule of a code. -/
def ruleOf : Nat → Option Rule
  | 0 => some .fit | 1 => some .floor | 2 => some .set | _ => none

/-- Space of a code. -/
def spaceOf : Nat → Option Space
  | 0 => some .sram | 1 => some .hbm | 2 => some .lpddr | 3 => some .dieHbm | 4 => some .dieLpddr | 5 => some .dieSram
  | 6 => some .devHbm | 7 => some .devLpddr | 8 => some .devSram | _ => none

/-- Tile shape of a code. -/
def shapeOf : Nat → Option Shape
  | 0 => some .s16x256 | 1 => some .s32x128 | 2 => some .s32x256 | 3 => some .s64x64 | 4 => some .s64x128
  | 5 => some .s128x64 | _ => none

/-- Function of a code. -/
def fnOf : Nat → Option FnName
  | 0 => some .exp | 1 => some .log2 | 2 => some .recip | 3 => some .rsqrt | 4 => some .tanh | 5 => some .sigmoid
  | 6 => some .softplus | 7 => some .silu | 8 => some .gelu | _ => none

/-- Array selection of a code. -/
def arrayOf : Nat → Option ArraySel
  | 0 => some .a0 | 1 => some .a1 | 2 => some .both | _ => none

/-- Parts of a page of a code. -/
def partOf : Nat → Option Part
  | 1 => some .k | 2 => some .v | 3 => some .kv | _ => none

/-- A field hi:lo of a number. -/
def fld (v hi lo : Nat) : Nat := bits v lo (hi - lo + 1)

/-- A number below n, reduced to its range. -/
def finOf (n v : Nat) (h : 0 < n) : Fin n := ⟨v % n, Nat.mod_lt v h⟩

/-! ## Resolution (R144, R146) -/

/-- The iteration indices of the enclosing loops, outermost first. -/
def iterations (ls : List LoopFrame) : List Nat := ls.reverse.map (·.iter)

/-- The value that pointer register p gives with its loop terms (R144). -/
def FrontEnd.ptr (f : FrontEnd) (p : Nat) : Ptr :=
  let r := f.ptrs.getD p {}
  let i := fun (k : Nat) => BitVec.ofNat 32 ((iterations f.loops).getD k 0)
  ⟨r.base + i 0 * r.step0 + i 1 * r.step1 + i 2 * r.step2 + i 3 * r.step3, r.cellStride⟩

/-- A scalar register. -/
def FrontEnd.scalar (f : FrontEnd) (n : Nat) : W32 := f.scalars.getD n 0

/-- DEV: bits 9:0 of a scalar register (R175).
DEDUCED, unsafe: log entry 174. -/
def FrontEnd.device (f : FrontEnd) (n : Nat) : W32 := BitVec.ofNat 32 ((f.scalar n).toNat % 1024)

/-- An operand specifier (R173). -/
def FrontEnd.opnd (f : FrontEnd) (v : Nat) : Option Opnd :=
  let p := v % 2 ^ 14
  match v / 2 ^ 14 with
  | 0 => if p < 64 then some (.reg (finOf 64 p (by decide))) else none
  | 1 => some (.sram (f.ptr (p / 1024)) (BitVec.ofNat 10 p))
  | 2 => if p < 32 then some (.scalar (f.scalar p)) else none
  | _ => if p = 0 then some .none else none

/-- An optional destination signal at bits 13 and 12:0. -/
def dsigOf (v : Nat) : Option (BitVec 13) := if v.testBit 13 then some (BitVec.ofNat 13 v) else none

/-! ## The slots (R140, R176 to R201) -/

/-- Slot A. -/
def FrontEnd.decodeA (f : FrontEnd) (op v : Nat) : Option Op :=
  if op = 1 ∨ op = 2 then do
    let fmt ← fmtOf (fld v 70 67)
    if fld v 36 0 ≠ 0 ∨ fmt = .u16l ∨ fmt = .f32 ∨ (fmtWidth fmt = 16 ∧ fld v 52 49 ≠ 0) then none
    else some (.tload (op == 2) ⟨finOf 2 (fld v 71 71) (by decide), fmt, f.ptr (fld v 66 63), BitVec.ofNat 10 (fld v 62 53),
      f.ptr (fld v 52 49), BitVec.ofNat 10 (fld v 48 39), blkOf (fld v 38 37)⟩)
  else if 0x10 ≤ op ∧ op ≤ 0x18 then do
    let arr ← arrayOf (fld v 71 70)
    let w ← fmtOf (op % 16)
    let x ← fmtOf (fld v 68 65)
    let sh ← shapeOf (fld v 16 14)
    if fld v 3 0 ≠ 0 ∨ (fmtWidth x = 16 ∧ fld v 50 47 ≠ 0) then none
    else some (.mma ⟨arr, v.testBit 69, w, x, f.ptr (fld v 64 61), BitVec.ofNat 10 (fld v 60 51), f.ptr (fld v 50 47),
      BitVec.ofNat 10 (fld v 46 37), blkOf (fld v 36 35), finOf 128 (fld v 34 28) (by decide),
      finOf 128 (fld v 27 21) (by decide), finOf 16 (fld v 20 17) (by decide), sh, finOf 4 (fld v 13 12) (by decide),
      v.testBit 11, v.testBit 10, v.testBit 9, BitVec.ofNat 5 (fld v 8 4)⟩)
  else if op = 0x20 then do
    let sh ← shapeOf (fld v 66 64)
    if fld v 44 0 ≠ 0 then none
    else some (.drain ⟨finOf 2 (fld v 71 71) (by decide), finOf 16 (fld v 70 67) (by decide), sh,
      finOf 4 (fld v 63 62) (by decide), finOf 128 (fld v 61 55) (by decide), finOf 16 (fld v 54 51) (by decide),
      finOf 64 (fld v 50 45) (by decide)⟩)
  else none

/-- The arithmetic operations of slot V by code. -/
def vopOf : Nat → Option VOp
  | 0x01 => some .mov | 0x02 => some .add | 0x03 => some .sub | 0x04 => some .mul | 0x05 => some .fma | 0x06 => some .max
  | 0x07 => some .min | 0x08 => some .cmp | 0x09 => some .sel | 0x0A => some .relu | 0x0B => some .abs | 0x0C => some .neg
  | 0x0D => some .iota | 0x0E => some .mask | 0x10 => some .rsum | 0x11 => some .rmax | _ => none

/-- The fields of CVT and UNP (R188, R189). -/
def FrontEnd.decodeCvt (f : FrontEnd) (v : Nat) : Option CvtF := do
  let dst ← f.opnd (fld v 71 56)
  let src ← f.opnd (fld v 55 40)
  let sc ← f.opnd (fld v 39 24)
  let fmt ← fmtOf (fld v 23 20)
  let rule ← ruleOf (fld v 19 18)
  let rnd ← rndOf (fld v 17 16)
  if fld v 11 0 ≠ 0 then none
  else some ⟨dst, src, sc, fmt, rule, rnd, ovfOf (fld v 15 15), blkOf (fld v 14 13), v.testBit 12⟩

/-- Slot V. -/
def FrontEnd.decodeV (f : FrontEnd) (op v : Nat) : Option Op :=
  match op with
  | 0x20 => (f.decodeCvt v).map .cvt
  | 0x21 => (f.decodeCvt v).map .unp
  | 0x22 => do
    let fmt ← fmtOf (fld v 46 43)
    let rnd ← rndOf (fld v 42 41)
    if fld v 39 0 ≠ 0 then none
    else some (.stage ⟨f.ptr (fld v 71 68), f.ptr (fld v 67 64), BitVec.ofNat 7 (fld v 63 57), f.ptr (fld v 56 53),
      finOf 64 (fld v 52 47) (by decide), fmt, rnd, ovfOf (fld v 40 40)⟩)
  | 0x23 => do
    let dst ← f.opnd (fld v 71 56)
    let pos ← f.opnd (fld v 55 40)
    if fld v 24 0 ≠ 0 then none
    else some (.vdrop ⟨dst, pos, BitVec.ofNat 8 (fld v 39 32), BitVec.ofNat 7 (fld v 31 25),
      BitVec.ofNat 10 (f.scalar 29).toNat, f.ptr 15⟩)
  | _ => do
    let o ← vopOf op
    let dst ← f.opnd (fld v 71 56)
    let a ← f.opnd (fld v 55 40)
    let b ← f.opnd (fld v 39 24)
    let c ← f.opnd (fld v 23 8)
    let sf ← fmtOf (fld v 7 4)
    if sf = .fp16 ∨ sf = .bf16 ∨ sf = .f32 then some (.varith o ⟨dst, a, b, c, sf, BitVec.ofNat 4 v⟩) else none

/-- The formats of an operand of slots V and F in SRAM (R185, R192). -/
def sramFmt (f : Fmt) : Bool := f == .fp16 || f == .bf16 || f == .f32

/-- Slot F. -/
def FrontEnd.decodeF (f : FrontEnd) (op v : Nat) : Option Op := do
  let fn ← fnOf (fld v 71 68)
  let dst ← f.opnd (fld v 67 52)
  let src ← f.opnd (fld v 51 36)
  let sf ← fmtOf (fld v 35 32)
  let of ← fmtOf (fld v 31 28)
  let rnd ← rndOf (fld v 27 26)
  if (op = 1 ∨ op = 2) ∧ fld v 24 0 = 0 ∧ sramFmt sf = true ∧ sramFmt of = true then some (.fn (op == 2) ⟨fn, dst, src, sf, of, rnd, ovfOf (fld v 25 25)⟩) else none

/-- Slots M0 and M1. -/
def FrontEnd.decodeM (f : FrontEnd) (m1 : Bool) (op v : Nat) : Option Op :=
  match op with
  | 0x01 => do
    let ss ← spaceOf (fld v 68 65)
    let ds ← spaceOf (fld v 60 57)
    if fld v 28 14 = 0 then none
    else some (.copy ⟨finOf 8 (fld v 71 69) (by decide), ss, f.ptr (fld v 64 61), ds, f.ptr (fld v 56 53), dieOf (fld v 52 51),
      f.device (fld v 50 46), BitVec.ofNat 16 (fld v 45 30), v.testBit 29, BitVec.ofNat 15 (fld v 28 14), dsigOf v⟩)
  | 0x02 => do
    let ss ← spaceOf (fld v 68 65)
    let ds ← spaceOf (fld v 56 53)
    if fld v 28 14 = 0 then none
    else some (.gather ⟨finOf 8 (fld v 71 69) (by decide), ss, f.ptr (fld v 64 61), f.ptr (fld v 60 57), ds,
      f.ptr (fld v 52 49), BitVec.ofNat 8 (fld v 48 41), BitVec.ofNat 11 (fld v 40 30), v.testBit 29,
      BitVec.ofNat 15 (fld v 28 14), dsigOf v⟩)
  | 0x10 => do
    let part ← partOf (fld v 29 28)
    if !m1 ∨ fld v 12 0 ≠ 0 ∨ fld v 27 13 = 0 then none
    else some (.walk ⟨f.ptr (fld v 71 68), f.ptr (fld v 67 64), BitVec.ofNat 7 (fld v 63 57), f.ptr (fld v 56 53),
      finOf 512 (fld v 52 44) (by decide), f.ptr (fld v 43 40), BitVec.ofNat 10 (fld v 39 30), part,
      BitVec.ofNat 15 (fld v 27 13)⟩)
  | 0x11 =>
    if !m1 ∨ fld v 56 0 ≠ 0 then none
    else some (.flushTail ⟨f.ptr (fld v 71 68), f.ptr (fld v 67 64), BitVec.ofNat 7 (fld v 63 57)⟩)
  | _ => none

/-- The Press operations by code (R199). -/
def pressOf : Nat → Option PressOp
  | 1 => some .clear | 2 => some .maxE8 | 3 => some .addI32 | 4 => some .addBf16 | 5 => some .qaddFp16
  | 6 => some .qaddBf16 | 7 => some .finishFp16 | 8 => some .finishBf16 | _ => none

/-- Operations that read shared exponents (R200). -/
def pressUsesAux : PressOp → Bool
  | .qaddFp16 | .qaddBf16 | .finishFp16 | .finishBf16 => true
  | _ => false

/-- Slot X. SRC_SPACE is zero for CLEAR, AUX_PTR unless the operation reads shared exponents (R200). -/
def FrontEnd.decodeX (f : FrontEnd) (op v : Nat) : Option Op := do
  let o ← pressOf op
  let ss ← spaceOf (fld v 71 68)
  let ds ← spaceOf (fld v 59 56)
  if (o = .clear ∧ fld v 71 68 ≠ 0) ∨ (¬ pressUsesAux o ∧ fld v 63 60 ≠ 0) ∨ fld v 28 14 = 0 then none
  else some (.press o ⟨ss, f.ptr (fld v 67 64), f.ptr (fld v 63 60), ds, f.ptr (fld v 55 52), dieOf (fld v 51 50),
    f.device (fld v 49 45), BitVec.ofNat 15 (fld v 44 30), v.testBit 29, BitVec.ofNat 15 (fld v 28 14), dsigOf v⟩)

/-- Slot T. TALLY.ADD has DEV_SRC, DEVICE and DEV_S zero, like DIE.
DESIGN CHOICE, unsafe: log entry 213. -/
def FrontEnd.decodeT (f : FrontEnd) (op v : Nat) : Option Op :=
  let t := BitVec.ofNat 13 (fld v 71 59)
  let n := BitVec.ofNat 16 (fld v 58 43)
  if fld v 24 0 ≠ 0 ∨ n = 0 then none
  else if op = 1 then (if fld v 42 25 = 0 then some (.tallyAdd ⟨t, n⟩) else none)
  else if op = 2 then
    let dev := if v.testBit 40 then f.device (fld v 29 25)
      else BitVec.ofNat 32 (fld v 39 30)
    some (.tallyRadd ⟨t, n, dieOf (fld v 42 41), dev⟩)
  else none

/-- The operation of one slot. -/
def FrontEnd.decodeOp (f : FrontEnd) (sl : Slot) (op v : Nat) : Option Op :=
  match sl with
  | .a => f.decodeA op v
  | .v => f.decodeV op v
  | .f => f.decodeF op v
  | .m0 => f.decodeM false op v
  | .m1 => f.decodeM true op v
  | .x => f.decodeX op v
  | .t => f.decodeT op v
  | .c => none

/-! ## Slot C (R139, R202 to R204) -/

/-- A pointer field of a code. -/
def ptrFieldOf : Nat → Option PtrField
  | 0 => some .base | 1 => some .cellStride | 2 => some .step0 | 3 => some .step1 | 4 => some .step2 | 5 => some .step3
  | _ => none

/-- A function of S.ALU of a code. -/
def aluOf : Nat → Option AluFn
  | 0 => some .add | 1 => some .sub | 2 => some .mul | 3 => some .and | 4 => some .or | 5 => some .xor | 6 => some .shl
  | 7 => some .shr | 8 => some .sar | 9 => some .umin | 10 => some .umax | _ => none

/-- A source of S.READ of a code. -/
def readOf : Nat → Option ReadSrc
  | 0 => some .jobBeatLo | 1 => some .jobBeatHi | 2 => some .beatCountLo | 3 => some .beatCountHi | 4 => some .nan
  | 5 => some .inf | 6 => some .ovf | 7 => some .deviceId | 8 => some .dieNo | 9 => some .orchard | 10 => some .slot
  | 11 => some .plan | _ => none

/-- A register number. -/
def sReg (v : Nat) : Fin 32 := finOf 32 v (by decide)

/-- The control operation of slot C, its scalar operands resolved. -/
def FrontEnd.decodeC (f : FrontEnd) (op v : Nat) : Option CtrlOp :=
  match op with
  | 0x01 =>
    if fld v 53 0 ≠ 0 ∨ fld v 103 92 = 0 ∨ fld v 91 76 = 0 then none
    else some (.loop ⟨BitVec.ofNat 12 (fld v 103 92), BitVec.ofNat 16 (fld v 91 76),
      if v.testBit 75 then f.scalar (fld v 58 54) else BitVec.ofNat 32 (fld v 74 59)⟩)
  | 0x02 => do
    let x ← ptrFieldOf (fld v 99 97)
    if fld v 58 0 ≠ 0 then none
    else some (.ptrSet ⟨finOf 16 (fld v 103 100) (by decide), x,
      if v.testBit 96 then f.scalar (fld v 63 59) else BitVec.ofNat 32 (fld v 95 64)⟩)
  | 0x03 => do
    let x ← ptrFieldOf (fld v 99 97)
    if fld v 58 0 ≠ 0 then none
    else some (.ptrAdd ⟨finOf 16 (fld v 103 100) (by decide), x,
      if v.testBit 96 then f.scalar (fld v 63 59) else BitVec.ofNat 32 (fld v 95 64)⟩)
  | 0x04 =>
    if fld v 64 0 ≠ 0 then none
    else some (.maskSet ⟨v.testBit 103, if v.testBit 102 then f.scalar (fld v 69 65) else BitVec.ofNat 32 (fld v 101 70)⟩)
  | 0x05 => do
    let fn ← aluOf (fld v 103 100)
    if fld v 51 0 ≠ 0 then none
    else some (.sAlu ⟨fn, sReg (fld v 99 95), sReg (fld v 94 90),
      if v.testBit 89 then .inr (BitVec.ofNat 32 (fld v 83 52)) else .inl (sReg (fld v 88 84))⟩)
  | 0x06 => do
    let src ← readOf (fld v 103 96)
    if fld v 90 0 ≠ 0 then none else some (.sRead ⟨src, sReg (fld v 95 91)⟩)
  | 0x0F => if v = 0 then some .planEnd else none
  | _ => none

/-! ## The whole word (R137, R138) -/

/-- A slot's bits in a word, with its bit position. -/
def slotBase : Slot → Nat
  | .a => 0 | .v => 128 | .f => 256 | .m0 => 384 | .m1 => 512 | .x => 640 | .t => 768 | .c => 896

/-- The seven slots that have queues of operations. -/
def opSlots : List Slot := [.a, .v, .f, .m0, .m1, .x, .t]

/-- The 128 bits of a slot. -/
def slotBits (w : Nat) (sl : Slot) : Nat := bits w (slotBase sl) 128

/-- The queue entry of a slot under an issue, none when the slot is empty; the outer option fails on an undefined encoding. -/
def FrontEnd.decodeSlot (f : FrontEnd) (i : Issue) (w : Nat) (sl : Slot) : Option (Option QEntry) :=
  let v := slotBits w sl
  if fld v 127 120 = 0 then some none
  else
    match f.decodeOp sl (fld v 127 120) (v % 2 ^ 72) with
    | none => none
    | some o =>
      some (some ⟨o, { i with m1 := sl == .m1 },
        if v.testBit 119 then some (BitVec.ofNat 13 (fld v 118 106), BitVec.ofNat 16 (fld v 105 90)) else none,
        if v.testBit 89 then some (BitVec.ofNat 13 (fld v 88 76), fld v 75 72 + 1) else none⟩)

/-- ISSUE_DELTA of a word (R139). -/
def issueDelta (w : Nat) : Nat := fld (slotBits w .c) 127 112

/-- The control operation of a word, none when there is none; the outer option fails on an undefined encoding. -/
def FrontEnd.decodeCtrl (f : FrontEnd) (w : Nat) : Option (Option CtrlOp) :=
  let v := slotBits w .c
  if fld v 111 104 = 0 then some none else (f.decodeC (fld v 111 104) (v % 2 ^ 104)).map some

/-- The entries of a word's non-empty slots in order. -/
def FrontEnd.decodeSlots (f : FrontEnd) (i : Issue) (w : Nat) : List Slot → Option (List (Slot × QEntry))
  | [] => some []
  | sl :: ss =>
    match f.decodeSlot i w sl, f.decodeSlots i w ss with
    | some (some e), some es => some ((sl, e) :: es)
    | some none, some es => some es
    | _, _ => none

/-- PLAN.END stands in a word whose other slots are empty (R202). -/
def endsAlone (es : List (Slot × QEntry)) (c : Option CtrlOp) : Bool := c != some .planEnd || es.isEmpty

/-- The operations and the control operation of a word; none when one of its slots, or the word, holds no defined encoding. -/
def FrontEnd.decodeWord (f : FrontEnd) (i : Issue) (w : Nat) : Option (List (Slot × QEntry) × Option CtrlOp) :=
  match f.decodeSlots i w opSlots, f.decodeCtrl w with
  | some es, some c => if endsAlone es c then some (es, c) else none
  | _, _ => none

end Sys2Proof.Machine
end

