-- ==== Sys2Proof/Machine/Stream.lean ====
section
/-! DEFINITION. The Cerot stream: the effect of an operation, its start and completion, hollow operations, and the dispatch of
words with their control operations (R138 to R160, R169, R170, R202 to R205). -/

namespace Sys2Proof.Machine

/-! ## The effect of an operation -/

/-- The effect of any operation of slots A to T (R176 to R201).
DESIGN CHOICE, safe: log entry 17. DESIGN CHOICE, unsafe: log entry 18. -/
def effOp (s : State) (d : DieId) (id : Nat) (i : Issue) (o : Op) : Done :=
  match o with
  | .tload tr f => effTload s d i tr f
  | .mma f => effMma s d i f
  | .drain f => effDrain s d i f
  | .varith v f => effVop s d i v f
  | .cvt f => effCvt s d i f
  | .unp f => effUnp s d i f
  | .stage f => effStage s d i f
  | .vdrop f => effVdrop s d i f
  | .fn dv f => effFn s d i dv f
  | .copy f => effCopy s d id i f
  | .gather f => effGather s d id i f
  | .walk f => effWalk s d i f
  | .flushTail f => effFlush s d i f
  | .press p f => effPress s d id i p f
  | .tallyAdd f => effTallyAdd s d f
  | .tallyRadd f => effTallyRadd s d id f

/-! ## Hollow operations (R159, R180, R205) -/

/-- What a hollow operation does to the tile registers. -/
def State.hollowTiles (s : State) (d : DieId) (o : Op) : State :=
  match o with
  | .tload _ f => s.setPendingTile d f.loader.val
  | .mma f => s.mmaSwap d f
  | _ => s

/-- The run-time fault of a hollow operation: its signal names a device without a route (R380).
DEDUCED, unsafe: log entry 32. -/
def State.hollowTrip (s : State) (d : DieId) (o : Op) : Option Trip :=
  match o with
  | .copy f => if f.dsig.isSome then s.devTrip d f.dstSpace f.dev else none
  | .press _ f => if f.dsig.isSome then s.devTrip d f.dstSpace f.dev else none
  | _ => none

/-- The data-free part of a hollow operation: tile registers, tally counts and destination signals.
DEDUCED, unsafe: log entry 32. -/
def hollowOp (s : State) (d : DieId) (id : Nat) (o : Op) : Done :=
  match s.hollowTrip d o with
  | some t => .trip t
  | none =>
    match o with
    | .tallyAdd f => effTallyAdd s d f
    | .tallyRadd f => effTallyRadd s d id f
    | _ => .ok ((s.hollowTiles d o).hollowSignal d id o)

/-! ## Start and completion (R148, R149, R169) -/

/-- An operation that completes in the cycle in which it starts when nothing is awaited: a hollow one, a TALLY.RADD, and a
FLUSH.TAIL that names no open slot (R159, R198, R539). -/
def State.completesAtOnce (s : State) (d : DieId) (e : QEntry) : Bool :=
  e.issue.hollow || (match e.op with
    | .tallyRadd _ => true
    | .flushTail f => s.flushesNone d e.issue f
    | _ => false)

/-- Start an operation: its effect, or the hollow effects; a run-time fault makes it hollow with its own signal alone
(R205).
DESIGN CHOICE, safe: log entry 17. DEDUCED, safe: log entry 150. -/
def State.launch (s : State) (d : DieId) (slot : Slot) (e : QEntry) (cycle : Nat) : Result :=
  let id := s.fab.nextOp
  let s1 := s.beginOp d slot e cycle
  match (if e.issue.hollow then hollowOp s1 d id e.op else effOp s1 d id e.issue e.op) with
  | .ok t => .next (if s.completesAtOnce d e then t.settle d id else t)
  | .trip t =>
    .next (((s1.raise d slot e.issue t).hollowTiles d e.op).finishHollow d ⟨id, slot, e, cycle, s.ten.epoch, 0⟩)
  | .undef => .fault .undefinedOperation

/-- Run one operation by itself, with no wait and no signal; it completes at once unless it awaits an answer.
DESIGN CHOICE, safe: log entry 17. DESIGN CHOICE, unsafe: log entry 18. DEDUCED, safe: log entry 149. -/
def State.runOp (s : State) (d : DieId) (slot : Slot) (i : Issue) (o : Op) : Result :=
  match s.launch d slot ⟨o, i, none, none⟩ 0 with
  | .next t => .next (t.settle d s.fab.nextOp)
  | r => r

/-- The resources that an operation holds (R169): arrays 0 and 1, loaders 2 and 3, vector unit 4, function unit 5, walker 6,
flush path 7, Press sender 8, tally port 9, copy engine k 10 + k. -/
def opResources (m1 : Bool) : Op → List Nat
  | .tload _ f => [2 + f.loader.val]
  | .mma f => selArrays f.array
  | .drain f => [f.array.val]
  | .varith _ _ | .cvt _ | .unp _ | .stage _ | .vdrop _ => [4]
  | .fn _ _ => [5]
  | .copy f => [10 + f.engine.val + (if m1 then 8 else 0)]
  | .gather f => [10 + f.engine.val + (if m1 then 8 else 0)]
  | .walk _ => [6]
  | .flushTail _ => [7]
  | .press _ _ => [8]
  | .tallyAdd _ | .tallyRadd _ => [9]

/-- The operations that an audit plan set issues at one eighth of the rate: those of slots V and F, MMA and ACC.DRAIN (R103). -/
def auditSlowed : Op → Bool
  | .mma _ | .drain _ | .varith _ _ | .cvt _ | .unp _ | .stage _ | .vdrop _ | .fn _ _ => true
  | _ => false

/-- The cycles for which an operation occupies its resources on the main path, none when until it completes (R176, R185, R190,
R192, R193, R199, R539). -/
def mainOccupancy (i : Issue) : Op → Option Nat
  | .tload _ _ => some 64
  | .mma f => some (ceilDiv (f.nvec.val + 1) (vectorsPerCycle f.wFmt f.inFmt))
  | .drain f => some (f.nrows.val + 1)
  | .cvt f => some (if f.rows2 then 3 else 1)
  | .stage _ => some 4
  | .press o f => some (ceilDiv ((f.len.toNat + 1) * 256 * pressPer o * (passCells f.expand i.mask).length) 512)
  | .copy _ | .gather _ | .walk _ | .flushTail _ => none
  | _ => some 1

/-- The same, eightfold in an audit plan set where R103 says so. -/
def opOccupancy (audit : Bool) (i : Issue) (o : Op) : Option Nat :=
  (mainOccupancy i o).map (fun n => if audit && auditSlowed o then 8 * n else n)

/-- A running operation still holds a resource in a cycle; a hollow one occupies none (R159). -/
def holds (audit : Bool) (cycle : Nat) (r : Running) (k : Nat) : Bool :=
  !r.entry.issue.hollow && (opResources r.entry.issue.m1 r.entry.op).contains k &&
    (match opOccupancy audit r.entry.issue r.entry.op with
     | some n => decide (cycle < r.start + n)
     | none => true)

/-- A running load of an array's shadow. -/
def loading (arr : Nat) (r : Running) : Bool :=
  match r.entry.op with
  | .tload _ f => f.loader.val == arr
  | _ => false

/-- A running operation of an array. -/
def usesArray (arr : Nat) (r : Running) : Bool :=
  match r.entry.op with
  | .mma f => (selArrays f.array).contains arr
  | .drain f => f.array.val == arr
  | _ => false

/-- The unit-specific conditions of a start (R113, R180, R182, R183). -/
def State.unitReady (s : State) (d : DieId) (o : Op) : Bool :=
  let run := (s.front d).running
  match o with
  | .tload _ f => !s.shadowPending d f.loader.val
  | .mma f => !f.swap || (selArrays f.array).all (fun a => !run.any (loading a))
  | .drain f => !run.any (usesArray f.array.val)
  | _ => true

/-- A hollow operation waits for no unit, but a hollow MMA that swaps waits for a pending load (R159). -/
def State.hollowReady (s : State) (d : DieId) (o : Op) : Bool :=
  match o with
  | .mma _ => s.unitReady d o
  | _ => true

/-- The exception of R170: a TLOAD with the array operation that swaps its array. -/
def swapsFor (o p : Op) : Bool :=
  match o, p with
  | .tload _ f, .mma g => g.swap && (selArrays g.array).contains f.loader.val
  | _, _ => false

/-- A slot starts at most one operation per cycle (R169, R170).
DESIGN CHOICE, safe: log entry 147. -/
def FrontEnd.slotFree (f : FrontEnd) (slot : Slot) (o : Op) (cycle : Nat) : Bool :=
  match f.lastStart.find? (slotNo slot) with
  | some (c, p) => decide (c < cycle) || (decide (c = cycle) && swapsFor o p)
  | none => true

/-- The operation at the head of a queue may start in a cycle (R148): its wait is met, its slot has started none in the cycle,
and unless it is hollow its unit and its resources are free.
DESIGN CHOICE, safe: log entry 147. -/
def State.mayStart (s : State) (d : DieId) (slot : Slot) (e : QEntry) (cycle : Nat) : Bool :=
  let run := (s.front d).running
  s.waitMet d e.wait && (s.front d).slotFree slot e.op cycle &&
    (if e.issue.hollow then s.hollowReady d e.op
     else s.unitReady d e.op &&
      (opResources e.issue.m1 e.op).all (fun k => !run.any (fun r => holds s.audit cycle r k)))

/-- Note what a slot started. -/
def FrontEnd.started (f : FrontEnd) (slot : Slot) (o : Op) (cycle : Nat) : FrontEnd :=
  { f with lastStart := f.lastStart.insert (slotNo slot) (cycle, o) }

/-- The queue of a slot. -/
def Slots.get {α : Type} (q : Slots α) (sl : Slot) : α :=
  match sl with
  | .a => q.a | .v => q.v | .f => q.f | .m0 => q.m0 | .m1 => q.m1 | .x => q.x | .t => q.t | .c => q.c

/-- Replace the queue of a slot. -/
def Slots.set {α : Type} (q : Slots α) (sl : Slot) (x : α) : Slots α :=
  match sl with
  | .a => { q with a := x } | .v => { q with v := x } | .f => { q with f := x } | .m0 => { q with m0 := x }
  | .m1 => { q with m1 := x } | .x => { q with x := x } | .t => { q with t := x } | .c => { q with c := x }

/-- Every queue of operations is empty. -/
def FrontEnd.queuesEmpty (f : FrontEnd) : Bool := opSlots.all (fun sl => (f.queues.get sl).isEmpty)

/-! ## Control operations (R158 to R160, R202 to R204) -/

/-- Change a field of a pointer register. -/
def PtrReg.put (r : PtrReg) (x : PtrField) (g : W32 → W32) : PtrReg :=
  match x with
  | .base => { r with base := g r.base }
  | .cellStride => { r with cellStride := g r.cellStride }
  | .step0 => { r with step0 := g r.step0 }
  | .step1 => { r with step1 := g r.step1 }
  | .step2 => { r with step2 := g r.step2 }
  | .step3 => { r with step3 := g r.step3 }

/-- Change a field of a pointer register of a front end. -/
def FrontEnd.putPtr (f : FrontEnd) (p : Nat) (x : PtrField) (g : W32 → W32) : FrontEnd :=
  { f with ptrs := AMap.set {} f.ptrs p ((f.ptrs.getD p {}).put x g) }

/-- Set a scalar register. -/
def FrontEnd.putScalar (f : FrontEnd) (n : Nat) (w : W32) : FrontEnd := { f with scalars := AMap.set 0 f.scalars n w }

/-- One half of CELL_MASK set (R202). -/
def setHalf (m : W64) (high : Bool) (v : W32) : W64 :=
  if high then v ++ m.extractLsb' 0 32 else m.extractLsb' 32 32 ++ v

/-- S.ALU (R203). -/
def aluResult (fn : AluFn) (a b : W32) : W32 :=
  match fn with
  | .add => a + b
  | .sub => a - b
  | .mul => a * b
  | .and => a &&& b
  | .or => a ||| b
  | .xor => a ^^^ b
  | .shl => a <<< (b.toNat % 32)
  | .shr => a >>> (b.toNat % 32)
  | .sar => a.sshiftRight (b.toNat % 32)
  | .umin => if a.toNat ≤ b.toNat then a else b
  | .umax => if a.toNat ≤ b.toNat then b else a

/-- The value that S.READ loads (R204). BEAT_COUNT is the current one, on a late die too.
DESIGN CHOICE, unsafe: log entry 212. -/
def State.readSource (s : State) (d : DieId) (src : ReadSrc) : W32 :=
  let f := s.front d
  match src with
  | .jobBeatLo => BitVec.ofNat 32 f.planBeat
  | .jobBeatHi => BitVec.ofNat 32 (f.planBeat / 2 ^ 32)
  | .beatCountLo => BitVec.ofNat 32 s.beat.count
  | .beatCountHi => BitVec.ofNat 32 (s.beat.count / 2 ^ 32)
  | .nan => BitVec.ofNat 32 f.nanLast
  | .inf => BitVec.ofNat 32 f.infLast
  | .ovf => BitVec.ofNat 32 f.ovfLast
  | .deviceId => BitVec.ofNat 32 (s.param P.deviceId)
  | .dieNo => BitVec.ofNat 32 d.val
  | .orchard => BitVec.ofNat 32 ((s.job.planSet.map (·.orchardSize)).getD 1)
  | .slot => BitVec.ofNat 32 f.schedSlot
  | .plan => BitVec.ofNat 32 f.planIndex

/-- A word of the plan in progress. -/
def State.planWord (s : State) (d : DieId) (n : Nat) : Nat :=
  leNat (s.mem.plan.readBytes (planKey d (((s.front d).line + n) * 128)) 128)

/-- The sum of the ISSUE_DELTA values of n words from word w (R158).
DEDUCED, unsafe: log entry 37. -/
def State.deltaSum (s : State) (d : DieId) (w : Nat) : Nat → Nat
  | 0 => 0
  | n + 1 => issueDelta (s.planWord d w) + s.deltaSum d (w + 1) n

/-- The iteration in progress is hollow (R159). -/
def FrontEnd.hollowNow (f : FrontEnd) : Bool :=
  match f.loops with
  | [] => false
  | l :: _ => l.outerHollow || decide (l.count ≤ l.iter)

/-- Open a loop whose body starts at a word with a nominal cycle; a count above MAX is taken as MAX and logged (R158, R159).
DEDUCED, unsafe: log entry 37. -/
def State.openLoop (s : State) (d : DieId) (f : LoopF) (word body nominal : Nat) : State :=
  let n := f.count.toNat
  let m := f.max.toNat
  let fr : LoopFrame := ⟨body, f.body.toNat, min n m, m, 0, nominal, s.deltaSum d body f.body.toNat,
    (s.front d).hollowNow⟩
  let s1 := s.modFront d (fun x => { x with loops := fr :: x.loops })
  if m < n then s1.dieEvent d Ev.planCountClamped [(2, (s.front d).planIndex), (2, word), (4, n)] else s1

/-- After a word, leave or repeat the loops whose bodies end there; `fuel` bounds the depth. -/
def FrontEnd.closeLoops : Nat → FrontEnd → FrontEnd
  | 0, f => f
  | fuel + 1, f =>
    match f.loops with
    | [] => f
    | l :: ls =>
      if f.wordNo ≠ l.bodyWord + l.bodyLen then f
      else if l.iter + 1 < l.max then
        { f with loops := { l with iter := l.iter + 1 } :: ls, wordNo := l.bodyWord,
                 nominal := l.firstNominal + (l.iter + 1) * l.delta }
      else closeLoops fuel { f with loops := ls, nominal := l.firstNominal + l.max * l.delta }

/-- A control operation other than LOOP on the registers of a front end, which acts at dispatch; `read` gives what S.READ loads. -/
def FrontEnd.control (f : FrontEnd) (read : ReadSrc → W32) (c : CtrlOp) : FrontEnd :=
  match c with
  | .loop _ => f
  | .ptrSet g => f.putPtr g.p.val g.field (fun _ => g.value)
  | .ptrAdd g => f.putPtr g.p.val g.field (fun v => v + g.value)
  | .maskSet g => { f with mask := setHalf f.mask g.high g.value }
  | .sAlu g =>
    let b := match g.b with
      | .inl r => f.scalar r.val
      | .inr v => v
    f.putScalar g.dst.val (aluResult g.fn (f.scalar g.sa.val) b)
  | .sRead g => f.putScalar g.dst.val (read g.source)
  | .planEnd => { f with ended := true, endQueued := true }

/-- A control operation other than LOOP. -/
def State.control (s : State) (d : DieId) (c : CtrlOp) : State := s.modFront d (fun x => x.control (s.readSource d) c)

/-! ## Dispatch (R147, R161) -/

/-- A line's double-bit error, at any of its sixteen 64-bit words. -/
def State.planLineBad (m : AMap Bool) (d : DieId) (line : Nat) : Nat :=
  (m.filter (fun (p : Nat × Bool) => decide (planKey d (line * 128) / 8 ≤ p.1 ∧ p.1 < planKey d (line * 128) / 8 + 16))).length

/-- Count the corrected errors of a line (R161). -/
def State.correctPlan (s : State) (d : DieId) (line : Nat) : State :=
  let k := State.planLineBad s.mem.planSingle d line
  if k = 0 then s
  else s.limited Ev.planStoreCorrected d.val d.val k (fun n => [(4, n)])

/-- The front end fetches a line: corrected errors are counted; an uncorrectable one is logged and the die asks for a halt, and
dispatches no further word of a plan that it cannot read (R161).
DESIGN CHOICE, unsafe: log entry 177. -/
def State.fetchLine (s : State) (d : DieId) (line : Nat) : State :=
  if State.planLineBad s.mem.planDouble d line = 0 then s.correctPlan d line
  else ((s.dieEvent d Ev.planStoreUncorrectable [(4, line)]).requestHalt d).modFront d (fun x => { x with stopped := true })

/-- Every non-empty slot of a word has a free queue entry (R147). -/
def FrontEnd.roomFor (f : FrontEnd) (es : List (Slot × QEntry)) : Bool :=
  es.all (fun p => decide ((f.queues.get p.1).length < 16))

/-- Enter a word's slots into their queues. -/
def FrontEnd.enqueue (f : FrontEnd) (es : List (Slot × QEntry)) : FrontEnd :=
  es.foldl (fun (x : FrontEnd) p => { x with queues := x.queues.set p.1 (x.queues.get p.1 ++ [p.2]) }) f

/-- The front end may dispatch: a plan is open, PLAN.END has not been dispatched, and no halt has stopped it. -/
def FrontEnd.mayDispatch (f : FrontEnd) : Bool := f.planOpen && !f.ended && !f.stopped && !f.inReset

/-- Move on to the next word. -/
def FrontEnd.nextWord (f : FrontEnd) (delta : Nat) : FrontEnd :=
  FrontEnd.closeLoops 8 { f with wordNo := f.wordNo + 1, nominal := f.nominal + delta }

/-- The control operation of a dispatched word. -/
def State.wordControl (s : State) (d : DieId) (w delta : Nat) (c : Option CtrlOp) : State :=
  match c with
  | some (.loop f) => s.openLoop d f w (w + 1) ((s.front d).nominal + delta)
  | some o => s.control d o
  | none => s

/-- Dispatch the next word of a die (R147): its slots enter their queues with the values resolved, and its control operation
then acts (R146). Nothing happens while a queue it needs is full. -/
def State.dispatchWord (s : State) (d : DieId) : Result :=
  let f := s.front d
  let line := f.line + f.wordNo
  if State.planLineBad s.mem.planDouble d line ≠ 0 then .next (s.fetchLine d line)
  else
    let s1 := s.fetchLine d line
    let w := s.planWord d f.wordNo
    match f.decodeWord ⟨f.mask, f.hollowNow, f.nominal, f.wordNo, false⟩ w with
    | some (es, c) =>
      if f.roomFor es then
        .next (((s1.modFront d (fun x => x.enqueue es)).wordControl d f.wordNo (issueDelta w) c).modFront d
          (fun x => x.nextWord (issueDelta w)))
      else .next s
    | none => .fault .undefinedEncoding

/-! ## The stream's commands -/

/-- WORD_DISPATCH (R147).
DESIGN CHOICE, safe: log entries 5, 17. DEDUCED, safe: log entry 150. -/
def execWordDispatch (d : DieId) (s : State) : Result :=
  if (s.front d).mayDispatch then s.dispatchWord d else .next s

/-- OPERATION_START (R148): nothing happens while the head of the queue may not start.
DESIGN CHOICE, safe: log entry 17. -/
def execOperationStart (d : DieId) (slot : Slot) (cycle : Nat) (s : State) : Result :=
  match (s.front d).queues.get slot with
  | [] => .next s
  | e :: es =>
    if s.mayStart d slot e cycle then
      (s.modFront d (fun x => { x with queues := x.queues.set slot es }.started slot e.op cycle)).launch d slot e cycle
    else .next s

/-- OPERATION_COMPLETE (R149): the n-th running operation of a slot completes if it has every answer.
DESIGN CHOICE, safe: log entries 15, 17. -/
def execOperationComplete (d : DieId) (slot : Slot) (n : Nat) (s : State) : Result :=
  match ((s.front d).running.filter (fun r => r.slot == slot))[n]? with
  | some r => .next (s.settle d r.id)
  | none => .next s

/-- LOOP (R158): the words that follow are the body. -/
def execLoop (d : DieId) (f : LoopF) (s : State) : Result :=
  .next (s.openLoop d f (s.front d).wordNo (s.front d).wordNo (s.front d).nominal)

/-- PTR.SET (R202). -/
def execPtrSet (d : DieId) (f : PtrSetF) (s : State) : Result := .next (s.control d (.ptrSet f))

/-- PTR.ADD (R202). -/
def execPtrAdd (d : DieId) (f : PtrSetF) (s : State) : Result := .next (s.control d (.ptrAdd f))

/-- MASK.SET (R202). -/
def execMaskSet (d : DieId) (f : MaskSetF) (s : State) : Result := .next (s.control d (.maskSet f))

/-- S.ALU (R203). -/
def execSAlu (d : DieId) (f : SAluF) (s : State) : Result := .next (s.control d (.sAlu f))

/-- S.READ (R204). -/
def execSRead (d : DieId) (f : SReadF) (s : State) : Result := .next (s.control d (.sRead f))

/-- PLAN.END leaves slot C's queue once every other queue is empty and every unit has completed (R150). -/
def execPlanEnd (d : DieId) (s : State) : Result :=
  if (s.front d).queuesEmpty && (s.front d).running.isEmpty then
    .next (s.modFront d (fun x => { x with endQueued := false }))
  else .next s

end Sys2Proof.Machine
end

