-- ==== Sys2Proof/Machine/Messages.lean ====
section
/-! DEFINITION. Messages at their destination: WRITE, READ, PRESS, TALLY_ADD and the responses, their assembly from flits, and
the forwarding of routed flits (R155, R156, R370 to R373, R377 to R386, R424, R425, R442). -/

namespace Sys2Proof.Machine

/-- Handle a delivered message unless its epoch is not the current one. -/
def State.underEpoch (s : State) (m : Message) (g : State → State) : State :=
  if m.hdr.epoch = s.ten.epoch then g s else s.epochDrop m.hdr.dstDie 1

/-- Blocks of a message. -/
def msgCount (m : Message) : Nat := m.desc.blocks.toNat + 1

/-- The place that a message addresses on its destination die (R210).
DEDUCED, unsafe: log entry 47. -/
def msgPlace (m : Message) : Loc :=
  let a := m.desc.address.toNat
  match bits a 50 2 with
  | 0 => .sram m.hdr.dstDie (bits a 44 6) (a % 2 ^ 22)
  | t => .ext (t == 2) m.hdr.dstDie (a % 2 ^ 38 / 256)

/-- A message addresses memory that exists (R210).
DEDUCED, unsafe: log entry 47. -/
def msgInRange (m : Message) : Bool :=
  let a := m.desc.address.toNat
  match (msgPlace m) with
  | .sram _ _ b => decide (b + 256 * (msgCount m) ≤ sramEnd)
  | .ext lp _ b => bits a 50 2 != 3 && decide (b + (msgCount m) ≤ tierPages lp * 256)
  | .remote .. => false

/-- A message touches a region of its destination die.
DESIGN CHOICE, safe: log entry 45. -/
def State.messageIn (s : State) (m : Message) (r : Region) : Bool :=
  match (msgPlace m) with
  | .ext lp _ b => s.touchesRegion r lp b (msgCount m)
  | _ => false

/-- A message must be refused: it touches the PARTNER region and does not come from COPY_HOSTED (R442). -/
def State.partnerRefuses (s : State) (m : Message) : Bool :=
  s.messageIn m .partner && m.hdr.srcDev.toNat != s.param P.copyHosted

/-- A refused access to the PARTNER region is logged (R442). -/
def State.logPartnerRefusal (s : State) (m : Message) : State :=
  s.limited Ev.partnerWriteRefused hubSource m.hdr.srcDev.toNat 1 (fun n => [(2, m.hdr.srcDev.toNat), (4, n)])

/-! ## WRITE and READ (R373) -/

/-- The last block of a WRITE is written: its destination signal, then WRITE_ACK. -/
def State.writeAnswer (s : State) (m : Message) : State :=
  let s1 := match m.desc.dsig with
    | some t => s.addTally m.hdr.dstDie t.toNat 1
    | none => s
  s1.respond m 0x30 0 1 []

/-- A message still waits for the host to answer snoops of the window (R331).
DEDUCED, unsafe: log entry 46. -/
def State.messageWaits (s : State) (m : Message) : Bool := s.host.snoops.any (fun b => b.owner == .message (bareMessage m))

/-- The STATUS with which a WRITE is turned away: RANGE outside memory or in the BASE region, REFUSED by R442; 0 when it is not. -/
def State.writeStatus (s : State) (m : Message) : Nat :=
  if !(msgInRange m) || s.messageIn m .base then 1 else if s.partnerRefuses m then 3 else 0

/-- The last block of a WRITE has come (R373): it is answered at once, or when the host has answered for every line it wrote in the
window (R331). -/
def State.endWrite (s : State) (m : Message) (status : Nat) : State :=
  if status = 0 then
    if s.messageWaits m then { s with fab := { s.fab with answering := s.fab.answering ++ [(bareMessage m)] } } else s.writeAnswer m
  else if status = 3 then (s.logPartnerRefusal m).respond m 0x30 3 1 []
  else s.respond m 0x30 status 1 []

/-- A WRITE with all of its data (R373). -/
def State.doWrite (s : State) (m : Message) : State :=
  let st := s.writeStatus m
  if st = 0 then
    State.endWrite (s.storeLoc (.message (bareMessage m)) (msgPlace m)
      ((m.data ++ List.replicate (256 * (msgCount m)) 0).take (256 * (msgCount m)))) m 0
  else s.endWrite m st

/-- Bytes of a READ_DATA whose STATUS is not OK: the table gives it DATA flits, and what they hold is stated nowhere (R372).
DESIGN CHOICE, safe: log entry 186. -/
def State.failedBlocks (s : State) (m : Message) : List Byte := (List.range (256 * (msgCount m))).map (Config.failedByte s.free)

/-- A READ that delivers nothing is answered with its STATUS.
DESIGN CHOICE, safe: log entry 186. -/
def State.failRead (s : State) (m : Message) (status : Nat) : State := (s.respond m 0x31 status 1 (s.failedBlocks m)).drawn

/-- A READ at its destination (R372, R424). -/
def State.doRead (s : State) (m : Message) : State :=
  if !(msgInRange m) then s.failRead m 1
  else if s.partnerRefuses m then (s.logPartnerRefusal m).failRead m 3
  else
    let trip := match (msgPlace m) with
      | .sram d c a => s.touchTrip d ⟨c, a, 256 * (msgCount m), false, false⟩
      | .ext lp d b => s.blocksTrip lp d b (msgCount m)
      | .remote .. => none
    match trip with
    | some t => (s.countTrip m.hdr.dstDie t).failRead m 2
    | none =>
      let s1 := s.correctLoc (msgCount m) (msgPlace m)
      s1.respond m 0x31 0 1 (s1.raceLoc (msgCount m) (msgPlace m))

/-! ## PRESS (R371, R393, R394) -/

/-- The first data block of a PRESS message. -/
def msgDataBlock (m : Message) : Nat :=
  let b := m.desc.address.toNat % 2 ^ 38 / 256
  b / 256 * 252 + b % 256

/-- The STATUS with which a PRESS is turned away: RANGE outside memory, in the BASE or HDM region, in blocks 252 to 255 of a page or
with an undefined POP (R371, R393); 0 when it is not. -/
def State.pressStatus (s : State) (m : Message) : Nat :=
  let a := m.desc.address.toNat
  if bits a 50 2 = 0 ∨ !(msgInRange m) ∨ s.messageIn m .base ∨ s.messageIn m .hdm
      ∨ 252 < a % 2 ^ 38 / 256 % 256 + (msgCount m) ∨ (popOp m.desc.pop.toNat).isNone then 1
  else 0

/-- Queue the blocks of a PRESS message from its block k on for their Press unit; they reach it in order (R394). -/
def State.enqueueBlocks (s : State) (m : Message) (k : Nat) (data : List (List Byte)) : State :=
  match popOp m.desc.pop.toNat with
  | none => s
  | some o =>
    s.pressEnqueue ((pressBlocks m.hdr.dstDie (bits m.desc.address.toNat 50 2 == 2) (msgDataBlock m + k) o m.hdr.epoch none
      (some (bareMessage m)) data).map (fun x => { x with last := x.dataBlock + 1 == msgDataBlock m + (msgCount m) }))

/-- A PRESS with all of its data is queued for its Press unit, or answered RANGE (R393). -/
def State.doPress (s : State) (m : Message) : State :=
  if s.pressStatus m = 0 then
    s.enqueueBlocks m 0 ((List.range (msgCount m)).map (fun k =>
      if m.desc.pop = 1 then [] else (m.data.drop (256 * k)).take 256))
  else s.respond m 0x32 1 1 []

/-! ## TALLY_ADD (R155, R156) -/

/-- A TALLY_ADD at its destination is applied or dropped, and acknowledged (R373). -/
def State.doTally (s : State) (m : Message) : State :=
  (s.receiveTally m.hdr.dstDie m.desc.tally.toNat m.desc.count.toNat m.desc.jobTag.toNat).respond m 0x11 0 3 []

/-! ## Responses (R373) -/

/-- The request type that a response type answers (R372). -/
def answeredType (t : Nat) : Nat :=
  match t with
  | 0x11 => 0x10
  | 0x30 => 0x20
  | 0x31 => 0x21
  | _ => 0x40

/-- The request that a response answers: the response echoes its MSG and its TXN (R371, R373). -/
def State.pendingOf (s : State) (m : Message) : Option Pending :=
  List.find? (fun (p : Pending) => p.die == m.hdr.dstDie && p.type == answeredType m.desc.type.toNat
    && p.txn == m.hdr.msg.toNat && p.txn == m.desc.txn.toNat) s.fab.pendings

/-- A request of the hub itself has been answered (R444, R454): a header's write no longer holds its copy back, and what a RESTORE
reads is kept. -/
def State.hubAnswered (s : State) (p : Pending) (ok : Bool) (data : List Byte) : State :=
  let copying := if ok then s.res.copying.map (fun c => { c with head := c.head.filter (· != p.op) }) else s.res.copying
  let mine := s.res.awaiting.contains p.op
  { s with res := { s.res with copying := copying
                               awaiting := s.res.awaiting.filter (· != p.op)
                               fetched := if mine && ok then s.res.fetched.insert p.address data else s.res.fetched } }

/-- A response at the sender (R373, R425): one that is not OK is a run-time fault of its operation; READ_DATA delivers its data;
with the last response the operation completes.
DESIGN CHOICE, safe: log entry 70. -/
def State.doResponse (s : State) (m : Message) : State :=
  match s.pendingOf m with
  | none => s
  | some p =>
    let s0 := State.nextRequest { s with fab := { s.fab with pendings := s.fab.pendings.erase p } } p.die p.cls
    let s1 := s0.hubAnswered p (m.desc.status = 0) m.data
    if p.epoch ≠ s.ten.epoch then s0.epochDrop p.die 5
    else if m.desc.status ≠ 0 then
      let s2 := s1.dieEvent p.die Ev.remoteError [(1, m.desc.type.toNat), (1, m.desc.status.toNat), (8, p.address)]
      if s.res.awaiting.contains p.op then s2
      else
      let s2 := s2.requestHalt p.die
      match s2.running? p.die p.op with
      | some r => s2.finishHollow p.die r
      | none => s2
    else
      let s2 := match p.dest with
        | some x => if (s1.running? p.die p.op).isSome then s1.storeLoc (.op p.die p.op) x m.data else s1
        | none => s1
      s2.answered p.die p.op

/-! ## Commands -/

/-- REMOTE_TALLY_ADD (R373). -/
def execRemoteTallyAdd (m : Message) (s : State) : Result :=
  .next (if m.hdr.epoch = s.ten.epoch then s.doTally m else s.epochDrop m.hdr.dstDie 2)

/-- TALLY_ACK (R373).
DESIGN CHOICE, safe: log entry 15. -/
def execTallyAck (m : Message) (s : State) : Result :=
  .next (s.underEpoch m (fun t => t.doResponse { m with desc := { m.desc with type := 0x11 } }))

/-- WRITE (R373).
DESIGN CHOICE, safe: log entry 45. -/
def execWrite (m : Message) (s : State) : Result := .next (s.underEpoch m (fun t => t.doWrite m))

/-- READ (R372).
DESIGN CHOICE, safe: log entry 45. -/
def execRead (m : Message) (s : State) : Result := .next (s.underEpoch m (fun t => t.doRead m))

/-- WRITE_ACK (R373). -/
def execWriteAck (m : Message) (s : State) : Result :=
  .next (s.underEpoch m (fun t => t.doResponse { m with desc := { m.desc with type := 0x30 } }))

/-- READ_DATA (R373). -/
def execReadData (m : Message) (s : State) : Result :=
  .next (s.underEpoch m (fun t => t.doResponse { m with desc := { m.desc with type := 0x31 } }))

/-- PRESS (R371): the message is queued for its Press unit.
DESIGN CHOICE, safe: log entry 45. -/
def execPress (m : Message) (s : State) : Result := .next (s.underEpoch m (fun t => t.doPress m))

/-- PRESS_ACK (R373). -/
def execPressAck (m : Message) (s : State) : Result :=
  .next (s.underEpoch m (fun t => t.doResponse { m with desc := { m.desc with type := 0x32 } }))

/-! ## Assembly (R370) -/

/-- A complete message by its type. -/
def State.handle (s : State) (m : Message) : State :=
  match m.desc.type.toNat with
  | 0x10 => s.doTally m
  | 0x20 => s.doWrite m
  | 0x21 => s.doRead m
  | 0x40 => s.doPress m
  | 0x11 | 0x30 | 0x31 | 0x32 => s.doResponse m
  | _ => s

/-- Key of an open message (R370). -/
def openKey (h : FlitHeader) : Nat :=
  (((h.dstDie.val * 1024 + h.srcDev.toNat) * 4 + h.srcDie.val) * 4 + h.cls.toNat) * 4096 + h.msg.toNat

/-- Note an open message with the DATA flits that it still wants. -/
def State.setOpen (s : State) (k : Nat) (x : Nat × Message) : State :=
  { s with fab := { s.fab with openMsgs := s.fab.openMsgs.insert k x } }

/-- A descriptor keeps to the limits of R371. -/
def descFits (x : Descriptor) : Bool :=
  decide (x.address.toNat % 65536 + 256 * (x.blocks.toNat + 1) ≤ 65536)

/-- The rest of a message is discarded from here on (R386), or a message under its key begins. -/
def State.setDiscard (s : State) (k : Nat) (b : Bool) : State :=
  let l := s.fab.discarding.filter (· != k)
  { s with fab := { s.fab with discarding := if b then l ++ [k] else l } }

/-- A flit breaks the message rules (code 5): a violation when it came by a link, else a counted drop. The rest of its message is
discarded, and blocks already written stay written (R386).
DEDUCED, unsafe: log entry 39. -/
def State.badMessage (s : State) (origin : Option (Nat × Nat)) (d : DieId) (f : Flit) : State :=
  let s1 := State.setDiscard { s with fab := { s.fab with openMsgs := s.fab.openMsgs.erase (openKey f.hdr) } } (openKey f.hdr)
    (f.hdr.ftype != 3)
  match origin with
  | some (n, _) => s1.violate n 5 (BitVec.ofNat 64 (headerNat f.hdr))
  | none => s1.dropRouted d f.hdr.dstDev.toNat

/-- Blocks of a message whose bytes have come. -/
def blocksCome (m : Message) : Nat := min (msgCount m) (m.data.length / 256)

/-- The STATUS of a WRITE or a PRESS of which a part has come, as far as it is known: one that is turned away once stays so. -/
def State.partStatus (s : State) (m : Message) : Nat :=
  if m.desc.status ≠ 0 then m.desc.status.toNat
  else if m.desc.type = 0x20 then s.writeStatus m
  else s.pressStatus m

/-- The blocks k to k + n − 1 of a WRITE or a PRESS have come: they are written, or go to their Press unit (R373, R394). -/
def State.arriveBlocks (s : State) (m : Message) (k n : Nat) : State :=
  let data := (m.data.drop (256 * k)).take (256 * n)
  if n = 0 then s
  else if m.desc.type = 0x20 then s.storeLoc (.message (bareMessage m)) ((msgPlace m).skip k) data
  else s.enqueueBlocks m k ((List.range n).map (fun j => (data.drop (256 * j)).take 256))

/-- The last block of a WRITE or a PRESS has come; a PRESS that was taken is answered by its Press unit. -/
def State.endBlocks (s : State) (m : Message) (status : Nat) : State :=
  if m.desc.type = 0x20 then s.endWrite m status
  else if status = 0 then s
  else s.respond m 0x32 status 1 []

/-- A DATA flit joins its open message, of which it is the n-th last: blocks of a WRITE or a PRESS are dealt with as they arrive, and
the last flit completes the message (R370, R373). -/
def State.takeData (s : State) (k n : Nat) (m : Message) (payload : List Byte) : State :=
  let m1 := { m with data := m.data ++ (payload ++ List.replicate 240 0).take 240 }
  if m.desc.type = 0x20 ∨ m.desc.type = 0x40 then
    let st := s.partStatus m
    let s1 := if st = 0 then s.arriveBlocks m1 (blocksCome m) (blocksCome m1 - blocksCome m) else s
    let m2 := { m1 with desc := { m1.desc with status := BitVec.ofNat 8 st } }
    if n ≤ 1 then State.endBlocks { s1 with fab := { s1.fab with openMsgs := s1.fab.openMsgs.erase k } } m2 st
    else s1.setOpen k (n - 1, m2)
  else if n ≤ 1 then
    State.handle { s with fab := { s.fab with openMsgs := s.fab.openMsgs.erase k } }
      { m1 with data := m1.data.take (256 * (msgCount m)) }
  else s.setOpen k (n - 1, m1)

/-- Deliver a flit at its destination die: a SINGLE is a message, a HEAD opens one and its DATA flits complete it (R370, R385).
What follows of a message broken off is discarded (R386). -/
def State.deliverFlit (s : State) (origin : Option (Nat × Nat)) (d : DieId) (f : Flit) : State :=
  let k := openKey f.hdr
  let x := readDesc (leNat (f.payload.take 32))
  if f.hdr.epoch ≠ s.ten.epoch then s.epochDrop d 1
  else if f.hdr.ftype = 3 then
    if (x.type = 0x21 ∨ x.type = 0x40) ∧ !(descFits x) then s.badMessage origin d f
    else (s.setDiscard k false).handle ⟨f.hdr, x, []⟩
  else if f.hdr.ftype = 1 then
    if (s.fab.openMsgs.find? k).isSome || !(descFits x) then s.badMessage origin d f
    else (s.setDiscard k false).setOpen k (ceilDiv (256 * (x.blocks.toNat + 1)) 240,
      ⟨f.hdr, { x with status := if x.type = 0x20 ∨ x.type = 0x40 then 0 else x.status }, []⟩)
  else
    match s.fab.openMsgs.find? k with
    | some (n, m) => s.takeData k n m f.payload
    | none => if s.fab.discarding.contains k then s else s.badMessage origin d f

/-! ## Forwarding (R377, R380, R385) -/

/-- The TYPE of a HEAD or SINGLE flit is defined for its class and form (R372).
DEDUCED, unsafe: log entry 39. -/
def typeDefined (f : Flit) : Bool :=
  let x := readDesc (leNat (f.payload.take 32))
  let c := f.hdr.cls.toNat
  let single := f.hdr.ftype == 3
  match x.type.toNat with
  | 0x10 | 0x11 => c == 3 && single
  | 0x20 => c == 0 && !single
  | 0x21 => c == 0 && single
  | 0x30 | 0x32 => c == 1 && single
  | 0x31 => c == 1 && !single
  | 0x40 => c == 2 && single == (x.pop == 1)
  | _ => false

/-- Reserved bits of the descriptor of a HEAD or SINGLE flit are set (R371). -/
def reservedSet (f : Flit) : Bool :=
  let v := leNat (f.payload.take 32)
  bits v 144 2 != 0 || bits v 0 67 != 0

/-- Flits of a channel of a link that still stand in this device's receive buffer (R368). -/
def State.buffered (s : State) (n v : Nat) : Nat :=
  (s.fab.links.flatMap (fun (p : Nat × Link) => p.2.queue)).countP (fun w => w.src == some (n, v))
    + s.fab.redWaiting.countP (fun w => w.src == some (n, v))

/-- A routed flit's header is malformed (R385, code 1).
DEDUCED, unsafe: log entry 39. -/
def malformed (f : Flit) : Bool :=
  f.hdr.ftype == 0 || decide (3 < f.hdr.ftype.toNat) || (f.hdr.ftype != 2 && (!typeDefined f || reservedSet f))

/-- The violation of a routed flit that its header or the buffers show, in the order of R385: 1 or 2. -/
def State.headerFault (s : State) (origin : Option (Nat × Nat)) (f : Flit) : Option Nat :=
  if malformed f then some 1
  else
    match origin with
    | some (n, v) => if 64 ≤ s.buffered n v then some 2 else none
    | none => none

/-- Reserved bits of a link-local message: those of its word 0, and what follows a marker's or an echo's 32 bytes (R44, R47, R375). -/
def localReserved (f : Flit) : Bool :=
  let v := leNat (f.payload.take 32)
  let rest := (f.payload.drop 32).any (fun b => b != 0)
  match flitType f with
  | 1 => bits v 192 8 != 0 || rest
  | 2 => bits v 232 6 != 0 || bits v 224 2 != 0 || bits v 0 32 != 0 || rest
  | 3 => bits v 0 159 != 0
  | _ => false

/-- A link-local flit with LEVEL, DST or reserved bits set, or with a TYPE that none has, is malformed (R372, R385). -/
def localMalformed (f : Flit) : Bool :=
  f.hdr.level != 0 || f.hdr.dstDev != 0 || f.hdr.dstDie != 0 || flitType f == 0 || decide (6 < flitType f) || localReserved f

/-- A marker of a reserved kind (R44). -/
def reservedMarker (f : Flit) : Bool :=
  let v := leNat (f.payload.take 32)
  flitType f == 1 && (decide (4 < bits v 244 4) || decide (4 < bits v 240 4))

/-- The first check of R385 that a link-local flit of a link fails. -/
def State.localFault (s : State) (n : Nat) (f : Flit) : Option Nat :=
  if localMalformed f then some 1
  else if 64 ≤ s.buffered n 6 then some 2
  else if reservedMarker f then some 5
  else none

/-- The message that a flit belongs to, as far as its Press unit goes: its own descriptor's, or that of the open message. -/
def State.flitMessage (s : State) (f : Flit) : Option Message :=
  if f.hdr.ftype = 2 then (s.fab.openMsgs.find? (openKey f.hdr)).map (·.2)
  else some ⟨f.hdr, readDesc (leNat (f.payload.take 32)), []⟩

/-- The Press unit toward which a flit goes holds its 64 blocks (R405). -/
def State.unitFull (s : State) (f : Flit) : Bool :=
  match s.flitMessage f with
  | some m =>
    decide (64 ≤ (s.fab.pressQueues.getD (pressKey m.hdr.dstDie (bits m.desc.address.toNat 50 2 == 2) (msgDataBlock m)) []).length)
  | none => false

/-- A delivered flit must wait (R405): it is RED, and its Press unit is full or an earlier flit of its input waits. -/
def State.redBlocked (s : State) (w : HeldFlit) : Bool :=
  w.flit.hdr.cls == 2 && (s.fab.redWaiting.any (fun y => y.die == w.die && y.src == w.src) || s.unitFull w.flit)

/-- A delivered flit is taken by its die, which frees its buffer, or waits in it (R368, R405). PRESS_RED_STALL counts cycles, which
the model does not keep: it advances by a free number.
DESIGN CHOICE, safe: log entry 140. -/
def State.takeFlit (s : State) (w : HeldFlit) : State :=
  if s.redBlocked w then
    (State.bump { s with fab := { s.fab with redWaiting := s.fab.redWaiting ++ [w] } } P.pressRedStall s.freeWord.toNat).drawn
  else (s.returnCredit w.src).deliverFlit w.src w.die w.flit

/-- RED flits that waited are taken as far as there is room. -/
def State.retryRed (s : State) : State :=
  s.fab.redWaiting.foldl State.takeFlit { s with fab := { s.fab with redWaiting := [] } }

/-- PRESS_APPLICATION (R394, R405): the Press unit of a controller deals with the block at the front of its queue, and RED flits that
waited for room go on. -/
def execPressApplication (d : DieId) (ctrl : Fin 10) (s : State) : Result :=
  .next (s.pressFront (d.val * 10 + ctrl.val)).retryRed

/-- A flit that came by a link is on its way through this device and has a route here (R380). -/
def State.passes (s : State) (d : DieId) (inp : FlitInput) (f : Flit) : Bool :=
  let e := s.routeEntry d f.hdr.dstDev.toNat
  s.param P.deviceId != f.hdr.dstDev.toNat && e.testBit 63 && e.testBit (29 + inputBit inp)

/-- What a passing flit does to the messages on their way from its link, none when it breaks the message rules (R370, R385). -/
def State.passOn (s : State) (n : Nat) (f : Flit) : Option State :=
  let k := transitKey n f.hdr
  let x := readDesc (leNat (f.payload.take 32))
  let put := fun (m : AMap Nat) (l : List Nat) => some { s with fab := { s.fab with transit := m, transitDrop := l } }
  if f.hdr.ftype = 3 then
    if (x.type = 0x21 ∨ x.type = 0x40) ∧ !(descFits x) then none else put s.fab.transit (s.fab.transitDrop.filter (· != k))
  else if f.hdr.ftype = 1 then
    if (s.fab.transit.find? k).isSome || !(descFits x) then none
    else put (s.fab.transit.insert k (ceilDiv (256 * (x.blocks.toNat + 1)) 240)) (s.fab.transitDrop.filter (· != k))
  else
    match s.fab.transit.find? k with
    | some w => put (if w ≤ 1 then s.fab.transit.erase k else s.fab.transit.insert k (w - 1)) s.fab.transitDrop
    | none => none

/-- A passing flit that breaks the message rules is a violation, and the rest of its message is discarded (R385, R386).
DEDUCED, unsafe: log entry 39. -/
def State.breakTransit (s : State) (n : Nat) (f : Flit) : State :=
  let k := transitKey n f.hdr
  let l := s.fab.transitDrop.filter (· != k)
  if s.fab.transitDrop.contains k ∧ f.hdr.ftype = 2 then s
  else State.violate { s with fab := { s.fab with transit := s.fab.transit.erase k
                                                  transitDrop := if f.hdr.ftype = 3 then l else l ++ [k] } } n 5
    (BitVec.ofNat 64 (headerNat f.hdr))

/-- Route a flit from an input and deliver it here if this device is its destination. -/
def State.routeOn (s : State) (d : DieId) (inp : FlitInput) (f : Flit) : State :=
  let origin := inputLink inp f
  match s.route origin f 20 d inp with
  | (t, some x) => t.takeFlit ⟨x, origin, f⟩
  | (t, none) => t

/-- Check a flit from an input and route it. -/
def State.forward (s : State) (d : DieId) (inp : FlitInput) (f : Flit) : State :=
  let origin := inputLink inp f
  match s.headerFault origin f with
  | some c =>
    match origin with
    | some (n, v) =>
      let s1 := s.violate n c (BitVec.ofNat 64 (headerNat f.hdr))
      if c = 2 then s1 else s1.returnCredit (some (n, v))
    | none => s.dropRouted d f.hdr.dstDev.toNat
  | none =>
    match origin with
    | some (n, v) =>
      if s.passes d inp f then
        match s.passOn n f with
        | some t => t.routeOn d inp f
        | none => (s.breakTransit n f).returnCredit (some (n, v))
      else s.routeOn d inp f
    | none => s.routeOn d inp f

/-- A link-local flit on a link (R372): it is never forwarded and is consumed at the port; one that fails a check of R385 is a
violation. What a well-formed one does stands with its own row.
DEDUCED, safe: log entry 187. -/
def State.localAtPort (s : State) (n : Nat) (f : Flit) : State :=
  match s.localFault n f with
  | some c => s.violate n c (BitVec.ofNat 64 (headerNat f.hdr))
  | none => s

/-- ROUTED_FLIT_FORWARD (R380): a flit that arrives on a link that is not UP is dropped, on a QUARANTINED one without being
counted (R377, R388). -/
def execRoutedFlitForward (d : DieId) (inp : FlitInput) (f : Flit) (s : State) : Result :=
  match inp with
  | .link l _ =>
    let ph := (s.link l.val).phase
    if linkLocal f then
      if (s.link l.val).carriesLocal then
        .next (((s.rxGood l.val).localAtPort l.val f).returnCredit (inputLink inp f))
      else .next s
    else if ph = .up then .next ((s.rxGood l.val).forward d inp f)
    else if ph = .quarantined then .next ((s.rxGood l.val).returnCredit (inputLink inp f))
    else if ph = .discovery ∨ ph = .mismatch then
      .next (((s.rxGood l.val).dropRouted d f.hdr.dstDev.toNat).returnCredit (inputLink inp f))
    else .next (s.dropRouted d f.hdr.dstDev.toNat)
  | _ => .next (s.forward d inp f)

/-- VIOLATION (R387): taken for information only.
DEDUCED, safe: log entry 131. -/
def execViolation (l : LinkId) (_code : Byte) (_count : W16) (_header : W64) (s : State) : Result :=
  if (s.link l.val).carriesLocal then .next (s.rxLocal l.val) else .next s

end Sys2Proof.Machine
end

