-- ==== Sys2Proof/Machine/Rings.lean ====
section
/-! DEFINITION. The host interface: rings, their counters, completions and status lines, index lines, entries as the host
lays them out, MSI-X, and host accesses of the window (R327 to R359). -/

namespace Sys2Proof.Machine

/-- The hub answers its port and the dictionary in full: it is neither off, starting nor failed (R473, R475).
DESIGN CHOICE, safe: log entry 14. -/
def State.hubUp (s : State) : Bool :=
  s.boot.dev != .off && s.boot.dev != .boot && s.boot.dev != .fault

/-! ## Completions (R336, R339, R349, R351) -/

/-- The code of a completion status (R351). -/
def Status.code : Status → Nat
  | .ok => 0x00 | .badEntry => 0x01 | .cancelled => 0x02 | .noRequest => 0x03 | .notAllowed => 0x04
  | .windowRange => 0x05 | .bufferTooSmall => 0x06 | .jobEnded => 0x07 | .tenantReleased => 0x08
  | .unknownMatter => 0x09 | .adapterRevoked => 0x10 | .baseMismatch => 0x11 | .badRecord => 0x12
  | .keySlotMismatch => 0x13 | .adapterTooLarge => 0x14 | .adapterLimit => 0x15 | .storeFull => 0x16
  | .adapterPinned => 0x17 | .adapterInTraining => 0x18 | .unknownAdapter => 0x19 | .unknownBundle => 0x1A
  | .bundleMatterMismatch => 0x1B | .holdLimit => 0x1C | .seqTooLong => 0x1D | .ptInconsistent => 0x20
  | .seqUnknown => 0x21 | .seqBusy => 0x22 | .contextDropped => 0x23 | .contextParked => 0x24

/-- The opcodes of ring commands (R341). -/
abbrev opSubmit : Nat := 0x01
abbrev opCancel : Nat := 0x02
abbrev opRegister : Nat := 0x10
abbrev opEvict : Nat := 0x11
abbrev opBundle : Nat := 0x12
abbrev opPageEdit : Nat := 0x20
abbrev opPrefill : Nat := 0x21
abbrev opCheckpoint : Nat := 0x30

/-- What a completion carries beside its entry: opcode, status, RESULT0, RESULT1, DETAIL (R349, R350). -/
structure Answer where
  opcode : Nat
  status : Status
  r0 : Nat := 0
  r1 : Nat := 0
  detail : Nat := 0
  deriving DecidableEq, Repr

/-- Completions that a ring's host has not passed yet: c − CQ_CI. -/
def Ring.unpassed (r : Ring) : Nat := (r.cpl - r.cqCi).toNat

/-- The PHASE bit of the completion with counter c (R336). -/
def phaseBit (c : W32) (cqSize : Nat) : Nat := (c.toNat / cqSize + 1) % 2

/-- The 64 bytes of a completion (R349). -/
def completionBytes (id : EntryId) (a : Answer) (phase beat : Nat) : List Byte :=
  leBytes 8 id.tag.toNat ++ leBytes 2 a.status.code ++ leBytes 1 a.opcode ++ leBytes 1 phase ++ leBytes 4 id.n.toNat
    ++ leBytes 8 a.r0 ++ leBytes 8 a.r1 ++ leBytes 8 beat ++ leBytes 4 a.detail ++ List.replicate 20 0

/-- The ring's record once an entry has been completed: its completion written, or only ended when the ring no longer writes
completions (R353, R355). -/
def Ring.completed (r : Ring) (n : W32) (written : Bool) (beat : Nat) : Ring :=
  if written then
    { r with outstanding := r.outstanding.erase n, cpl := r.cpl + 1, unsignalled := r.unsignalled + 1,
             oldestBeat := if r.unsignalled = 0 then beat else r.oldestBeat }
  else { r with outstanding := r.outstanding.erase n }

/-- A ring's completions are written: it is ENABLED, or QUARANTINED with room left (R353, R355). -/
def Ring.writes (r : Ring) (cqSize : Nat) : Bool :=
  (r.phase == .enabled || r.phase == .quarantined) && decide (r.unpassed < cqSize)

/-- Post the completion of an entry (R339). -/
def State.post (s : State) (id : EntryId) (a : Answer) : State :=
  let k := id.ring.val
  let r := s.ring k
  let size := s.param (P.cqSize k)
  let w := r.writes size
  let s1 := s.setRing k (r.completed id.n w s.beat.count)
  if w then
    s1.emit (.completion k (s.param (P.cqBase k) + r.cpl.toNat % size * 64)
      (completionBytes id a (phaseBit r.cpl size) s.beat.count))
  else s1

/-- Post a completion that carries only a status. -/
def State.postStatus (s : State) (id : EntryId) (opcode : Nat) (st : Status) : State := s.post id ⟨opcode, st, 0, 0, 0⟩

/-! ## Consumption (R338) -/

/-- Entries outstanding: consumed and not completed, and completed and not passed. -/
def Ring.load (r : Ring) : Nat := r.outstanding.length + r.unpassed

/-- Admission may consume the next entry of a ring, apart from its fetch and the REQ_INDEX it may need (R338). -/
def State.mayConsume (s : State) (k : Nat) : Bool :=
  (s.boot.dev == .admitted || s.boot.dev == .running) && (s.ring k).phase == .enabled
    && s.ten.phase == .bound
    && decide (s.adm.consumed < s.param P.admitMaxNew) && decide ((s.ring k).load < s.param (P.cqSize k))

/-- Consume an entry: it is outstanding, SQ_CI has passed it, and the status line has changed. -/
def State.consume (s : State) (id : EntryId) : State :=
  let r := s.ring id.ring.val
  let s1 := s.setRing id.ring.val { r with outstanding := r.outstanding ++ [id.n], sqCi := id.n + 1, statusDirty := true,
                                           fetched := r.fetched.filter (fun (x : W32 × List Byte) => x.1 != id.n) }
  { s1 with adm := { s1.adm with consumed := s1.adm.consumed + 1 } }

/-- RESULT0 of a SUBMIT (R350). -/
def submitResult (tokens idx finish : Nat) (indexed : Bool) : Nat :=
  tokens % 2 ^ 32 + idx * 2 ^ 32 + finish * 2 ^ 48 + (if indexed then 2 ^ 56 else 0)

/-- No own sequence (R350). -/
abbrev noSeq : Nat := 0xFFFFFF

/-- What a command that completes at its consumption with a status other than OK answers: a SUBMIT with FINISH 2 and no sequence
(R350). -/
def refusal (opcode : Nat) (st : Status) (off : Nat) : Answer :=
  if opcode = opSubmit then ⟨opcode, st, submitResult 0 0 2 false, noSeq, off⟩ else ⟨opcode, st, 0, 0, off⟩

/-- A malformed entry is answered BAD_ENTRY with the offset of its first wrong field (R352). -/
def State.badEntry (s : State) (id : EntryId) (opcode off : Nat) : State :=
  ((s.post id (refusal opcode .badEntry off)).bump P.badEntryCount 1).limited Ev.ringBadEntry hubSource 0 1
    (fun k => [(1, id.ring.val), (4, k)])

/-! ## Entries as the host lays them out (R340 to R347, R352) -/

/-- The offset of the first field that fails its check, in the order given. -/
def firstBad (checks : List (Nat × Bool)) : Option Nat :=
  (checks.find? (fun (x : Nat × Bool) => !x.2)).map (fun (x : Nat × Bool) => x.1)

/-- Bytes a to b − 1 of an entry are zero. -/
def zeroFrom (e : List Byte) (a b : Nat) : Bool := ((e.drop a).take (b - a)).all (fun x => x == 0)

/-- SUBMIT's operands (R342). -/
def readSubmit (e : List Byte) : SubmitF :=
  let flags := fieldLE e 18 2
  { bundle := BitVec.ofNat 16 (fieldLE e 16 2)
    keep := flags.testBit 0
    cont := flags.testBit 1
    stopEn := flags.testBit 2
    promptTokens := fieldLE e 20 4
    maxNew := fieldLE e 24 4
    contSeq := fieldLE e 28 4
    promptOffset := fieldLE e 32 8
    outOffset := fieldLE e 40 8
    stopToken := BitVec.ofNat 32 (fieldLE e 48 4) }

/-- The ranges of SUBMIT's operands (R342). -/
def submitChecks (f : SubmitF) : List (Nat × Bool) :=
  [(16, f.bundle.toNat ≤ 8191 || f.bundle == 0xFFFF),
   (20, f.promptTokens ≤ 262144 && (f.cont || 1 ≤ f.promptTokens)),
   (24, 1 ≤ f.maxNew && f.maxNew ≤ 262144),
   (28, f.cont || f.contSeq == 0),
   (32, f.promptOffset % 4 == 0),
   (40, f.outOffset % 4 == 0)]

/-- The ranges of BUNDLE_PIN's operands (R345). -/
def bundleChecks (b : Nat) : List (Nat × Bool) := [(16, b ≤ 8191)]

/-- The range of ADAPTER_EVICT's and BUNDLE_PIN's handle. -/
def handleCheck (off h : Nat) : Nat × Bool := (off, h ≤ 8191)

/-- The ranges of CONTEXT_PREFILL's operands (R346). -/
def prefillChecks (tokens off : Nat) : List (Nat × Bool) :=
  [(20, 1 ≤ tokens && tokens ≤ 262144), (24, off % 4 == 0)]

/-- The ranges of CHECKPOINT's operands (R347). -/
def checkpointChecks (h dst : Nat) : List (Nat × Bool) :=
  [(16, h ≤ 8191 || h == 0xFFFF), (24, dst % 4096 == 0)]

/-- The range of ADAPTER_REGISTER's operand (R345). -/
def registerChecks (off : Nat) : List (Nat × Bool) := [(16, off % 4096 == 0)]

/-- A page edit's command by its OP (R318, R345). -/
def readPageEdit (id : EntryId) (e : List Byte) : Instr :=
  let q := fieldLE e 16 4
  let p := fieldLE e 24 4
  match fieldLE e 20 1 with
  | 0 => .pageEditKeep id q (fieldLE e 21 1 == 1)
  | 1 => .pageEditRelease id q
  | 2 => .pageEditTruncate id q p
  | 3 => .pageEditDrop id q p
  | 4 => .pageEditPark id q
  | _ => .pageEditUnpark id q

/-- The checks of a page edit's operands (R345). -/
def pageEditChecks (e : List Byte) : List (Nat × Bool) :=
  let op := fieldLE e 20 1
  [(20, op ≤ 5), (21, fieldLE e 21 1 ≤ (if op = 0 then 1 else 0)), (22, zeroFrom e 22 24),
   (24, op == 2 || op == 3 || zeroFrom e 24 28), (28, zeroFrom e 28 124)]

/-- BUNDLE_PIN's command (R345). -/
def readBundle (id : EntryId) (e : List Byte) : Instr :=
  let b := fieldLE e 16 2
  let c := fieldLE e 24 4
  if fieldLE e 18 1 = 0 then
    .bundleDefine id ⟨b, (fieldLE e 19 1).testBit 0, fieldLE e 20 2, if c = 2 ^ 32 - 1 then none else some c⟩
  else .bundleRelease id b

/-- The checks of BUNDLE_PIN's operands (R345): a RELEASE carries FLAGS, HANDLE and CONTEXT as zero. -/
def bundleEntryChecks (e : List Byte) : List (Nat × Bool) :=
  let op := fieldLE e 18 1
  bundleChecks (fieldLE e 16 2) ++
  [(18, decide (op ≤ 1)), (19, decide (fieldLE e 19 1 ≤ (if op = 0 then 1 else 0))),
   (20, if op = 0 then decide (fieldLE e 20 2 ≤ 8191) else zeroFrom e 20 22), (22, zeroFrom e 22 24),
   (24, op == 0 || zeroFrom e 24 28), (28, zeroFrom e 28 124)]

/-- The command of an entry and the checks of its operand area, by opcode (R341). -/
def entryBody (id : EntryId) (e : List Byte) : Option (Instr × List (Nat × Bool)) :=
  let h := fieldLE e 16 2
  match fieldLE e 0 1 with
  | 0x01 =>
    let f := readSubmit e
    some (.submit id f, [(16, f.bundle.toNat ≤ 8191 || f.bundle == 0xFFFF), (18, fieldLE e 18 2 ≤ 7)]
      ++ (submitChecks f).drop 1 ++ [(52, zeroFrom e 52 124)])
  | 0x02 => some (.cancel id (BitVec.ofNat 64 (fieldLE e 16 8)), [(24, zeroFrom e 24 124)])
  | 0x10 => some (.adapterRegister id (fieldLE e 16 8) (fieldLE e 24 8),
      registerChecks (fieldLE e 16 8) ++ [(32, zeroFrom e 32 124)])
  | 0x11 => some (if fieldLE e 18 1 = 0 then .adapterEvictCache id h else .adapterEvictRevoke id h,
      [handleCheck 16 h, (18, fieldLE e 18 1 ≤ 1), (19, zeroFrom e 19 124)])
  | 0x12 => some (readBundle id e, bundleEntryChecks e)
  | 0x20 => some (readPageEdit id e, pageEditChecks e)
  | 0x21 => some (.contextPrefill id (fieldLE e 16 4) (fieldLE e 20 4) (fieldLE e 24 8),
      prefillChecks (fieldLE e 20 4) (fieldLE e 24 8) ++ [(32, zeroFrom e 32 124)])
  | 0x30 => some (.checkpoint id h (fieldLE e 24 8) (fieldLE e 32 8),
      [(16, h ≤ 8191 || h == 0xFFFF), (18, zeroFrom e 18 24), (24, fieldLE e 24 8 % 4096 == 0), (40, zeroFrom e 40 124)])
  | _ => none

/-- What a fetched entry says: its TAG with its command, or with the offset of its first wrong field (R352). -/
def readEntry (k : RingId) (n : W32) (e : List Byte) : EntryId × (Instr ⊕ Nat) :=
  let id : EntryId := ⟨k, n, BitVec.ofNat 64 (fieldLE e 8 8)⟩
  if fieldLE e 124 4 ≠ crc32c (e.take 124) then (id, .inr 124)
  else
    match entryBody id e with
    | none => (id, .inr 0)
    | some (i, checks) =>
      match firstBad ([(1, fieldLE e 1 1 == 1), (2, zeroFrom e 2 8)] ++ checks) with
      | some off => (id, .inr off)
      | none => (id, .inl i)

/-! ## Status lines (R336) -/

/-- The 64 bytes of a status line (R336). -/
def statusLineBytes (r : Ring) (beat : Nat) : List Byte :=
  let st := match r.phase with
    | .disabled => 0
    | .enabled => 1
    | .quarantined => 2
    | .draining => 3
  leBytes 4 r.sqCi.toNat ++ leBytes 1 st ++ leBytes 1 r.cause ++ leBytes 2 0 ++ leBytes 8 beat ++ List.replicate 48 0

/-- Write the status line of a ring if it has changed; BEAT is the boundary that ends the beat (R336). -/
def State.writeStatusLine (s : State) (k : Nat) : State :=
  let r := s.ring k
  if r.statusDirty then
    (s.setRing k { r with statusDirty := false }).emit
      (.statusLine k (s.param (P.statusLine k)) (statusLineBytes r (s.beat.count + 1)))
  else s

/-- Write every status line that has changed. -/
def State.writeStatusLines (s : State) : State := (List.range 64).foldl State.writeStatusLine s

/-- A ring's line has changed: once the snapshot of the beat has been taken it is written in this guard too (R336). -/
def State.ringChanged (s : State) (k : Nat) (r : Ring) : State :=
  let s1 := s.setRing k { r with statusDirty := true }
  if s.beat.snapTaken then s1.writeStatusLine k else s1

/-! ## Ring control (R335, R337, R353, R355) -/

/-- A power of two from 16 to 4,096. -/
def ringSizeOk (n : Nat) : Bool := 16 ≤ n && n ≤ 4096 && n == 2 ^ Nat.log2 n

/-- A line lies outside an array. -/
def lineOutside (l base bytes : Nat) : Bool := l + 64 ≤ base || base + bytes ≤ l

/-- A ring's parameters meet R335: alignments, sizes, and three lines that hold nothing else.
DEDUCED, safe: log entry 56. -/
def State.ringParamsOk (s : State) (k : Nat) : Bool :=
  let sq := s.param (P.sqBase k)
  let cq := s.param (P.cqBase k)
  let sqn := s.param (P.sqSize k)
  let cqn := s.param (P.cqSize k)
  let lines := [s.param (P.piLine k), s.param (P.cqCiLine k), s.param (P.statusLine k)]
  sq % 4096 == 0 && cq % 4096 == 0 && ringSizeOk sqn && ringSizeOk cqn && lines.all (fun l => l % 64 == 0)
    && lines.all (fun l => lineOutside l sq (sqn * 128) && lineOutside l cq (cqn * 64)) && lines.Nodup

/-- A ring enters ENABLED with the two values read (R337). -/
def State.enableRing (s : State) (k : Nat) (pi cqCi : W32) : State :=
  let s1 := s.ringChanged k { phase := .enabled, pi := pi, sqCi := pi, cpl := cqCi, cqCi := cqCi, piHeld := true,
                              ciHeld := true }
  s1.emits [.readShared (s.param (P.piLine k)), .readShared (s.param (P.cqCiLine k))]

/-- RING_ENABLE (R337): refused unless the ring is DISABLED and its parameters are in order.
DESIGN CHOICE, safe: log entry 122. -/
def execRingEnable (r : RingId) (pi cqCi : W32) (s : State) : Result :=
  if s.hubUp && (s.ring r.val).phase == .disabled && s.ringParamsOk r.val then .next (s.enableRing r.val pi cqCi)
  else .next s

/-- A ring that has drained becomes DISABLED (R355): nothing of it is outstanding any more.
DEDUCED, unsafe: log entry 55. -/
def State.drainedRing (s : State) (k : Nat) : State :=
  let bit := 2 ^ k
  let q := s.param P.ringsQuarantined
  let s1 := s.ringChanged k { s.ring k with phase := .disabled, cause := 0, fetched := [], piHeld := false, ciHeld := false }
  s1.setParam P.ringsQuarantined (if q.testBit k then q - bit else q)

/-- RING_DRAINED (R355). -/
def execRingDrained (r : RingId) (s : State) : Result :=
  if (s.ring r.val).phase = .draining ∧ (s.ring r.val).outstanding = [] then .next (s.drainedRing r.val) else .next s

/-- Quarantine a ring (R353): the offending value is ignored. Its lines are held no longer, as only those of an enabled ring are
(R333). -/
def State.quarantineRing (s : State) (k cause : Nat) (value : W32) : State :=
  let s1 := s.ringChanged k { s.ring k with phase := .quarantined, cause := cause, piHeld := false, ciHeld := false }
  (s1.setParam P.ringsQuarantined (s.param P.ringsQuarantined ||| 2 ^ k)).event Ev.ringQuarantined
    [(1, k), (1, cause), (4, value.toNat)]

/-- The two lines of an entry in the submission array (R336). -/
def State.entryLines (s : State) (k : Nat) (n : W32) : List Output :=
  let a := s.param (P.sqBase k) + n.toNat % s.param (P.sqSize k) * 128
  [.readCurrent a, .readCurrent (a + 64)]

/-- The fetches of the entries from one producer index up to another (R334). -/
def State.fetches (s : State) (k : Nat) (old new : W32) : List Output :=
  (List.range (new - old).toNat).flatMap (fun i => s.entryLines k (old + BitVec.ofNat 32 i))

/-- A producer index is seen (R334, R353). -/
def State.seePi (s : State) (k : Nat) (v : W32) : State :=
  let r := s.ring k
  if v = r.pi then s
  else if 2 ^ 31 ≤ (v - r.pi).toNat then s.quarantineRing k 1 v
  else if s.param (P.sqSize k) < (v - r.sqCi).toNat then s.quarantineRing k 2 v
  else (s.setRing k { r with pi := v }).emits (s.fetches k r.pi v)

/-- A completion-consumer index is seen (R334, R353). -/
def State.seeCi (s : State) (k : Nat) (v : W32) : State :=
  let r := s.ring k
  if v = r.cqCi then s
  else if 2 ^ 31 ≤ (v - r.cqCi).toNat then s.quarantineRing k 3 v
  else if 1 ≤ (v - r.cpl).toNat ∧ (v - r.cpl).toNat < 2 ^ 31 then s.quarantineRing k 4 v
  else s.setRing k { r with cqCi := v }

/-- SNOOP_INVALIDATION (R334): the line is dropped and read again. -/
def execSnoopInvalidation (r : RingId) (w : IndexLine) (s : State) : Result :=
  let x := s.ring r.val
  if x.phase = .enabled then
    match w with
    | .producer => .next ((s.setRing r.val { x with piHeld := false }).emit (.readShared (s.param (P.piLine r.val))))
    | .consumer => .next ((s.setRing r.val { x with ciHeld := false }).emit (.readShared (s.param (P.cqCiLine r.val))))
  else .next s

/-- INDEX_LINE_READ (R334, R353): the line is held in Shared state, and its value is seen. A quarantined ring takes no value
more. -/
def execIndexLineRead (r : RingId) (w : IndexLine) (value : W32) (s : State) : Result :=
  let x := s.ring r.val
  match w with
  | .producer =>
    if x.phase = .enabled then .next ((s.setRing r.val { x with piHeld := true }).seePi r.val value) else .next s
  | .consumer =>
    if x.phase = .enabled then .next ((s.setRing r.val { x with ciHeld := true }).seeCi r.val value) else .next s

/-- ENTRY_FETCH_COMPLETE (R334): the entry's 128 bytes have come. -/
def execEntryFetchComplete (r : RingId) (n : W32) (bytes : List Byte) (s : State) : Result :=
  let x := s.ring r.val
  if x.phase = .enabled ∧ (n - x.sqCi).toNat < (x.pi - x.sqCi).toNat ∧ !(x.fetched.any (fun (y : W32 × List Byte) => y.1 == n))
  then .next (s.setRing r.val { x with fetched := x.fetched ++ [(n, bytes)] })
  else .next s

/-! ## Interrupts (R356) -/

/-- A ring's completions are due to be signalled at the boundary whose BEAT_COUNT is now current. -/
def State.signalDue (s : State) (k : Nat) : Bool :=
  let r := s.ring k
  decide (0 < r.unsignalled) && (decide (s.param (P.ringModCount k) ≤ r.unsignalled)
    || decide (r.oldestBeat + s.param (P.ringModBeats k) ≤ s.beat.count))

/-- Signal a ring's completions at a boundary. -/
def State.signalRing (s : State) (k : Nat) : State :=
  if s.signalDue k then (s.setRing k { s.ring k with unsignalled := 0 }).signal (s.param (P.ringVector k)) else s

/-- The ring interrupts of a boundary. -/
def State.ringInterrupts (s : State) : State := (List.range 64).foldl State.signalRing s

/-- MSIX_VECTOR_UNMASK (R356): a pending message is sent. -/
def execMsixVectorUnmask (vector : BitVec 11) (s : State) : Result :=
  let v := vector.toNat
  let s1 := { s with host := { s.host with maskedVectors := AMap.set true s.host.maskedVectors v false } }
  if s.host.pendingVectors.getD v false then
    .next (State.emit { s1 with host := { s1.host with pendingVectors := AMap.set false s1.host.pendingVectors v false } }
      (.msix v))
  else .next s1

/-! ## Host accesses of the window (R230, R332, R429) -/

/-- A host access met a failed block: it is counted and logged at most once per 1,024 beats (R332, R424). -/
def State.hostPoison (s : State) (o : Nat) (t : Trip) : State :=
  let d := windowDie o
  let s1 := match t with
    | .tag _ _ _ => s.bump P.rindTagFails 1
    | _ => s.countTrip d t
  s1.limited Ev.hostPoisonRead hubSource 0 1
    (fun k => [(4, frameOf true d (windowByte o / 65536)), (1, windowBlock o % 256), (4, k)])

/-- The port is up, and the memory not active yet: CXL.mem requests are answered as CXL prescribes for such memory (R494). -/
def State.memInactive (s : State) : Bool := s.boot.dev != .off && s.boot.stage != .resetHeld && !s.host.memActive

/-- HOST_MEM_READ (R230, R332, R429, R494): one line of 64 bytes. What a read of inactive memory gives is stated nowhere.
DESIGN CHOICE, safe: log entry 209. -/
def execHostMemRead (offset : Nat) (s : State) : Result :=
  if s.memInactive then
    .next (s.emit (.hostData offset ((List.range 64).map (Config.failedByte s.free)) (s.freeWord.getLsbD 0))).drawn
  else if !(s.hubUp && s.inWindow offset 64) then .next s
  else if s.ten.phase = .scrubbing then
    .next ((s.bump P.releaseHostDrops 1).emit (.hostData offset (List.replicate 64 0) true))
  else
    match s.blockTrip true (windowDie offset) (windowBlock offset) with
    | some t => .next ((s.hostPoison offset t).emit (.hostData offset (List.replicate 64 0) true))
    | none => .next ((s.correctMem true (windowDie offset) (windowBlock offset) 1).emit
        (.hostData offset (s.windowRead offset 64) false))

/-- HOST_MEM_WRITE (R230, R332, R429, R494): the line is merged into its block; a failed merge read discards the write, which still
completes, and so does one to inactive memory.
DESIGN CHOICE, safe: log entry 209. -/
def execHostMemWrite (offset : Nat) (data : List Byte) (s : State) : Result :=
  if s.memInactive then .next (s.emit (.hostWritten offset))
  else if !(s.hubUp && s.inWindow offset data.length) then .next s
  else if s.ten.phase = .scrubbing then .next ((s.bump P.releaseHostDrops 1).emit (.hostWritten offset))
  else
    match s.blockTrip true (windowDie offset) (windowBlock offset) with
    | some t => .next ((s.hostPoison offset t).emit (.hostWritten offset))
    | none => .next (((s.correctMem true (windowDie offset) (windowBlock offset) 1).windowPut offset data).emit
        (.hostWritten offset))

/-- A CHECKPOINT's write of the window has ended when the host has answered for each of its lines: it completes OK with the bytes
written and the last step included (R331, R350). -/
def State.checkpointAnswered (s : State) (e : EntryId) : State :=
  match s.host.writing.find? (fun (x : EntryId × Nat × Nat) => x.1 == e) with
  | none => s
  | some x =>
    if s.host.snoops.any (fun b => b.owner == .checkpoint e) then s
    else
      State.post { s with host := { s.host with writing := s.host.writing.filter (fun (y : EntryId × Nat × Nat) => y.1 != e) } } e
        ⟨opCheckpoint, .ok, x.2.1, x.2.2, 0⟩

/-- RESTORE ends (R454, R459): RESTORE_RESULT holds the entry in bits 31:16 and the status in bits 15:0, and a restore that has
succeeded is logged. -/
def State.postRestore (s : State) : RestoreEnd → State
  | .failed i st => s.setParam P.restoreResult (i * 65536 + st)
  | .done n first => (s.setParam P.restoreResult 0).event Ev.restoreDone [(2, n), (2, first)]

/-- The host still has to answer for lines that a RESTORE writes. -/
def State.restoreWaits (s : State) : Bool := s.host.snoops.any (fun b => b.owner == .restore)

/-- A RESTORE that waits ends once no line of its record is left (R331, R454). -/
def State.restoreAnswered (s : State) : State :=
  match s.res.restored with
  | some x => if s.restoreWaits then s else State.postRestore { s with res := { s.res with restored := none } } x
  | none => s

/-- The owner of a window write goes on once its last snoop has been answered (R232, R331). -/
def State.snoopDone (s : State) (o : Owner) : State :=
  match o with
  | .op d id => s.settle d id
  | .message m =>
    if s.fab.answering.contains m && !s.messageWaits m then
      State.writeAnswer { s with fab := { s.fab with answering := s.fab.answering.erase m } } m
    else s
  | .checkpoint e => s.checkpointAnswered e
  | .restore => s.restoreAnswered

/-- A snooped block with an answered line taken away. -/
def SnoopBlock.answer (b : SnoopBlock) (offset : Nat) : SnoopBlock := { b with lines := b.lines.filter (· != offset) }

/-- Store a block of the window for its owner; it may race with those of running operations (R221). -/
def State.storeSnooped (s : State) (b : SnoopBlock) : State :=
  match b.owner with
  | .op d id => s.raceStore (d, id) true (windowDie b.offset) (windowBlock b.offset) b.data
  | _ => s.racePut true (windowDie b.offset) (windowByte b.offset) b.data

/-- Write a block of the window whose every line has been answered, and let its owner go on (R331). -/
def State.writeSnooped (s : State) (b : SnoopBlock) : State :=
  (State.storeSnooped { s with host := { s.host with snoops := s.host.snoops.erase b } } b).snoopDone b.owner

/-- BISNP_RESPONSE (R331): the host has answered for one line; the oldest block that waits for it takes the answer. -/
def execBisnpResponse (offset : Nat) (s : State) : Result :=
  match s.host.snoops.find? (fun b => b.lines.contains offset) with
  | some b =>
    let b1 := b.answer offset
    if b1.lines = [] then .next (s.writeSnooped b)
    else .next { s with host := { s.host with snoops := s.host.snoops.map (fun x => if x = b then b1 else x) } }
  | none => .next s

/-- CXL_MALFORMED (R354): reported through AER or the RAS capability, counted and logged. -/
def execCxlMalformed (p : CxlProtocol) (s : State) : Result :=
  let k := match p with
    | .io => 0
    | .cache => 1
    | .mem => 2
  .next ((((s.emit (.aer p)).bump P.cxlMalformedCount 1).limited Ev.cxlMalformed hubSource 0 1 (fun n => [(1, k), (4, n)])))

end Sys2Proof.Machine
end

