-- ==== Sys2Proof/Machine/Kv.lean ====
section
/-! DEFINITION. Sequences, page tables and frames: reservation, mapping, drops, contexts and their moves, page edits and the
edit set of a boundary (R301 to R326). -/

namespace Sys2Proof.Machine

/-! ## Sizes and the frame pool (R307, R309, R324) -/

/-- Entries of one page row on a die: KV_LAYERS × KV_HEADS ÷ 4.
DEDUCED, unsafe: log entry 155. -/
def State.rowEntries (s : State) : Nat := s.param P.kvLayers * s.param P.kvHeads / 4

/-- Frames of the pool of one die. -/
def State.kvFrameCount (s : State) : Nat := s.kvEndFrame - s.kvFirstFrame

/-- The bound of a punnet (R251). -/
def punnetBound (p : Nat) : Nat := 1024 * 2 ^ p

/-- The punnet of a span (R251). -/
def punnetOf (span : Nat) : Nat := ((List.range 9).find? (fun p => decide (span ≤ punnetBound p))).getD 8

/-- The key of a page of a die in the frame tables. -/
def frameKey (d : DieId) (page : Nat) : Nat := d.val * 2 ^ 22 + page

/-- Frames in use on a die. -/
def KvTables.usedOn (t : KvTables) (d : DieId) : Nat :=
  t.usedFrames.countP (fun (x : Nat × Bool) => x.1 / 2 ^ 22 == d.val)

/-- Frames reserved and not mapped, the same on every die (R320).
DEDUCED, unsafe: log entry 155. -/
def KvTables.reservedSum (t : KvTables) : Nat := (t.seqs.map (fun (x : Nat × SeqRec) => x.2.reserved)).sum

/-- Frames of a die that are free and unreserved. -/
def State.framesFree (s : State) (d : DieId) : Nat :=
  s.kvFrameCount - s.kv.next.usedOn d - s.kv.next.reservedSum

/-- The lowest n keys from `next` below `bound` that a map does not list; `fuel` counts keys passed and found. -/
def gapsFrom : Nat → Nat → Nat → Nat → AMap Bool → List Nat
  | 0, _, _, _, _ => []
  | _ + 1, _, _, 0, _ => []
  | fuel + 1, next, bound, n + 1, [] =>
    if next < bound then next :: gapsFrom fuel (next + 1) bound n [] else []
  | fuel + 1, next, bound, n + 1, (k, v) :: m =>
    if next < k then
      (if next < bound then next :: gapsFrom fuel (next + 1) bound n ((k, v) :: m) else [])
    else gapsFrom fuel (max next (k + 1)) bound (n + 1) m

/-- The lowest n free frames of a die, as pages of the tier.
DEDUCED, unsafe: log entry 33. -/
def State.lowestFrames (s : State) (d : DieId) (n : Nat) : List Nat :=
  (gapsFrom (n + s.kv.next.usedFrames.length) (frameKey d s.kvFirstFrame) (frameKey d s.kvEndFrame) n
    s.kv.next.usedFrames).map (fun k => k - d.val * 2 ^ 22)

/-- A run of pages is free on some dies. -/
def runFree (m : AMap Bool) (dies : List DieId) (first n : Nat) : Bool :=
  dies.all (fun d => m.all (fun (x : Nat × Bool) =>
    decide (x.1 < frameKey d first) || decide (frameKey d first + n ≤ x.1)))

/-- The lowest run of n consecutive free pages from `lo` below `hi`, the same on all the dies.
DEDUCED, unsafe: log entry 33. -/
def lowestRun (m : AMap Bool) (dies : List DieId) (lo hi n : Nat) : Option Nat :=
  let starts := lo :: m.map (fun (x : Nat × Bool) => x.1 % 2 ^ 22 + 1)
  (starts.filter (fun a => decide (lo ≤ a) && decide (a + n ≤ hi) && runFree m dies a n)).min?

/-- Mark pages of a die in use. -/
def useKeys (m : AMap Bool) (d : DieId) (pages : List Nat) : AMap Bool :=
  pages.foldl (fun (a : AMap Bool) p => AMap.set false a (frameKey d p) true) m

/-- Mark pages of a die free. -/
def freeKeys (m : AMap Bool) (d : DieId) (pages : List Nat) : AMap Bool :=
  pages.foldl (fun (a : AMap Bool) p => a.erase (frameKey d p)) m

/-- Consecutive pages. -/
def pageRange (first n : Nat) : List Nat := (List.range n).map (fun i => first + i)

/-- Mark a run of pages in use on every die. -/
def useOnAll (m : AMap Bool) (first n : Nat) : AMap Bool :=
  allDies.foldl (fun (a : AMap Bool) d => useKeys a d (pageRange first n)) m

/-- Change the tables of the next edit set.
DEDUCED, unsafe: log entry 33. -/
def State.modNext (s : State) (g : KvTables → KvTables) : State := { s with kv := { s.kv with next := g s.kv.next } }

/-- The record of a sequence in the next edit set. -/
def State.nextSeq (s : State) (q : Nat) : Option SeqRec := s.kv.next.seqs.find? q

/-- Replace a sequence's record in the next edit set. -/
def State.setSeq (s : State) (q : Nat) (r : SeqRec) : State := s.modNext (fun t => { t with seqs := t.seqs.insert q r })

/-- Change a sequence's record in the next edit set. -/
def State.modSeq (s : State) (q : Nat) (g : SeqRec → SeqRec) : State :=
  s.modNext (fun t => { t with seqs := t.seqs.modify q g })

/-- Count entries against the limit of the edit set (R317). -/
def State.edits (s : State) (n : Nat) : State := { s with kv := { s.kv with editCount := s.kv.editCount + n } }

/-! ## Extents (R307, R308) -/

/-- The extents in use: first entry and length. -/
def State.extents (s : State) : List (Nat × Nat) :=
  s.kv.next.seqs.map (fun (x : Nat × SeqRec) => (x.2.extent, x.2.pagesPerList * s.rowEntries))

/-- An extent of n entries at a place overlaps none in use. -/
def extentFree (es : List (Nat × Nat)) (a n : Nat) : Bool :=
  es.all (fun (x : Nat × Nat) => decide (a + n ≤ x.1) || decide (x.1 + x.2 ≤ a))

/-- The lowest free extent of n entries in the PTE pool (R309).
DEDUCED, unsafe: log entry 33. -/
def State.lowestExtent (s : State) (n : Nat) : Option Nat :=
  let es := s.extents
  let starts := 0 :: es.map (fun (x : Nat × Nat) => x.1 + x.2)
  (starts.filter (fun a => decide (a + n ≤ 8192 * s.layoutOf 7) && extentFree es a n)).min?

/-! ## Page rows -/

/-- The entry of list j in row n. -/
def rowIndex (r : SeqRec) (j n : Nat) : Nat := r.extent + j * r.pagesPerList + n

/-- The entry of list j in row n of a die. -/
def KvTables.rowPte (t : KvTables) (d : DieId) (r : SeqRec) (j n : Nat) : Pte := (t.ptes.get d).getD (rowIndex r j n) Pte.none

/-- Set entries of a die. -/
def KvTables.setPtes (t : KvTables) (d : DieId) (es : List (Nat × Pte)) : KvTables :=
  { t with ptes := t.ptes.set d (es.foldl (fun (m : AMap Pte) (e : Nat × Pte) => AMap.set Pte.none m e.1 e.2) (t.ptes.get d)) }

/-- Row n of a sequence is mapped. -/
def State.rowMapped (s : State) (r : SeqRec) (n : Nat) : Bool :=
  s.rowEntries == 0 || (s.kv.next.rowPte 0 r 0 n).valid

/-- A fresh entry for a page of a sequence. -/
def freshPte (r : SeqRec) (frame : Nat) : Pte := ⟨frame, true, false, 0, r.keySlot, r.gen, r.fmt⟩

/-- The pages of row n of a context's run, list by list. -/
def runRow (r : SeqRec) (n entries : Nat) : List Nat :=
  (List.range entries).map (fun j => r.runPage + j * r.pagesPerList + n)

/-- Rows of a sequence from `first` on that hold anything in a die's table, mapped or dropped. -/
def State.listedRows (s : State) (r : SeqRec) (first : Nat) : Nat :=
  (List.range (r.pagesPerList - first)).countP (fun i => s.kv.next.rowPte 0 r 0 (first + i) != Pte.none)

/-- Entries of one die that a change of the listed rows from `first` on changes (R317). -/
def State.listedEntries (s : State) (r : SeqRec) (first : Nat) : Nat :=
  if s.rowEntries = 0 then 0 else s.listedRows r first * s.rowEntries

/-- USED additions of the edit set being formed, on the die with most (R313, R317). -/
def State.usedEdits (s : State) : Nat :=
  (allDies.map (fun d => s.kv.added.countP (fun a => a.die == d))).foldl max 0

/-- A sequence is a context. -/
def SeqRec.isContext (r : SeqRec) : Bool := r.filling || r.phase == .contextHbm || r.phase == .contextParked

/-- Map row n of a sequence on one die onto pages. -/
def KvTables.mapRowOn (t : KvTables) (d : DieId) (r : SeqRec) (n : Nat) (pages : List Nat) : KvTables :=
  let es := (pages.zipIdx).map (fun (x : Nat × Nat) => (rowIndex r x.2 n, freshPte r (frameOf false d x.1)))
  { t.setPtes d es with usedFrames := useKeys t.usedFrames d pages }

/-- The pages for row n of a sequence on a die: of its run for a context, else the lowest free ones. -/
def State.rowPages (s : State) (r : SeqRec) (n : Nat) (d : DieId) : List Nat :=
  if r.isContext then runRow r n s.rowEntries else s.lowestFrames d s.rowEntries

/-- The edit set being formed has room for n more entries (R317).
DEDUCED, unsafe: log entry 170. -/
def State.editRoom (s : State) (n : Nat) : Bool := decide (s.kv.editCount + s.usedEdits + n ≤ s.param P.kvEditsPerBeat)

/-- Map row n of a sequence on every die from its reservation, unless the edit set or a keying list is full (R317, R320,
R420): the second value tells whether it is mapped.
DEDUCED, unsafe: log entry 170. -/
def State.mapRow (s : State) (q n : Nat) : State × Bool :=
  match s.nextSeq q with
  | none => (s, false)
  | some r =>
    if s.rowMapped r n then (s, true)
    else if !s.editRoom s.rowEntries then (s, false)
    else
      let frames := allDies.flatMap (fun d => (s.rowPages r n d).map (frameOf false d))
      match s.engineFull frames with
      | some e => (s.keyingDeferred e, false)
      | none =>
        let s1 := s.modNext (fun t => allDies.foldl (fun (u : KvTables) d => u.mapRowOn d r n (s.rowPages r n d)) t)
        let s2 := s1.modSeq q (fun x => { x with reserved := x.reserved - s.rowEntries })
        ((s2.rekey frames r.keySlot).edits s.rowEntries, true)

/-- Map the rows from n on; the second value tells whether all are mapped. -/
def State.mapRows (s : State) (q n : Nat) : Nat → State × Bool
  | 0 => (s, true)
  | k + 1 =>
    match s.mapRow q n with
    | (t, true) => t.mapRows q (n + 1) k
    | (t, false) => (t, false)

/-- Free the frames that entries map. -/
def KvTables.freeFrames (t : KvTables) (frames : List Nat) : KvTables :=
  frames.foldl (fun (u : KvTables) f =>
    let k := frameKey (frameDie f) (framePage f)
    if frameLp f then { u with usedContext := u.usedContext.erase k } else { u with usedFrames := u.usedFrames.erase k }) t

/-- The frames that row n of a sequence holds on a die: those of its run for a context, unless the row has been dropped, else those
that its entries map. -/
def KvTables.rowFrames (t : KvTables) (d : DieId) (r : SeqRec) (n entries : Nat) : List Nat :=
  if r.isContext then
    (if (t.rowPte d r 0 n).dropped then [] else (runRow r n entries).map (frameOf r.runLp d))
  else
    ((List.range entries).map (fun j => t.rowPte d r j n)).filterMap (fun p => if p.valid then some p.frame else none)

/-- Replace the entries of row n on every die by others, freeing their frames. -/
def State.unmapRow (s : State) (r : SeqRec) (n : Nat) (g : Pte → Pte) : State :=
  let e := s.rowEntries
  s.modNext (fun t => allDies.foldl (fun (u : KvTables) d =>
    (u.freeFrames (u.rowFrames d r n e)).setPtes d
      ((List.range e).map (fun j => (rowIndex r j n, g (u.rowPte d r j n))))) t)

/-- A dropped entry: FRAME no longer means anything (R306). -/
def Pte.drop (p : Pte) : Pte := { p with frame := 0, valid := false, dropped := true, used := 0 }

/-- Row n of a sequence holds pages: it is mapped, or it is a row of a context's run that has not been dropped (R318, R323). -/
def State.holdsRow (s : State) (r : SeqRec) (n : Nat) : Bool :=
  let p := s.kv.next.rowPte 0 r 0 n
  s.rowEntries != 0 && (p.valid || (r.isContext && !p.dropped))

/-- Rows of a sequence up to the highest one that holds pages. -/
def State.heldRows (s : State) (r : SeqRec) : Nat :=
  (((List.range r.pagesPerList).reverse.find? (s.holdsRow r)).map (· + 1)).getD 0

/-- The lower of a position and a sequence's DROPPED_FROM. -/
def SeqRec.dropAt (r : SeqRec) (p : Nat) : SeqRec := { r with droppedFrom := some (min p (r.droppedFrom.getD p)) }

/-- Drop row n of a sequence (R320). -/
def State.dropRow (s : State) (q n : Nat) : State :=
  match s.nextSeq q with
  | none => s
  | some r =>
    ((s.unmapRow r n Pte.drop).modSeq q (fun x => x.dropAt (n * kvTpp r.fmt))).edits s.rowEntries

/-- Drop the rows from n to the last one held. -/
def State.dropRowsFrom (s : State) (q n : Nat) : Nat → State
  | 0 => s
  | k + 1 => (s.dropRow q (n + k)).dropRowsFrom q n k

/-! ## Reservation and drops for pressure (R304, R320) -/

/-- The KEPT sequence with rows left whose LAST_USED is oldest, of equals the lowest ID. -/
def State.oldestKept (s : State) : Option (Nat × SeqRec) :=
  s.kv.next.seqs.foldl (fun (a : Option (Nat × SeqRec)) (x : Nat × SeqRec) =>
    if x.2.phase = .kept ∧ 0 < s.heldRows x.2 then
      match a with
      | some b => if x.2.lastUsed < b.2.lastUsed then some x else a
      | none => some x
    else a) none

/-- A need of frames per die, and of token-log pages on CD0, is covered. -/
def State.covered (s : State) (need log : Nat) : Bool :=
  allDies.all (fun d => decide (need + (if d = 0 then log else 0) ≤ s.framesFree d))

/-- Drop page rows of KEPT sequences, oldest first and highest row first, until a need is covered, none is left, or the edit set is
full (R317). -/
def State.dropUntil (s : State) (need log : Nat) : Nat → State
  | 0 => s
  | fuel + 1 =>
    if s.covered need log || !s.editRoom s.rowEntries then s
    else
      match s.oldestKept with
      | some (q, r) =>
        ((s.dropRow q (s.heldRows r - 1)).bump P.kvPagesDropped (4 * s.rowEntries)).dropUntil need log fuel
      | none => s

/-- Cover a need, with the drops logged (R320, R326): the second value tells whether it is covered. -/
def State.cover (s : State) (need log : Nat) : State × Bool :=
  let rows := (s.kv.next.seqs.map (fun (x : Nat × SeqRec) => s.heldRows x.2)).sum
  let s1 := s.dropUntil need log rows
  let n := s1.param P.kvPagesDropped - s.param P.kvPagesDropped
  let first := ((s.oldestKept).map (fun (x : Nat × SeqRec) => x.1)).getD 0
  let s2 := if n = 0 then s1 else s1.limited Ev.kvPagesDropped hubSource 0 n (fun k => [(4, k), (4, first)])
  (s2, s2.covered need log)

/-- The next generation of a sequence ID (R308). -/
def State.nextGen (s : State) (q : Nat) : Nat := (s.kv.next.gens.getD q 0 + 1) % 8

/-- Give a sequence ID out. -/
def State.openSeq (s : State) (q : Nat) (r : SeqRec) : State :=
  let s1 := (s.setSeq q r).modNext (fun t => { t with gens := AMap.set 0 t.gens q r.gen })
  { s1 with kv := { s1.kv with reported := s1.kv.reported.filter (· != q) } }

/-- Sequence IDs that context prefills hold while they wait for their run (R346). -/
def State.heldIds (s : State) : List Nat :=
  (s.adm.requests.filter (fun (x : Nat × Request) => x.2.phase == .queued)).filterMap (fun (x : Nat × Request) => x.2.seq)

/-- The lowest FREE sequence ID that no waiting prefill holds (R304, R346). -/
def State.freeSeq (s : State) : Option Nat :=
  firstGap (s.param P.kvSeqMax) 0
    (s.heldIds.foldl (fun (m : AMap Unit) q => m.insert q ()) (s.kv.next.seqs.map (fun (x : Nat × SeqRec) => (x.1, ()))))

/-- Pages of the token log of a punnet (R320). -/
def tokLogPagesOf (punnet : Nat) : Nat := ceilDiv (punnetBound punnet) 16384

/-- Take a run of token-log pages on CD0, keyed and written whole by the hub.
DEDUCED, safe: log entry 141. DEDUCED, unsafe: log entry 155. -/
def State.takeTokLog (s : State) (page n slot : Nat) : State :=
  (s.modNext (fun t => { t with usedFrames := useKeys t.usedFrames 0 (pageRange page n) })).keyWholeRange false 0 page slot n

/-- The lowest run for a token log. -/
def State.tokLogRun (s : State) (n : Nat) : Option Nat :=
  lowestRun s.kv.next.usedFrames [0] s.kvFirstFrame s.kvEndFrame n

/-- Open a request's own sequence (R320): its reservation covered, an extent, a token log and an ID; none when it must
wait, with the drops that were made. -/
def State.openOwn (s : State) (punnet own base matter slot : Nat) (keep : Bool) : State × Option Nat :=
  let fmt := s.param P.kvFormat
  let ppl := punnetBound punnet / kvTpp fmt
  let need := ceilDiv own (kvTpp fmt) * s.rowEntries
  let logs := tokLogPagesOf punnet
  match s.freeSeq with
  | none => (s, none)
  | some q =>
    let c := s.cover need logs
    if !c.2 then (c.1, none)
    else
      match c.1.lowestExtent (ppl * s.rowEntries), c.1.tokLogRun logs with
      | some e, some l =>
        let r : SeqRec := {
          phase := .opened, fmt := fmt, gen := c.1.nextGen q, punnet := punnet, keySlot := slot, keep := keep,
          matter := matter, length := 0, droppedFrom := none, pagesPerList := ppl, extent := e, runPage := 0,
          tokLogPage := l, tokLogPages := logs, positionBase := base, lastUsed := 0, reserved := need, filling := false,
          runLp := false, base := s.adm.fingerprint }
        ((c.1.openSeq q r).takeTokLog l logs slot, some q)
      | _, _ => (c.1, none)

/-- Rows of a sequence that are mapped. -/
def State.mappedRows (s : State) (r : SeqRec) : Nat := (List.range r.pagesPerList).countP (fun n => s.rowMapped r n)

/-- Copy the entries of a sequence into a larger extent (R307). -/
def State.moveExtent (s : State) (q : Nat) (r r' : SeqRec) : State :=
  let e := s.rowEntries
  let old := (List.range e).flatMap (fun j => (List.range r.pagesPerList).map (fun n => (j, n)))
  (s.modNext (fun t => allDies.foldl (fun (u : KvTables) d =>
    let es := old.map (fun (x : Nat × Nat) => (rowIndex r' x.1 x.2, u.rowPte d r x.1 x.2))
    (u.setPtes d (old.map (fun (x : Nat × Nat) => (rowIndex r x.1 x.2, Pte.none)))).setPtes d es) t)).setSeq q r'
    |>.edits (if r'.extent = r.extent then 0 else s.listedEntries r 0)

/-- The hub copies pages of CD0's HBM. -/
def State.copyPages (s : State) (src dst n : Nat) : State :=
  (s.extMet false 0 (src * 65536) (n * 65536)).extPut false 0 (dst * 65536) (s.extGet false 0 (src * 65536) (n * 65536))

/-- A KEPT sequence becomes OPEN again under a new request (R304, R307, R320): a larger extent and token log when its span
needs them, and a reservation for the pages that its rows will still need. -/
def State.reopen (s : State) (q : Nat) (r : SeqRec) (punnet own : Nat) (keep : Bool) : State × Bool :=
  let p := max punnet r.punnet
  let ppl := if r.punnet < punnet then punnetBound p / kvTpp r.fmt else r.pagesPerList
  let need := ceilDiv own (kvTpp r.fmt) * s.rowEntries - s.mappedRows r * s.rowEntries
  let grow := decide (r.tokLogPages < tokLogPagesOf p)
  let logs := if grow then tokLogPagesOf p else 0
  let s0 := s.modSeq q (fun x => { x with phase := .opened })
  let c := s0.cover need logs
  let back := c.1.modSeq q (fun x => { x with phase := .kept })
  if !c.2 then (back, false)
  else
    let ext := if r.punnet < punnet then c.1.lowestExtent (ppl * s.rowEntries) else some r.extent
    let log := if grow then c.1.tokLogRun logs else some r.tokLogPage
    match ext, log with
    | some e, some l =>
      let r' : SeqRec := { r with phase := .opened, punnet := p, pagesPerList := ppl, extent := e, keep := keep,
                                  tokLogPage := l, tokLogPages := if grow then logs else r.tokLogPages,
                                  droppedFrom := r.droppedFrom.filter (fun p => decide (p < r.length)), reserved := need }
      let s1 := c.1.moveExtent q r r'
      if grow then
        let s2 := (s1.takeTokLog l logs r.keySlot).copyPages r.tokLogPage l r.tokLogPages
        (s2.modNext (fun t => { t with usedFrames := freeKeys t.usedFrames 0 (pageRange r.tokLogPage r.tokLogPages) }), true)
      else (s1, true)
    | _, _ => (back, false)

/-! ## Contexts (R248, R323, R346) -/

/-- Rows of a context of some tokens (R307). -/
def contextRows (tokens fmt : Nat) : Nat := ceilDiv tokens (kvTpp fmt)

/-- Open a matter context: its run and an extent for the ID that it holds, or an ID too; none when it must wait (R304, R320,
R346). -/
def State.openContext (s : State) (id : Option Nat) (tokens matter slot : Nat) : State × Option Nat :=
  let fmt := s.param P.kvFormat
  let ppl := contextRows tokens fmt
  let pages := ppl * s.rowEntries
  match (match id with
    | some q => some q
    | none => s.freeSeq) with
  | none => (s, none)
  | some q =>
    let c := s.cover pages 0
    if !c.2 then (c.1, none)
    else
      match c.1.lowestExtent pages, lowestRun c.1.kv.next.usedFrames allDies s.kvFirstFrame s.kvEndFrame pages with
      | some e, some a =>
        let r : SeqRec := {
          phase := .opened, fmt := fmt, gen := c.1.nextGen q, punnet := punnetOf tokens, keySlot := slot, keep := false,
          matter := matter, length := 0, droppedFrom := none, pagesPerList := ppl, extent := e, runPage := a,
          tokLogPage := 0, tokLogPages := 0, positionBase := 0, lastUsed := 0, reserved := 0, filling := true,
          runLp := false, base := s.adm.fingerprint }
        let s1 := c.1.modNext (fun t => { t with usedFrames := useOnAll t.usedFrames a pages })
        (s1.openSeq q r, some q)
      | _, _ => (c.1, none)

/-- Every frame that a sequence holds. -/
def State.seqFrames (s : State) (r : SeqRec) : List Nat :=
  allDies.flatMap (fun d => (List.range r.pagesPerList).flatMap (fun n => s.kv.next.rowFrames d r n s.rowEntries))

/-- A sequence becomes FREE: its frames, extent, token log and ID are given back, its entries cleared (R304, R308, R318). -/
def State.freeSeqOf (s : State) (q : Nat) : State :=
  match s.nextSeq q with
  | none => s
  | some r =>
    let e := s.rowEntries
    let clear := (List.range (r.pagesPerList * e)).map (fun i => (r.extent + i, Pte.none))
    let s1 := s.modNext (fun t => allDies.foldl (fun (u : KvTables) d => u.setPtes d clear)
      (t.freeFrames (s.seqFrames r)))
    let s2 := s1.modNext (fun t => { t with usedFrames := freeKeys t.usedFrames 0 (pageRange r.tokLogPage r.tokLogPages),
                                            seqs := t.seqs.erase q })
    State.edits (n := s.listedEntries r 0) { s2 with kv := { s2.kv with reported := s2.kv.reported.filter (· != q) } }

/-- Bundles that name a context learn that it has been released or dropped (R319). -/
def State.contextGone (s : State) (q : Nat) : State :=
  let mark := fun (x : Nat × Bundle) => if x.2.context = some q then (x.1, { x.2 with contextGone := true }) else x
  { s with adm := { s.adm with bundles := s.adm.bundles.map mark } }

/-! ## Moves of contexts (R323) -/

/-- The move rate in force.
DESIGN CHOICE, safe: log entry 30. -/
def State.rateInForce (s : State) : Nat :=
  if s.jobActive then min s.kv.moveRate ((s.job.planSet.map (·.moveLoopMax)).getD 0) else s.kv.moveRate

/-- A context is being moved. -/
def State.moving (s : State) (q : Nat) : Bool := s.kv.moves.any (fun m => m.seq == q)

/-- Start the move of a context to a new run; false when no run is free. -/
def State.startMove (s : State) (id : Option EntryId) (q : Nat) (r : SeqRec) (park : Bool) : State × Bool :=
  let pages := r.pagesPerList * s.rowEntries
  if park then
    match lowestRun s.kv.next.usedContext allDies (s.regionFirst .context)
        (s.regionFirst .context + s.regionPages .context) pages with
    | none => (s, false)
    | some a =>
      let s1 := s.modNext (fun t => { t with usedContext := useOnAll t.usedContext a pages })
      ({ s1 with kv := { s1.kv with moves := s1.kv.moves ++ [⟨q, true, id, 0, r.runPage, a, pages⟩] } }, true)
  else
    let c := s.cover pages 0
    match (if c.2 then lowestRun c.1.kv.next.usedFrames allDies s.kvFirstFrame s.kvEndFrame pages else none) with
    | none => (c.1, false)
    | some a =>
      let s1 := c.1.modNext (fun t => { t with usedFrames := useOnAll t.usedFrames a pages })
      ({ s1 with kv := { s1.kv with moves := s1.kv.moves ++ [⟨q, false, id, 0, r.runPage, a, pages⟩] } }, true)

/-- The frames of a context's run whose rows have been dropped. -/
def State.droppedRun (s : State) (r : SeqRec) : List Nat :=
  allDies.flatMap (fun d => ((List.range r.pagesPerList).filter (fun n => (s.kv.next.rowPte d r 0 n).dropped)).flatMap
    (fun n => (runRow r n s.rowEntries).map (frameOf r.runLp d)))

/-- Re-point a context's entries to the run it has been moved to, and give back the old run and the places of dropped rows. -/
def State.finishMove (s : State) (m : Move) : State :=
  match s.nextSeq m.seq with
  | none => s
  | some r =>
    let e := s.rowEntries
    let r' := { r with runPage := m.dstPage, runLp := m.park, phase := if m.park then .contextParked else .contextHbm }
    let old := s.seqFrames r ++ s.droppedRun r'
    let cells := (List.range e).flatMap (fun j => (List.range r.pagesPerList).map (fun n => (j, n)))
    let point := fun (u : KvTables) (d : DieId) (x : Nat × Nat) =>
      let p := u.rowPte d r x.1 x.2
      (rowIndex r x.1 x.2, { p with frame := frameOf m.park d (m.dstPage + x.1 * r.pagesPerList + x.2) })
    let s1 := s.modNext (fun t => allDies.foldl (fun (u : KvTables) d =>
      u.setPtes d ((cells.filter (fun (x : Nat × Nat) => (u.rowPte d r x.1 x.2).valid)).map (point u d)))
      (t.freeFrames old))
    let s2 := (s1.setSeq m.seq r').edits (s.listedEntries r 0)
    let s3 := { s2 with kv := { s2.kv with moves := s2.kv.moves.filter (fun x => x.seq != m.seq) } }
    match m.id with
    | some id => { s3 with kv := { s3.kv with done := s3.kv.done ++ [(id, .ok)] } }
    | none => s3

/-- The moves whose last page the beat in progress carries take effect at its end. -/
def State.finishMoves (s : State) : State :=
  (s.kv.moves.filter (fun m => decide (m.pages ≤ m.moved))).foldl State.finishMove s

/-- Pages of the move that the rate lets the coming beat carry. -/
def State.moveWant (s : State) : Nat :=
  match s.kv.moves with
  | [] => 0
  | m :: _ => min s.rateInForce (m.pages - m.moved)

/-- The frames that the next n pages of the move are written to. -/
def State.moveFrames (s : State) (n : Nat) : List Nat :=
  match s.kv.moves with
  | [] => []
  | m :: _ => allDies.flatMap (fun d => (pageRange (m.dstPage + m.moved) n).map (frameOf m.park d))

/-- Pages of the move that the coming beat carries: none while a keying list has no room for them (R420). -/
def State.movePages (s : State) : Nat := if (s.engineFull (s.moveFrames s.moveWant)).isSome then 0 else s.moveWant

/-- The move's share of the coming beat's batch descriptor, S13 to S15 (R257, R323). -/
def State.moveWords (s : State) : List W32 :=
  match s.kv.moves with
  | [] => [0, 0, 0]
  | m :: _ =>
    let n := s.movePages
    if n = 0 then [0, 0, 0]
    else [BitVec.ofNat 32 ((m.srcPage + m.moved) * 256), BitVec.ofNat 32 ((m.dstPage + m.moved) * 256),
          BitVec.ofNat 32 ((if m.park then 2 else 1) * 2 ^ 30 + n)]

/-- Count n pages as moved. -/
def State.advanceMove (s : State) (n : Nat) : State :=
  match s.kv.moves with
  | [] => s
  | m :: ms => { s with kv := { s.kv with moves := { m with moved := m.moved + n } :: ms } }

/-- The key slot of the move's context. -/
def State.moveSlot (s : State) : Nat :=
  match s.kv.moves with
  | [] => 0
  | m :: _ => ((s.nextSeq m.seq).map (·.keySlot)).getD 0

/-- A move that waits for a keying list is logged (R420). -/
def State.moveDeferred (s : State) : State :=
  match s.engineFull (s.moveFrames s.moveWant) with
  | some e => s.keyingDeferred e
  | none => s

/-- While plans run, the coming beat's plan moves the pages: their attributes change at the boundary. -/
def State.steerMove (s : State) : State :=
  (s.moveDeferred.rekey (s.moveFrames s.movePages) s.moveSlot).advanceMove s.movePages

/-- While no job runs the hub moves the pages itself (R216). -/
def State.hubMove (s : State) : State :=
  match s.kv.moves with
  | [] => s
  | m :: _ =>
    let n := s.movePages
    let s1 := allDies.foldl (fun (t : State) d =>
      ((t.extMet (!m.park) d ((m.srcPage + m.moved) * 65536) (n * 65536)).keyWholeRange m.park d (m.dstPage + m.moved)
        s.moveSlot n).extPut m.park d
        ((m.dstPage + m.moved) * 65536) (s.extGet (!m.park) d ((m.srcPage + m.moved) * 65536) (n * 65536))) s.moveDeferred
    s1.advanceMove n

/-! ## Page edits (R318, R319) -/

/-- A request that is ADMITTED or ACTIVE holds a context. -/
def State.contextHeld (s : State) (q : Nat) : Bool :=
  s.adm.requests.any (fun (x : Nat × Request) =>
    x.2.phase != .queued && (x.2.context == some q || (x.2.isContext && x.2.seq == some q)))

/-- The states in which an edit is allowed (R318). -/
def editAllowed (e : PageEdit) (p : SeqPhase) (filling : Bool) : Bool :=
  match e with
  | .keep _ => p == .opened && !filling || p == .kept
  | .release => p != .opened
  | .truncate _ => p == .kept
  | .drop _ => p == .kept || p == .contextHbm
  | .park => p == .contextHbm
  | .unpark => p == .contextParked

/-- The positions that an edit may name (R345). -/
def editInRange (e : PageEdit) (length : Nat) : Bool :=
  match e with
  | .truncate p => decide (p ≤ length)
  | .drop p => decide (p < length)
  | _ => true

/-- An edit of a context waits while requests hold it (R319). -/
def editDefers : PageEdit → Bool
  | .release | .drop _ | .park => true
  | _ => false

/-- Set LENGTH to a position, free the rows wholly beyond it and clear USED beyond it in the partial page (R318). -/
def State.truncateSeq (s : State) (q : Nat) (r : SeqRec) (p : Nat) : State :=
  let tpp := kvTpp r.fmt
  let first := ceilDiv p tpp
  let e := s.rowEntries
  let s1 := (List.range (r.pagesPerList - first)).foldl (fun (t : State) i => t.unmapRow r (first + i) (fun _ => Pte.none))
    (s.edits (s.listedEntries r first + (if p % tpp = 0 then 0 else e)))
  let cut := fun (x : Pte) => { x with used := min x.used (p % tpp) }
  let s2 := if p % tpp = 0 then s1 else s1.modNext (fun t => allDies.foldl (fun (u : KvTables) d =>
    u.setPtes d ((List.range e).map (fun j => (rowIndex r j (p / tpp), cut (u.rowPte d r j (p / tpp)))))) t)
  s2.modSeq q (fun x => { x with length := p, droppedFrom := x.droppedFrom.filter (fun d => decide (d < p)) })

/-- Apply an edit that is allowed: the new state, and the status with which it completes; none while it goes on (a move) or
must wait for room. -/
def State.applyEdit (s : State) (id : EntryId) (q : Nat) (r : SeqRec) (e : PageEdit) : State × Option Status :=
  match e with
  | .keep b => (s.modSeq q (fun x => { x with keep := b }), some .ok)
  | .release => ((s.freeSeqOf q).contextGone q, some .ok)
  | .truncate p => (s.truncateSeq q r p, some .ok)
  | .drop p =>
    let n := p / kvTpp r.fmt
    (((s.dropRowsFrom q n (s.heldRows r - n)).modSeq q (fun x => x.dropAt (n * kvTpp r.fmt))).contextGone q, some .ok)
  | .park | .unpark =>
    let m := s.startMove (some id) q r (e == .park)
    if m.2 then (m.1, none)
    else ({ m.1 with kv := { m.1.kv with deferred := m.1.kv.deferred ++ [(id, q, e)] } }, none)

/-- An edit completes when its edit set takes effect (R318). -/
def State.editDone (s : State) (id : EntryId) (st : Status) : State :=
  { s with kv := { s.kv with done := s.kv.done ++ [(id, st)] } }

/-- An older edit of a sequence waits, so that edits of one sequence keep their order (R317). -/
def State.editWaits (s : State) (q : Nat) : Bool := s.kv.deferred.any (fun (x : EntryId × Nat × PageEdit) => x.2.1 == q)

/-- Try an edit: checked, applied, deferred or turned away (R319, R323, R345). One whose entries the set has no room left for waits for
the next boundary (R317).
DEDUCED, unsafe: log entry 170. -/
def State.tryEdit (s : State) (id : EntryId) (q : Nat) (e : PageEdit) : State :=
  match s.nextSeq q with
  | none => s.postStatus id opPageEdit .seqUnknown
  | some r =>
    if !(editAllowed e r.phase r.filling) || !(editInRange e r.length)
        || ((e == .park || e == .unpark) && s.rateInForce == 0) then s.postStatus id opPageEdit .seqBusy
    else if (editDefers e && s.contextHeld q) || s.moving q || s.editWaits q then
      { s with kv := { s.kv with deferred := s.kv.deferred ++ [(id, q, e)] } }
    else
      let a := (s.applyEdit id q r e)
      if s.kv.editCount ≠ 0 ∧ s.kv.editCount < a.1.kv.editCount ∧ !a.1.editRoom 0 then
        { s with kv := { s.kv with deferred := s.kv.deferred ++ [(id, q, e)] } }
      else
        match a.2 with
        | some st => a.1.editDone id st
        | none => a.1

/-- The deferred edits are tried again, in order (R319). -/
def State.retryEdits (s : State) : State :=
  s.kv.deferred.foldl (fun (t : State) (x : EntryId × Nat × PageEdit) => t.tryEdit x.1 x.2.1 x.2.2)
    { s with kv := { s.kv with deferred := [] } }

/-- A RELEASE or DROP of a context waits for it. -/
def State.dropPending (s : State) (q : Nat) : Bool :=
  s.kv.deferred.any (fun (x : EntryId × Nat × PageEdit) => x.2.1 == q &&
    (match x.2.2 with
     | .release | .drop _ => true
     | _ => false))

/-- A PARK of a context waits for it. -/
def State.parkPending (s : State) (q : Nat) : Bool :=
  s.kv.deferred.any (fun (x : EntryId × Nat × PageEdit) => x.2.1 == q && x.2.2 == .park)

/-! ## The edit set of a boundary (R305, R306, R309, R313, R317) -/

/-- A state's code (R305). -/
def SeqPhase.code : SeqPhase → Nat
  | .opened => 1
  | .kept => 2
  | .contextHbm => 3
  | .contextParked => 4

/-- The 64 bytes of a sequence record on a die (R305). -/
def seqBytes (d : DieId) (r : SeqRec) : List Byte :=
  leBytes 1 r.phase.code ++ leBytes 1 r.fmt ++ leBytes 1 r.gen ++ leBytes 1 r.punnet ++ leBytes 2 r.keySlot
    ++ leBytes 2 (if r.keep then 1 else 0) ++ leBytes 4 r.matter ++ leBytes 4 r.length
    ++ leBytes 4 (r.droppedFrom.getD (2 ^ 32 - 1)) ++ leBytes 4 r.pagesPerList ++ leBytes 4 r.extent
    ++ leBytes 4 r.runPage ++ leBytes 4 (if d = 0 then r.tokLogPage else 0) ++ leBytes 4 r.positionBase
    ++ leBytes 8 r.lastUsed ++ List.replicate 16 0

/-- The 64 bits of an entry (R306). -/
def pteWord (p : Pte) : Nat :=
  p.frame * 2 ^ 32 + (if p.valid then 2 ^ 31 else 0) + (if p.dropped then 2 ^ 30 else 0) + p.used % 512 * 2 ^ 21
    + p.keySlot * 2 ^ 9 + p.gen * 2 ^ 6 + p.fmt * 2 ^ 4

/-- The byte of HBM at which a sequence's record lies (R309). -/
def State.seqByte (s : State) (q : Nat) : Nat := (s.regionFirst .kv + 1) * 65536 + q * 64

/-- The byte of HBM at which an entry lies (R309). -/
def State.pteByte (s : State) (i : Nat) : Nat := (s.regionFirst .kv + 129) * 65536 + i * 8

/-- The keys at which two maps differ. -/
def changedKeys {α : Type} [DecidableEq α] (a b : AMap α) : List Nat :=
  (a.keys.filter (fun k => decide (b.find? k ≠ a.find? k))) ++ b.keys.filter (fun k => (a.find? k).isNone)

/-- The hub writes the records and entries that differ between two sets of tables to the table pages of a die. -/
def State.writeTables (s : State) (old t : KvTables) (d : DieId) : State :=
  let s1 := (changedKeys old.seqs t.seqs).foldl (fun (x : State) q =>
    x.hubPut false d (x.seqByte q) (((t.seqs.find? q).map (seqBytes d)).getD (List.replicate 64 0))) s
  (changedKeys (old.ptes.get d) (t.ptes.get d)).foldl (fun (x : State) i =>
    x.hubPut false d (x.pteByte i) (leBytes 8 (pteWord ((t.ptes.get d).getD i Pte.none)))) s1

/-- Rows that a flush reported join USED, if the entry still maps that frame (R313). -/
def KvTables.addUsed (t : KvTables) (a : AddUsed) : KvTables :=
  let p := (t.ptes.get a.die).getD a.index Pte.none
  if p.valid && p.frame == a.frame then t.setPtes a.die [(a.index, { p with used := p.used + a.rows })] else t

/-- A late die keeps the tables that it reads (R30, R31).
DEDUCED, unsafe: log entry 148. -/
def State.keepView (s : State) (d : DieId) : State :=
  if (s.kv.views.get d).isEmpty then { s with kv := { s.kv with views := s.kv.views.set d [s.kv.live] } } else s

/-- A late die moves on to the tables of its next plan, or to those in force when it has none.
DEDUCED, unsafe: log entry 148. -/
def State.nextView (s : State) (d : DieId) : State :=
  match s.kv.views.get d with
  | [] => s
  | x :: rest =>
    State.writeTables { s with kv := { s.kv with views := s.kv.views.set d rest } } x (rest.headD s.kv.live) d

/-- The boundary's edit set takes effect as one step on every die that is not late: USED additions last, then the completions
of its PAGE_EDITs (R317, R318). While a die is in reset the set is held (R506). -/
def State.applyEditSet (s : State) : State :=
  if s.fe.toList.any (·.inReset) then s
  else
  let old := s.kv.live
  let t := s.kv.added.foldl KvTables.addUsed s.kv.next
  let s1 := { s with kv := { s.kv with live := t, next := t, added := [], done := [], editCount := 0,
                                       moveRate := s.param P.kvMovePagesPerBeat } }
  let s2 := allDies.foldl (fun (x : State) d => if (x.kv.views.get d).isEmpty then x.writeTables old t d else x) s1
  s.kv.done.foldl (fun (x : State) (e : EntryId × Status) => x.postStatus e.1 opPageEdit e.2) s2

end Sys2Proof.Machine
end

