-- ==== Sys2Proof/Machine/Adapters.lean ====
section
/-! DEFINITION. The base model, adapter records and their registration, and the pages of ADAPTER_STORE (R235 to R247). -/

namespace Sys2Proof.Machine

/-! ## The base (R235 to R238) -/

/-- The ASCII bytes of a magic. -/
def magicIs (bs : List Byte) (t : String) : Bool := bs.take t.length == asciiBytes t

/-- The entries of a manifest. -/
def manifestSegments (m : List Byte) (n : Nat) : List Segment :=
  (List.range n).map (fun i =>
    ⟨dieOf (fieldLE m (64 + 64 * i) 1), fieldLE m (68 + 64 * i) 4, fieldLE m (72 + 64 * i) 8, (m.drop (80 + 64 * i)).take 48⟩)

/-- The pages that the segments of a die cover, in page order, cover 0 to n − 1 exactly: every page lies in exactly one. -/
def segmentsCover (segs : List Segment) (d : DieId) (n : Nat) : Bool :=
  let mine := segs.filter (fun x => x.die == d)
  (mine.map (fun x => x.bytes / 65536)).sum == n
    && mine.all (fun x => decide (x.firstPage + x.bytes / 65536 ≤ n))
    && (mine.zipIdx).all (fun (x : Segment × Nat) => (mine.zipIdx).all (fun (y : Segment × Nat) =>
      x.2 == y.2 || decide (x.1.firstPage + x.1.bytes / 65536 ≤ y.1.firstPage)
        || decide (y.1.firstPage + y.1.bytes / 65536 ≤ x.1.firstPage)))

/-- The checks of R236 on a manifest of n segments. -/
def State.manifestOk (s : State) (m : List Byte) (n : Nat) : Bool :=
  let segs := manifestSegments m n
  magicIs m "BNXBASEM" && fieldLE m 8 2 == 1 && decide (1 ≤ n) && decide (n ≤ 4096)
    && decide (fieldLE m 12 4 ≤ s.regionPages .base) && ((m.drop 48).take 16).all (fun b => b == 0)
    && (List.range n).all (fun i => decide (fieldLE m (64 + 64 * i) 1 ≤ 3) && fieldLE m (65 + 64 * i) 3 == 0)
    && segs.all (fun x => x.bytes % 65536 == 0 && decide (x.bytes ≤ 2 ^ 32))
    && allDies.all (fun d => segmentsCover segs d (fieldLE m 12 4))

/-- A base command has posted its outcome: 0 OK, 1 BAD_MANIFEST, 2 DIGEST_FAIL, 3 NOT_ALLOWED, 4 INCOMPLETE, 5 BAD_ARGUMENT. -/
def State.baseResult (s : State) (r : Nat) : State := s.setParam P.baseResult r

/-- A BEGIN or SEGMENT has been refused (R265). -/
def State.baseRefused (s : State) (r seg : Nat) : State :=
  (s.baseResult r).event Ev.baseInstallFailed [(1, r), (2, seg)]

/-- The copy of a SEGMENT. -/
def HubOp.isSegment : HubOp → Bool
  | .segment _ _ => true
  | _ => false

/-- A SEGMENT copy is in progress. -/
def State.segmentBusy (s : State) : Bool := s.boot.hub.any HubOp.isSegment

/-- The conditions of R235 for a BEGIN: device ADMITTED, no job running, no request admitted, not INSTALLING. A job that is
STARTING counts, since its adapters are already bound to the installed base (R5, R270).
DEDUCED, unsafe: log entry 169. -/
def State.beginAllowed (s : State) : Bool :=
  s.boot.dev == .admitted && !s.jobPresent && s.adm.base != .installing
    && !(s.adm.requests.any (fun (x : Nat × Request) => x.2.phase != .queued))

/-- The whole manifest at an offset: its head and entries. -/
def State.readManifest (s : State) (offset : Nat) : List Byte :=
  s.windowGet offset (64 + 64 * fieldLE (s.windowGet offset 64) 10 2)

/-- BEGIN (R237). While a SEGMENT's copy has posted no outcome yet, no base command is accepted. A BEGIN that is refused names segment 0
in its event.
DESIGN CHOICE, unsafe: log entry 199. -/
def execBegin (offset : Nat) (s : State) : Result :=
  if s.segmentBusy then .next s
  else if !s.beginAllowed then .next (s.baseRefused 3 0)
  else if !(s.inWindow offset 64) then .next (s.baseRefused 5 0)
  else
    let n := fieldLE (s.windowGet offset 64) 10 2
    if !(s.inWindow offset (64 + 64 * n)) then .next (s.baseRefused 5 0)
    else
      let m := s.readManifest offset
      if !(s.manifestOk m n) then .next (s.baseRefused 1 0)
      else
        let keep := if s.adm.base = .valid then s.adm.fingerprint else s.adm.prevFingerprint
        let s1 := (s.windowMet offset (64 + 64 * n)).setParam P.baseSegmentsDone 0
        .next (State.baseResult { s1 with adm := { s1.adm with
          base := .installing, prevFingerprint := keep, fingerprint := [],
          install := some ⟨sha384 m, manifestSegments m n, []⟩ } } 0)

/-- SEGMENT (R237): the copy and its hash end with HUB_COPY_DONE. -/
def execSegment (offset index : Nat) (s : State) : Result :=
  if s.segmentBusy then .next s
  else
  match s.adm.install with
  | none => .next (s.baseRefused 3 index)
  | some ins =>
    match ins.segments[index]? with
    | none => .next (s.baseRefused 5 index)
    | some g =>
      if !(s.inWindow offset g.bytes) then .next (s.baseRefused 5 index)
      else .next { s with boot := { s.boot with hub := s.boot.hub ++ [.segment offset index] } }

/-- A SEGMENT copy has ended: the pages are written with key slot 0 and the digest is compared (R214, R237). -/
def State.segmentDone (s : State) (offset index : Nat) : State :=
  match s.adm.install with
  | none => s
  | some ins =>
    match ins.segments[index]? with
    | none => s
    | some g =>
      let bytes := s.windowGet offset g.bytes
      let s1 := ((s.windowMet offset g.bytes).keyWholeRange false g.die (s.regionFirst .base + g.firstPage) 0
        (g.bytes / 65536)).extPut false g.die
        ((s.regionFirst .base + g.firstPage) * 65536) bytes
      let others := ins.doneSegs.filter (· != index)
      let count := fun (t : State) (i : Install) => t.setParam P.baseSegmentsDone i.doneSegs.length
      let yes : Install := { ins with doneSegs := others ++ [index] }
      let no : Install := { ins with doneSegs := others }
      if sha384 bytes = g.digest then
        State.baseResult (count { s1 with adm := { s1.adm with install := some yes } } yes) 0
      else
        State.baseRefused (count { s1 with adm := { s1.adm with install := some no } } no) 2 index

/-- An adapter after an END: on the previous base again it is usable if bound to it, on another it becomes INVALID if bound to
another; an INVALID adapter becomes usable in no other way (R238). -/
def Adapter.rebase (a : Adapter) (same : Bool) (fp : List Byte) : Adapter :=
  if same then { a with invalid := a.invalid && a.fingerprint != fp } else { a with invalid := a.invalid || a.fingerprint != fp }

/-- A sequence record after an END, as an adapter (R238): only a context is ever read through it. -/
def SeqRec.rebase (r : SeqRec) (same : Bool) (fp : List Byte) : SeqRec :=
  if same then { r with invalid := r.invalid && r.base != fp } else { r with invalid := r.invalid || r.base != fp }

/-- The new base is the one that was VALID before the install (R238). -/
def State.sameBase (s : State) (fp : List Byte) : Bool := fp == s.adm.prevFingerprint

/-- Adapters that an END makes INVALID (R238). -/
def State.madeInvalid (s : State) (fp : List Byte) : Nat :=
  if s.sameBase fp then 0
  else s.adm.adapters.countP (fun (x : Nat × Adapter) => !x.2.invalid && x.2.fingerprint != fp)

/-- Adapters that an END makes usable again after the install made them unusable (R235, R238). -/
def State.usableAgain (s : State) (fp : List Byte) : Nat :=
  if s.sameBase fp then s.adm.adapters.countP (fun (x : Nat × Adapter) => x.2.fingerprint == fp) else 0

/-- A base becomes VALID: its fingerprint is published, and adapters and contexts follow it (R238). -/
def State.publishBase (s : State) (fp : List Byte) : State :=
  let same := s.sameBase fp
  let s1 := s.modNext (fun t => { t with seqs := t.seqs.map (fun (x : Nat × SeqRec) => (x.1, x.2.rebase same fp)) })
  { s1 with adm := { s1.adm with
    base := .valid, fingerprint := fp, prevFingerprint := fp, install := none,
    adapters := s1.adm.adapters.map (fun (x : Nat × Adapter) => (x.1, x.2.rebase same fp)) } }

/-- The detail of BASE_INSTALLED: the fingerprint prefix takes the bytes that the two counts leave over (R265, R487). -/
def installedDetail (fp : List Byte) (bad ok : Nat) : List Byte := fp.take 10 ++ leBytes 2 bad ++ leBytes 2 ok

/-- END (R237, R238). -/
def execEnd (s : State) : Result :=
  if s.segmentBusy then .next s
  else
    match s.adm.install with
    | none => .next (s.baseResult 3)
    | some ins =>
      if ins.doneSegs.length ≠ ins.segments.length then .next (s.baseResult 4)
      else
        let fp := ins.fingerprint
        .next (((s.publishBase fp).baseResult 0).log' Ev.baseInstalled hubSource
          (installedDetail fp (s.madeInvalid fp) (s.usableAgain fp)))

/-- ABORT of a base install (R237). -/
def execBaseAbort (s : State) : Result :=
  if s.segmentBusy then .next s
  else
    match s.adm.install with
    | none => .next (s.baseResult 3)
    | some _ => .next (State.baseResult { s with adm := { s.adm with base := .none, fingerprint := [], install := none } } 0)

/-! ## The adapter record (R239 to R244) -/

/-- The bits of a target bitmap. -/
def targetsOf (bitmap : Nat) : List Nat := (List.range 7).filter (fun b => bitmap.testBit b)

/-- A directory entry as the record holds it. -/
structure DirEntry where
  layer : Nat
  target : Nat
  factor : Nat
  role : Nat
  fmt : Nat
  quarter : Nat
  offset : Nat
  slotOffset : Nat
  clean : Bool
  deriving DecidableEq, Repr

/-- Entry i of a record's directory (R242). -/
def dirEntry (rec' : List Byte) (i : Nat) : DirEntry :=
  let o := 256 + 32 * i
  { layer := fieldLE rec' o 2, target := fieldLE rec' (o + 2) 1, factor := fieldLE rec' (o + 3) 1,
    role := fieldLE rec' (o + 4) 1, fmt := fieldLE rec' (o + 5) 1, quarter := fieldLE rec' (o + 8) 4,
    offset := fieldLE rec' (o + 16) 8, slotOffset := fieldLE rec' (o + 24) 4,
    clean := fieldLE rec' (o + 6) 2 == 0 && fieldLE rec' (o + 12) 4 == 0 && fieldLE rec' (o + 28) 4 == 0 }

/-- The (layer, target, factor, role) of the entries in directory order (R242). -/
def dirOrder (first count bitmap roles : Nat) : List (Nat × Nat × Nat × Nat) :=
  (List.range roles).flatMap (fun role => (List.range count).flatMap (fun l => (targetsOf bitmap).flatMap (fun t =>
    [(first + l, t, 0, role), (first + l, t, 1, role)])))

/-- A quarter rounded up to 4,096 bytes (R243). -/
def padQuarter (q : Nat) : Nat := roundUp q 4096

/-- The format of a tensor by its role: BF16 weights and first moments, U16L second moments (R240). -/
def roleFmt (role : Nat) : Nat := if role = 2 then 9 else 1

/-- One entry is in its place: name, format, size, offsets (R241 to R243). `soFar` is the padded length of the quarters
before it, `weights` the padded length of all weight quarters. -/
def dirEntryOk (rank tensorOffset soFar : Nat) (e : DirEntry) (k : Nat × Nat × Nat × Nat) (weight : Nat) : Bool :=
  e.layer == k.1 && e.target == k.2.1 && e.factor == k.2.2.1 && e.role == k.2.2.2 && e.fmt == roleFmt k.2.2.2
    && e.clean && decide (0 < e.quarter) && e.quarter % (128 * rank) == 0
    && (k.2.2.2 == 0 || e.quarter == weight)
    && e.offset == tensorOffset + 4 * soFar
    && e.slotOffset == (if k.2.2.2 = 0 then soFar else 2 ^ 32 - 1)

/-- The padded lengths before each entry, summed. -/
def prefixSums (l : List Nat) : List Nat := (List.range l.length).map (fun i => (l.take i).sum)

/-- The whole directory is in order. -/
def dirOk (rank tensorOffset first count bitmap roles : Nat) (es : List DirEntry) : Bool :=
  let order := dirOrder first count bitmap roles
  let pads := es.map (fun e => padQuarter e.quarter)
  let sums := prefixSums pads
  let per := count * (targetsOf bitmap).length * 2
  es.length == order.length && (List.range es.length).all (fun i =>
    dirEntryOk rank tensorOffset (sums.getD i 0) (es.getD i ⟨0, 0, 0, 0, 0, 0, 0, 0, false⟩) (order.getD i (0, 0, 0, 0))
      ((es.getD (i % max per 1) ⟨0, 0, 0, 0, 0, 0, 0, 0, false⟩).quarter))

/-- The padded length of one die's share of the tensors of some roles. -/
def shareBytes (es : List DirEntry) (p : Nat → Bool) : Nat :=
  ((es.filter (fun e => p e.role)).map (fun e => padQuarter e.quarter)).sum

/-- The bytes of a record's header, directory and statistics section. -/
def recordHead (rec' : List Byte) : List DirEntry := (List.range (fieldLE rec' 18 2)).map (dirEntry rec')

/-- Check 1 of R245 on a record whose entry gave a length. The reserved bytes of the statistics section, which has a CRC of its own, are
not checked.
DEDUCED, unsafe: log entry 159. DESIGN CHOICE, unsafe: log entry 198. -/
def recordOk (rec' : List Byte) (entryBytes : Nat) : Bool :=
  let rank := fieldLE rec' 10 1
  let flags := fieldLE rec' 11 1
  let count := fieldLE rec' 18 2
  let bitmap := fieldLE rec' 24 8
  let layers := fieldLE rec' 22 2
  let roles := if flags = 1 then 3 else 1
  let es := recordHead rec'
  let tOff := fieldLE rec' 100 4
  let serve := 4 * shareBytes es (fun r => r == 0)
  let state := 4 * shareBytes es (fun r => r != 0)
  magicIs rec' "BNXADAPT" && fieldLE rec' 8 2 == 1 && decide (1 ≤ rank) && decide (rank ≤ 64) && decide (flags ≤ 1)
    && decide (2 ≤ fieldLE rec' 16 2) && decide (fieldLE rec' 16 2 ≤ 4095) && decide (1 ≤ layers)
    && decide (bitmap < 2 ^ 7)
    && fieldLE rec' 88 1 == 1 && fieldLE rec' 89 1 == (if flags = 1 then 1 else 0)
    && fieldLE rec' 90 1 == (if flags = 1 then 9 else 0) && fieldLE rec' 91 1 == 0
    && fieldLE rec' 92 4 == 256 && fieldLE rec' 96 4 == 256 + 32 * count
    && tOff % 4096 == 0 && decide (256 + 32 * count + 64 ≤ tOff)
    && dirOk rank tOff (fieldLE rec' 20 2) layers bitmap roles es
    && fieldLE rec' 104 8 == serve && fieldLE rec' 112 8 == state && fieldLE rec' 120 8 == tOff + serve + state
    && fieldLE rec' 120 8 == entryBytes
    && fieldLE rec' 128 4 == ceilDiv (serve / 4) 65536
    && ((rec'.drop 132).take 120).all (fun b => b == 0)
    && fieldLE rec' 252 4 == crc32c (rec'.take 252)

/-- Chunks of a fill (R253). -/
def fillChunks (slotPages fcb : Nat) : Nat := ceilDiv (slotPages * 256) fcb

/-- Pages per die that a record takes in ADAPTER_STORE (R246). -/
def storePagesOf (tOff slotPages stateBytes fcb : Nat) : Nat :=
  ceilDiv (tOff + fillChunks slotPages fcb * fcb * 256 + stateBytes / 4) 65536

/-- The lowest run of free pages of ADAPTER_STORE, as a page of the tier.
DEDUCED, unsafe: log entry 33. -/
def State.storeRun (s : State) (n : Nat) : Option Nat :=
  let lo := s.regionFirst .store
  let hi := lo + s.regionPages .store
  let es := s.adm.adapters.map (fun (x : Nat × Adapter) => (x.2.storePage, x.2.storePages))
  ((lo :: es.map (fun (x : Nat × Nat) => x.1 + x.2)).filter (fun a =>
    decide (lo ≤ a) && decide (a + n ≤ hi) && extentFree es a n)).min?

/-- The checks 2 to 6 of R245 in order, on a record that passes the first.
DEDUCED, unsafe: log entry 159. -/
def State.registerFault (s : State) (rec' : List Byte) : Option Status :=
  let fcb := s.param P.fillChunkBlocks
  if s.adm.base ≠ .valid ∨ (rec'.drop 32).take 48 ≠ s.adm.fingerprint then some .baseMismatch
  else if s.liveMatterSlot (fieldLE rec' 12 4) ≠ some (fieldLE rec' 16 2) then some .keySlotMismatch
  else if s.layoutOf 1 * 256 < fillChunks (fieldLE rec' 128 4) fcb * fcb then some .adapterTooLarge
  else if 8192 ≤ s.adm.adapters.length then some .adapterLimit
  else if (s.storeRun (storePagesOf (fieldLE rec' 100 4) (fieldLE rec' 128 4) (fieldLE rec' 112 8) fcb)).isNone then
    some .storeFull
  else none

/-- The adapter that a record describes, at a place in ADAPTER_STORE. -/
def adapterOf (rec' : List Byte) (serial page pages : Nat) : Adapter :=
  { serial := serial, matter := fieldLE rec' 12 4, keySlot := fieldLE rec' 16 2, rank := fieldLE rec' 10 1,
    trainState := fieldLE rec' 11 1 == 1, layerFirst := fieldLE rec' 20 2, layerCount := fieldLE rec' 22 2,
    targets := fieldLE rec' 24 8, fingerprint := (rec'.drop 32).take 48, seed := BitVec.ofNat 64 (fieldLE rec' 80 8),
    tensorOffset := fieldLE rec' 100 4, serveBytes := fieldLE rec' 104 8, stateBytes := fieldLE rec' 112 8,
    recordBytes := fieldLE rec' 120 8, slotPages := fieldLE rec' 128 4, storePage := page, storePages := pages,
    invalid := false, revoking := false, revokedAt := 0, evictions := [], copied := false }

/-- Register a record that passes its checks: the lowest free handle and store pages are taken; the copy is the hub's. -/
def State.registerRecord (s : State) (id : Option EntryId) (offset : Nat) (rec' : List Byte) : State :=
  let fcb := s.param P.fillChunkBlocks
  let pages := storePagesOf (fieldLE rec' 100 4) (fieldLE rec' 128 4) (fieldLE rec' 112 8) fcb
  match s.storeRun pages, firstGap 8192 0 s.adm.adapters with
  | some page, some h =>
    let adm := { s.adm with adapters := s.adm.adapters.insert h (adapterOf rec' s.adm.nextSerial page pages),
                            nextSerial := s.adm.nextSerial + 1 }
    { s with adm := adm, boot := { s.boot with hub := s.boot.hub ++ [.register h id offset] } }
  | _, _ => s

/-- The quarters q of the tensors of some roles, each padded to 4,096 bytes. -/
def quarterBytes (rec' : List Byte) (es : List DirEntry) (p : Nat → Bool) (q : Nat) : List Byte :=
  (es.filter (fun e => p e.role)).flatMap (fun e =>
    ((rec'.drop (e.offset + q * padQuarter e.quarter)).take (padQuarter e.quarter)))

/-- The statistics section that is stored in place of one that fails STATS_CRC: initial values, with STEP_COUNT kept (R244,
R456). -/
def freshStats (lossLog2 : Int) (old : List Byte) : List Byte :=
  let body := leBytes 1 (rawInt 8 lossLog2) ++ List.replicate 7 0 ++ leBytes 8 (fieldLE old 8 8) ++ List.replicate 16 0xFF
    ++ List.replicate 28 0
  body ++ leBytes 4 (crc32c body)

/-- The offset of the statistics section of a record. -/
def statsOffset (rec' : List Byte) : Nat := fieldLE rec' 96 4

/-- A statistics section passes its CRC. -/
def statsOk (st : List Byte) : Bool := fieldLE st 60 4 == crc32c (st.take 60)

/-- What a die holds of a record (R246): header, directory and statistics, the padded slot image at TENSOR_OFFSET, its moment
quarters, then zeros to the end of the last page. -/
def storeImage (rec' stats : List Byte) (fcb pages q : Nat) : List Byte :=
  let es := recordHead rec'
  let tOff := fieldLE rec' 100 4
  let head := rec'.take (statsOffset rec') ++ stats ++ (rec'.take tOff).drop (statsOffset rec' + 64)
  let img := quarterBytes rec' es (fun r => r == 0) q
  let pad := fillChunks (fieldLE rec' 128 4) fcb * fcb * 256
  let body := head ++ (img ++ List.replicate (pad - img.length) 0) ++ quarterBytes rec' es (fun r => r != 0) q
  body ++ List.replicate (pages * 65536 - body.length) 0

/-- The hub writes an adapter's store pages on every die from a record, with the matter's key slot (R214, R246). -/
def State.storeRecord (s : State) (a : Adapter) (rec' stats : List Byte) : State :=
  allDies.foldl (fun (t : State) d =>
    (t.keyWholeRange true d a.storePage a.keySlot a.storePages).extPut true d (a.storePage * 65536)
      (storeImage rec' stats (s.param P.fillChunkBlocks) a.storePages d.val)) s

/-- A registration's copy has ended (R246, R456).
DESIGN CHOICE, safe: log entry 53. -/
def State.registerDone (s : State) (h : Nat) (id : Option EntryId) (offset : Nat) : State :=
  match s.adm.adapters.find? h with
  | none => s
  | some a =>
    let rec' := s.windowGet offset a.recordBytes
    let st := (rec'.drop (statsOffset rec')).take 64
    let init := s.paramInt P.lossScaleInit 8
    let s0 := s.windowMet offset a.recordBytes
    let s1 := if statsOk st then s0 else (s0.bump P.statsRebuilt 1).event Ev.statsRebuilt [(2, h)]
    let s2 := s1.storeRecord a rec' (if statsOk st then st else freshStats init st)
    let s3 := { s2 with adm := { s2.adm with adapters := s2.adm.adapters.insert h { a with copied := true } } }
    match id with
    | some e => s3.post e ⟨opRegister, .ok, h, 0, 0⟩
    | none => s3

/-- ADAPTER_REGISTER at its consumption (R245, R345, R352).
DESIGN CHOICE, safe: log entry 53. -/
def State.registerEntry (s : State) (e : EntryId) (offset bytes : Nat) : State :=
  match firstBad (registerChecks offset) with
  | some off => s.badEntry e opRegister off
  | none =>
    if !(s.inWindow offset bytes) ∨ bytes < 256 ∧ !(s.inWindow offset 256) then s.postStatus e opRegister .windowRange
    else
      let rec' := s.windowGet offset bytes
      let s1 := s.windowMet offset bytes
      if !(recordOk rec' bytes) then s1.postStatus e opRegister .badRecord
      else
        match s1.registerFault rec' with
        | some st => s1.postStatus e opRegister st
        | none => s1.registerRecord (some e) offset rec'

/-! ## The record as ADAPTER_STORE holds it (R239 to R244, R347) -/

/-- Bytes of an adapter's pages on a die. -/
def State.storeBytes (s : State) (a : Adapter) (d : DieId) (o n : Nat) : List Byte :=
  s.extGet true d (a.storePage * 65536 + o) n

/-- The quarters of some tensors, die after die for each tensor, where the dies' shares begin at `first` (R243). -/
def State.gatherQuarters (s : State) (a : Adapter) (es : List DirEntry) (first : Nat) : List Byte :=
  let pads := es.map (fun e => padQuarter e.quarter)
  ((prefixSums pads).zip pads).flatMap (fun (x : Nat × Nat) => allDies.flatMap (fun d => s.storeBytes a d (first + x.1) x.2))

/-- An adapter's record in the layout of R239 to R244. -/
def State.recordBytesOf (s : State) (a : Adapter) : List Byte :=
  let fcb := s.param P.fillChunkBlocks
  let head := s.storeBytes a 0 0 a.tensorOffset
  let es := recordHead head
  head ++ s.gatherQuarters a (es.filter (fun e => e.role == 0)) a.tensorOffset
    ++ s.gatherQuarters a (es.filter (fun e => e.role != 0)) (a.tensorOffset + fillChunks a.slotPages fcb * fcb * 256)

/-- Count what the reads of an adapter's record in ADAPTER_STORE met (R225). -/
def State.recordMet (s : State) (a : Adapter) : State :=
  let b := a.storePage * 65536
  allDies.foldl (fun (t : State) d =>
    (t.extMet true d (b + a.tensorOffset) (a.serveBytes / 4)).extMet true d
      (b + a.tensorOffset + fillChunks a.slotPages (s.param P.fillChunkBlocks) * s.param P.fillChunkBlocks * 256) (a.stateBytes / 4))
    (s.extMet true 0 b a.tensorOffset)

/-- A checkpoint as it stands: its status, the bytes to write, and the last step included (R330, R347, R350).
DEDUCED, unsafe: log entry 95. -/
def State.fitImage (s : State) (b : List Byte) (dst max last : Nat) : Status × List Byte × Nat :=
  if max < b.length then (.bufferTooSmall, [], 0)
  else if !(s.inWindow dst b.length) then (.windowRange, [], 0)
  else (.ok, b, last)

end Sys2Proof.Machine
end

