-- ==== Sys2Proof/Machine/Admission.lean ====
section
/-! DEFINITION. Requests, bundles, cache slots, revocation, batches and the admission cycle (R249 to R265, R304, R312, R313,
R320, R341 to R348). -/

namespace Sys2Proof.Machine

/-! ## Adapters, slots and pins -/

/-- The registered adapter of a handle: its copy has ended (R246). -/
def State.adapter? (s : State) (h : Nat) : Option Adapter := (s.adm.adapters.find? h).filter (·.copied)

/-- The adapter of a registration number, with its handle. -/
def State.bySerial (s : State) (n : Nat) : Option (Nat × Adapter) :=
  List.find? (fun (x : Nat × Adapter) => x.2.serial == n) s.adm.adapters

/-- An adapter is trained by the job that is present (R273). -/
def State.inTraining (s : State) (h : Nat) : Bool := s.job.trains.any (fun t => t.handle == h)

/-- Requests that hold a cache slot. -/
def State.slotUsers (s : State) (n : Nat) : Nat :=
  s.adm.requests.countP (fun (x : Nat × Request) => x.2.slot == some n)

/-- A live bundle keeps a standing pin on an adapter (R249). -/
def State.held (s : State) (serial : Nat) : Bool :=
  s.adm.bundles.any (fun (x : Nat × Bundle) => x.2.hold && !x.2.revoked && x.2.adapter == serial)

/-- The pin count of a slot: requests, the standing pin, and the job's pin (R250, R254, R271). -/
def State.slotPins (s : State) (n : Nat) (c : CacheSlot) : Nat :=
  s.slotUsers n + (if s.held c.adapter then 1 else 0) + (if c.trained then 1 else 0)

/-- The slot that holds an adapter for serving. -/
def State.slotOf (s : State) (serial : Nat) : Option (Nat × CacheSlot) :=
  List.find? (fun (x : Nat × CacheSlot) => x.2.adapter == serial && !x.2.trained) s.adm.slots

/-- Free a cache slot. -/
def State.dropSlot (s : State) (n : Nat) : State :=
  { s with adm := { s.adm with slots := s.adm.slots.erase n, fills := s.adm.fills.filter (· != n) } }

/-- Replace a cache slot. -/
def State.setSlot (s : State) (n : Nat) (c : CacheSlot) : State :=
  { s with adm := { s.adm with slots := s.adm.slots.insert n c } }

/-- The unpinned RESIDENT slot whose last admission is oldest, of those the lowest index (R254). -/
def State.oldestSlot (s : State) : Option Nat :=
  (s.adm.slots.foldl (fun (a : Option (Nat × CacheSlot)) (x : Nat × CacheSlot) =>
    if x.2.phase = .resident ∧ s.slotPins x.1 x.2 = 0 then
      match a with
      | some b => if x.2.lastAdmit < b.2.lastAdmit then some x else a
      | none => some x
    else a) none).map (fun (x : Nat × CacheSlot) => x.1)

/-- The slot that an adapter without one receives (R254). -/
def State.pickSlot (s : State) : Option Nat :=
  match firstGap 1024 0 s.adm.slots with
  | some n => some n
  | none => s.oldestSlot

/-- The HBM frames of a cache slot on every die. -/
def State.slotFrames (s : State) (n : Nat) : List Nat :=
  allDies.flatMap (fun d => (pageRange (s.regionFirst .cache + n * s.layoutOf 1) (s.layoutOf 1)).map (frameOf false d))

/-- A slot for an adapter: the one it has, or one that is rekeyed and filled (R253, R254); none when it must wait.
DEDUCED, unsafe: log entry 144. -/
def State.getSlot (s : State) (h : Nat) (a : Adapter) : State × Option Nat :=
  match s.slotOf a.serial with
  | some (n, c) => (s.setSlot n { c with lastAdmit := s.beat.count + 1 }, some n)
  | none =>
    match s.pickSlot with
    | none => (s, none)
    | some n =>
      match s.engineFull (s.slotFrames n) with
      | some e => (s.keyingDeferred e, none)
      | none =>
        let c : CacheSlot := { phase := .filling, adapter := a.serial, handle := h, trained := false,
                               lastAdmit := s.beat.count + 1,
                               chunksLeft := fillChunks a.slotPages (s.param P.fillChunkBlocks), chunksDone := 0,
                               ready := false }
        let s1 := ((s.dropSlot n).setSlot n c).rekey (s.slotFrames n) a.keySlot
        ({ s1 with adm := { s1.adm with fills := s1.adm.fills ++ [n] } }, some n)

/-! ## Requests leave (R250, R260, R304, R343, R350) -/

/-- A request's own sequence is one that a table fault named (R312). -/
def State.seqFaulted (s : State) (r : Request) : Bool := (r.seq.map s.adm.faultedSeqs.contains).getD false

/-- A request's sequence is retained: KEEP is set, and it is neither one that is never continued nor one that a table fault named
(R260, R304, R312). -/
def State.keepsSeq (s : State) (r : Request) (st : Status) : Bool :=
  st != .adapterRevoked && st != .tenantReleased && !(st == .ptInconsistent && s.seqFaulted r)
    && ((r.seq.bind s.nextSeq).map (·.keep)).getD false

/-- What becomes of a request's sequence. -/
def State.leaveSeq (s : State) (r : Request) (st : Status) : State :=
  match r.seq with
  | none => s
  | some q =>
    if r.isContext then
      (if st = .ok then s
       else if st = .ptInconsistent then
         s.modSeq q (fun x => { x with phase := .contextHbm, filling := false, droppedFrom := some 0, reserved := 0 })
       else s.freeSeqOf q)
    else if s.keepsSeq r st then s.modSeq q (fun x => { x with phase := .kept, reserved := 0 })
    else s.freeSeqOf q

/-- FINISH of a request that completes OK: 0 MAX_NEW, 1 STOP_TOKEN; when both hold it is a free value.
DESIGN CHOICE, safe: log entry 50. -/
def finishOf (r : Request) : Nat :=
  if r.stopHit then (if r.f.maxNew ≤ r.produced then Config.finishBoth r.f.maxNew r.f.stopToken % 2 else 1) else 0

/-- The completion of a request. -/
def State.requestAnswer (s : State) (idx : Nat) (r : Request) (st : Status) : Answer :=
  if r.isContext then ⟨opPrefill, st, if st = .ok then r.seq.getD 0 else 0, 0, 0⟩
  else
    let fin := if st = .ok then finishOf r else 2
    ⟨opSubmit, st, submitResult r.produced idx fin true, if s.keepsSeq r st then r.seq.getD noSeq else noSeq, 0⟩

/-- CANCELs whose requests have all left complete (R344). -/
def State.settleCancels (s : State) : State :=
  let done := s.adm.cancels.filter (fun c => c.left.isEmpty)
  done.foldl (fun (t : State) c =>
      t.post c.id ⟨opCancel, if c.count = 0 then .noRequest else .ok, c.count, 0, 0⟩)
    { s with adm := { s.adm with cancels := s.adm.cancels.filter (fun c => !c.left.isEmpty) } }

/-- Nothing keeps a revoking adapter: its registration's copy has ended (R246), no request holds it, and each of its slots has a pin
count of zero, a FILLING slot counting as pinned (R254, R259). -/
def State.unpinned (s : State) (a : Adapter) : Bool :=
  a.copied
    && !(s.adm.requests.any (fun (x : Nat × Request) => x.2.adapter == some a.serial && x.2.phase != .queued))
    && s.adm.slots.all (fun (x : Nat × CacheSlot) =>
      x.2.adapter != a.serial || (x.2.phase != .filling && s.slotPins x.1 x.2 == 0))

/-- A revoking adapter whose pins have gone: its slots become FREE, its handle is freed and its evictions complete (R259). -/
def State.freeRevoked (s : State) (h : Nat) (a : Adapter) : State :=
  if !s.unpinned a then s
  else
    let mine := AMap.keys (s.adm.slots.filter (fun (x : Nat × CacheSlot) => x.2.adapter == a.serial))
    let s1 := mine.foldl State.dropSlot s
    let s2 := { s1 with adm := { s1.adm with adapters := s1.adm.adapters.erase h } }
    a.evictions.foldl (fun (t : State) e => t.postStatus e opEvict .ok) s2

/-- Free every revoking adapter whose pins have gone. -/
def State.settleRevoked (s : State) : State :=
  (s.adm.adapters.filter (fun (x : Nat × Adapter) => x.2.revoking)).foldl
    (fun (t : State) (x : Nat × Adapter) => t.freeRevoked x.1 x.2) s

/-- Fills whose last chunk the beat in progress carries are complete (R253), and revocations that waited for them go on (R259). The
slots of a trained adapter are filled by the job's preparation (R271). -/
def State.completeFills (s : State) : State :=
  let done := fun (x : Nat × CacheSlot) =>
    if x.2.phase = .filling ∧ x.2.chunksLeft = 0 ∧ !x.2.trained then (x.1, { x.2 with phase := .resident, ready := true }) else x
  State.settleRevoked { s with adm := { s.adm with slots := s.adm.slots.map done } }

/-- A request completes: its completion is posted, its pins are released, and what waited for it goes on. -/
def State.finishReq (s : State) (idx : Nat) (st : Status) : State :=
  match s.adm.requests.find? idx with
  | none => s
  | some r =>
    let s1 := (s.post r.id (s.requestAnswer idx r st)).leaveSeq r st
    let drop := fun (c : CancelWait) => { c with left := c.left.filter (· != idx) }
    let s2 := { s1 with adm := { s1.adm with requests := s1.adm.requests.erase idx,
                                             cancels := s1.adm.cancels.map drop } }
    s2.settleRevoked

/-- Several requests complete in REQ_INDEX order. -/
def State.finishAll (s : State) (idxs : List Nat) (st : Status) : State :=
  (idxs.foldl (fun (t : State) i => t.finishReq i st) s).settleCancels

/-- The requests for which a condition holds. -/
def State.requestsThat (s : State) (p : Request → Bool) : List Nat :=
  AMap.keys (s.adm.requests.filter (fun (x : Nat × Request) => p x.2))

/-- Change a request. -/
def State.modReq (s : State) (idx : Nat) (g : Request → Request) : State :=
  { s with adm := { s.adm with requests := s.adm.requests.modify idx g } }

/-- A request is to leave at the next schedule-slot-0 boundary, unless it already is.
DEDUCED, unsafe: log entry 154. -/
def Request.leave (r : Request) (st : Status) : Request := { r with leaving := some (r.leaving.getD st) }

/-- The requests that are to leave complete now. -/
def State.leaveNow (s : State) : State :=
  (s.requestsThat (fun r => r.leaving.isSome)).foldl (fun (t : State) i =>
    t.finishReq i (((t.adm.requests.find? i).bind (·.leaving)).getD .ok)) s |>.settleCancels

/-! ## Steps end (R258, R260, R312, R313, R321) -/

/-- The rows that a request takes part in a step with: 0 decode, 1 prompt, 2 context, 3 dropped range (R258). -/
def Request.kind (r : Request) : Nat :=
  if r.isContext then 2
  else if r.reFrom < r.reTo then 3
  else if r.promptDone < r.f.promptTokens then 1
  else 0

/-- The most recent output token of a request is its STOP_TOKEN (R343). -/
def State.stopSeen (s : State) (r : Request) : Bool :=
  r.f.stopEn && 0 < r.produced
    && leNat (s.windowGet (r.f.outOffset + 4 * (r.produced - 1)) 4) == r.f.stopToken.toNat

/-- A request whose step has given a token ends with it (R343).
DEDUCED, unsafe: log entry 52. -/
def State.afterToken (s : State) (idx : Nat) : State :=
  match s.adm.requests.find? idx with
  | none => s
  | some r =>
    if s.stopSeen r then s.modReq idx (fun x => { x.leave .ok with stopHit := x.leaving.isNone })
    else if r.f.maxNew ≤ r.produced then s.modReq idx (fun x => x.leave .ok)
    else s

/-- The tokens of a request that the step processed are committed (R313, R321).
DEDUCED, unsafe: log entry 52. -/
def State.commitReq (s : State) (idx : Nat) (r : Request) : State :=
  let n := r.stepTokens
  let q := r.seq.getD 0
  let clear := fun (x : Request) => { x with stepTokens := 0, stepDecode := false }
  match r.kind with
  | 2 =>
    let s1 := (s.modSeq q (fun x => { x with length := x.length + n })).modReq idx
      (fun x => { clear x with promptDone := x.promptDone + n })
    if r.f.promptTokens ≤ r.promptDone + n then
      (s1.modSeq q (fun x => { x with phase := .contextHbm, filling := false })).modReq idx (fun x => x.leave .ok)
    else s1
  | 3 =>
    let s1 := (s.bump P.kvReprefillTokens n).modReq idx (fun x => { clear x with reFrom := x.reFrom + n })
    if r.reTo ≤ r.reFrom + n then s1.modSeq q (fun x => { x with droppedFrom := none }) else s1
  | 1 =>
    let s1 := (s.modSeq q (fun x => { x with length := x.length + n })).modReq idx
      (fun x => { clear x with promptDone := x.promptDone + n })
    if r.f.promptTokens ≤ r.promptDone + n then (s1.modReq idx (fun x => { x with produced := 1 })).afterToken idx
    else s1
  | _ =>
    ((s.modSeq q (fun x => { x with length := x.length + 1 })).modReq idx
      (fun x => { clear x with produced := x.produced + 1 })).afterToken idx

/-- The request uses a faulted sequence. -/
def Request.faulted (r : Request) (qs : List Nat) : Bool :=
  ((r.seq.map qs.contains).getD false) || ((r.context.map qs.contains).getD false)

/-- What a table fault makes of a sequence that no request owns any more: a KEPT one becomes FREE, and a context must be prefilled
again (R312). -/
def State.dropFaulted (s : State) (q : Nat) : State :=
  match s.nextSeq q with
  | none => s
  | some r =>
    match r.phase with
    | .kept => s.freeSeqOf q
    | .contextHbm | .contextParked => s.modSeq q (fun x => { x with phase := .contextHbm, droppedFrom := some 0 })
    | .opened => s

/-- The requests of faulted sequences leave with what they had before the step, and so does what the faults named (R312). -/
def State.leaveFaulted (s : State) : State :=
  let qs := s.adm.faultedSeqs
  let s1 := (s.requestsThat (fun r => r.phase != .queued && r.faulted qs)).foldl (fun (t : State) i =>
    t.finishReq i .ptInconsistent) s
  let s2 := qs.foldl State.dropFaulted s1
  State.settleCancels { s2 with adm := { s2.adm with faultedSeqs := [] } }

/-- The step in progress ends (R252 step 1): faulted requests leave, tokens are committed, and requests that end complete.
DEDUCED, unsafe: log entry 52. -/
def State.endStep (s : State) : State :=
  let s1 := s.leaveFaulted
  let rows := s1.adm.requests.filter (fun (x : Nat × Request) => decide (0 < x.2.stepTokens))
  (rows.foldl (fun (t : State) (x : Nat × Request) => t.commitReq x.1 x.2) s1).leaveNow

/-! ## Bundles, evictions, revocation (R247, R249, R259 to R261, R273) -/

/-- The requests that name an adapter: those admitted with it, and QUEUED ones through their bundle. -/
def State.namesAdapter (s : State) (serial : Nat) (r : Request) : Bool :=
  if r.phase = .queued then
    !r.isContext && ((s.adm.bundles.find? r.f.bundle.toNat).map (fun b => b.adapter == serial)).getD false
  else r.adapter == some serial

/-- A revocation that takes effect at boundary b is applied (R259): QUEUED and ADMITTED requests complete with no output, standing
pins are dropped, and ACTIVE requests leave when the step ends, or at once while the job is halted (R261).
DEDUCED, unsafe: log entries 49, 157. -/
def State.revokeFrom (s : State) (b h : Nat) (e : Option EntryId) : State :=
  match s.adm.adapters.find? h with
  | none => s
  | some a =>
    let ev := match e with
      | some id => [id]
      | none => []
    if a.revoking then
      { s with adm := { s.adm with adapters := s.adm.adapters.insert h { a with evictions := a.evictions ++ ev } } }
    else
      let halted := s.job.phase == .halted
      let quick := s.requestsThat (fun r => s.namesAdapter a.serial r && (r.phase != .active || halted))
      let slow := s.requestsThat (fun r => s.namesAdapter a.serial r && r.phase == .active && !halted)
      let mark := fun (x : Nat × Bundle) =>
        if x.2.adapter = a.serial then (x.1, { x.2 with revoked := true, hold := false }) else x
      let a' := { a with revoking := true, revokedAt := b, evictions := a.evictions ++ ev }
      let s1 := { s with adm := { s.adm with adapters := s.adm.adapters.insert h a',
                                             bundles := s.adm.bundles.map mark } }
      let s2 := slow.foldl (fun (t : State) i => t.modReq i (fun x => x.leave .adapterRevoked)) s1
      (s2.finishAll quick .adapterRevoked).settleRevoked

/-- A revocation is applied in an admission cycle: it takes effect at the boundary that follows (R259). -/
def State.applyRevoke (s : State) (h : Nat) (e : Option EntryId) : State := s.revokeFrom (s.beat.count + 1) h e

/-- The remaining requests of a revoked adapter complete at once with the tokens finished (R261): how many.
DEDUCED, unsafe: log entries 49, 161. -/
def State.forceRevoke (s : State) (h : Nat) (a : Adapter) : State :=
  let idxs := s.requestsThat (fun r => r.phase != .queued && r.adapter == some a.serial)
  if idxs.isEmpty then s
  else (s.finishAll idxs .adapterRevoked).event Ev.revokeForced [(2, h), (4, idxs.length)]

/-- The deferral of every revocation ends (R261).
DEDUCED, unsafe: log entry 161. -/
def State.forceAll (s : State) : State :=
  (s.adm.adapters.filter (fun (x : Nat × Adapter) => x.2.revoking)).foldl
    (fun (t : State) (x : Nat × Adapter) => t.forceRevoke x.1 x.2) s

/-- Revocations whose deferral has lasted ADMIT_REVOKE_MAX_BEATS by boundary b end (R261).
DEDUCED, unsafe: log entry 49. -/
def State.forceOverdue (s : State) (b : Nat) : State :=
  (s.adm.adapters.filter (fun (x : Nat × Adapter) => x.2.revoking &&
      decide (x.2.revokedAt + s.param P.admitRevokeMaxBeats ≤ b))).foldl
    (fun (t : State) (x : Nat × Adapter) => t.forceRevoke x.1 x.2) s

/-- REVOKE_FORCED (R261): the deferral of one adapter's revocation has reached its limit, or the job has halted. While a job runs
nothing changes the page tables after the snapshot (R33): step 1 of the next cycle does it.
DEDUCED, unsafe: log entry 49. -/
def execRevokeForced (handle : Nat) (s : State) : Result :=
  match s.adm.adapters.find? handle with
  | some a =>
    if a.revoking ∧ (s.job.phase = .halted
        ∨ (a.revokedAt + s.param P.admitRevokeMaxBeats ≤ s.beat.count ∧ !(s.jobActive && s.beat.snapTaken))) then
      .next (s.forceRevoke handle a)
    else .next s
  | none => .next s

/-- ADAPTER_EVICT CACHE applied at step 2 (R247, R273). -/
def State.evictCache (s : State) (e : EntryId) (h : Nat) : State :=
  match s.adapter? h with
  | none => s.postStatus e opEvict .unknownAdapter
  | some a =>
    if s.inTraining h then s.postStatus e opEvict .adapterPinned
    else
      match s.slotOf a.serial with
      | none => s.postStatus e opEvict .ok
      | some (n, c) =>
        if c.phase = .filling ∨ s.slotPins n c ≠ 0 then s.postStatus e opEvict .adapterPinned
        else (s.dropSlot n).postStatus e opEvict .ok

/-- ADAPTER_EVICT REVOKE applied at step 2 (R247, R259). -/
def State.evictRevoke (s : State) (e : EntryId) (h : Nat) : State :=
  match s.adapter? h with
  | none => s.postStatus e opEvict .unknownAdapter
  | some _ => if s.inTraining h then s.postStatus e opEvict .adapterInTraining else s.applyRevoke h (some e)

/-- Cache slots with a standing pin, were another adapter held too (R249). -/
def State.holdsWith (s : State) (serial : Nat) : Nat :=
  ((s.adm.bundles.filter (fun (x : Nat × Bundle) => x.2.hold && !x.2.revoked)).map (fun (x : Nat × Bundle) => x.2.adapter)
    ++ [serial]).dedup.length

/-- Why a DEFINE is refused (R249, R345). -/
def State.bundleFault (s : State) (f : BundleF) : Option Status :=
  match s.adapter? f.handle with
  | none => some .unknownAdapter
  | some a =>
    if a.revoking then some .unknownAdapter
    else
      let ctx := f.context.map s.nextSeq
      match ctx with
      | some none => some .seqUnknown
      | some (some r) =>
        if !(r.phase == .contextHbm || r.phase == .contextParked) then some .seqUnknown
        else if r.matter ≠ a.matter then some .bundleMatterMismatch
        else if f.hold ∧ s.param P.admitHoldMax < s.holdsWith a.serial then some .holdLimit
        else none
      | none => if f.hold ∧ s.param P.admitHoldMax < s.holdsWith a.serial then some .holdLimit else none

/-- BUNDLE_PIN DEFINE applied at step 2 (R249). -/
def State.defineBundle (s : State) (e : EntryId) (f : BundleF) : State :=
  match s.bundleFault { f with hold := false } with
  | some st => s.postStatus e opBundle st
  | none =>
    let serial := ((s.adapter? f.handle).map (·.serial)).getD 0
    let rest := { s with adm := { s.adm with bundles := s.adm.bundles.erase f.bundle } }
    match rest.bundleFault f with
    | some st => s.postStatus e opBundle st
    | none =>
      let b : Bundle := { adapter := serial, handle := f.handle, context := f.context, contextGone := false,
                          hold := f.hold, revoked := false }
      State.postStatus { s with adm := { s.adm with bundles := s.adm.bundles.insert f.bundle b } } e opBundle .ok

/-- BUNDLE_PIN RELEASE applied at step 2 (R249). -/
def State.releaseBundle (s : State) (e : EntryId) (b : Nat) : State :=
  if (s.adm.bundles.find? b).isSome then
    State.postStatus { s with adm := { s.adm with bundles := s.adm.bundles.erase b } } e opBundle .ok
  else s.postStatus e opBundle .unknownBundle

/-- Step 2: the entries consumed at the previous snapshot (R252, R341). -/
def State.applyLate (s : State) : State :=
  s.adm.lateDue.foldl (fun (t : State) (x : EntryId × LateCmd) =>
    match x.2 with
    | .evictCache h => t.evictCache x.1 h
    | .evictRevoke h => t.evictRevoke x.1 h
    | .bundleDefine f => t.defineBundle x.1 f
    | .bundleRelease b => t.releaseBundle x.1 b) { s with adm := { s.adm with lateDue := [], stepTwo := none } }

/-- What this snapshot has consumed is due at step 2 of the next cycle (R252, R341). -/
def State.lateToDue (s : State) : State := { s with adm := { s.adm with lateDue := s.adm.lateDue ++ s.adm.late, late := [] } }

/-! ## Checks of a SUBMIT (R249, R251, R273, R319, R343) -/

/-- What a SUBMIT is served with: handle and adapter, context with its length, matter and key slot. -/
structure Target where
  adapter : Option (Nat × Adapter)
  context : Option Nat
  base : Nat
  matter : Nat
  slot : Nat
  deriving DecidableEq, Repr

/-- The context of a bundle: why it cannot be used, or its length (R238, R319).
DEDUCED, unsafe: log entry 58. -/
def State.contextCheck (s : State) (b : Bundle) : Except Status Nat :=
  match b.context with
  | none => .ok 0
  | some q =>
    match s.nextSeq q with
    | none => .error .contextDropped
    | some r =>
      if b.contextGone ∨ r.droppedFrom.isSome ∨ s.dropPending q then .error .contextDropped
      else if (r.invalid ∨ r.base ≠ s.adm.fingerprint) ∧ s.adm.base = .valid then .error .baseMismatch
      else .ok r.length

/-- A SUBMIT's bundle as it stands (R249, R273).
DEDUCED, unsafe: log entries 58, 153. -/
def State.resolve (s : State) (f : SubmitF) : Except Status Target :=
  if f.bundle = 0xFFFF then .ok ⟨none, none, 0, 0, 1⟩
  else
    match s.adm.bundles.find? f.bundle.toNat with
    | none => .error .unknownBundle
    | some b =>
      if b.revoked then .error .adapterRevoked
      else
        match s.bySerial b.adapter with
        | none => .error .adapterRevoked
        | some (h, a) =>
          if a.revoking then .error .adapterRevoked
          else if a.invalid then .error .baseMismatch
          else if s.inTraining h then .error .adapterInTraining
          else (s.contextCheck b).map (fun n => ⟨some (h, a), b.context, n, a.matter, a.keySlot⟩)

/-- A continuation's sequence: why it cannot be continued, or its LENGTH (R343). -/
def State.continues (s : State) (f : SubmitF) (t : Target) : Except Status Nat :=
  if !f.cont then .ok 0
  else
    match s.nextSeq f.contSeq with
    | none => .error .seqUnknown
    | some r =>
      if r.phase ≠ .kept ∨ r.matter ≠ t.matter ∨ r.keySlot ≠ t.slot ∨ r.positionBase ≠ t.base then .error .seqBusy
      else .ok r.length

/-- The buffers of a SUBMIT lie in the window (R343). -/
def State.buffersOk (s : State) (f : SubmitF) : Bool :=
  s.inWindow f.promptOffset (4 * f.promptTokens) && s.inWindow f.outOffset (4 * f.maxNew)

/-- A SUBMIT's checks in order: a window to name offsets in (R330), bundle, adapter and context, buffers, continuation, length. The answer is what it is served
with and its span (R251, R343).
DEDUCED, unsafe: log entry 153. -/
def State.submitCheck (s : State) (f : SubmitF) : Except Status (Target × Nat) :=
  if s.windowBytes = 0 then .error .windowRange
  else
  match s.resolve f with
  | .error st => .error st
  | .ok t =>
    if !s.buffersOk f then .error .windowRange
    else
      match s.continues f t with
      | .error st => .error st
      | .ok len =>
        let span := t.base + len + f.promptTokens + f.maxNew
        if 262144 < span then .error .seqTooLong else .ok (t, span)

/-- A request as it is queued. -/
def queuedRequest (id : EntryId) (order : Nat) (isContext : Bool) (f : SubmitF) (matter span : Nat) : Request :=
  { phase := .queued, order := order, id := id, isContext := isContext, f := f, matter := matter,
    punnet := punnetOf span, span := span, adapter := none, handle := 0, context := none, seq := none, slot := none,
    reFrom := 0, reTo := 0, promptDone := 0, produced := 0, stepTokens := 0, stepDecode := false, leaving := none,
    stopHit := false }

/-- A context prefill as it is queued: it takes a sequence ID too when one is FREE (R304, R346). -/
def State.queuedPrefill (s : State) (id : EntryId) (f : SubmitF) (matter span : Nat) : Request :=
  { queuedRequest id s.adm.nextOrder true f matter span with seq := s.freeSeq }

/-- A REQ_INDEX is free (R338). -/
def State.hasIndex (s : State) : Bool := (firstGap 65536 0 s.adm.requests).isSome

/-- Queue a request under the lowest free REQ_INDEX (R250). -/
def State.queueReq (s : State) (r : Request) : State :=
  match firstGap 65536 0 s.adm.requests with
  | none => s
  | some i => { s with adm := { s.adm with requests := s.adm.requests.insert i r, nextOrder := s.adm.nextOrder + 1 } }

/-! ## Ring commands at their consumption (R341 to R348) -/

/-- The state with sequences, waiting edits and bundles as they stood after step 2 of the cycle (R348). -/
def State.asOfStepTwo (s : State) : State :=
  match s.adm.stepTwo with
  | none => s
  | some x => { s with kv := { s.kv with next := x.tables, deferred := x.deferred }, adm := { s.adm with bundles := x.bundles } }

/-- SUBMIT. -/
def State.submitEntry (s : State) (e : EntryId) (f : SubmitF) : State :=
  match firstBad (submitChecks f) with
  | some off => s.badEntry e opSubmit off
  | none =>
    match s.asOfStepTwo.submitCheck f with
    | .error st => s.post e (refusal opSubmit st 0)
    | .ok (t, span) => s.queueReq (queuedRequest e s.adm.nextOrder false f t.matter span)

/-- CANCEL (R344).
DEDUCED, unsafe: log entry 154. -/
def State.cancelEntry (s : State) (e : EntryId) (tag : W64) : State :=
  let mine := s.requestsThat (fun r => r.id.ring == e.ring && r.id.tag == tag)
  let quick := mine.filter (fun i => ((s.adm.requests.find? i).map (·.phase)) == some .queued)
  let slow := mine.filter (fun i => ((s.adm.requests.find? i).map (·.phase)) != some .queued)
  let s1 := slow.foldl (fun (t : State) i => t.modReq i (fun r => r.leave .cancelled)) s
  let s2 := quick.foldl (fun (t : State) i => t.finishReq i .cancelled) s1
  State.settleCancels { s2 with adm := { s2.adm with cancels := s2.adm.cancels ++ [⟨e, mine.length, slow⟩] } }

/-- A command of step 2 of the following cycle, unless its operands are out of range. -/
def State.lateEntry (s : State) (e : EntryId) (opcode : Nat) (checks : List (Nat × Bool)) (c : LateCmd) : State :=
  match firstBad checks with
  | some off => s.badEntry e opcode off
  | none => { s with adm := { s.adm with late := s.adm.late ++ [(e, c)] } }

/-- Remember what a later SUBMIT of the cycle is checked against (R348). -/
def State.markStepTwo (s : State) : State :=
  if s.adm.stepTwo.isSome then s
  else { s with adm := { s.adm with stepTwo := some ⟨s.kv.next, s.kv.deferred, s.adm.bundles⟩ } }

/-- A PAGE_EDIT. -/
def State.editEntry (s : State) (e : EntryId) (q : Nat) (x : PageEdit) : State := s.markStepTwo.tryEdit e q x

/-- The operands of a context prefill in the form that requests have. -/
def prefillF (tokens offset : Nat) : SubmitF :=
  ⟨0xFFFF, false, false, false, tokens, 1, 0, offset, 0, 0⟩

/-- CONTEXT_PREFILL (R346). -/
def State.prefillEntry (s : State) (e : EntryId) (matter tokens offset : Nat) : State :=
  match firstBad (prefillChecks tokens offset) with
  | some off => s.badEntry e opPrefill off
  | none =>
    if !(s.inWindow offset (4 * tokens)) then s.postStatus e opPrefill .windowRange
    else if (s.liveMatterSlot matter).isNone then s.postStatus e opPrefill .unknownMatter
    else if s.kvFrameCount < contextRows tokens (s.param P.kvFormat) * s.rowEntries then s.postStatus e opPrefill .seqTooLong
    else s.queueReq (s.queuedPrefill e (prefillF tokens offset) matter tokens)

/-- A CHECKPOINT waits as a copy that the hub, or the plans' reserved copies, make (R216, R347).
DESIGN CHOICE, safe: log entry 53. -/
def State.queueCheckpoint (s : State) (e : EntryId) (h dst max : Nat) (taken : Option (Status × List Byte × Nat)) : State :=
  { s with boot := { s.boot with hub := s.boot.hub ++ [.checkpoint e h dst max taken] } }

/-- CHECKPOINT (R330, R347): what the running job trains is taken at the close of its next update phase, anything else at once. -/
def State.checkpointEntry (s : State) (e : EntryId) (h dst max : Nat) : State :=
  match firstBad (checkpointChecks h dst) with
  | some off => s.badEntry e opCheckpoint off
  | none =>
    if s.windowBytes = 0 then s.postStatus e opCheckpoint .windowRange
    else if h = 0xFFFF then
      if s.jobActive ∧ s.job.trains ≠ [] then s.queueCheckpoint e h dst max none else s.postStatus e opCheckpoint .notAllowed
    else
      match s.adapter? h with
      | none => s.postStatus e opCheckpoint .unknownAdapter
      | some a =>
        if s.inTraining h then s.queueCheckpoint e h dst max none
        else
          let x := s.fitImage (s.recordBytesOf a) dst max 0
          if x.1 = .ok then (s.recordMet a).queueCheckpoint e h dst max (some x) else s.postStatus e opCheckpoint x.1

/-- What a consumed entry does at step 3 (R341). -/
def State.entryEffect (s : State) (i : Instr) : State :=
  match i with
  | .submit e f => s.submitEntry e f
  | .cancel e t => s.cancelEntry e t
  | .adapterRegister e o b => s.registerEntry e o b
  | .adapterEvictCache e h => s.lateEntry e opEvict [handleCheck 16 h] (.evictCache h)
  | .adapterEvictRevoke e h => s.lateEntry e opEvict [handleCheck 16 h] (.evictRevoke h)
  | .bundleDefine e f => s.lateEntry e opBundle (bundleChecks f.bundle ++ [handleCheck 20 f.handle]) (.bundleDefine f)
  | .bundleRelease e b => s.lateEntry e opBundle (bundleChecks b) (.bundleRelease b)
  | .pageEditKeep e q b => s.editEntry e q (.keep b)
  | .pageEditRelease e q => s.editEntry e q .release
  | .pageEditTruncate e q p => s.editEntry e q (.truncate p)
  | .pageEditDrop e q p => s.editEntry e q (.drop p)
  | .pageEditPark e q => s.editEntry e q .park
  | .pageEditUnpark e q => s.editEntry e q .unpark
  | .contextPrefill e m t o => s.prefillEntry e m t o
  | .checkpoint e h d m => s.checkpointEntry e h d m
  | _ => s

/-- The command needs a REQ_INDEX (R338). -/
def needsIndex : Instr → Bool
  | .submit _ _ | .contextPrefill _ _ _ _ => true
  | _ => false

/-- Admission may consume the entry of a command (R338). -/
def State.mayTake (s : State) (e : EntryId) (i : Instr) : Bool := s.mayConsume e.ring.val && (!needsIndex i || s.hasIndex)

/-- An entry is consumed and takes effect, if admission may consume it now (R338). -/
def State.consumeCmd (s : State) (e : EntryId) (i : Instr) : State :=
  if s.mayTake e i then (s.consume e).entryEffect i else s

/-- A ring command that comes after the snapshot reaches admission one beat later, in order (R33). -/
def State.holdCmd (s : State) (e : EntryId) (i : Instr) : State :=
  if (s.ring e.ring.val).phase = .enabled then { s with adm := { s.adm with heldCmds := s.adm.heldCmds ++ [(e, i)] } } else s

/-- A ring command as its own step: the entry is consumed now, or by the next cycle once the snapshot has been taken (R33). -/
def State.ringCommand (s : State) (e : EntryId) (i : Instr) : Result :=
  .next (if s.beat.snapTaken then s.holdCmd e i else s.consumeCmd e i)

/-- SUBMIT (R342, R343). -/
def execSubmit (e : EntryId) (f : SubmitF) (s : State) : Result := s.ringCommand e (.submit e f)

/-- CANCEL (R344). -/
def execCancel (e : EntryId) (targetTag : W64) (s : State) : Result := s.ringCommand e (.cancel e targetTag)

/-- ADAPTER_REGISTER (R245, R246). -/
def execAdapterRegister (e : EntryId) (recordOffset recordBytes : Nat) (s : State) : Result :=
  s.ringCommand e (.adapterRegister e recordOffset recordBytes)

/-- ADAPTER_EVICT CACHE (R247). -/
def execAdapterEvictCache (e : EntryId) (handle : Nat) (s : State) : Result := s.ringCommand e (.adapterEvictCache e handle)

/-- ADAPTER_EVICT REVOKE (R247). -/
def execAdapterEvictRevoke (e : EntryId) (handle : Nat) (s : State) : Result := s.ringCommand e (.adapterEvictRevoke e handle)

/-- BUNDLE_PIN DEFINE (R249). -/
def execBundleDefine (e : EntryId) (f : BundleF) (s : State) : Result := s.ringCommand e (.bundleDefine e f)

/-- BUNDLE_PIN RELEASE (R249). -/
def execBundleRelease (e : EntryId) (bundle : Nat) (s : State) : Result := s.ringCommand e (.bundleRelease e bundle)

/-- PAGE_EDIT KEEP (R318). -/
def execPageEditKeep (e : EntryId) (seq : Nat) (set : Bool) (s : State) : Result := s.ringCommand e (.pageEditKeep e seq set)

/-- PAGE_EDIT RELEASE (R318). -/
def execPageEditRelease (e : EntryId) (seq : Nat) (s : State) : Result := s.ringCommand e (.pageEditRelease e seq)

/-- PAGE_EDIT TRUNCATE (R318). -/
def execPageEditTruncate (e : EntryId) (seq position : Nat) (s : State) : Result :=
  s.ringCommand e (.pageEditTruncate e seq position)

/-- PAGE_EDIT DROP (R318). -/
def execPageEditDrop (e : EntryId) (seq position : Nat) (s : State) : Result := s.ringCommand e (.pageEditDrop e seq position)

/-- PAGE_EDIT PARK (R318). -/
def execPageEditPark (e : EntryId) (seq : Nat) (s : State) : Result := s.ringCommand e (.pageEditPark e seq)

/-- PAGE_EDIT UNPARK (R318). -/
def execPageEditUnpark (e : EntryId) (seq : Nat) (s : State) : Result := s.ringCommand e (.pageEditUnpark e seq)

/-- CONTEXT_PREFILL (R346). -/
def execContextPrefill (e : EntryId) (matter tokens tokenOffset : Nat) (s : State) : Result :=
  s.ringCommand e (.contextPrefill e matter tokens tokenOffset)

/-- CHECKPOINT (R347). -/
def execCheckpoint (e : EntryId) (handle dstOffset maxBytes : Nat) (s : State) : Result :=
  s.ringCommand e (.checkpoint e handle dstOffset maxBytes)

/-- RING_RESET (R355): the ring is DRAINING, and its requests are cancelled as CANCEL would, with no completion written. -/
def State.resetRing (s : State) (k : Nat) : State :=
  let s1 := State.ringChanged { s with adm := { s.adm with
      heldCmds := s.adm.heldCmds.filter (fun (x : EntryId × Instr) => x.1.ring.val != k) } } k
    { s.ring k with phase := .draining, fetched := [], piHeld := false, ciHeld := false }
  let s2 := (s1.requestsThat (fun r => r.id.ring.val == k && r.phase != .queued)).foldl
    (fun (t : State) i => t.modReq i (fun r => r.leave .cancelled)) s1
  s2.finishAll (s2.requestsThat (fun r => r.id.ring.val == k && r.phase == .queued)) .cancelled

/-- RING_RESET (R355). -/
def execRingReset (r : RingId) (s : State) : Result := if s.hubUp then .next (s.resetRing r.val) else .next s

/-! ## Step 3: consumption in ring order (R252, R338) -/

/-- Consume the next entry of a ring if it may be consumed: none when the ring stops here. -/
def State.consumeNext (s : State) (k : RingId) : Option State :=
  let r := s.ring k.val
  match r.fetched.find? (fun (x : W32 × List Byte) => x.1 == r.sqCi) with
  | none => none
  | some x =>
    if !(s.mayConsume k.val) then none
    else
      match readEntry k x.1 x.2 with
      | (id, .inr off) => some ((s.consume id).badEntry id (fieldLE x.2 0 1) off)
      | (id, .inl i) => if needsIndex i && !s.hasIndex then none else some ((s.consume id).entryEffect i)

/-- Consume a ring's entries in slot order. -/
def State.consumeRing (s : State) (k : RingId) : Nat → State
  | 0 => s
  | n + 1 =>
    match s.consumeNext k with
    | some t => t.consumeRing k n
    | none => s

/-- Ring number modulo 64. -/
def ringOf (n : Nat) : RingId := ⟨n % 64, Nat.mod_lt n (by decide)⟩

/-- One held command is consumed, or held on with every later one of its ring (R33, R338). -/
def State.consumeHeld (s : State) (x : EntryId × Instr) : State :=
  if s.adm.heldCmds.any (fun (y : EntryId × Instr) => y.1.ring == x.1.ring) || !s.mayTake x.1 x.2 then
    { s with adm := { s.adm with heldCmds := s.adm.heldCmds ++ [x] } }
  else s.consumeCmd x.1 x.2

/-- One ring at step 3: what the last guard held of it, then its entries. -/
def State.consumeTurn (s : State) (k : RingId) : State :=
  let mine := fun (x : EntryId × Instr) => x.1.ring == k
  let s1 := (s.adm.heldCmds.filter mine).foldl State.consumeHeld
    { s with adm := { s.adm with heldCmds := s.adm.heldCmds.filter (fun x => !mine x) } }
  if s1.adm.heldCmds.any mine then s1 else s1.consumeRing k 1024

/-- Step 3: the rings in turn from ring BEAT_COUNT mod 64 upward. -/
def State.consumeRings (s : State) : State :=
  (List.range 64).foldl (fun (t : State) i => t.consumeTurn (ringOf (s.beat.count + i))) s

/-! ## Step 4: requests are admitted (R250, R252, R254, R320) -/

/-- Standing pins get their slots (R249).
DEDUCED, unsafe: log entry 160. -/
def State.fillHolds (s : State) : State :=
  s.adm.bundles.foldl (fun (t : State) (x : Nat × Bundle) =>
    if x.2.hold && !x.2.revoked then
      match t.bySerial x.2.adapter with
      | some (h, a) =>
        if a.invalid || a.revoking || t.inTraining h || (t.slotOf a.serial).isSome then t else (t.getSlot h a).1
      | none => t
    else t) s

/-- What kept a request QUEUED, for the events of R254 and R320. -/
structure Short where
  slots : Nat := 0
  frames : Nat := 0
  deriving DecidableEq, Repr

/-- A context prefill is taken when its run can be allocated (R346). -/
def State.takeContext (s : State) (idx : Nat) (r : Request) (sh : Short) : State × Short :=
  match s.liveMatterSlot r.matter with
  | none => (s.finishReq idx .unknownMatter, sh)
  | some slot =>
    match s.openContext r.seq r.f.promptTokens r.matter slot with
    | (t, some q) => (t.modReq idx (fun x => { x with phase := .taken, seq := some q }), sh)
    | (t, none) => (t, { sh with frames := sh.frames + 1 })

/-- The context of a request is ready to be read: none when it is, else what to do: complete with a status, or wait in a state
where its UNPARK has been issued (R319, R323). -/
def State.contextReady (s : State) (c : Option Nat) : State × Option (Option Status) :=
  match c with
  | none => (s, none)
  | some q =>
    match s.nextSeq q with
    | none => (s, some (some .contextDropped))
    | some r =>
      if r.phase = .contextParked ∧ s.rateInForce = 0 then (s, some (some .contextParked))
      else if s.moving q || s.parkPending q then (s, some none)
      else if r.phase = .contextParked then ((s.startMove none q r false).1, some none)
      else (s, none)

/-- The sequence of a request is opened or continued; none when it must wait. -/
def State.takeSeq (s : State) (r : Request) (t : Target) : State × Option Nat :=
  let own := r.f.promptTokens + r.f.maxNew
  if r.f.cont then
    match s.nextSeq r.f.contSeq with
    | none => (s, none)
    | some q =>
      let x := s.reopen r.f.contSeq q r.punnet (q.length + own) r.f.keep
      (x.1, if x.2 then some r.f.contSeq else none)
  else s.openOwn r.punnet own t.base t.matter t.slot r.f.keep

/-- The request once its slot and its sequence are there: a continuation with dropped rows takes them first (R321). -/
def State.admitReq (s : State) (idx q : Nat) (slot : Option Nat) (t : Target) : State :=
  let rec' := s.nextSeq q
  let from' := (rec'.bind (·.droppedFrom)).getD 0
  let to' := match rec'.bind (·.droppedFrom) with
    | some _ => (rec'.map (·.length)).getD 0
    | none => 0
  s.modReq idx (fun x => { x with
    phase := .taken, seq := some q, slot := slot, matter := t.matter, adapter := t.adapter.map (fun (y : Nat × Adapter) => y.2.serial),
    handle := (t.adapter.map (fun (y : Nat × Adapter) => y.1)).getD 0, context := t.context, reFrom := from', reTo := to' })

/-- A QUEUED request is taken, completed, or left (R249, R252). -/
def State.takeSubmit (s : State) (idx : Nat) (r : Request) (sh : Short) : State × Short :=
  match s.submitCheck r.f with
  | .error st => (s.finishReq idx st, sh)
  | .ok (t, _) =>
    match s.contextReady t.context with
    | (s1, some (some st)) => (s1.finishReq idx st, sh)
    | (s1, some none) => (s1, sh)
    | (s1, none) =>
      let g : State × Option (Option Nat) := match t.adapter with
        | none => (s1, some none)
        | some (h, a) => ((s1.getSlot h a).1, ((s1.getSlot h a).2).map some)
      match g.2 with
      | none => (g.1, if s1.pickSlot.isNone then { sh with slots := sh.slots + 1 } else sh)
      | some slot =>
        match s1.takeSeq r t with
        | (s2, some q) =>
          let s3 := match t.adapter with
            | none => s2
            | some (h, a) => (s2.getSlot h a).1
          (s3.admitReq idx q slot t, sh)
        | (s2, none) => (s2, { sh with frames := sh.frames + 1 })

/-- Take one request. -/
def State.takeReq (x : State × Short) (idx : Nat) : State × Short :=
  match x.1.adm.requests.find? idx with
  | none => x
  | some r =>
    if r.phase ≠ .queued then x
    else if r.isContext then x.1.takeContext idx r x.2
    else x.1.takeSubmit idx r x.2

/-- Requests QUEUED now. -/
def State.queuedCount (s : State) : Nat := s.adm.requests.countP (fun (x : Nat × Request) => x.2.phase == .queued)

/-- Admission may take requests: a job runs, a base is VALID and no release has begun (R235, R252, R261, R343).
DEDUCED, unsafe: log entry 160. -/
def State.mayAdmit (s : State) : Bool :=
  s.job.phase == .running && s.adm.base == .valid && s.ten.release.all (fun x => !x.taken)

/-- Step 4, in REQ_INDEX order. -/
def State.admitRequests (s : State) : State :=
  if !s.mayAdmit then s
  else
    let s1 := s.fillHolds
    let x := (AMap.keys s1.adm.requests).foldl State.takeReq (s1, ({} : Short))
    let s2 := x.1.settleCancels
    let s3 := if x.2.slots = 0 then s2
      else s2.limited Ev.cacheExhausted hubSource 0 0 (fun _ => [(4, s2.queuedCount)])
    if x.2.frames = 0 then s3 else s3.limited Ev.kvExhausted hubSource 0 0 (fun _ => [(4, s3.queuedCount)])

/-! ## Step 5: the batch (R255, R256, R317) -/

/-- A request's share of the coming step: kind, tokens and first own position (R258). -/
structure Piece where
  req : Nat
  order : Nat
  punnet : Nat
  kind : Nat
  tokens : Nat
  pos : Nat
  deriving DecidableEq, Repr

/-- The most prefill tokens that a mix code can say (R255). -/
abbrev maxPrefill : Nat := 65536

/-- A request's share, before anything is withdrawn. -/
def State.pieceOf (s : State) (idx : Nat) (r : Request) : Piece :=
  let len := ((r.seq.bind s.nextSeq).map (·.length)).getD 0
  match r.kind with
  | 2 => ⟨idx, r.order, r.punnet, 2, min maxPrefill (r.f.promptTokens - r.promptDone), len⟩
  | 3 => ⟨idx, r.order, r.punnet, 3, min maxPrefill (r.reTo - r.reFrom), r.reFrom⟩
  | 1 => ⟨idx, r.order, r.punnet, 1, min maxPrefill (r.f.promptTokens - r.promptDone), len⟩
  | _ => ⟨idx, r.order, r.punnet, 0, 1, len⟩

/-- A request's fill is complete, or it needs none (R253). -/
def State.fillReady (s : State) (r : Request) : Bool :=
  match r.slot with
  | none => true
  | some n => ((s.adm.slots.find? n).map (·.ready)).getD false

/-- A request may have rows in the coming step. -/
def State.mayRow (s : State) (r : Request) : Bool :=
  r.leaving.isNone && s.ten.release.all (fun x => !x.taken) && (r.phase == .active || (r.phase == .taken && s.fillReady r))

/-- The shares of the requests that may have rows, oldest first. -/
def State.pieces (s : State) : List Piece :=
  ((s.adm.requests.filter (fun (x : Nat × Request) => s.mayRow x.2)).map
    (fun (x : Nat × Request) => s.pieceOf x.1 x.2)).mergeSort (fun a b => decide (a.order ≤ b.order))

/-- Map the pages that a share needs: false when it must wait for a later boundary (R313, R317). -/
def State.mapPiece (s : State) (p : Piece) : State × Bool :=
  match (s.adm.requests.find? p.req).bind (·.seq) with
  | none => (s, false)
  | some q =>
    match s.nextSeq q with
    | none => (s, false)
    | some r =>
      let tpp := kvTpp r.fmt
      s.mapRows q (p.pos / tpp) ((p.pos + p.tokens - 1) / tpp + 1 - p.pos / tpp)

/-- The shares of every request that is admitted, oldest first. -/
def State.admittedPieces (s : State) : List Piece :=
  ((s.adm.requests.filter (fun (x : Nat × Request) => x.2.phase != .queued && x.2.leaving.isNone)).map
    (fun (x : Nat × Request) => s.pieceOf x.1 x.2)).mergeSort (fun a b => decide (a.order ≤ b.order))

/-- Map the pages of all shares; those that must wait are left out. -/
def State.mapPieces (s : State) (ps : List Piece) : State × List Piece :=
  ps.foldl (fun (x : State × List Piece) p =>
    let m := x.1.mapPiece p
    (m.1, if m.2 then x.2 ++ [p] else x.2)) (s, [])

/-- The mappings of admitted requests are queued for the coming boundary; those beyond the limit wait for the next one (R252 step 4,
R317). -/
def State.mapAdmitted (s : State) : State :=
  if s.job.phase == .running && s.ten.release.all (fun x => !x.taken) then (s.mapPieces s.admittedPieces).1 else s

/-- The PREFILL field for some tokens (R255). -/
def prefillCode (n : Nat) : Option Nat :=
  if n = 0 then some 0 else (List.range 8).find? (fun k => decide (1 ≤ k) && decide (n ≤ 1024 * 2 ^ (k - 1)))

/-- A PUNNET field for some rows (R255). -/
def rowCode (n : Nat) : Option Nat :=
  if n = 0 then some 0 else (List.range 8).find? (fun k => decide (1 ≤ k) && decide (n ≤ 4 ^ (k - 1)))

/-- Prefill tokens of a batch. -/
def prefillTokens (ps : List Piece) : Nat := ((ps.filter (fun p => p.kind != 0)).map (·.tokens)).sum

/-- Decode rows of a punnet. -/
def decodeRows (ps : List Piece) (k : Nat) : Nat := ps.countP (fun p => p.kind == 0 && p.punnet == k)

/-- The mix code of a batch (R255); none when a field cannot say it. -/
def mixCode (ps : List Piece) : Option Nat :=
  match prefillCode (prefillTokens ps) with
  | none => none
  | some k =>
    (List.range 9).foldl (fun (a : Option Nat) p =>
      match a, rowCode (decodeRows ps p) with
      | some v, some c => some (v + c * 8 ^ p)
      | _, _ => none) (some (k * 2 ^ 29))

/-- The ten fields of a mix code. -/
def mixFields (m : Nat) : List Nat := bits m 29 3 :: (List.range 9).map (fun p => bits m (3 * p) 3)

/-- One code covers another (R255). -/
def covers (a b : Nat) : Bool := ((mixFields a).zip (mixFields b)).all (fun (x : Nat × Nat) => decide (x.2 ≤ x.1))

/-- The plan-table entry for a slot and a code: exact, else the covering one with the smallest sum of fields, then the
smallest code (R34, R255). -/
def PlanSet.lookup (p : PlanSet) (slot code : Nat) : Option (Nat × Nat) :=
  let here := (p.table.filter (fun (x : Nat × Nat × Nat) => x.1 == slot)).map (fun (x : Nat × Nat × Nat) => x.2)
  match here.find? (fun (x : Nat × Nat) => x.1 == code) with
  | some x => some x
  | none =>
    (here.filter (fun (x : Nat × Nat) => covers x.1 code)).foldl (fun (a : Option (Nat × Nat)) (x : Nat × Nat) =>
      match a with
      | none => some x
      | some b =>
        let sx := (mixFields x.1).sum
        let sb := (mixFields b.1).sum
        if sx < sb ∨ (sx = sb ∧ x.1 < b.1) then some x else a) none

/-- The entry of a slot with exactly a code (R255). -/
def PlanSet.exact (p : PlanSet) (slot code : Nat) : Option Nat :=
  (p.table.find? (fun (x : Nat × Nat × Nat) => x.1 == slot && x.2.1 == code)).map (fun (x : Nat × Nat × Nat) => x.2.2)

/-- Take prefill tokens away from the newest shares until n are gone. -/
def takeTokens : Nat → List Piece → List Piece
  | _, [] => []
  | n, p :: ps =>
    if p.kind = 0 then p :: takeTokens n ps
    else if p.tokens ≤ n then takeTokens (n - p.tokens) ps
    else { p with tokens := p.tokens - n } :: ps

/-- The tokens to which a batch's prefill is cut: the next lower value that a mix code can say.
DEDUCED, unsafe: log entry 57. -/
def lowerPrefill (n : Nat) : Nat :=
  if maxPrefill < n then maxPrefill
  else
    match prefillCode n with
    | some k => if k ≤ 1 then 0 else 1024 * 2 ^ (k - 2)
    | none => 0

/-- Withdraw prefill tokens, or else the rows of the newest request in the highest occupied punnet (R255).
DEDUCED, unsafe: log entry 57. -/
def withdraw (ps : List Piece) : List Piece :=
  let n := prefillTokens ps
  if 0 < n then (takeTokens (n - lowerPrefill n) ps.reverse).reverse
  else
    let top := (ps.map (·.punnet)).max?.getD 0
    match (ps.filter (fun p => p.punnet == top)).getLast? with
    | some v => ps.filter (fun p => p.req != v.req)
    | none => []

/-- Withdraw until an entry matches exactly or covers: the batch, and the entry chosen (R255, R256).
DEDUCED, unsafe: log entry 57. -/
def PlanSet.choose (p : PlanSet) : Nat → List Piece → List Piece × Option (Nat × Nat)
  | 0, _ => ([], p.lookup 0 0)
  | fuel + 1, ps =>
    match (if ps.length ≤ 4096 then (mixCode ps).bind (p.lookup 0) else none) with
    | some x => (ps, some x)
    | none => if ps.isEmpty then ([], none) else p.choose fuel (withdraw ps)

/-- The row-table row of a share (R258). -/
def State.rowOf (s : State) (p : Piece) : Row :=
  match s.adm.requests.find? p.req with
  | none => ⟨0xFFF, p.punnet, p.kind, false, noSeq, noSeq, p.pos, p.tokens, p.req⟩
  | some r =>
    let base := ((r.seq.bind s.nextSeq).map (·.positionBase)).getD 0
    let last := match p.kind with
      | 0 => decide (r.f.maxNew ≤ r.produced + 1)
      | 1 => decide (r.f.promptTokens ≤ r.promptDone + p.tokens) && decide (r.f.maxNew ≤ 1)
      | 2 => decide (r.f.promptTokens ≤ r.promptDone + p.tokens)
      | _ => false
    ⟨r.slot.getD 0xFFF, p.punnet, p.kind, last, r.seq.getD noSeq, r.context.getD noSeq, base + p.pos, p.tokens, p.req⟩

/-- The order of row-table entries (R258). -/
def rowBefore (a b : Row) : Bool :=
  decide (a.punnet < b.punnet) || (a.punnet == b.punnet && (decide (a.slot < b.slot)
    || (a.slot == b.slot && decide (a.req ≤ b.req))))

/-- The step's batch becomes what was chosen: members are ACTIVE, with their tokens of the step. -/
def State.startStep (s : State) (ps : List Piece) : State :=
  ps.foldl (fun (t : State) p =>
    t.modReq p.req (fun r => { r with phase := .active, stepTokens := p.tokens, stepDecode := p.kind == 0 })) s

/-- Form the batch at a boundary that opens schedule slot 0 (R255). -/
def State.formBatch (s : State) (set : PlanSet) : State :=
  let m := s.mapPieces s.pieces
  let c := set.choose (m.2.length + 16) m.2
  let gone := m.2.length - c.1.length
  let s1 := if gone = 0 then m.1
    else (m.1.bump P.rowsDeferred gone).limited Ev.admitDeferred hubSource 0 gone (fun k => [(4, k)])
  let rows := (c.1.map s1.rowOf).mergeSort rowBefore
  let s2 := s1.startStep c.1
  { s2 with adm := { s2.adm with
    rows := rows, stepMix := (c.2.map (fun (x : Nat × Nat) => x.1)).getD 0, plan := c.2.map (fun (x : Nat × Nat) => x.2) } }

/-! ## Step 6: tables and descriptor (R257, R258) -/

/-- The 128 bits of a row-table entry (R258). -/
def rowWord (r : Row) : Nat :=
  r.slot * 2 ^ 116 + r.punnet * 2 ^ 112 + r.kind * 2 ^ 108 + (if r.final then 2 ^ 104 else 0) + r.seq * 2 ^ 80
    + r.context * 2 ^ 56 + r.pos * 2 ^ 38 + r.tokens * 2 ^ 21 + r.req

/-- The segments of a row table: slot, punnet, first entry, entries (R258, R262). -/
def segmentsOf (rows : List Row) : List (Nat × Nat × Nat × Nat) :=
  (rows.zipIdx).foldl (fun (a : List (Nat × Nat × Nat × Nat)) (x : Row × Nat) =>
    match a.getLast? with
    | some l => if l.1 = x.1.slot ∧ l.2.1 = x.1.punnet then a.dropLast ++ [(l.1, l.2.1, l.2.2.1, l.2.2.2 + 1)]
      else a ++ [(x.1.slot, x.1.punnet, x.2, 1)]
    | none => [(x.1.slot, x.1.punnet, x.2, 1)]) []

/-- The 64 bits of a segment-table entry (R258). -/
def segmentWord (g : Nat × Nat × Nat × Nat) : Nat := g.1 * 2 ^ 52 + g.2.1 * 2 ^ 48 + g.2.2.1 * 2 ^ 16 + g.2.2.2

/-- The first page of the table buffer of a JOB_BEAT (R258). -/
def State.rowPage (s : State) (jb : Nat) : Nat := s.regionFirst .kv + s.regionPages .kv - 4 + 2 * (jb % 2)

/-- Write the row and segment tables of a beat to all four dies. -/
def State.writeRows (s : State) (jb : Nat) : State :=
  let rows := s.adm.rows.flatMap (fun r => leBytes 16 (rowWord r))
  let segs := (segmentsOf s.adm.rows).flatMap (fun g => leBytes 8 (segmentWord g))
  allDies.foldl (fun (t : State) d =>
    (t.hubPut false d (s.rowPage jb * 65536) rows).hubPut false d ((s.rowPage jb + 1) * 65536) segs) s

/-- The fill of the coming beat: source block, destination block, chunks (R253, R257). -/
def State.fillWords (s : State) : List W32 :=
  match s.adm.fills with
  | [] => [0, 0, 0]
  | n :: _ =>
    match s.adm.slots.find? n with
    | none => [0, 0, 0]
    | some c =>
      let a := s.bySerial c.adapter
      let fcb := s.param P.fillChunkBlocks
      let src := (a.map (fun (x : Nat × Adapter) => x.2.storePage * 256 + x.2.tensorOffset / 256)).getD 0
      [BitVec.ofNat 32 (src + c.chunksDone * fcb),
       BitVec.ofNat 32 ((s.regionFirst .cache + n * s.layoutOf 1) * 256 + c.chunksDone * fcb),
       BitVec.ofNat 32 (min (s.param P.fillChunksPerBeat) c.chunksLeft)]

/-- Count the chunks of the coming beat. -/
def State.advanceFill (s : State) : State :=
  match s.adm.fills with
  | [] => s
  | n :: rest =>
    match s.adm.slots.find? n with
    | none => { s with adm := { s.adm with fills := rest } }
    | some c =>
      let k := min (s.param P.fillChunksPerBeat) c.chunksLeft
      let s1 := s.setSlot n { c with chunksLeft := c.chunksLeft - k, chunksDone := c.chunksDone + k }
      if c.chunksLeft - k = 0 then { s1 with adm := { s1.adm with fills := rest } } else s1

/-- Decode rows of a punnet among the step's rows: the fields that S8 to S12 carry beside S1's decode rows.
DEDUCED, unsafe: log entry 197. -/
def rowsOfPunnet (rows : List Row) (k : Nat) : Nat := rows.countP (fun r => r.kind == 0 && r.punnet == k)

/-- The batch descriptor S0 to S15 (R257). -/
def State.descriptor (s : State) (jb : Nat) : List W32 :=
  let rows := s.adm.rows
  let pair := fun (k : Nat) => BitVec.ofNat 32 (rowsOfPunnet rows k + rowsOfPunnet rows (k + 1) * 2 ^ 16)
  [BitVec.ofNat 32 s.adm.stepMix, BitVec.ofNat 32 (rows.countP (fun r => r.kind == 0)),
   BitVec.ofNat 32 ((rows.filter (fun r => r.kind != 0)).map (·.tokens)).sum,
   BitVec.ofNat 32 (s.rowPage jb * 256), BitVec.ofNat 32 (segmentsOf rows).length]
    ++ s.fillWords ++ [pair 0, pair 2, pair 4, pair 6, BitVec.ofNat 32 (rowsOfPunnet rows 8)] ++ s.moveWords

/-- A batch uses its sequences and contexts at the coming boundary (R305). -/
def State.touchSeqs (s : State) : State :=
  let now := s.beat.count + 1
  s.adm.rows.foldl (fun (t : State) r =>
    (t.modSeq r.seq (fun x => { x with lastUsed := now })).modSeq r.context (fun x => { x with lastUsed := now })) s

/-- Steps 5 and 6 for a boundary that opens a plan with a JOB_BEAT (R252). -/
def State.planAhead (s : State) (set : PlanSet) (jb : Nat) : State :=
  let slot := jb % max set.scheduleLength 1
  let s1 := if slot = 0 then s.formBatch set
    else { s with adm := { s.adm with plan := set.exact slot s.adm.stepMix } }
  let s2 := (s1.touchSeqs).writeRows jb
  let s3 := { s2 with adm := { s2.adm with desc := s2.descriptor jb } }
  s3.advanceFill.steerMove

/-! ## Matters (R414 to R416, R421) -/

/-- A taken matter command moves on at a snapshot: what was taken at the one before is due at the coming boundary, and what has
been written is taken (R414). -/
def State.takeMatter (s : State) : State :=
  if s.adm.matterDue.isSome then s
  else { s with adm := { s.adm with matterDue := s.adm.matterTaken, matterTaken := s.adm.matterWritten,
                                    matterWritten := none } }

/-- Post the outcome of a matter command: 0 OK, 1 EXISTS, 2 NO_SLOT, 3 UNKNOWN_MATTER, 4 ROTATE_BUSY, 5 NOT_ALLOWED. -/
def State.matterResult (s : State) (r : Nat) : State := s.setParam P.matterResult r

/-- CREATE is applied (R415). -/
def State.createMatter (s : State) (m : Nat) : State :=
  if (s.matterSlot m).isSome then s.matterResult 1
  else
    match s.freeSlot with
    | none => s.matterResult 2
    | some n =>
      (((s.openSlot n m).setParam P.matterResultSlot n).matterResult 0).event Ev.matterCreated [(4, m), (2, n)]

/-- The handles of a matter's adapters. -/
def State.matterHandles (s : State) (m : Nat) : List Nat :=
  AMap.keys (s.adm.adapters.filter (fun (x : Nat × Adapter) => x.2.matter == m))

/-- The registration numbers of a matter's adapters. -/
def State.matterSerials (s : State) (m : Nat) : List Nat :=
  (s.adm.adapters.filter (fun (x : Nat × Adapter) => x.2.matter == m)).map (fun (x : Nat × Adapter) => x.2.serial)

/-- The bundles that name one of some adapters are released (R416). -/
def State.dropBundles (s : State) (serials : List Nat) : State :=
  { s with adm := { s.adm with bundles := s.adm.bundles.filter (fun (x : Nat × Bundle) => !serials.contains x.2.adapter) } }

/-- A sequence of a matter is KEPT, or a context that no request holds and that no move carries. -/
def State.releasable (s : State) (m : Nat) (x : Nat × SeqRec) : Bool :=
  x.2.matter == m && x.2.phase != .opened && !(x.2.filling) && !s.contextHeld x.1 && !s.moving x.1

/-- KEPT sequences and contexts of a matter are released, those that requests hold later (R416, R319). -/
def State.releaseMatterSeqs (s : State) (m : Nat) : State :=
  (s.kv.next.seqs.filter (s.releasable m)).foldl (fun (t : State) (x : Nat × SeqRec) => (t.freeSeqOf x.1).contextGone x.1) s

/-- Matters that are being removed give up what requests no longer hold. -/
def State.releaseRemoving (s : State) : State :=
  (s.rind.slots.filter (fun (x : Nat × KeySlot) => x.2.state == .removing)).foldl
    (fun (t : State) (x : Nat × KeySlot) => t.releaseMatterSeqs x.2.owner) s

/-- The running job trains an adapter of a matter (R416).
DEDUCED, unsafe: log entry 66. -/
def State.matterTrained (s : State) (m : Nat) : Bool := (s.matterHandles m).any s.inTraining

/-- A matter's adapters are revoked from boundary b on, and the bundles that name them are released (R416). -/
def State.revokeMatter (s : State) (b m : Nat) : State :=
  State.dropBundles ((s.matterHandles m).foldl (fun (t : State) h => t.revokeFrom b h none) s) (s.matterSerials m)

/-- REMOVE at the boundary of its application (R416): the slot is REMOVING, and adapters that the cycle before did not see are revoked.
DEDUCED, unsafe: log entry 66. -/
def State.removeMatter (s : State) (m slot : Nat) : State :=
  State.revokeMatter (s.setKeySlot slot { s.keySlot slot with state := .removing }) s.beat.count m

/-- REMOVE at step 2 of the cycle (R252, R416): revocations, bundles, and the edits of its sequences; a REMOVE of a trained matter
waits.
DEDUCED, unsafe: log entry 66. -/
def State.matterStepTwo (s : State) : State :=
  match s.adm.matterDue with
  | some (.remove id) =>
    if (s.liveMatterSlot id.toNat).isNone || s.matterTrained id.toNat then s
    else (s.revokeMatter (s.beat.count + 1) id.toNat).releaseMatterSeqs id.toNat
  | _ => s

/-- A matter command that is due takes effect, and its outcome is posted (R414); a REMOVE of a trained matter waits.
DEDUCED, unsafe: log entry 66. -/
def State.applyMatter (s : State) : State :=
  let done := fun (t : State) => { t with adm := { t.adm with matterDue := none } }
  match s.adm.matterDue with
  | none => s
  | some (.create id) => done (s.createMatter id.toNat)
  | some (.remove id) =>
    match s.matterSlot id.toNat with
    | none => done (s.matterResult 3)
    | some n =>
      if (s.keySlot n).state = .removing then done (s.matterResult 0)
      else if s.matterTrained id.toNat then s
      else done ((s.removeMatter id.toNat n).matterResult 0)
  | some (.rotate slot) => done ((s.rotateSlot slot).1.matterResult (s.rotateSlot slot).2)

/-! ## The cycle (R252) -/

/-- JOB_BEAT of the plan that the coming boundary opens: none unless it is a NORMAL boundary (R26, R27). -/
def State.nextOpening (s : State) : Option Nat :=
  if s.beat.nextKind = .normal then some (if s.beat.firstNormal then s.job.resumeBeat.getD 0 else s.beat.jobBeat + 1)
  else none

/-- The coming boundary opens schedule slot 0 and so ends a step. -/
def State.stepEnds (s : State) : Bool :=
  match s.nextOpening, s.job.planSet with
  | some jb, some set => jb % max set.scheduleLength 1 == 0
  | _, _ => false

/-- Steps 5 and 6, or the hub's own moves while no job runs. -/
def State.lookAhead (s : State) : State :=
  match s.nextOpening, s.job.planSet with
  | some jb, some set => s.planAhead set jb
  | _, _ => if s.jobActive then s else s.hubMove

/-- Edits that waited for a holder are tried again, and matters that are being removed give up what no request holds (R319, R416). -/
def State.settleEdits (s : State) : State := s.retryEdits.releaseRemoving

/-- The admission cycle at a snapshot (R252).
DEDUCED, unsafe: log entries 79, 157. -/
def State.admissionCycle (s : State) : State :=
  let s1 := State.forceOverdue (if s.stepEnds then s.endStep else s) (s.beat.count + 1)
  let s2 := ((s1.completeFills.finishMoves.settleEdits).applyLate).matterStepTwo
  let s3 := s2.consumeRings.lateToDue
  let s4 := if s.stepEnds then s3.leaveNow else s3
  s4.settleEdits.admitRequests.mapAdmitted.lookAhead

end Sys2Proof.Machine
end

