-- ==== Sys2Proof/Machine/Links.lean ====
section
/-! DEFINITION. Links and routes as commands: training, discovery, probes, link-layer control, link control and the commit of
routes (R361, R365 to R367, R374 to R377, R381, R382, R388, R508). -/

namespace Sys2Proof.Machine

/-! ## HELLO (R375) -/

/-- The module serial (R480). -/
def moduleSerialBytes : List Byte := Config.fusedBytes 0x1000 3

/-- The payload of this device's HELLO on a link (R375). -/
def State.helloPayload (s : State) (n : Nat) : List Byte :=
  let id := s.param P.deviceId
  let word := 0x03 * 2 ^ 248 + 1 * 2 ^ 240 + s.boot.feedId.toNat * 2 ^ 232 + n * 2 ^ 226
    + (if id = 0xFFFF then 0 else 2 ^ 225 + id * 2 ^ 215)
    + s.param (P.order0Active n) * 2 ^ 203 + s.param (P.order1Active n) * 2 ^ 191
    + s.param P.routeGenActive * 2 ^ 159
  leBytes 32 word ++ (moduleSerialBytes ++ List.replicate 32 0).take 32

/-- Send HELLO on a link. -/
def State.sendHello (s : State) (n : Nat) : State := s.sendLocal n 0 (s.helloPayload n)

/-- The links of the device. -/
def allLinks : List Nat := List.range 48

/-- Send HELLO on every link for which `p` holds. -/
def State.helloAll (s : State) (p : Link → Bool) : State :=
  allLinks.foldl (fun (t : State) n => if p (t.link n) then t.sendHello n else t) s

/-! ## DISCOVERY (R365, R368, R376, R377) -/

/-- Send n PROBEs; the stamp T1 is a reading of the core clock, which the model does not keep.
DESIGN CHOICE, safe: log entry 42. -/
def State.sendProbes (s : State) (l : Nat) : Nat → State
  | 0 => s
  | n + 1 =>
    ((s.sendLocal l 0 (leBytes 32 (0x04 * 2 ^ 248 + s.freeWord.toNat * 2 ^ 64))).drawn).sendProbes l n

/-- Enter DISCOVERY: sequence numbers and credits start afresh, HELLO and 16 PROBEs are sent.
DEDUCED, safe: log entry 43. -/
def State.enterDiscovery (s : State) (n : Nat) : State :=
  let s1 := s.flushLink n .discovery
  (((s1.setLink n { s1.link n with txSeq := 0, rxSeq := 0, unacked := 0, credits := List.replicate 8 64,
                                   owed := List.replicate 8 0 }).sendHello n).sendProbes n 16)

/-- The first condition of R377 that a HELLO fails, 1 to 4 in its order, none when it meets them all. -/
def State.helloFault (s : State) (n : Nat) (h : HelloF) : Option Nat :=
  if h.order0.toNat ≠ s.param (P.order0Active n) ∨ h.order1.toNat ≠ s.param (P.order1Active n) then some 1
  else if h.routeGen.toNat ≠ s.param P.routeGenActive then some 2
  else if (h.serial ++ List.replicate 32 0).take 32 = (moduleSerialBytes ++ List.replicate 32 0).take 32 then some 3
  else
    match h.deviceId with
    | some i => if i.toNat = s.param P.deviceId then some 4 else none
    | none => none

/-- A link goes UP (R377, R390). -/
def State.linkToUp (s : State) (n : Nat) : State :=
  State.event (s.setLink n { s.link n with phase := .up }) Ev.linkUp
    [(1, n), (2, s.param (P.partnerId n)), (1, s.param (P.partnerLink n)), (4, s.param (P.linkLatency n))]

/-- A link goes to MISMATCH, which carries no routed flits (R377). -/
def State.linkToMismatch (s : State) (n c : Nat) : State :=
  let s1 := s.purgeRouted n true
  State.event (s1.setLink n { s1.link n with phase := .mismatch }) Ev.linkMismatch [(1, n), (1, c)]

/-- A link in DISCOVERY with its latency measured and a HELLO received is judged by that HELLO: it goes UP or to MISMATCH. -/
def State.tryUp (s : State) (n : Nat) : State :=
  let l := s.link n
  if l.phase = .discovery ∧ l.latencyKnown then
    match l.hello with
    | none => s
    | some h =>
      match s.helloFault n h with
      | none => s.linkToUp n
      | some c => s.linkToMismatch n c
  else s

/-- Store the partner's values (R375). -/
def State.storeHello (s : State) (n : Nat) (h : HelloF) : State :=
  (((s.setParam (P.partnerId n) ((h.deviceId.map (·.toNat)).getD 0xFFFF)).setParam (P.partnerLink n) h.link.val).setParam
    (P.partnerFeed n) h.feedId.toNat).setBlob (P.partnerSerial n) ((h.serial ++ List.replicate 32 0).take 32)

/-- A HELLO on a link: its values are stored, and it moves the link between DISCOVERY, UP and MISMATCH (R377). -/
def State.takeHello (s : State) (n : Nat) (h : HelloF) : State :=
  let s1 := s.storeHello n h
  let s2 := s1.setLink n { s1.link n with hello := some h }
  match s2.helloFault n h with
  | some c =>
    if (s2.link n).phase = .discovery ∨ (s2.link n).phase = .up then s2.linkToMismatch n c else s2
  | none =>
    if (s2.link n).phase = .mismatch then State.tryUp (s2.setLink n { s2.link n with phase := .discovery }) n else s2.tryUp n

/-- HELLO (R377). -/
def execHello (l : LinkId) (h : HelloF) (s : State) : Result :=
  if (s.link l.val).carriesLocal then .next ((s.rxLocal l.val).takeHello l.val h) else .next s

/-- HELLO_INTERVAL (R375, R388): links in DISCOVERY, UP or QUARANTINED send HELLO. -/
def execHelloInterval (s : State) : Result :=
  .next (s.helloAll (fun l => l.phase == .discovery || l.phase == .up || l.phase == .quarantined))

/-! ## Probes (R374, R376) -/

/-- PROBE (R376): answered with the receive stamp T2 and the launch stamp T3; a replayed one is ignored. -/
def execProbe (l : LinkId) (t1 t2 t3 : W64) (launch : BitVec 6) (s : State) : Result :=
  if (s.link l.val).carriesLocal then
    let s1 := s.rxLocal l.val
    if launch = 63 then .next s1
    else .next (s1.sendLocal l.val 0
      (leBytes 32 (0x05 * 2 ^ 248 + t2.toNat * 2 ^ 128 + t1.toNat * 2 ^ 64 + t3.toNat)))
  else .next s

/-- Sixteenths of a cycle rounded to cycles, ties to even. -/
def roundSixteenths (x : Nat) : Nat :=
  let q := x / 16
  if 8 < x % 16 ∨ (x % 16 = 8 ∧ q % 2 = 1) then q + 1 else q

/-- A PROBE_REPLY's value joins the others; the smallest of 16 becomes LINK_LATENCY (R376).
DESIGN CHOICE, safe: log entry 42. -/
def State.takeProbe (s : State) (n x : Nat) : State :=
  let l := s.link n
  let ps := l.probes ++ [x]
  if l.phase ≠ .discovery ∧ l.phase ≠ .mismatch ∨ l.latencyKnown then s
  else if ps.length < 16 then s.setLink n { l with probes := ps }
  else
    State.tryUp ((s.setLink n { l with probes := ps, latencyKnown := true }).setParam (P.linkLatency n)
      (roundSixteenths (ps.foldl min x))) n

/-- PROBE_REPLY (R376): latency = ((T4 − T1) − (T3 − T2)) ÷ 2; a replayed one is ignored. -/
def execProbeReply (l : LinkId) (t1 t2 t3 t4 : W64) (launch : BitVec 6) (s : State) : Result :=
  if (s.link l.val).carriesLocal then
    let s1 := s.rxLocal l.val
    if launch = 63 then .next s1 else .next (s1.takeProbe l.val ((t4 - t1) - (t3 - t2)).toNat)
  else .next s

/-! ## Link-layer control (R365 to R367) -/

/-- Acknowledged flits leave the retry buffer; a number that is not outstanding acknowledges nothing. -/
def Link.acked (l : Link) (a : BitVec 12) : Link :=
  let left := (l.txSeq - 1 - a).toNat
  if left < l.retry.length then { l with retry := l.retry.drop (l.retry.length - left), replays := 0 } else l

/-- Returned credits, at most 64 held per channel (R368). -/
def Link.credited (l : Link) (c : W64) : Link :=
  { l with credits := l.credits.zipIdx.map (fun (x : Nat × Nat) => min 64 (x.1 + bits c.toNat (8 * x.2) 8)) }

/-- The acknowledgement and the credits that every LLC flit carries. -/
def State.takeLlc (s : State) (n : Nat) (f : LlcF) : State :=
  (s.setLink n (((s.link n).acked f.ackSeq).credited f.credit)).pump n

/-- CREDIT_ACK (R367). -/
def execCreditAck (l : LinkId) (f : LlcF) (s : State) : Result :=
  if (s.link l.val).carriesLocal then .next (s.takeLlc l.val f) else .next s

/-- IDLE (R367). -/
def execIdle (l : LinkId) (f : LlcF) (s : State) : Result :=
  if (s.link l.val).carriesLocal then .next (s.takeLlc l.val f) else .next s

/-- A timing flit that is replayed carries LAUNCH 63 (R374). -/
def replayed (f : Flit) : Flit := if timingFlit f then { f with hdr := { f.hdr with launch := 63 } } else f

/-- Replay from a sequence number, in order (R366). -/
def State.replay (s : State) (n : Nat) (q : BitVec 12) : State :=
  let l := s.link n
  let k := (l.txSeq - q).toNat
  if k = 0 ∨ l.retry.length < k then s
  else
    let fs := (l.retry.drop (l.retry.length - k)).map replayed
    let outs := fs.zipIdx.map (fun (x : Flit × Nat) => Output.flit n (flitBytes (q + BitVec.ofNat 12 x.2) x.1))
    ((s.setLink n { l with retry := l.retry.take (l.retry.length - k) ++ fs,
                           replays := if l.replaySeq = q then l.replays + 1 else 1, replaySeq := q }).emits outs).bump
      (P.retries n) 1

/-- RETRY_REQ (R366). -/
def execRetryReq (l : LinkId) (f : LlcF) (s : State) : Result :=
  if (s.link l.val).carriesLocal then .next ((s.takeLlc l.val f).replay l.val f.retrySeq) else .next s

/-- LLC_ACK_DUE (R365). -/
def execLlcAckDue (l : LinkId) (s : State) : Result :=
  if (s.link l.val).carriesLocal then .next (s.sendLlc l.val 0 0) else .next s

/-- FLIT_CRC_FAIL (R366): the flit is discarded unexamined and RETRY_REQ names the number expected. -/
def execFlitCrcFail (l : LinkId) (s : State) : Result :=
  if (s.link l.val).carriesLocal then
    .next ((s.bump (P.crcErrors l.val) 1).sendLlc l.val 1 (s.link l.val).rxSeq.toNat)
  else .next s

/-- LINK_RETRY_EXHAUSTED (R366): DOWN with cause RETRY after 16 replays of one number. -/
def execLinkRetryExhausted (l : LinkId) (s : State) : Result :=
  if (s.link l.val).carriesLocal ∧ 16 ≤ (s.link l.val).replays then .next (s.linkToDown l.val 2) else .next s

/-! ## Training and link control (R361, R377, R389, R508) -/

/-- LINK_TRAINED (R376).
DEDUCED, safe: log entry 43. -/
def execLinkTrained (l : LinkId) (s : State) : Result :=
  if (s.link l.val).phase = .training ∨ (s.link l.val).phase = .down then .next (s.enterDiscovery l.val) else .next s

/-- LINK_TRAIN_TIMEOUT (R361). -/
def execLinkTrainTimeout (l : LinkId) (s : State) : Result :=
  if (s.link l.val).phase = .training ∨ (s.link l.val).phase = .down then .next (s.linkToDown l.val 1) else .next s

/-- LINK_SIGNAL_LOST (R508). -/
def execLinkSignalLost (l : LinkId) (s : State) : Result :=
  if (s.link l.val).phase = .disabled then .next s else .next (s.linkToDown l.val 3)

/-- LINK_CTRL 1 (R508): a link reset; a disabled link stays disabled, and a QUARANTINED one stays so (R388).
DEDUCED, unsafe: log entry 44. -/
def execLinkRetrain (l : LinkId) (s : State) : Result :=
  if (s.link l.val).phase = .disabled ∨ (s.link l.val).phase = .quarantined then .next s
  else .next (s.flushLink l.val .training)

/-- LINK_CTRL 2 (R388). -/
def execLinkReleaseQuarantine (l : LinkId) (s : State) : Result :=
  if (s.link l.val).phase = .quarantined then
    .next (State.enterDiscovery (s.setLink l.val { s.link l.val with violBeats := [] }) l.val)
  else .next s

/-- LINK_CTRL 3 (R508): flushed and at electrical idle; a QUARANTINED link stays so (R388).
DEDUCED, unsafe: log entry 44. -/
def execLinkDisable (l : LinkId) (s : State) : Result :=
  if (s.link l.val).phase = .disabled ∨ (s.link l.val).phase = .quarantined then .next s
  else .next ((s.linkToDown l.val 4).flushLink l.val .disabled)

/-- LINK_CTRL 4 (R389). -/
def execLinkEnable (l : LinkId) (s : State) : Result :=
  if (s.link l.val).phase = .disabled then .next (s.flushLink l.val .training) else .next s

/-! ## Routes (R381, R382) -/

/-- A pending die-hop order of 12 bits: die, hop (0 row, 1 column), level. -/
def State.hopOrder (s : State) (d : DieId) (hop lv : Nat) : Nat :=
  fieldLE (s.blob P.d2dOrderPending) (8 * d.val + 4 * hop + 2 * lv) 2 % 4096

/-- A pending link order. -/
def State.linkOrder (s : State) (n lv : Nat) : Nat :=
  if lv = 0 then s.param (P.order0Pending n) else s.param (P.order1Pending n)

/-- The pending order of an input of a die by its IN_MASK bit; LOCAL is below every channel. -/
def State.inputOrder (s : State) (d : DieId) (b : Nat) : Int :=
  if b = 0 then -1
  else if b < 25 then s.linkOrder (12 * d.val + (b - 1) / 2) ((b - 1) % 2)
  else if b < 27 then s.hopOrder (rowNeighbour d) 0 (b - 25)
  else s.hopOrder (columnNeighbour d) 1 (b - 27)

/-- The pending order of an outgoing channel. -/
def State.outputOrder (s : State) (d : DieId) (port lv : Nat) : Int :=
  if port < 12 then s.linkOrder (12 * d.val + port) lv
  else if port = 12 then s.hopOrder d 0 lv else s.hopOrder d 1 lv

/-- The input bit at which a pending entry fails, none when it passes (R381). -/
def State.entryFault (s : State) (d : DieId) (dev e : Nat) : Option Nat :=
  if !e.testBit 63 then none
  else if 14 ≤ entryPort e ∨ dev = s.param P.deviceId then some 0
  else (List.range 29).find? (fun b => e.testBit (29 + b) &&
    decide (s.outputOrder d (entryPort e) (entryLevel e) ≤ s.inputOrder d b))

/-- The first failing entry of a die from a device number on; `n` counts the numbers left. -/
def State.tableFaultAt (s : State) (d : DieId) (bs : List Byte) : Nat → Nat → Option Nat
  | _, 0 => none
  | dev, n + 1 =>
    match s.entryFault d dev (fieldLE bs (8 * dev) 8) with
    | some b => some (d.val * 2 ^ 30 + dev * 2 ^ 16 + b)
    | none => s.tableFaultAt d bs (dev + 1) n

/-- ROUTE_REFUSE_DETAIL of the first failing entry of the four pending tables. -/
def State.routeFault (s : State) : Option Nat :=
  allDies.findSome? (fun d => s.tableFaultAt d (s.blob (P.routePending d.val)) 0 1024)

/-- ROUTE_SEAL (R381, R382): a write of ROUTE_GEN_PENDING. -/
def execRouteSeal (gen : W32) (s : State) : Result :=
  let s1 := s.setParam P.routeGenPending gen.toNat
  match s1.routeFault with
  | some x =>
    let s2 := (s1.setParam P.routeStatus 3).setParam P.routeRefuseDetail x
    .next { s2 with fab := { s2.fab with sealed := false, sealedGen := gen } }
  | none =>
    let s2 := s1.setParam P.routeStatus 1
    .next { s2 with fab := { s2.fab with sealed := true, sealedGen := gen } }

/-- A pending value was written: the set is no longer sealed (R382). -/
def State.unseal (s : State) : State := { s with fab := { s.fab with sealed := false } }

/-- All four dies and all links switch to the sealed set (R382). -/
def State.adoptRoutes (s : State) : State :=
  let s1 := allDies.foldl (fun (t : State) d => t.setBlob (P.routeActive d.val) (t.blob (P.routePending d.val))) s
  let s2 := s1.setBlob P.d2dOrderActive (s1.blob P.d2dOrderPending)
  let s3 := allLinks.foldl (fun (t : State) n =>
    (t.setParam (P.order0Active n) (t.param (P.order0Pending n))).setParam (P.order1Active n) (t.param (P.order1Pending n)))
    s2
  (s3.setParam P.routeGenActive s3.fab.sealedGen.toNat).setParam P.routeStatus 2

/-- The commit is refused and the active set stays (R382). -/
def State.refuseRoutes (s : State) : State :=
  s.event Ev.routeRefused [(1, s.param P.routeStatus), (4, s.param P.routeRefuseDetail)]

/-- ROUTE_COMMIT (R382): at the boundary whose BEAT_COUNT is ROUTE_COMMIT_BEAT. -/
def execRouteCommit (s : State) : Result :=
  if s.param P.routeCommitBeat ≠ s.beat.count then .next s
  else if !s.fab.sealed then .next s.refuseRoutes
  else if s.beat.kind ≠ .free then .next (s.setParam P.routeStatus 4).refuseRoutes
  else
    let s1 := (s.adoptRoutes).unseal
    .next ((s1.event Ev.routeCommitted [(4, s1.param P.routeGenActive), (8, s1.beat.count)]).helloAll Link.carriesLocal)

end Sys2Proof.Machine
end

