-- ==== Sys2Proof/Machine/LoadChecks.lean ====
section
/-! DEFINITION. A plan-set image in the host window and the checks of R166 on it (R161 to R166). The image is the header, the
plan table, and for each die its directory lines and its plan lines up to the highest one that a valid entry names (the
layout of a die's part is a log entry). -/

namespace Sys2Proof.Machine

/-! ## The image (R161 to R164) -/

/-- A little-endian number of the window. -/
def State.windowLE (s : State) (o n : Nat) : Nat := leNat (s.windowGet o n)

/-- A directory entry: START, LENGTH, reserved bits, VALID (R161). -/
structure DirLine where
  start : Nat
  length : Nat
  reserved : Nat
  valid : Bool
  deriving DecidableEq, Repr

/-- The directory entry that 64 bits hold. -/
def dirLineOf (w : Nat) : DirLine := ⟨bits w 48 16, bits w 32 16, bits w 1 31, w.testBit 0⟩

/-- Entry i of a directory at a window offset. -/
def State.dirLine (s : State) (base i : Nat) : DirLine := dirLineOf (s.windowLE (base + 8 * i) 8)

/-- The plan indices of a directory that are in use. -/
def State.planIndices (s : State) (base : Nat) : List Nat := (List.range 4096).filter (fun i => (s.dirLine base i).valid)

/-- Lines of a die's part of an image.
DEDUCED, unsafe: log entry 27. -/
def State.partLines (s : State) (base : Nat) : Nat :=
  ((s.planIndices base).map (fun i => (s.dirLine base i).start + (s.dirLine base i).length)).foldl max 256

/-- Entries of the plan table. -/
def State.tableEntries (s : State) (o : Nat) : Nat := s.windowLE (o + 20) 4

/-- The window offset of the part of die number d of an image.
DEDUCED, unsafe: log entry 27. -/
def State.partBase (s : State) (o : Nat) : Nat → Nat
  | 0 => o + 256 + 8 * s.tableEntries o
  | d + 1 => s.partBase o d + 128 * s.partLines (s.partBase o d)

/-- The end of an image.
DEDUCED, unsafe: log entry 27. -/
def State.imageEnd (s : State) (o : Nat) : Nat := s.partBase o 4

/-- The bytes of an image.
DEDUCED, unsafe: log entry 27. -/
def State.imageBytes (s : State) (o : Nat) : List Byte := s.windowGet o (s.imageEnd o - o)

/-- Entry i of the plan table: schedule slot, mix, plan index, reserved bits (R164). -/
def State.tableEntry (s : State) (o i : Nat) : Nat × Nat × Nat × Nat :=
  let w := s.windowLE (o + 256 + 8 * i) 8
  (bits w 52 12, bits w 20 32, bits w 8 12, bits w 0 8)

/-- The plan table as admission holds it. -/
def State.planTable (s : State) (o : Nat) : List (Nat × Nat × Nat) :=
  (List.range (s.tableEntries o)).map (fun i =>
    let e := s.tableEntry o i
    (e.1, e.2.1, e.2.2.1))

/-- The plan set that an image describes (R163).
DESIGN CHOICE, safe: log entry 30. -/
def State.planSetOf (s : State) (o : Nat) : PlanSet :=
  let fl := s.windowLE (o + 13) 1
  { scheduleLength := s.windowLE (o + 10) 2
    beatLog2 := s.windowLE (o + 12) 1
    nondeterministic := fl.testBit 0
    rowInvariant := fl.testBit 1
    audit := fl.testBit 2
    training := fl.testBit 3
    guardDiv256 := s.windowLE (o + 14) 2
    orchardSize := s.windowLE (o + 16) 2
    planCount := s.windowLE (o + 18) 2
    planSetId := s.windowLE (o + 24) 8
    baseFingerprint := s.windowGet (o + 32) 48
    imageDigest := s.windowGet (o + 80) 48
    table := s.planTable o
    moveLoopMax := Config.moveLoopMax (s.imageBytes o) }

/-! ## Plans (R162) -/

/-- A word of a plan: its number, ISSUE_DELTA, its operations and its control operation. -/
structure PWord where
  no : Nat
  delta : Nat
  ops : List (Slot × QEntry)
  ctrl : Option CtrlOp
  deriving DecidableEq, Repr

/-- A plan of one die: its header and its declarations; its words follow at `words`. -/
structure PPlan where
  die : DieId
  index : Nat
  at' : Nat
  lines : Nat
  hdrIndex : Nat
  slot : Nat
  mix : Nat
  wordCount : Nat
  declCount : Nat
  cross : List Byte
  decls : List Decl
  words : Nat
  deriving DecidableEq, Repr

/-- Lines that a plan's declarations take. -/
def declLines (n : Nat) : Nat := ceilDiv n 16

/-- A tally declaration of 64 bits (R162). -/
def declOf (w : Nat) : Decl := ⟨bits w 51 13, w.testBit 50, bits w 0 32⟩

/-- Plan i of the die whose part begins at `base`. -/
def State.planOf (s : State) (d : DieId) (base i : Nat) : PPlan :=
  let e := s.dirLine base i
  let a := base + 128 * e.start
  let n := s.windowLE (a + 16) 2
  { die := d, index := i, at' := a, lines := e.length, hdrIndex := s.windowLE a 2, slot := s.windowLE (a + 2) 2,
    mix := s.windowLE (a + 4) 4, wordCount := s.windowLE (a + 8) 4, declCount := n, cross := s.windowGet (a + 20) 48,
    decls := (List.range (min n 1024)).map (fun k => declOf (s.windowLE (a + 256 + 8 * k) 8)),
    words := a + 256 + 128 * declLines n }

/-- Every plan of an image: die after die, index after index. -/
def State.plansOf (s : State) (o : Nat) : List PPlan :=
  allDies.flatMap (fun d => (s.planIndices (s.partBase o d.val)).map (s.planOf d (s.partBase o d.val)))

/-- A word of a plan as a number. -/
def State.planWordAt (s : State) (p : PPlan) (n : Nat) : Nat := s.windowLE (p.words + 128 * n) 128

/-- The issue under which a word is examined. -/
def checkIssue (n : Nat) : Issue := ⟨BitVec.allOnes 64, false, 0, n, false⟩

/-- A word decoded with every register zero; none when one of its slots holds no defined encoding. -/
def decodeWord (n w : Nat) : Option PWord :=
  (FrontEnd.reset.decodeWord (checkIssue n) w).map (fun x => ⟨n, issueDelta w, x.1, x.2⟩)

/-- The decoded words of a plan. -/
def State.wordsOf (s : State) (p : PPlan) : List PWord :=
  (List.range p.wordCount).filterMap (fun n => decodeWord n (s.planWordAt p n))

/-! ## Check 1: everything is inside the window, marked, whole and defined (R165, R173) -/

/-- The operands of an operation are defined, as far as a word shows them (R173 to R201).
DEDUCED, safe: log entry 29. -/
def opDefined : Op → Bool
  | .tload _ f => f.fmt != .u16l && f.fmt != .f32
  | .mma f => mmaDefined f
  | .drain f => drainDefined true f || drainDefined false f
  | .varith o f => vopDefined o f
  | .cvt f => cvtDefined f
  | .unp f => unpDefined f
  | .stage f => stageDefined f
  | .vdrop f => opndIsDest f.dst && f.keep != 0
  | .fn _ f => fnDefined f
  | .copy f => copyDefined f
  | .gather f => gatherDefined f
  | .walk f => f.nom != 0
  | .flushTail _ => true
  | .press o f => pressDefined o f
  | .tallyAdd f => f.count != 0
  | .tallyRadd f => f.count != 0

/-- A word is defined.
DEDUCED, safe: log entry 150. -/
def wordDefined (n w : Nat) : Bool :=
  match decodeWord n w with
  | some x => x.ops.all (fun e => opDefined e.2.op)
  | none => false

/-- A place in an image that a check refuses: die, plan index, word. -/
abbrev Place := Nat × Nat × Nat

/-- All bytes of a range of the window are zero. -/
def State.windowZero (s : State) (o n : Nat) : Bool := (s.windowGet o n).all (fun b => b == 0)

/-- The image, and every part that its header and its table name, lies in the window (R165). -/
def State.imageInside (s : State) (o : Nat) : Bool :=
  s.inWindow o 256 && s.inWindow (o + 256) (8 * s.tableEntries o)
    && (List.range 4).all (fun d => s.inWindow (s.partBase o d) 32768
      && s.inWindow (s.partBase o d) (128 * s.partLines (s.partBase o d)))

/-- The header's marks: MAGIC, FORMAT_VERSION, zero bits, and field ranges (R163); a range that does not hold falls under check 1.
DESIGN CHOICE, unsafe: log entry 210. -/
def State.headerMarks (s : State) (o : Nat) : Bool :=
  s.windowGet o 8 == asciiBytes "CEROTSET" && s.windowLE (o + 8) 2 == 1 && decide (s.windowLE (o + 13) 1 < 16)
    && s.windowZero (o + 128) 128
    && decide (1 ≤ s.windowLE (o + 10) 2) && decide (s.windowLE (o + 10) 2 ≤ 4096)
    && decide (1 ≤ s.windowLE (o + 16) 2) && decide (s.windowLE (o + 16) 2 ≤ 1024)
    && decide (1 ≤ s.tableEntries o) && decide (s.tableEntries o ≤ 16384)

/-- IMAGE_DIGEST is the SHA-384 of the image with the field zero. -/
def State.digestOk (s : State) (o : Nat) : Bool :=
  let b := s.imageBytes o
  sha384 (b.take 80 ++ List.replicate 48 0 ++ b.drop 128) == (b.drop 80).take 48

/-- Reserved bits of the table and of a plan's header and declarations are zero. -/
def State.planReserved (s : State) (p : PPlan) : Bool :=
  s.windowZero (p.at' + 18) 2 && s.windowZero (p.at' + 68) 188
    && (List.range (min p.declCount 1024)).all (fun k => bits (s.windowLE (p.at' + 256 + 8 * k) 8) 32 18 == 0)

/-- The first word of a plan that is not defined. -/
def State.badWord (s : State) (p : PPlan) : Option Nat :=
  (List.range (min p.wordCount 65536)).find? (fun n => !wordDefined n (s.planWordAt p n))

/-- The first plan, and its word, for which a test gives one. -/
def firstPlan (ps : List PPlan) (f : PPlan → Option Nat) : Option Place :=
  ps.findSome? (fun p => (f p).map (fun w => (p.die.val, p.index, w)))

/-- A test that refuses a plan as a whole. -/
def wholePlan (b : Bool) : Option Nat := if b then none else some 0

/-- Check 1. A refusal of the image as a whole names die 0, plan index 0, word 0.
DEDUCED, safe: log entry 29. DESIGN CHOICE, unsafe: log entry 180. -/
def State.check1 (s : State) (o : Nat) : Option Place :=
  if !(s.imageInside o && s.headerMarks o && s.digestOk o
    && (List.range (s.tableEntries o)).all (fun i => (s.tableEntry o i).2.2.2 == 0)) then some (0, 0, 0)
  else
    match allDies.findSome? (fun d =>
        ((List.range 4096).find? (fun i => (s.dirLine (s.partBase o d.val) i).reserved != 0)).map (fun i => (d.val, i, 0))) with
    | some x => some x
    | none => firstPlan (s.plansOf o) (fun p => if s.planReserved p then s.badWord p else some 0)

/-! ## Checks 2 to 6 -/

/-- Check 2 (R24).
DESIGN CHOICE, unsafe: log entry 180. -/
def State.check2 (s : State) (o : Nat) : Option Place :=
  if 2 ^ s.windowLE (o + 12) 1 = s.beat.cycles ∧ s.windowLE (o + 14) 2 * 256 = s.beat.guard then none
  else some (0, 0, 0)

/-- Plans of one die overlap nowhere. -/
def linesApart (e f : DirLine) : Bool := decide (e.start + e.length ≤ f.start) || decide (f.start + f.length ≤ e.start)

/-- A plan fits its lines and the plan store (R161, R162), and its header and declarations are in range.
DESIGN CHOICE, unsafe: log entry 181. -/
def planFits (p : PPlan) (e : DirLine) : Bool :=
  decide (256 ≤ e.start) && decide (e.start + e.length ≤ 65536) && decide (p.declCount ≤ 1024)
    && decide (1 ≤ p.wordCount) && p.lines == 2 + declLines p.declCount + p.wordCount && p.hdrIndex == p.index
    && p.decls.all (fun x => decide (x.advance ≤ 65535))

/-- A plan of a die stands apart from the plans of lower index; plans whose lines overlap fall under check 3.
DESIGN CHOICE, unsafe: log entry 211. -/
def State.planApart (s : State) (base i : Nat) : Bool :=
  ((s.planIndices base).filter (fun j => decide (j < i))).all (fun j => linesApart (s.dirLine base i) (s.dirLine base j))

/-- A table entry names a valid plan whose header carries its slot and mix (R164). -/
def State.entryNames (s : State) (o : Nat) (x : Nat × Nat × Nat) : Bool :=
  allDies.all (fun d =>
    let base := s.partBase o d.val
    let p := s.planOf d base x.2.2
    (s.dirLine base x.2.2).valid && p.slot == x.1 && p.mix == x.2.1)

/-- Check 3.
DESIGN CHOICE, unsafe: log entry 180. -/
def State.check3 (s : State) (o : Nat) : Option Place :=
  let n := s.windowLE (o + 18) 2
  match firstPlan (s.plansOf o) (fun p =>
      let base := s.partBase o p.die.val
      wholePlan (planFits p (s.dirLine base p.index) && s.planApart base p.index
        && decide (p.slot < s.windowLE (o + 10) 2))) with
  | some x => some x
  | none =>
    let keys := (s.planTable o).map (fun x => (x.1, x.2.1))
    let idx := s.planIndices (s.partBase o 0)
    if !keys.Nodup then some (0, 0, 0)
    else
      match (s.planTable o).find? (fun x => !s.entryNames o x) with
      | some x => some (0, x.2.2, 0)
      | none =>
        match allDies.find? (fun d => s.planIndices (s.partBase o d.val) != idx) with
        | some d => some (d.val, 0, 0)
        | none => if idx.length = n ∧ 1 ≤ n ∧ n ≤ 4096 then none else some (0, 0, 0)

/-- Check 4 (R35, R255): the plan index of an entry of slot 0 whose mix some slot lacks.
DESIGN CHOICE, unsafe: log entry 180. -/
def State.check4 (s : State) (o : Nat) : Option Place :=
  let t := s.planTable o
  let has := fun (slot mix : Nat) => t.any (fun x => x.1 == slot && x.2.1 == mix)
  (List.range (s.windowLE (o + 10) 2)).findSome? (fun slot =>
    if !has slot 0 then some (0, 0, 0)
    else (t.find? (fun x => x.1 == 0 && !has slot x.2.1)).map (fun x => (0, x.2.2, 0)))

/-- The first plan of the same die and slot among plans. -/
def sameSlot (ps : List PPlan) (p : PPlan) : Option PPlan := ps.find? (fun q => q.die == p.die && q.slot == p.slot)

/-- Check 5 (R36). -/
def check5 (ps : List PPlan) : Option Place :=
  firstPlan ps (fun p => wholePlan ((ps.find? (fun q => q.slot == p.slot)).all (fun q => q.cross == p.cross)))

/-- Every declaration of one plan stands in another, with its class and ADVANCE. -/
def declaresAll (p q : PPlan) : Bool := p.decls.all (fun x => q.decls.contains x)

/-- Check 6 (R152): on each die, the plans of a slot declare the same tallies alike. -/
def check6 (ps : List PPlan) : Option Place :=
  firstPlan ps (fun p => wholePlan ((sameSlot ps p).all (fun q => declaresAll p q && declaresAll q p)))

/-! ## Check 7: deltas, nesting, PLAN.END (R139, R158) -/

/-- The body length of a word's loop, and its MAX. -/
def PWord.loop? (w : PWord) : Option (Nat × Nat) :=
  match w.ctrl with
  | some (.loop f) => some (f.body.toNat, f.max.toNat)
  | _ => none

/-- The first word at which loops nest too deep or a body leaves what encloses it; `open'` holds the words that follow the
bodies in progress, innermost first. -/
def nestFault : List PWord → List Nat → Nat → Option Nat
  | [], _, _ => none
  | w :: ws, open', total =>
    let inside := open'.filter (fun e => decide (w.no < e))
    match w.loop? with
    | some (b, _) =>
      let e := w.no + 1 + b
      if 4 ≤ inside.length ∨ (inside.head?.getD total) < e then some w.no else nestFault ws (e :: inside) total
    | none => nestFault ws inside total

/-- Check 7 of one plan. -/
def State.check7 (s : State) (p : PPlan) : Option Nat :=
  let ws := s.wordsOf p
  match ws.find? (fun w => decide (w.delta = 0)) with
  | some w => some w.no
  | none =>
    match nestFault ws [] p.wordCount with
    | some n => some n
    | none =>
      match ws.find? (fun w => (w.ctrl == some .planEnd) != (w.no + 1 == p.wordCount)) with
      | some w => some w.no
      | none => none

/-! ## Checks 8 to 10: the nominal schedule, tallies and draws, loops unrolled at MAX -/

/-- What the examination of a plan's stream has come to: the nominal cycle, when each resource is free again, the array
operation at the end of slot A's stream with its nominal start, the arrays with a pending shadow, the counts of the tallies,
the draws, and the first word that checks 8 and 9 refuse. -/
structure Sched where
  nominal : Nat := 0
  free : AMap Nat := []
  lastA : Option (Nat × MmaF) := none
  pending : List Nat := []
  counts : AMap Nat := []
  draws : List (Nat × Nat) := []
  bad8 : Option Nat := none
  bad9 : Option Nat := none
  deriving DecidableEq, Repr

/-- Cells that a copy counts its bytes for. -/
def copyCells (expand : Bool) : Nat := if expand then 64 else 1

/-- The nominal occupancy that the NOM of an operation must reach (R195 to R200), in cycles; 0 when it has no NOM. -/
def leastNom : Op → Nat
  | .copy f => ceilDiv ((f.len.toNat + 1) * 256 * copyCells f.expand) 512
  | .gather f => ceilDiv ((f.count.toNat + 1) * (f.rowBlocks.toNat + 1) * 256 * copyCells f.expand) 512
  | .walk f => (f.npage.val + 1) * (if f.part = .kv then 257 else 129)
  | .press o f => ceilDiv ((f.len.toNat + 1) * 256 * pressPer o * copyCells f.expand) 512
  | _ => 0

/-- NOM in cycles. -/
def nomCycles : Op → Nat
  | .copy f => 4 * f.nom.toNat
  | .gather f => 4 * f.nom.toNat
  | .walk f => 4 * f.nom.toNat
  | .press _ f => 4 * f.nom.toNat
  | _ => 0

/-- The nominal occupancy of an operation (R142, R198, R539). -/
def nomOccupancy (audit : Bool) (o : Op) : Nat :=
  match o with
  | .copy _ | .gather _ | .walk _ | .press _ _ => nomCycles o
  | .flushTail _ => 256
  | _ => (opOccupancy audit (checkIssue 0) o).getD 0

/-- The nominal completion of an operation after its start on the main path (R98, R122 to R125, R176 to R201, R539). -/
def mainLatency (o : Op) : Nat :=
  match o with
  | .tload tr _ => if tr then 68 else 64
  | .mma _ => nomOccupancy false o - 1 + 15
  | .drain _ => nomOccupancy false o - 1 + 2
  | .varith v _ =>
    match v with
      | .add | .sub | .mul | .fma | .iota => 4
      | .rsum | .rmax => 12
      | _ => 2
  | .cvt f => if f.rows2 then 5 else 3
  | .unp _ => 3
  | .stage _ => 7
  | .vdrop _ => 4
  | .fn dv _ => if dv then 10 else 8
  | .tallyAdd _ | .tallyRadd _ => 1
  | .flushTail _ => 256
  | .copy _ | .gather _ | .walk _ | .press _ _ => nomCycles o

/-- The nominal completion of an operation after its start: in an audit plan set an event at offset o of an operation of n cycles
comes 7 × min(o, n − 1) later (R103). -/
def nomLatency (audit : Bool) (o : Op) : Nat :=
  mainLatency o + (if audit && auditSlowed o then 7 * min (mainLatency o) (nomOccupancy false o - 1) else 0)

/-- The nominal start of an operation of a word (R141, R170). -/
def Sched.startOf (x : Sched) (o : Op) : Nat :=
  match o, x.lastA with
  | .tload _ f, some (t, m) => if m.swap && (selArrays m.array).contains f.loader.val then t else x.nominal
  | _, _ => x.nominal

/-- Check 8 of one operation: resources, NOM, work window, pending shadow (R142, R180). -/
def Sched.fits (x : Sched) (audit : Bool) (window : Nat) (e : Slot × QEntry) : Bool :=
  let o := e.2.op
  let t := x.startOf o
  (opResources (e.1 == .m1) o).all (fun r => decide (x.free.getD r 0 ≤ t))
    && decide (leastNom o ≤ nomCycles o) && decide (t + nomLatency audit o ≤ window)
    && (match o with
        | .tload _ f => !x.pending.contains f.loader.val
        | _ => true)

/-- The draws of an operation with a nominal start, per lane (R134): a unit's draws in its cycles and positions. -/
def opDraws (t : Nat) (o : Op) : List (Nat × Nat) :=
  match o with
  | .mma f =>
    if f.a16 || f.psr then
      (selArrays f.array).flatMap (fun a => (List.range (f.nvec.val + 1)).map (fun j =>
        (t + j / vectorsPerCycle f.wFmt f.inFmt + 14, 4 * a + j % vectorsPerCycle f.wFmt f.inFmt)))
    else []
  | .cvt f => if f.round = .sr then (if f.rows2 then [(t + 4, 8), (t + 5, 8)] else [(t + 3, 8)]) else []
  | .stage f => if f.round = .sr then (List.range 4).map (fun k => (t + 3 + k, 8)) else []
  | .fn _ f => if f.round = .sr ∧ fnTarget f ≠ .f32 then [(t + 8, 9)] else []
  | _ => []

/-- The destination signal that stays on a die (R159). -/
def ownSignal (d : DieId) (o : Op) : Option Nat :=
  let near := fun (sp : Space) (td : DieId) => spaceNear sp || ((sp == .dieHbm || sp == .dieLpddr || sp == .dieSram) && td == d)
  match o with
  | .copy f => if near f.dstSpace f.targetDie then f.dsig.map (·.toNat) else none
  | .gather f => f.dsig.map (·.toNat)
  | .press _ f => if near f.dstSpace f.targetDie then f.dsig.map (·.toNat) else none
  | _ => none

/-- What an operation adds to tallies of its own die: SIG field, destination signal, TALLY.ADD. -/
def opSignals (d : DieId) (e : QEntry) : List (Nat × Nat) :=
  (match e.sig with
   | some (t, n) => [(t.toNat, n)]
   | none => [])
    ++ (match ownSignal d e.op with
        | some t => [(t, 1)]
        | none => [])
    ++ (match e.op with
        | .tallyAdd f => [(f.tally.toNat, f.count.toNat)]
        | _ => [])

/-- The declaration of a tally. -/
def declIn (ds : List Decl) (t : Nat) : Option Decl := ds.find? (fun x => x.tally == t)

/-- Check 9 of one operation against the counts of earlier words: its wait and its signals name declared tallies, and a wait
on a LOCAL tally is met (R152, R153). -/
def Sched.tallyOk (x : Sched) (d : DieId) (ds : List Decl) (e : QEntry) : Bool :=
  (match e.wait with
   | some (t, w) =>
     (match declIn ds t.toNat with
      | some c => c.remote || decide (w.toNat ≤ x.counts.getD t.toNat 0)
      | none => false)
   | none => true)
    && (opSignals d e).all (fun y => (declIn ds y.1).isSome)

/-- Take one operation of a word into the schedule. -/
def Sched.take (x : Sched) (audit : Bool) (window n : Nat) (e : Slot × QEntry) : Sched :=
  let o := e.2.op
  let t := x.startOf o
  let swapped := match o with
    | .mma f => if f.swap then x.pending.filter (fun a => !(selArrays f.array).contains a) else x.pending
    | .tload _ f => x.pending ++ [f.loader.val]
    | _ => x.pending
  let last := match o with
    | .mma f => some (t, f)
    | _ => if e.1 = .a then none else x.lastA
  { x with
    bad8 := if x.bad8.isNone && !x.fits audit window e then some n else x.bad8
    free := (opResources (e.1 == .m1) o).foldl (fun (m : AMap Nat) r => m.insert r (t + nomOccupancy audit o)) x.free
    lastA := last
    pending := swapped
    draws := x.draws ++ (if audit then [] else opDraws t o) }

/-- Take one word: its waits see the counts of earlier words only. -/
def Sched.word (x : Sched) (d : DieId) (audit : Bool) (window : Nat) (ds : List Decl) (w : PWord) : Sched :=
  let ok := w.ops.all (fun e => x.tallyOk d ds e.2)
  let x1 := w.ops.foldl (fun (y : Sched) e => y.take audit window w.no e) x
  { x1 with
    bad9 := if x.bad9.isNone && !ok then some w.no else x.bad9
    counts := (w.ops.flatMap (fun e => opSignals d e.2)).foldl
      (fun (m : AMap Nat) (y : Nat × Nat) => m.insert y.1 (m.getD y.1 0 + y.2)) x.counts
    nominal := x.nominal + w.delta }

/-- Take a list of words with loops unrolled at MAX (R158); the first argument bounds the length of the list. -/
def Sched.run (d : DieId) (audit : Bool) (window : Nat) (ds : List Decl) : Nat → List PWord → Sched → Sched
  | 0, _, x => x
  | _ + 1, [], x => x
  | n + 1, w :: ws, x =>
    let x1 := x.word d audit window ds w
    match w.loop? with
    | none => Sched.run d audit window ds n ws x1
    | some (b, m) =>
      let body := ws.take b
      let delta := (body.map (·.delta)).sum
      let x2 := (List.range m).foldl (fun (y : Sched) k =>
        Sched.run d audit window ds n body { y with nominal := x1.nominal + k * delta }) x1
      Sched.run d audit window ds n (ws.drop b) { x2 with nominal := x1.nominal + m * delta }

/-- The last cycle of the work window (R23). -/
def State.lastWork (s : State) : Nat := s.beat.cycles - s.beat.guard - 1

/-- A plan's stream examined.
DESIGN CHOICE, safe: log entry 147. -/
def State.schedule (s : State) (audit : Bool) (p : PPlan) : Sched :=
  let ws := s.wordsOf p
  Sched.run p.die audit s.lastWork p.decls (ws.length + 1) ws {}

/-- Check 8 of one plan. -/
def State.check8 (s : State) (audit : Bool) (p : PPlan) : Option Nat := (s.schedule audit p).bad8

/-- Check 9 of one plan: declarations unique, waits and signals, and the sums of LOCAL tallies. -/
def State.check9 (s : State) (audit : Bool) (p : PPlan) : Option Nat :=
  let x := s.schedule audit p
  if !(p.decls.map (·.tally)).Nodup then some 0
  else
    match x.bad9 with
    | some w => some w
    | none => wholePlan (p.decls.all (fun c => c.remote || x.counts.getD c.tally 0 == c.advance))

/-- Check 10 of one plan; every cell is taken as enabled.
DEDUCED, safe: log entry 28. -/
def State.check10 (s : State) (audit : Bool) (p : PPlan) : Option Nat := wholePlan (s.schedule audit p).draws.Nodup

/-! ## Checks 13, 15 and 16 -/

/-- The first word with an operation that a test refuses. -/
def State.wordWith (s : State) (p : PPlan) (f : Op → Bool) : Option Nat :=
  ((s.wordsOf p).find? (fun w => w.ops.any (fun e => f e.2.op))).map (·.no)

/-- Check 13 (R93). -/
def shortSr : Op → Bool
  | .mma f => !f.a16 && f.psr && decide (f.rlen.toNat ≤ 16)
  | _ => false

/-- Check 15 (R108). -/
def auditBarred : Op → Bool
  | .press o _ => o != .clear && o != .addI32
  | _ => false

/-- Check 16 (R53). -/
def usesAddBf16 : Op → Bool
  | .press o _ => o == .addBf16
  | _ => false

end Sys2Proof.Machine
end

