-- ==== Sys2Proof/Machine/StaticChecks.lean ====
section
/-! DEFINITION. The load checks 11, 12, 14 and 17 of R166, decided from the words of a plan as far as these determine the answer
(R95, R102, R120, R131, R184), and all checks in order. -/

namespace Sys2Proof.Machine

/-! ## What the words of a plan determine -/

/-- The answer of a check on one plan: it holds, the first word that breaks it, or the plan's words leave it open. -/
inductive Verdict where
  | holds
  | breaks (word : Nat)
  | open'
  deriving DecidableEq, Repr

/-- One access of an operation to bytes of a cell of a die: a vector register counts as 256 bytes of its own (R184). `wide` marks
binary32 data in SRAM; `known` that the words alone determine cell and address. -/
structure Access where
  die : Nat
  vreg : Bool
  cell : Nat
  lo : Nat
  len : Nat
  write : Bool
  wide : Bool
  known : Bool
  deriving DecidableEq, Repr

/-- An access to consecutive vector registers. -/
def regAccess (c r n : Nat) (write : Bool) : Access := ⟨0, true, c, r * 256, n * 256, write, false, true⟩

/-- An access of n bytes of SRAM that is not binary32. -/
def sramAccess (d c a n : Nat) (write : Bool) : Access := ⟨d, false, c, a, n, write, false, true⟩

/-- An SRAM access. -/
def touchAccess (wide : Bool) (t : Touch) : Access := { sramAccess 0 t.cell t.addr t.len t.write with wide := wide }

/-- The access of an operand of slots V and F. -/
def opndAccess (o : Opnd) (f : Fmt) (write : Bool) (c : Nat) : List Access :=
  match o with
  | .reg r => [regAccess c r.val 1 write]
  | _ => (if write then opndWrites o f c else opndReads o f c).map (touchAccess (f = .f32))

/-- The accesses of a broadcast operation in cell c (R173 to R192, R197). -/
def cellAccesses (o : Op) (c : Nat) : List Access :=
  match o with
  | .tload _ f => (tloadTouches f c).map (touchAccess false)
  | .mma f => (mmaTouches f c).map (touchAccess false)
  | .drain f => [regAccess c f.dst.val (f.nrows.val + 1) true]
  | .varith v f => (vopOperands v f).flatMap (fun x => opndAccess x f.sfmt false c) ++ opndAccess f.dst .f32 true c
  | .cvt f =>
    (cvtTouches f c).map (touchAccess false)
      ++ (match f.src with | .reg r => [regAccess c r.val (cvtRows f) false] | _ => [])
  | .unp f =>
    (unpTouches f c).map (touchAccess false)
      ++ (match f.dst with | .reg r => [regAccess c r.val (cvtRows f) true] | _ => [])
  | .stage f => [regAccess c f.src.val 4 false]
  | .vdrop f => opndAccess f.pos .f32 false c ++ opndAccess f.dst .f32 true c
  | .fn _ f => opndAccess f.src f.sfmt false c ++ opndAccess f.dst (fnTarget f) true c
  | .walk f => [sramAccess 0 c (ptrSram f.dst f.dstOff c) ((f.npage.val + 1) * partBytes f.part) true]
  | _ => []

/-- The die of this device whose SRAM a space names. -/
def spaceSram (d : DieId) (sp : Space) (t : DieId) : Option Nat :=
  match sp with
  | .sram => some d.val
  | .dieSram => some t.val
  | _ => none

/-- The access of a mover or a Press sender to n bytes of this device's SRAM at a place named by a space and a pointer. -/
def spaceAccess (d : DieId) (sp : Space) (t : DieId) (v : Nat) (cell : Option Nat) (n : Nat) (write : Bool) : List Access :=
  (spaceSram d sp t).toList.map (fun x => sramAccess x (cell.getD (v / 2 ^ 22 % 64)) (v % 2 ^ 22) n write)

/-- The accesses of one pass of a mover or a Press sender to this device's SRAM (R194 to R196, R200). -/
def passAccesses (d : DieId) (o : Op) (c : Nat) : List Access :=
  match o with
  | .copy f =>
    let cell := if f.expand then some c else none
    let n := 256 * (f.len.toNat + 1)
    spaceAccess d f.srcSpace f.targetDie (ptrAt f.src c) cell n false
      ++ spaceAccess d f.dstSpace f.targetDie (ptrAt f.dst c) cell n true
  | .gather f =>
    let l := gatherList f c
    sramAccess d.val l.1 l.2.1 (4 * l.2.2) false ::
      spaceAccess d f.dstSpace d (ptrAt f.dst c) (if f.expand then some c else none)
        (256 * (f.count.toNat + 1) * (f.rowBlocks.toNat + 1)) true
  | .press p f =>
    let cell := if f.expand then some c else none
    let n := f.len.toNat + 1
    (if p = .clear then []
     else if pressIsFinish p then
      (List.range n).flatMap (fun k =>
        match pressSrc d f.srcSpace (ptrAt f.src c) cell k with
        | .sram _ x a m => [sramAccess d.val x a 256 false, sramAccess d.val x m 4 false]
        | .ext .. => [])
        ++ spaceAccess d f.dstSpace d (ptrAt f.dst c) cell (128 * n) true
     else spaceAccess d f.srcSpace d (ptrAt f.src c) cell (256 * n) false)
      ++ (if pressUsesAux p then spaceAccess d f.srcSpace d (ptrAt f.aux c) cell n false else [])
  | _ => []

/-- The passes of a mover or a Press sender under a mask. -/
def opPasses (mask : W64) (o : Op) : List Nat :=
  match o with
  | .copy f => passCells f.expand mask
  | .gather f => passCells f.expand mask
  | .press _ f => passCells f.expand mask
  | _ => []

/-- The accesses of an operation to registers and SRAM. -/
def opAccesses (d : DieId) (mask : W64) (o : Op) : List Access :=
  ((maskCells mask).flatMap (cellAccesses o)).map (fun a => { a with die := d.val }) ++ (opPasses mask o).flatMap (passAccesses d o)

/-! ## The stream with its registers, as far as the words give them -/

/-- An operation of the unrolled stream: its slot and word, its entry, the same entry under other values of what the words leave
open, and how many times CELL_MASK has been set before it. -/
structure ScanOp where
  word : Nat
  slot : Slot
  entry : QEntry
  others : List QEntry
  masks : Nat
  deriving DecidableEq, Repr

/-- An examination in progress: a front end for which every open value is 0, others for which it is some other value, the MASK.SETs
taken and the operations. What is the same in all of them does not rest on an open value; two things that are the same in each
of them are one. -/
structure Scan where
  fe : FrontEnd
  alts : List FrontEnd
  masks : Nat
  ops : List ScanOp
  deriving DecidableEq, Repr

/-- The value that an examination takes for open value n, of its front end k. -/
def guess (k n : Nat) : W32 := if k = 0 then 0 else BitVec.ofNat 32 ((n + 1) * (2654435761 + 81006 * k))

/-- The open values by number: S0 to S15 of the batch descriptor, then what S.READ gives. -/
def openNo : ReadSrc → Nat
  | .jobBeatLo => 16 | .jobBeatHi => 17 | .beatCountLo => 18 | .beatCountHi => 19 | .nan => 20 | .inf => 21 | .ovf => 22
  | .deviceId => 23 | .dieNo => 24 | .orchard => 25 | .slot => 26 | .plan => 27

/-- What S.READ gives that is fixed when a plan set is loaded: die, ORCHARD_SIZE, schedule slot, plan index (R204). -/
def fixedRead (d : DieId) (size slot index : Nat) : ReadSrc → Option W32
  | .dieNo => some (BitVec.ofNat 32 d.val)
  | .orchard => some (BitVec.ofNat 32 size)
  | .slot => some (BitVec.ofNat 32 slot)
  | .plan => some (BitVec.ofNat 32 index)
  | _ => none

/-- The control operation of a word on front end k of an examination. -/
def scanControl (fixed : ReadSrc → Option W32) (k : Nat) (f : FrontEnd) (c : Option CtrlOp) : FrontEnd :=
  match c with
  | some x => f.control (fun r => (fixed r).getD (guess k (openNo r))) x
  | none => f

/-- A word decoded by one front end of an examination. -/
def scanDecode (n w : Nat) (f : FrontEnd) : Option (List (Slot × QEntry) × Option CtrlOp) :=
  f.decodeWord { checkIssue n with mask := f.mask } w

/-- Take one word into an examination. -/
def Scan.take (x : Scan) (fixed : ReadSrc → Option W32) (n w : Nat) : Scan :=
  match scanDecode n w x.fe with
  | none => x
  | some (es, c) =>
    let alts := x.alts.map (fun f => (f, (scanDecode n w f).getD (es, c)))
    { fe := scanControl fixed 0 x.fe c
      alts := alts.zipIdx.map (fun p => scanControl fixed (p.2 + 1) p.1.1 p.1.2.2)
      masks := match c with
        | some (.maskSet _) => x.masks + 1
        | _ => x.masks
      ops := x.ops ++ es.zipIdx.map (fun p =>
        ⟨n, p.1.1, p.1.2, alts.map (fun a => ((a.2.1[p.2]?).getD p.1).2), x.masks⟩) }

/-- An examination with other loops in progress. -/
def Scan.withLoops (x : Scan) (l : List LoopFrame) : Scan :=
  { x with fe := { x.fe with loops := l }, alts := x.alts.map (fun f => { f with loops := l }) }

/-- Take a list of words with loops unrolled at MAX (R158); the first argument bounds the length of the list. -/
def Scan.run (fixed : ReadSrc → Option W32) : Nat → List (Nat × Nat) → Scan → Scan
  | 0, _, x => x
  | _ + 1, [], x => x
  | k + 1, (n, w) :: ws, x =>
    let x1 := x.take fixed n w
    match (decodeWord n w).bind PWord.loop? with
    | none => Scan.run fixed k ws x1
    | some (b, m) =>
      let outer := x1.fe.loops
      let x2 := (List.range m).foldl (fun (y : Scan) j =>
        Scan.run fixed k (ws.take b) (y.withLoops (⟨0, b, m, m, j, 0, 0, false⟩ :: outer))) x1
      Scan.run fixed k (ws.drop b) (x2.withLoops outer)

/-- The front end k at the plan's opening: the batch descriptor in S0 to S15 is open (R160). -/
def scanFront (k : Nat) : FrontEnd := (List.range 16).foldl (fun (f : FrontEnd) n => f.putScalar n (guess k n)) FrontEnd.reset

/-- The operations of a plan, its loops unrolled at MAX. -/
def State.scan (s : State) (o : Nat) (p : PPlan) : List ScanOp :=
  let ws := (List.range p.wordCount).map (fun n => (n, s.planWordAt p n))
  (Scan.run (fixedRead p.die (s.planSetOf o).orchardSize p.slot p.index) (ws.length + 1) ws
    ⟨scanFront 0, [scanFront 1, scanFront 2], 0, []⟩).ops

/-- CELL_MASK at an operation does not rest on an open value. -/
def ScanOp.maskKnown (x : ScanOp) : Bool := x.others.all (fun e => e.issue.mask == x.entry.issue.mask)

/-- The accesses of an operation of the stream, known where no open value matters. -/
def ScanOp.accesses (x : ScanOp) (d : DieId) : List Access :=
  let others := x.others.map (fun e => opAccesses d e.issue.mask e.op)
  (opAccesses d x.entry.issue.mask x.entry.op).zipIdx.map (fun p =>
    { p.1 with known := x.maskKnown && others.all (fun l => l[p.2]? == some p.1) })

/-- Two accesses share bytes for certain. -/
def Access.meets (x y : Access) : Bool :=
  x.known && y.known && x.die == y.die && x.vreg == y.vreg && x.cell == y.cell && decide (x.lo < y.lo + y.len) && decide (y.lo < x.lo + x.len)

/-- Two accesses may share bytes. -/
def Access.mayMeet (x y : Access) : Bool := x.die == y.die && x.vreg == y.vreg && ((!x.known || !y.known) || x.meets y)

/-- Some access of one list and some access of another meet, one of them a write. -/
def conflict (meet : Access → Access → Bool) (xs ys : List Access) : Bool :=
  xs.any (fun x => ys.any (fun y => (x.write || y.write) && meet x y))

/-! ## Check 11 (R120, R184) -/

/-- The resources of an operation of the stream (R169). -/
def ScanOp.units (x : ScanOp) : List Nat := opResources (x.slot == .m1) x.entry.op

/-- Two operations run on one unit, where accesses take effect in issue order. -/
def ScanOp.sameUnit (x y : ScanOp) : Bool := x.units.any (fun r => y.units.contains r)

/-- What an operation adds to a tally of its die. -/
def ScanOp.adds (x : ScanOp) (d : DieId) (t : Nat) : Nat := (((opSignals d x.entry).filter (fun p => p.1 == t)).map (·.2)).sum

/-- An operation of a unit completes after an earlier one of that unit. -/
def ScanOp.completesAfter (x y : ScanOp) (audit : Bool) : Bool :=
  y.sameUnit x && (match opOccupancy audit y.entry.issue y.entry.op with
    | some n => decide (nomLatency audit y.entry.op ≤ n + nomLatency audit x.entry.op)
    | none => true)

/-- What has happened before an operation starts: for each slot how many operations of the stream, from the front, it has started
if they are its own, and for each unit how many it has carried out. -/
structure Before where
  started : AMap Nat
  done : AMap Nat
  deriving DecidableEq, Repr

/-- One round: whatever a started operation follows has completed, and has itself started. -/
def Before.step (follow : Nat → Nat → Bool) (ops : List ScanOp) (b : Before) : Before :=
  ops.zipIdx.foldl (fun (b : Before) p =>
    if decide (p.2 < b.started.getD (slotNo p.1.slot) 0) then
      (ops.take p.2).zipIdx.foldl (fun (b : Before) q =>
        if follow p.2 q.2 then
          ⟨b.started.insert (slotNo q.1.slot) (max (b.started.getD (slotNo q.1.slot) 0) (q.2 + 1)),
            q.1.units.foldl (fun (m : AMap Nat) r => m.insert r (max (m.getD r 0) (q.2 + 1))) b.done⟩
        else b) b
    else b) b

/-- Operation i is ordered before operation j of the stream. -/
def ordered (follow : Nat → Nat → Bool) (ops : List ScanOp) (i j : Nat) : Bool :=
  match ops[i]?, ops[j]? with
  | some x, some y =>
    let b := (List.range ops.length).foldl (fun (b : Before) _ => b.step follow ops)
      ⟨AMap.insert [] (slotNo y.slot) (j + 1), []⟩
    x.units.all (fun r => decide (i < b.done.getD r 0))
  | _, _ => false

/-- Operation j of the stream starts only after operation i has completed: j waits on a LOCAL tally for more than everything else
can add that neither follows i on its unit, nor j in its queue, nor j by other waits as far as these are known (R151 to R153). -/
def mustFollow (audit : Bool) (d : DieId) (ds : List Decl) (ops : List ScanOp) (after : Nat → Nat → Bool) (j i : Nat) : Bool :=
  match ops[j]?, ops[i]? with
  | some y, some x =>
    match y.entry.wait with
    | some (t, w) =>
      (match declIn ds t.toNat with | some c => !c.remote | none => false) && decide (0 < x.adds d t.toNat)
        && decide (((ops.zipIdx.filter (fun p => p.2 != i && !(decide (j ≤ p.2) && p.1.slot == y.slot) && !after j p.2
          && !(decide (i < p.2) && p.1.completesAfter x audit))).map (fun p => p.1.adds d t.toNat)).sum < w.toNat)
    | none => false
  | _, _ => false

/-- Operation j of the stream waits on a REMOTE tally: what it follows then rests on the plans of others. -/
def remoteWait (ds : List Decl) (ops : List ScanOp) (j : Nat) : Bool :=
  match (ops[j]?).bind (·.entry.wait) with
  | some (t, _) => (match declIn ds t.toNat with | some c => c.remote | none => true)
  | none => false

/-- The pairs of which the first surely follows the second, found in rounds: what follows an operation for certain cannot be what
that operation waits for. -/
def followRounds (audit : Bool) (d : DieId) (ds : List Decl) (ops : List ScanOp) : Nat → List (Nat × Nat)
  | 0 => []
  | n + 1 =>
    let r := followRounds audit d ds ops n
    let after := fun (j k : Nat) => decide (j < k) && ordered (fun a b => r.contains (a, b)) ops j k
    (List.range ops.length).flatMap (fun j =>
      ((List.range j).filter (fun i => mustFollow audit d ds ops after j i)).map (fun i => (j, i)))

/-- Check 11 of one plan: two units, overlapping bytes, at least one write, and no tally that orders them. Only a wait on a REMOTE
tally, or bytes that the words do not name, leave it open.
DEDUCED, unsafe: log entry 184. -/
def State.check11 (s : State) (o : Nat) (p : PPlan) : Verdict :=
  let ops := s.scan o p
  let acc := ops.map (fun x => (x.accesses p.die).filter (fun a => a.die == p.die.val))
  let sure := followRounds (s.planSetOf o).audit p.die p.decls ops (ops.length + 1)
  let follows := fun (j i : Nat) => sure.contains (j, i)
  let apart := ((List.range ops.length).flatMap (fun j => (List.range j).map (fun i => (i, j)))).filter (fun q =>
    match ops[q.1]?, ops[q.2]? with
    | some x, some y => !x.sameUnit y
    | _, _ => false)
  let clash := fun (meet : Access → Access → Bool) (q : Nat × Nat) => conflict meet (acc.getD q.1 []) (acc.getD q.2 [])
  match apart.find? (fun q => clash Access.meets q && !ordered (fun j i => follows j i || remoteWait p.decls ops j) ops q.1 q.2) with
  | some q => .breaks ((ops[q.2]?.map (·.word)).getD 0)
  | none => if apart.any (fun q => clash Access.mayMeet q && !ordered follows ops q.1 q.2) then .open' else .holds

/-! ## Check 12 (R100 to R102) -/

/-- Byte k of an access lies in an access. -/
def Access.byteIn (a : Access) (k : Nat) (w : Access) : Bool :=
  w.die == a.die && w.vreg == a.vreg && w.cell == a.cell && decide (w.lo ≤ a.lo + k) && decide (a.lo + k < w.lo + w.len)

/-- Every byte of an access lies in some access of a list. -/
def Access.coveredBy (a : Access) (l : List Access) : Bool := (List.range a.len).all (fun k => l.any (a.byteIn k))

/-- An access reads a byte of another one that no access of a list covers. -/
def Access.reaches (a h : Access) (l : List Access) : Bool :=
  a.known && h.known && (List.range a.len).any (fun k => a.byteIn k h && !l.any (a.byteIn k))

/-- What one pass over a plan finds: the writes to SRAM in order, a copy of binary32 data inside SRAM counting as binary32, and for
each operation its word, its reads and the number of writes before it. -/
structure WideScan where
  writes : List Access
  reads : List (ScanOp × List Access × Nat)
  deriving DecidableEq, Repr

/-- The writes of binary32 that a list of writes has left, which no later write may have changed. -/
def heldWide (writes : List Access) : List Access :=
  (writes.zipIdx.filter (fun p => p.1.wide && !(writes.drop (p.2 + 1)).any (fun v => v.mayMeet p.1))).map (·.1)

/-- Take one operation: a mover's write is binary32 if what it reads is. -/
def WideScan.take (x : WideScan) (d : DieId) (o : ScanOp) : WideScan :=
  let acc := (o.accesses d).filter (fun a => !a.vreg)
  let reads := acc.filter (fun a => !a.write)
  let carried := (match o.entry.op with | .copy _ => true | _ => false)
    && reads.any (fun a => (heldWide x.writes).any (fun h => a.meets h))
  { writes := x.writes ++ ((acc.filter (·.write)).map (fun a => { a with wide := a.wide || carried }))
    reads := x.reads ++ [(o, reads, x.writes.length)] }

/-- One pass over a plan. -/
def State.wideScan (s : State) (o : Nat) (p : PPlan) : WideScan :=
  (s.scan o p).foldl (fun (x : WideScan) y => x.take p.die y) ⟨[], []⟩

/-- The die of this device in whose SRAM an operation leaves what it carries. -/
def carriesTo (d : DieId) : Op → Option Nat
  | .copy f => spaceSram d f.dstSpace f.targetDie
  | .gather f => spaceSram d f.dstSpace d
  | .press o f => if o = .clear then some d.val else spaceSram d f.dstSpace f.targetDie
  | _ => some d.val

/-- An outbound operation that may end in a Press reduction buffer. -/
def State.mayReachPress (s : State) (x : ScanOp) : Bool :=
  match x.entry.op with
  | .copy f =>
    x.others.any (fun e => e.op != x.entry.op) || spaceDev f.dstSpace || f.expand
      || s.touchesRegion .press (spaceLp f.dstSpace) (ptrAt f.dst 0) (f.len.toNat + 1)
  | _ => true

/-- A plan converts Press buffers back to a 16-bit format. -/
def State.finishesPress (s : State) (p : PPlan) : Bool :=
  (s.wordWith p (fun o => match o with
    | .press k _ => pressIsFinish k
    | _ => false)).isSome

/-- What one operation's reads do to check 12: binary32 read where the plan has not written it, and binary32 carried to another die,
another device, HBM or LPDDR. `held` gives the binary32 that the plans of the same index leave in the SRAM of the other dies,
`wide` all that they write there, and `finish` whether one of these plans converts Press buffers back. -/
def wideVerdict (reach finish : Bool) (d : DieId) (x : ScanOp) (reads before held wide : List Access) : Verdict :=
  let unread := reads.filter (fun a => a.wide && !(a.known && a.coveredBy (before.filter (·.known))))
  let out := reads.filter (fun a => carriesTo d x.entry.op != some a.die)
  let sure := heldWide before ++ held
  if unread.any (fun a => a.known && before.all (·.known)) then .breaks x.word
  else if out.any (fun a => sure.any (fun h => a.meets h)) && !(reach && finish) then .breaks x.word
  else if !unread.isEmpty || out.any (fun a => (before.filter (·.wide) ++ wide).any (fun h => a.mayMeet h)) then .open'
  else .holds

/-- The reads of a plan that may see what earlier beats left in SRAM, with the writes before them. -/
def WideScan.exposed (x : WideScan) : List (Access × List Access) :=
  x.reads.flatMap (fun r => r.2.1.map (fun a => (a, (x.writes.take r.2.2).filter (·.known))))

/-- The slots that come after slot a and before a later slot b of the schedule, b's next beat. -/
def slotsBetween (len a b : Nat) : List Nat :=
  (List.range ((b + len - a - 1) % len)).map (fun k => (a + 1 + k) % len)

/-- Every plan of its die of some slot in between writes all of a region: what lay there does not live on. -/
def overwritten (len a b : Nat) (h : Access) (scans : List (PPlan × WideScan)) : Bool :=
  (slotsBetween len a b).any (fun k =>
    (scans.filter (fun q => q.1.slot == k && q.1.die.val == h.die)).all (fun q => h.coveredBy (q.2.writes.filter (·.known))))

/-- Check 12 of one plan: binary32 read where the plan has not written it, carried out of the cells, or left in SRAM where a later
beat reads it, live across the boundary. Only bytes that the words do not name leave it open.
DEDUCED, unsafe: log entry 184. -/
def State.check12 (s : State) (len : Nat) (ps : List PPlan) (o : Nat) (p : PPlan) : Verdict :=
  let scans := ps.map (fun q => (q, s.wideScan o q))
  let mine := s.wideScan o p
  let peers := scans.filter (fun q => q.1.index == p.index && q.1.die != p.die)
  let held := peers.flatMap (fun q => heldWide q.2.writes)
  let wide := peers.flatMap (fun q => q.2.writes.filter (·.wide))
  let finish := s.finishesPress p || peers.any (fun q => s.finishesPress q.1)
  let vs := mine.reads.map (fun r => wideVerdict (s.mayReachPress r.1) finish p.die r.1 r.2.1 (mine.writes.take r.2.2) held wide)
  let left := heldWide mine.writes
  let lives := fun (test : Access → Access → List Access → Bool) =>
    left.any (fun h => scans.any (fun q =>
      q.2.exposed.any (fun e => test e.1 h e.2) && !overwritten len p.slot q.1.slot h scans))
  match vs.find? (fun v => v != .holds && v != .open') with
  | some v => v
  | none =>
    if lives Access.reaches then .breaks (p.wordCount - 1)
    else if vs.contains .open' || lives (fun a h _ => (!a.known || !h.known) && a.mayMeet h) then .open'
    else .holds

/-! ## Check 14 (R95) -/

/-- An operation that rounds stochastically or totals in A16: such promotions, or a conversion in mode SR. -/
def drawsSr : Op → Bool
  | .mma f => f.a16 || f.psr
  | .cvt f => f.round == .sr
  | .stage f => f.round == .sr
  | .fn _ f => f.round == .sr && fnTarget f != .f32
  | _ => false

/-- An array operation. -/
def isMma : Op → Bool
  | .mma _ => true
  | _ => false

/-- Check 14 of one plan: a plan of the empty mix has no serving rows (R35). In a serving plan set all work of another mix lies in
the path of a serving row. In a TRAINING set the words do not tell whose rows an operation works on, unless every array operation
of the mix rounds so.
DEDUCED, unsafe: log entry 184. -/
def State.check14 (s : State) (training : Bool) (ps : List PPlan) (_ : Nat) (p : PPlan) : Verdict :=
  if p.mix = 0 then .holds
  else
    match s.wordWith p drawsSr with
    | none => .holds
    | some w =>
      let mix := ps.filter (fun q => q.mix == p.mix)
      if !training then .breaks w
      else if mix.all (fun q => (s.wordWith q (fun o => isMma o && !drawsSr o)).isNone)
          && mix.any (fun q => (s.wordWith q isMma).isSome) then .breaks w
      else .open'

/-! ## Check 17 (R130, R131) -/

/-- A staging slot as the words name it: its cell, its sequence and head under each front end of the examination, its layer; how
many MASK.SETs came before, where the mask is open; the tokens staged, and whether they have 8 bits. -/
structure ScanSlot where
  cell : Nat
  names : List (Nat × Nat)
  layer : Nat
  masks : Option Nat
  tokens : Nat
  narrow : Bool
  deriving DecidableEq, Repr

/-- Rows that a slot of the examination may take, at most those of one page. -/
def ScanSlot.rows (x : ScanSlot) : Nat := min 128 (if x.narrow then ceilDiv x.tokens 2 else x.tokens)

/-- The two slots are one by name (R130). -/
def ScanSlot.same (x y : ScanSlot) : Bool :=
  x.cell == y.cell && x.names == y.names && x.layer == y.layer && (x.masks == y.masks || y.masks.isNone)

/-- The slots of the examination after one more token in a slot, which closes when the token is the last of its page. -/
def stageScan (l : List ScanSlot) (x : ScanSlot) (last : Bool) : List ScanSlot :=
  let rest := l.filter (fun y => !y.same x)
  if last then rest else { x with tokens := ((l.find? (fun y => y.same x)).map (·.tokens)).getD 0 + 1 } :: rest

/-- The slots fit the buffer of every cell. -/
def scanFits (l : List ScanSlot) : Bool :=
  (List.range 64).all (fun c =>
    let m := l.filter (fun x => x.cell == c)
    decide (m.length ≤ 64) && decide ((m.map ScanSlot.rows).sum ≤ 512))

/-- The cells that an operation may act on, and the mark of an open mask. -/
def ScanOp.reach (x : ScanOp) : List Nat × Option Nat :=
  if x.maskKnown then (maskCells x.entry.issue.mask, none) else (List.range 64, some x.masks)

/-- The slot that a STAGE or a FLUSH.TAIL names in a cell, by what gives sequence, head and layer of an entry. -/
def ScanOp.slotAt (x : ScanOp) (f : Op → Nat × Nat × Nat) (narrow : Bool) (c : Nat) : ScanSlot :=
  { cell := c, names := (x.entry :: x.others).map (fun e => ((f e.op).1, (f e.op).2.1)), layer := (f x.entry.op).2.2,
    masks := x.reach.2, tokens := 0, narrow := narrow }

/-- Sequence, head and layer of a STAGE or a FLUSH.TAIL in a cell. -/
def stageNames (c : Nat) : Op → Nat × Nat × Nat
  | .stage f => (ptrAt f.seq c, ptrAt f.head c, f.layer.toNat)
  | .flushTail f => (ptrAt f.seq c, ptrAt f.head c, f.layer.toNat)
  | _ => (0, 0, 0)

/-- The position of a STAGE is, whatever the open values, the last of a page. -/
def ScanOp.lastToken (x : ScanOp) (tpp c : Nat) : Bool :=
  (x.entry :: x.others).all (fun e => match e.op with
    | .stage g => ptrAt g.pos c % tpp == tpp - 1
    | _ => false)

/-- Check 17 over the operations that follow: the slots that may still be open, and the word of the last STAGE; the answer is the
word at which more slots or rows than the buffer has could be open, or after which a slot could be left. -/
def stageRun : List ScanOp → List ScanSlot → Nat → Option Nat
  | [], l, w => if l.isEmpty then none else some w
  | x :: xs, l, w =>
    match x.entry.op with
    | .stage f =>
      let narrow := fmtWidth f.fmt == 8
      let l1 := x.reach.1.foldl (fun (m : List ScanSlot) c =>
        stageScan m (x.slotAt (stageNames c) narrow c) (x.lastToken (if narrow then 256 else 128) c)) l
      if scanFits l1 then stageRun xs l1 x.word else some x.word
    | .flushTail _ =>
      stageRun xs (l.filter (fun y => !(x.reach.1.contains y.cell && y.same (x.slotAt (stageNames y.cell) y.narrow y.cell)))) w
    | _ => stageRun xs l w

/-- Check 17 of one plan, refused where its words do not keep it for every value of what they leave open.
DEDUCED, unsafe: log entry 184. -/
def stageFault (ops : List ScanOp) : Option Nat := stageRun ops [] 0

/-! ## Checks with open answers -/

/-- The answer of a check that the image leaves open.
DESIGN CHOICE, safe: log entry 26. -/
def State.openCheck (s : State) (o n : Nat) : Option Place :=
  if Config.loadCheckHolds n (s.imageBytes o) then none else some (0, 0, 0)

/-- A check that the words of the plans decide as far as they go.
DESIGN CHOICE, safe: log entry 26. -/
def State.ruled (s : State) (o n : Nat) (ps : List PPlan) (f : Nat → PPlan → Verdict) : Option Place :=
  match firstPlan ps (fun p => match f o p with | .breaks w => some w | _ => none) with
  | some x => some x
  | none => if ps.any (fun p => f o p == .open') then s.openCheck o n else none

/-! ## All checks in order (R166) -/

/-- One check of an image: the place that it refuses.
DESIGN CHOICE, safe: log entry 26. -/
def State.loadCheck (s : State) (o n : Nat) : Option Place :=
  let set := s.planSetOf o
  let ps := s.plansOf o
  match n with
  | 1 => s.check1 o
  | 2 => s.check2 o
  | 3 => s.check3 o
  | 4 => s.check4 o
  | 5 => check5 ps
  | 6 => check6 ps
  | 7 => firstPlan ps s.check7
  | 8 => firstPlan ps (s.check8 set.audit)
  | 9 => firstPlan ps (s.check9 set.audit)
  | 10 => firstPlan ps (s.check10 set.audit)
  | 13 => firstPlan ps (fun p => s.wordWith p shortSr)
  | 14 => if set.rowInvariant then s.ruled o 14 ps (s.check14 set.training ps) else none
  | 15 => if set.audit then firstPlan ps (fun p => s.wordWith p auditBarred) else none
  | 16 => if set.nondeterministic then none else firstPlan ps (fun p => s.wordWith p usesAddBf16)
  | 11 => s.ruled o 11 ps s.check11
  | 12 => s.ruled o 12 ps (s.check12 set.scheduleLength ps)
  | 17 => firstPlan ps (fun p => stageFault (s.scan o p))
  | _ => if set.training then s.openCheck o 18 else none

/-- The checks in order: the first that refuses, with its place.
DESIGN CHOICE, safe: log entry 26. -/
def State.loadFault (s : State) (o : Nat) : Option (Nat × Place) :=
  (List.range 18).findSome? (fun i => (s.loadCheck o (i + 1)).map (fun x => (i + 1, x)))

/-- The device holds a plan set: the directory and plan lines stand in the plan stores, the table in admission (R165). -/
def State.adoptImage (s : State) (o : Nat) : State :=
  let m := allDies.foldl (fun (m : Memory) d =>
    let base := s.partBase o d.val
    (m.clearRange (planKey d 0) (2 ^ 23)).writeBytes (planKey d 0) (s.windowGet base (128 * s.partLines base))) s.mem.plan
  { s with mem := { s.mem with plan := m, planDouble := [], planSingle := [] }
           job := { s.job with phase := .loaded, planSet := some (s.planSetOf o) } }

end Sys2Proof.Machine
end

