-- ==== Sys2Proof/Machine/Jobs.lean ====
section
/-! DEFINITION. Jobs and training: LOAD, START, STOP and ABORT, the job description and its checks, preparation, the start and
end of a job, the update-skip unit, training tables, versions and the stash, drop-out keys, statistics (R266 to R295). -/

namespace Sys2Proof.Machine

/-! ## The job description (R268, R269) -/

/-- The bytes of a description. -/
def State.jobBytes (s : State) (o : Nat) : Nat := 128 + 16 * s.windowLE (o + 12) 2 + 64 * s.windowLE (o + 10) 2

/-- Range entry i. -/
def State.rangeEntry (s : State) (o i : Nat) : RangeEntry :=
  let a := o + 128 + 16 * i
  ⟨s.windowLE a 1 == 4, s.windowLE (a + 2) 2, s.windowLE (a + 4) 4, s.windowLE (a + 8) 4⟩

/-- The optimizer of a code. -/
def optimizerOf : Nat → Optimizer
  | 0 => .adamw
  | 1 => .sgdm
  | _ => .sign

/-- Train entry i. -/
def State.trainEntry (s : State) (o i : Nat) : TrainEntry :=
  let a := o + 128 + 16 * s.windowLE (o + 12) 2 + 64 * i
  let w := fun (k : Nat) => BitVec.ofNat 32 (s.windowLE (a + k) 4)
  { handle := s.windowLE a 2, slotA := s.windowLE (a + 2) 2, slotB := s.windowLE (a + 4) 2,
    optimizer := optimizerOf (s.windowLE (a + 6) 1), keep := s.windowLE (a + 7) 1, lr := w 8, beta1 := w 12, beta2 := w 16,
    epsilon := w 20, weightDecay := w 24, warmup := s.windowLE (a + 28) 4 }

/-- The job description at a window offset. -/
def State.jobDescAt (s : State) (o : Nat) : JobDesc :=
  { microBatches := s.windowLE (o + 14) 2, jobTag := s.windowLE (o + 16) 4, updateSlot := s.windowLE (o + 20) 2,
    updateBeats := s.windowLE (o + 22) 2, jobSeed := BitVec.ofNat 64 (s.windowLE (o + 24) 8),
    startBeat := s.windowLE (o + 32) 8, planSetId := s.windowLE (o + 40) 8, firstStep := s.windowLE (o + 48) 8,
    maxSteps := s.windowLE (o + 56) 8, fillChunkBlocks := s.windowLE (o + 64) 4, fillChunksPerBeat := s.windowLE (o + 68) 1,
    gradHeadroom := s.windowLE (o + 69) 1, tableTally := s.windowLE (o + 70) 2, straddle := s.windowLE (o + 72) 2,
    releaseSlot := s.windowLE (o + 74) 2, endSlot := s.windowLE (o + 76) 2,
    ranges := (List.range (s.windowLE (o + 12) 2)).map (s.rangeEntry o),
    trains := (List.range (s.windowLE (o + 10) 2)).map (s.trainEntry o) }

/-! ## Checks of START (R270) -/

/-- A JOB_RESULT with the entry that it is about, if there is one. -/
abbrev Refused := Nat × Option Nat

/-- DESC_CRC holds: CRC-32C over the whole description with the field zero. -/
def State.descCrcOk (s : State) (o : Nat) : Bool :=
  let b := s.windowGet o (s.jobBytes o)
  fieldLE b 124 4 == crc32c (b.take 124 ++ [0, 0, 0, 0] ++ b.drop 128)

/-- Reserved bytes of a description are zero. -/
def State.descReserved (s : State) (o : Nat) : Bool :=
  s.windowZero (o + 78) 46
    && (List.range (s.windowLE (o + 12) 2)).all (fun i =>
      s.windowZero (o + 129 + 16 * i) 1 && s.windowZero (o + 140 + 16 * i) 4)
    && (List.range (s.windowLE (o + 10) 2)).all (fun i =>
      s.windowZero (o + 160 + 16 * s.windowLE (o + 12) 2 + 64 * i) 32)

/-- The region of a range entry. -/
def RangeEntry.region (e : RangeEntry) : Region := if e.press then .press else .checkpoint

/-- A range entry lies in its region and overlaps no other of the list. -/
def State.rangeOk (s : State) (es : List RangeEntry) (i : Nat) (e : RangeEntry) : Bool :=
  decide (1 ≤ e.keySlot) && decide (e.keySlot ≤ 4095) && decide (e.firstPage + e.pages ≤ s.regionPages e.region)
    && es.zipIdx.all (fun (x : RangeEntry × Nat) => x.2 == i || x.1.press != e.press
      || decide (e.firstPage + e.pages ≤ x.1.firstPage) || decide (x.1.firstPage + x.1.pages ≤ e.firstPage))

/-- The fields of a description lie in their ranges. -/
def State.descFields (s : State) (o : Nat) (d : JobDesc) (len : Nat) : Bool :=
  decide (d.trains.length ≤ 512) && decide (d.ranges.length ≤ 64)
    && (if d.trains = [] then d.microBatches == 0 else decide (1 ≤ d.microBatches) && decide (d.microBatches ≤ 4096))
    && d.jobTag != 0 && decide (1 ≤ d.updateBeats) && decide (d.gradHeadroom ≤ 8) && decide (d.tableTally ≤ 8191)
    && decide (d.straddle ≤ d.microBatches) && decide (d.updateSlot + d.updateBeats ≤ len)
    && decide (d.updateSlot + d.updateBeats ≤ d.releaseSlot) && decide (d.releaseSlot ≤ len - 1) && decide (d.endSlot < len)
    && (List.range d.ranges.length).all (fun i => s.windowLE (o + 128 + 16 * i) 1 == 3 || s.windowLE (o + 128 + 16 * i) 1 == 4)
    && d.ranges.zipIdx.all (fun (x : RangeEntry × Nat) => s.rangeOk d.ranges x.2 x.1)
    && (List.range d.trains.length).all (fun i =>
      decide (s.windowLE (o + 128 + 16 * d.ranges.length + 64 * i + 6) 1 ≤ 2))

/-- Order 2 of R270. -/
def State.descOk (s : State) (o : Nat) (len : Nat) : Bool :=
  s.inWindow o 128 && s.inWindow o (s.jobBytes o) && s.windowGet o 8 == asciiBytes "BNXJOBDS" && s.windowLE (o + 8) 2 == 1
    && s.descCrcOk o && s.descReserved o && s.descFields o (s.jobDescAt o) len
    && (s.jobDescAt o).fillChunkBlocks == s.param P.fillChunkBlocks
    && (s.jobDescAt o).fillChunksPerBeat == s.param P.fillChunksPerBeat

/-- Devices of the orchard as this device knows them: itself and those that its active routes name.
DESIGN CHOICE, unsafe: log entry 59. -/
def State.orchardCount (s : State) : Nat :=
  1 + (List.range 1024).countP (fun n => n != s.param P.deviceId && (s.blob (P.routeActive 0)).getD (8 * n + 7) 0 ≥ 0x80#8)

/-- The first train entry whose handle cannot be trained (order 5). -/
def State.untrainable (s : State) (d : JobDesc) : Option Nat :=
  (d.trains.zipIdx.find? (fun (x : TrainEntry × Nat) =>
    (match s.adapter? x.1.handle with
     | some a => a.invalid || a.revoking || !a.trainState
     | none => true)
    || (d.trains.take x.2).any (fun y => y.handle == x.1.handle))).map (fun (x : TrainEntry × Nat) => x.2)

/-- A cache slot cannot be given to a trained adapter. -/
def State.slotTaken (s : State) (n : Nat) : Bool :=
  decide (1023 < n) || (match s.adm.slots.find? n with
    | some c => c.phase == .filling || s.slotPins n c != 0
    | none => false)

/-- The first train entry whose slots are not available (order 6). -/
def State.slotless (s : State) (d : JobDesc) : Option Nat :=
  (d.trains.zipIdx.find? (fun (x : TrainEntry × Nat) =>
    let before := (d.trains.take x.2).flatMap (fun y => [y.slotA, y.slotB])
    x.1.slotA == x.1.slotB || before.contains x.1.slotA || before.contains x.1.slotB
      || s.slotTaken x.1.slotA || s.slotTaken x.1.slotB)).map (fun (x : TrainEntry × Nat) => x.2)

/-- SERVE_BYTES of the largest trained record. -/
def State.largestServe (s : State) (d : JobDesc) : Nat :=
  (d.trains.map (fun t => ((s.adapter? t.handle).map (·.serveBytes)).getD 0)).foldl max 0

/-- JOB_PREP_BEATS (R271): 1.05 × 10⁹ × (S ÷ 28.60 TB/s + 2 × TRAIN_COUNT × SERVE_BYTES ÷ 1.192 TB/s) cycles, in beats. -/
def State.prepBeats (s : State) (d : JobDesc) : Nat :=
  let bytes := (s.regionPages .checkpoint + s.regionPages .press) * 4 * 65536
  ceilDiv (bytes * 21 * 23840 + 2 * d.trains.length * s.largestServe d * 21 * 572000) (572000 * 23840 * s.beat.cycles)

/-- The orchard cannot start a job here: the beat source is not agreed, or its path is too deep or too long (R42, R43, R48).
DEDUCED, unsafe: log entry 135. -/
def State.beatRefusal (s : State) : Option Nat :=
  let id := s.param P.beatSourceId
  let timed := fun (p : LinkPhase) => p == .up || p == .quarantined
  if s.beat.heard.any (fun (x : Nat × Nat) => timed (s.link x.1).phase && x.2 != id) then some 0
  else if 16 < s.param P.beatDepth then some Ev.beatTooDeep
  else if s.beat.cycles < 4 * s.param P.beatPathLatency then some Ev.beatTooShort
  else none

/-- Why a job description is refused, in the order of R270, with the beat conditions of R42, R43 and R48 last (their
JOB_RESULT is stated nowhere and is taken as NOT_ALLOWED) beside the route conditions of R383. `record` is false when RESUME's record does not fit the
description (R457). A description outside the window, a slot above 1,023 and a release in progress are refused as 1, 7 and 3.
DEDUCED, unsafe: log entries 75, 135, 162. DESIGN CHOICE, unsafe: log entry 216. -/
def State.startFault (s : State) (o : Nat) (record : Bool) : Option Refused :=
  match s.job.planSet with
  | none => some (3, none)
  | some set =>
    let d := s.jobDescAt o
    if s.boot.dev ≠ .admitted ∨ s.jobPresent ∨ s.ten.release.isSome then some (3, none)
    else if !s.descOk o set.scheduleLength || !record then some (1, none)
    else if d.planSetId ≠ set.planSetId ∨ set.orchardSize ≠ s.orchardCount ∨ set.training = d.trains.isEmpty then some (2, none)
    else if s.adm.base ≠ .valid ∨ set.baseFingerprint ≠ s.adm.fingerprint then some (6, none)
    else
      match s.untrainable d with
      | some i => some (8, some i)
      | none =>
        match s.slotless d with
        | some i => some (7, some i)
        | none =>
          if d.startBeat < s.beat.count + s.prepBeats d + 2 then some (4, none)
          else if s.beatRefusal.isSome ∨ s.routeRefusal.isSome then some (3, none) else none

/-- Post a job command's outcome. -/
def State.jobResult (s : State) (r : Nat) : State := s.setParam P.jobResult r

/-- The event of an orchard that cannot start a job here (R43, R48, R383).
DEDUCED, unsafe: log entry 135. -/
def State.orchardEvent (s : State) : State :=
  match s.beatRefusal with
  | some c => if c = 0 then s else s.event c []
  | none =>
    match s.routeRefusal with
    | some r => s.event r.1 r.2
    | none => s

/-- A START is refused (R300). The entry of a refusal that is about none is a free value.
DESIGN CHOICE, safe: log entry 134. -/
def State.startRefused (s : State) (r : Refused) : State :=
  let s1 := s.jobResult r.1
  let s2 := if r = (3, none) ∧ s.boot.dev = DevState.admitted ∧ !s.jobPresent ∧ s.job.planSet.isSome ∧ s.ten.release.isNone
    then s1.orchardEvent else s1
  match r.2 with
  | some i => s2.event Ev.jobStartRefused [(1, r.1), (2, i)]
  | none => (s2.event Ev.jobStartRefused [(1, r.1), (2, s2.freeWord.toNat)]).drawn

/-! ## Statistics, loss scales and drop-out keys (R244, R290, R295) -/

/-- The statistics section of an adapter's store pages on CD0. -/
def State.storedStats (s : State) (a : Adapter) : List Byte :=
  let b := a.storePage * 65536
  s.extGet true 0 (b + leNat (s.extGet true 0 (b + 96) 4)) 64

/-- Count what the read of an adapter's statistics section met (R225). -/
def State.statsMet (s : State) (t : TrainEntry) : State :=
  match s.adapter? t.handle with
  | none => s
  | some a =>
    let b := a.storePage * 65536
    s.extMet true 0 (b + leNat (s.extGet true 0 (b + 96) 4)) 64

/-- The largest exponent of a history, none when every entry is empty. -/
def historyMax (h : List Nat) : Option Int :=
  (h.filter (fun x => x != 0xFF)).foldl (fun (a : Option Int) x =>
    some (match a with
      | some m => max m ((x : Int) - 127)
      | none => (x : Int) - 127)) none

/-- k for a history (R290).
DEDUCED, unsafe: log entry 132. -/
def kNext (headroom : Nat) (h : List Nat) : Int :=
  match historyMax h with
  | some m => 14 - (headroom : Int) - m
  | none => 0

/-- A trained adapter as its record says, at the start of a job; the exponents of the first two steps come from the record
too.
DEDUCED, unsafe: log entry 132. -/
def State.trainInit (s : State) (headroom : Nat) (t : TrainEntry) : TrainState :=
  let st := ((s.adapter? t.handle).map s.storedStats).getD []
  let loss := (BitVec.ofNat 8 (fieldLE st 0 1)).toInt
  let h := ((st.drop 16).take 16).map (·.toNat)
  let k := kNext headroom h
  { handle := t.handle, lossLog2 := loss, streak := fieldLE st 2 2, stepCount := fieldLE st 8 8, history := h,
    head := fieldLE st 1 1 % 16, version := 0, stashHeld := false, lossEven := loss, lossOdd := loss, kEven := k, kOdd := k,
    lastUpdate := .apply, conflict := false }

/-- The 64 bytes of a statistics section. -/
def TrainState.bytes (t : TrainState) : List Byte :=
  let body := leBytes 1 (rawInt 8 t.lossLog2) ++ leBytes 1 t.head ++ leBytes 2 t.streak ++ leBytes 4 0 ++ leBytes 8 t.stepCount
    ++ t.history.map (fun x => BitVec.ofNat 8 x) ++ List.replicate 28 0
  body ++ leBytes 4 (crc32c body)

/-- The hub writes an adapter's statistics section on every die (R294). -/
def State.writeStats (s : State) (t : TrainState) : State :=
  match s.adm.adapters.find? t.handle with
  | none => s
  | some a =>
    allDies.foldl (fun (u : State) d =>
      let b := a.storePage * 65536
      u.hubPut true d (b + leNat (u.extGet true d (b + 96) 4)) t.bytes) s

/-- The drop-out key of a training index for a step (R295). -/
def State.dropKey (s : State) (handle step : Nat) : W64 :=
  let seed := ((s.adm.adapters.find? handle).map (·.seed)).getD 0
  mix64 (seed ^^^ mix64 (BitVec.ofNat 64 step))

/-- Load a step's drop-out keys beside those of the step before. -/
def State.loadKeys (s : State) (step : Nat) : State :=
  let ks := s.job.trains.zipIdx.map (fun (x : TrainState × Nat) => (2 * x.2 + step % 2, s.dropKey x.1.handle step))
  allDies.foldl (fun (u : State) d => u.modFront d (fun f =>
    { f with dropKeys := ks.foldl (fun (m : AMap W64) (k : Nat × W64) => AMap.set 0 m k.1 k.2) f.dropKeys })) s

/-! ## An accepted START (R157, R271) -/

/-- The cache slots of a trained adapter are taken. A third slot that holds the adapter already stays as it is (R273 names two).
DEDUCED, unsafe: log entry 196. -/
def State.takeTrainSlots (s : State) (t : TrainEntry) : State :=
  match s.adapter? t.handle with
  | none => s
  | some a =>
    let c : CacheSlot := { phase := .filling, adapter := a.serial, handle := t.handle, trained := true,
                           lastAdmit := s.beat.count, chunksLeft := 0, chunksDone := 0, ready := false }
    ((s.dropSlot t.slotA).dropSlot t.slotB).setSlot t.slotA c |>.setSlot t.slotB c

/-- A plan that a die still holds belongs to a job that has ended (R86). -/
def FrontEnd.outlived (f : FrontEnd) : FrontEnd := { f with stale := f.planOpen }

/-- Every tally and every base becomes 0 (R157). -/
def State.zeroTallies (s : State) : State :=
  allDies.foldl (fun (u : State) d => u.modFront d (fun f => { f.outlived with tallies := [], bases := [], dropKeys := [] })) s

/-- The job is STARTING: slots taken, tallies zeroed, keys of its first step loaded, preparation given to the hub (R271).
DEDUCED, unsafe: log entry 138. -/
def State.acceptJob (s : State) (d : JobDesc) (first : Nat) (resume : Option Nat) : State :=
  let s0 := d.trains.foldl State.statsMet s
  let job : JobState := { phase := .starting, planSet := s.job.planSet, desc := some d,
                          trains := d.trains.map (s.trainInit d.gradHeadroom), resumeBeat := resume,
                          firstStepNow := first }
  let s1 := { s0 with job := job }
  let s2 := (d.trains.foldl State.takeTrainSlots s1).zeroTallies
  let s3 := ((s2.loadKeys first).setParam P.updatesApplied 0).setParam P.updatesSkipped 0
  let s4 := if d.trains = [] then s3 else s3.setParam P.recoveryStep first
  { s4 with boot := { s4.boot with hub := s4.boot.hub ++ [.prepare] },
            beat := { s4.beat with firstNormal := true } }

/-- A plan-set copy is in progress. -/
def State.loading (s : State) : Bool := s.boot.hub.any (fun h => match h with
  | .load _ => true
  | _ => false)

/-- START (R267, R270, R271); a job command is not accepted before the one before it has posted. JOB_PREP_BEATS is posted by a START
that is accepted.
DESIGN CHOICE, safe: log entry 5. DESIGN CHOICE, unsafe: log entry 215. -/
def execStart (offset : Nat) (s : State) : Result :=
  if s.loading then .next s
  else
  match s.startFault offset true with
  | some r => .next (s.startRefused r)
  | none =>
    let d := s.jobDescAt offset
    .next (((s.setParam P.jobPrepBeats (s.prepBeats d)).acceptJob d d.firstStep none).jobResult 0)

/-- The key slot of a page of CHECKPOINT or PRESS (R214, R269). -/
def JobDesc.keySlotOf (d : JobDesc) (press : Bool) (page : Nat) : Nat :=
  ((d.ranges.find? (fun e => e.press == press && decide (e.firstPage ≤ page) && decide (page < e.firstPage + e.pages))).map
    (·.keySlot)).getD 1

/-- Zero a region's pages with fresh tags under their key slots, on every die. -/
def State.prepareRegion (s : State) (d : JobDesc) (press : Bool) : State :=
  let r : Region := if press then .press else .checkpoint
  (List.range (s.regionPages r)).foldl (fun (t : State) p =>
    allDies.foldl (fun (u : State) x => u.keyWhole (frameOf false x (s.regionFirst r + p)) (d.keySlotOf press p)) t) s

/-- Fill one cache slot from ADAPTER_STORE: the padded slot image of each die (R246, R253). -/
def State.fillSlot (s : State) (a : Adapter) (n : Nat) : State :=
  let bytes := fillChunks a.slotPages (s.param P.fillChunkBlocks) * s.param P.fillChunkBlocks * 256
  let page := s.regionFirst .cache + n * s.layoutOf 1
  allDies.foldl (fun (t : State) d =>
    ((t.extMet true d (a.storePage * 65536 + a.tensorOffset) bytes).keyWholeRange false d page a.keySlot (s.layoutOf 1)).extPut
      false d (page * 65536) (t.extGet true d (a.storePage * 65536 + a.tensorOffset) bytes)) s

/-- The slots of a trained adapter become RESIDENT with the same weights. -/
def State.fillTrain (s : State) (t : TrainEntry) : State :=
  match s.adm.adapters.find? t.handle with
  | none => s
  | some a =>
    let ready := fun (c : CacheSlot) => { c with phase := .resident, ready := true }
    let s1 := (s.fillSlot a t.slotA).fillSlot a t.slotB
    { s1 with adm := { s1.adm with slots := (s1.adm.slots.modify t.slotA ready).modify t.slotB ready } }

/-- The hub's preparation has ended (R271). -/
def State.prepared (s : State) : State :=
  match s.job.desc with
  | none => s
  | some d => d.trains.foldl State.fillTrain ((s.prepareRegion d false).prepareRegion d true)

/-! ## LOAD, STOP, ABORT (R165, R267) -/

/-- LOAD (R165, R267): the copy and the checks end with HUB_COPY_DONE.
DESIGN CHOICE, safe: log entry 5. -/
def execLoad (offset : Nat) (s : State) : Result :=
  if s.loading then .next s
  else if s.boot.dev ≠ .admitted ∨ s.jobPresent then .next (s.jobResult 3)
  else .next { s with boot := { s.boot with hub := s.boot.hub ++ [.load offset] } }

/-- A loaded image has been checked: it replaces the plan set, or there is none (R165). A stand-in table goes with the old
one (R451). -/
def State.loadDone (s : State) (o : Nat) : State :=
  let s1 := { s with job := { s.job with phase := .none, planSet := none }, res := { s.res with standin := none } }
  let s2 := (s1.setParam P.standinState 0).windowMet o (s.imageEnd o - o)
  match s.loadFault o with
  | some (n, d, p, w) =>
    (s2.log' Ev.planLoadRefused d (detail [(1, n), (2, p), (2, w)])).jobResult 5
  | none => (s2.adoptImage o).jobResult 0

/-- STOP (R267). -/
def execStop (s : State) : Result :=
  if s.loading then .next s
  else if s.job.phase = .running then .next (State.jobResult { s with job := { s.job with stopWritten := true } } 0)
  else .next (s.jobResult 3)

/-- ABORT (R267). -/
def execJobAbort (s : State) : Result :=
  if s.loading then .next s
  else if s.job.phase = .running ∨ s.job.phase = .starting then
    .next (State.jobResult { s with job := { s.job with abortGiven := true } } 0)
  else .next (s.jobResult 3)

/-- A snapshot consumes a STOP (R267). -/
def State.takeStop (s : State) : State :=
  if s.job.stopWritten ∧ s.job.phase = .running then
    { s with job := { s.job with phase := .stopping, stopWritten := false, stopTaken := true } }
  else s

/-! ## The schedule (R34, R274) -/

/-- SCHEDULE_LENGTH of the loaded plan set. -/
def State.schedLen (s : State) : Nat := max 1 ((s.job.planSet.map (·.scheduleLength)).getD 1)

/-- FIRST_STEP of the job. -/
def State.firstStep (s : State) : Nat := (s.job.desc.map (·.firstStep)).getD 0

/-- The step in whose beats a JOB_BEAT lies (R274). -/
def State.stepOf (s : State) (jb : Nat) : Nat := s.firstStep + jb / s.schedLen

/-- The schedule slot of a JOB_BEAT (R34). -/
def State.slotOfBeat (s : State) (jb : Nat) : Nat := jb % s.schedLen

/-! ## Job start and end (R26, R41, R267, R300) -/

/-- Preparation is over before START_BEAT, whether or not HUB_COPY_DONE has reported it (R271). -/
def State.endPreparation (s : State) : State :=
  if s.boot.hub.contains .prepare then
    let t := s.prepared
    { t with boot := { t.boot with hub := t.boot.hub.filter (· != .prepare) } }
  else s

/-- The job becomes RUNNING at START_BEAT. -/
def State.startJob (s0 : State) (d : JobDesc) : State :=
  let s := s0.endPreparation
  let s1 := State.setDev { s with job := { s.job with phase := .running } } .running
  let s2 := s1.jobTotals
  match s.job.resumeBeat with
  | some jb => s2.event Ev.jobResumed [(4, d.jobTag), (8, s.job.firstStepNow), (8, jb)]
  | none => s2.event Ev.jobStarted [(4, d.jobTag), (8, d.firstStep), (2, d.trains.length)]

/-- The start of a job that falls due at the boundary whose BEAT_COUNT is now current.
DESIGN CHOICE, safe: log entry 16. -/
def State.jobStartIfDue (s : State) : State :=
  match s.job.phase, s.job.desc with
  | .starting, some d => if s.beat.count = d.startBeat ∧ !s.job.abortGiven then s.startJob d else s
  | _, _ => s

/-- JOB_STARTED (R271).
DESIGN CHOICE, safe: log entry 16. -/
def execJobStarted (s : State) : Result := .next s.jobStartIfDue

/-- Causes of a job's end (R300). -/
inductive EndCause where
  | stop | maxSteps | abort | halt
  deriving DecidableEq, Repr

/-- The number of a cause in its list. -/
def EndCause.code : EndCause → Nat
  | .stop => 1
  | .maxSteps => 2
  | .abort => 3
  | .halt => 4

/-- The slots of a trained adapter at a job's end: the current version's becomes RESIDENT, the other FREE (R267). -/
def State.releaseTrain (s : State) (x : TrainEntry × Nat) : State :=
  let v := ((s.job.trains[x.2]?).map (·.version)).getD 0
  let cur := if v % 2 = 0 then x.1.slotA else x.1.slotB
  let other := if v % 2 = 0 then x.1.slotB else x.1.slotA
  let s1 := s.dropSlot other
  match s1.adm.slots.find? cur with
  | some c => if c.phase = .resident then s1.setSlot cur { c with trained := false } else s1.dropSlot cur
  | none => s1

/-- A CHECKPOINT that waits when the job ends (R347): that of a single adapter is taken at once, as its adapter is in no running job
any more, and that of every trained adapter is not allowed any more.
DEDUCED, unsafe: log entry 114. -/
def State.checkpointAtEnd (s : State) (o : HubOp) : HubOp :=
  match o with
  | .checkpoint e h dst max none =>
    .checkpoint e h dst max (some (match (if h = 0xFFFF then none else s.adm.adapters.find? h) with
      | none => (.notAllowed, [], 0)
      | some a => s.fitImage (s.recordBytesOf a) dst max 0))
  | _ => o

/-- A job ends (R267): JOB_ENDED, requests in a batch or waiting for one complete, pins are released, and the device is
ADMITTED again while its tenant is bound. The last step updated of a job that updated none is a free value.
DESIGN CHOICE, safe: log entry 136. -/
def State.endJob (s : State) (cause : EndCause) : State :=
  match s.job.desc with
  | none => s
  | some d =>
    let last := s.job.lastStepUpdated.getD s.freeWord.toNat
    let s0 := if s.job.lastStepUpdated.isNone then s.drawn else s
    let s1 := s0.event Ev.jobEnded [(4, d.jobTag), (8, last), (1, cause.code)]
    let s2 := (s1.requestsThat (fun r => r.phase != .queued)).foldl (fun (t : State) i =>
      t.modReq i (fun r => { r.leave .jobEnded with stepTokens := 0, stepDecode := false })) s1
    let s3 := d.trains.zipIdx.foldl State.releaseTrain s2.leaveNow
    let hub := (s3.boot.hub.filter (fun h => h != .prepare)).map s2.checkpointAtEnd
    let s4 := { s3 with job := { phase := if s3.job.planSet.isSome then .loaded else .none, planSet := s3.job.planSet,
                                 nonfiniteSeen := s3.job.nonfiniteSeen, overflowSeen := s3.job.overflowSeen }
                        boot := { s3.boot with hub := hub }
                        beat := { s3.beat with firstNormal := false }
                        res := { s3.res with copying := none }
                        adm := { s3.adm with rows := [], plan := none } }
    let s5 := allDies.foldl (fun (u : State) x => u.modFront x (fun f => { f with owed := [], delivered := none })) s4
    if s5.boot.dev = .running ∨ s5.boot.dev = .halted then
      (if s5.ten.phase = .bound then s5.setDev .admitted else s5)
    else s5

/-- Why the job ends at the boundary that would open a JOB_BEAT (R267, R450). -/
def State.endCause (s : State) (jb : Nat) : Option EndCause :=
  match s.job.desc with
  | none => none
  | some d =>
    if s.job.abortGiven ∧ !s.job.inUpdate then some .abort
    else if s.job.lossEndStep.any (fun st => s.stepOf jb == st && s.slotOfBeat jb == d.endSlot) then some .halt
    else if s.job.stopTaken ∧ s.slotOfBeat jb = d.endSlot then some .stop
    else if d.maxSteps ≠ 0 ∧ jb / s.schedLen = d.maxSteps ∧ s.slotOfBeat jb = d.endSlot then some .maxSteps
    else none

/-- JOB_BEAT that the next NORMAL boundary carries (R26). -/
def State.nextJobBeat (s : State) : Nat := if s.beat.firstNormal then s.job.resumeBeat.getD 0 else s.beat.jobBeat + 1

/-- The end of a job that is due at the boundary to come: ABORT at any boundary, the others where the boundary would open
END_SLOT.
DESIGN CHOICE, safe: log entry 16. -/
def State.jobEndIfDue (s : State) (opening : Bool) : State :=
  if !(s.jobActive || s.job.phase == .starting) then s
  else
    match s.endCause s.nextJobBeat with
    | some .abort => s.endJob .abort
    | some c => if opening && s.jobActive then s.endJob c else s
    | none => s

/-- JOB_ENDED (R267): the job's end falls due at the next NORMAL boundary.
DESIGN CHOICE, safe: log entry 16. -/
def execJobEnded (s : State) : Result := .next (s.jobEndIfDue (s.beat.nextKind == .normal))

/-! ## The update phase (R286 to R294) -/

/-- The first byte of the training tables of a die: the first of four pages before the row buffers (R289). -/
def State.tablePage (s : State) : Nat := s.regionFirst .kv + s.regionPages .kv - 8

/-- The JOB_BEAT that opens UPDATE_SLOT in the beats of a step. -/
def State.updateBeat (s : State) (d : JobDesc) (step : Nat) : Nat := (step - d.firstStep) * s.schedLen + d.updateSlot

/-- Every die has closed every plan of a JOB_BEAT below jb, and has come that far. -/
def State.closedBelow (s : State) (jb : Nat) : Bool :=
  !s.beat.firstNormal && decide (jb ≤ s.beat.jobBeat + 1)
    && s.fe.toList.all (fun f => (!f.planOpen || decide (jb ≤ f.planBeat))
      && f.owed.all (fun (x : Nat × Nat × Nat × List W32) => decide (jb ≤ x.2.1)))

/-- The larger of two amplitudes; NaN if either is NaN. -/
def amaxOf (x y : Num) : Num := if x.isNan || y.isNan then .nan else if Num.lt x y then y else x

/-- What a die reports for a training index: its AMAX, or NaN when its STEP is another (R289, R290). -/
def State.report (s : State) (i step : Nat) (d : DieId) : Num :=
  let b := (s.tablePage + 1) * 65536 + 16 * i
  if leNat (s.extGet false d (b + 4) 4) = step % 2 ^ 32 then decodeElem .bf16 (leNat (s.extGet false d b 2)) else .nan

/-- Count what the reads of the reports of n training indices met (R225). -/
def State.reportsMet (s : State) (n : Nat) : State :=
  allDies.foldl (fun (t : State) d => t.extMet false d ((s.tablePage + 1) * 65536) (16 * n)) s

/-- The largest AMAX of the four dies. -/
def State.reports (s : State) (i step : Nat) : Num := allDies.foldl (fun (a : Num) d => amaxOf a (s.report i step d)) (.fin false 0 0)

/-- The history entry of a finite amplitude (R290). -/
def historyCode (f : Num) (k : Int) : Nat :=
  match f with
  | .fin _ m e => if m = 0 then 0 else (max 0 (min 0xFE ((Nat.log2 m : Int) + e - k + 127))).toNat
  | _ => 0

/-- k of a step by its parity. -/
def TrainState.kOf (t : TrainState) (step : Nat) : Int := if step % 2 = 0 then t.kEven else t.kOdd

/-- The loss-scale exponent of a step by its parity. -/
def TrainState.lossOf (t : TrainState) (step : Nat) : Int := if step % 2 = 0 then t.lossEven else t.lossOdd

/-- A finite update: the scale doubles after 1,000 finite steps, and the history takes the amplitude. -/
def TrainState.applied (t : TrainState) (f : Num) (step : Nat) : TrainState :=
  let full := decide (t.streak + 1 = 1000)
  { t with stepCount := t.stepCount + 1, streak := if full then 0 else t.streak + 1,
           lossLog2 := if full then min (t.lossLog2 + 1) 24 else t.lossLog2,
           history := t.history.set t.head (historyCode f (t.kOf step)), head := (t.head + 1) % 16, lastUpdate := .apply }

/-- The decision for one adapter in the update of a step (R290): NONE in the job's first update phase and after a stash conflict
(R275, R288).
DEDUCED, unsafe: log entry 137. -/
def TrainState.decided (t : TrainState) (f : Num) (step : Nat) (first : Bool) : TrainState :=
  if first || t.conflict then { t with lastUpdate := .none }
  else if f.isNan || f.isInf then { t with lastUpdate := .skip, lossLog2 := max (t.lossLog2 - 1) (-8), streak := 0 }
  else t.applied f step

/-- The exponents decided now apply to the step after the one whose beats hold the phase. -/
def TrainState.setNext (t : TrainState) (headroom step : Nat) : TrainState :=
  let k := kNext headroom t.history
  if step % 2 = 0 then { t with lossEven := t.lossLog2, kEven := k } else { t with lossOdd := t.lossLog2, kOdd := k }

/-- n ÷ d as an odd-rounded magnitude that holds more than 53 bits. -/
def ratio (n d : Nat) : Nat × Int :=
  let sh := 60 + Nat.log2 (max d 1)
  (2 * (n * 2 ^ sh / max d 1) + (if n * 2 ^ sh % max d 1 = 0 then 0 else 1), -(sh : Int) - 1)

/-- Round a value to binary64. -/
def round64 : Num → Num
  | .fin neg m e => .fin neg (roundMag 52 (-1074) false .rne 0 m e).1 (roundMag 52 (-1074) false .rne 0 m e).2
  | v => v

/-- LR_T (R291): η × min(1, t ÷ WARMUP_STEPS) in binary64, rounded to binary32. -/
def lrT (e : TrainEntry) (t : Nat) : W32 :=
  if e.warmup ≤ t then e.lr
  else
    let q := ratio t e.warmup
    (roundF32 true (round64 (Num.mul (decodeElem .f32 e.lr.toNat) (round64 (.fin false q.1 q.2))))).1

/-- The leading 256 bits of a value; one below 2^−2000 is zero. -/
def trim : Num → Num
  | .fin neg m e =>
    if (Nat.log2 m : Int) + e < -2000 then .fin neg 0 0
    else .fin neg (m / 2 ^ (Nat.log2 m - 255)) (e + (Nat.log2 m - 255 : Nat))
  | v => v

/-- b^t to more than 150 bits; the first argument bounds the bits of t. -/
def powApprox (b : Num) : Nat → Nat → Num
  | 0, _ => numOne
  | k + 1, t =>
    if t = 0 then numOne
    else
      let h := powApprox b k (t / 2)
      let q := trim (h.mul h)
      if t % 2 = 1 then trim (q.mul b) else q

/-- β^t in binary64: the exact power rounded, or a neighbour of it for t of 2 and more.
DESIGN CHOICE, safe: log entry 139. -/
def pow64 (beta : W32) (t : Nat) : Num :=
  match round64 (powApprox (decodeElem .f32 beta.toNat) 64 t) with
  | .fin neg m e => .fin neg (if t < 2 ∨ m = 0 then m else m + Config.powUlps beta t % 3 - 1) e
  | v => v

/-- 1 ÷ (1 − β^t), each operation in binary64, rounded to binary32 with RNE (R291).
DESIGN CHOICE, safe: log entry 139. -/
def biasCorrection (beta : W32) (t : Nat) : W32 :=
  match round64 (numOne.add (pow64 beta t).neg) with
  | .fin neg m e =>
    if m = 0 then moveF32 (.inf false)
    else
      let q := ratio 1 m
      (roundF32 true (round64 (.fin neg q.1 (q.2 - e)))).1
  | v => moveF32 v

/-- A signed byte of a training table; for a k that no signed byte holds it is a free value.
DEDUCED, safe: log entry 133. -/
def signedByte (v : Int) : Nat := if -128 ≤ v ∧ v ≤ 127 then rawInt 8 v else Config.kByte v % 256

/-- The code of a decision. -/
def Update.code : Update → Nat
  | .apply => 0
  | .skip => 1
  | .none => 2

/-- The 64 bytes of a training-table entry for the update of a step (R291): `l` and `k` are the exponents of that step.
DEDUCED, safe: log entry 133. DESIGN CHOICE, safe: log entry 139. -/
def tableEntryBytes (t : TrainState) (e : TrainEntry) (l k : Int) : List Byte :=
  leBytes 1 t.lastUpdate.code ++ leBytes 1 (t.version % 2) ++ leBytes 1 (rawInt 8 t.lossEven) ++ leBytes 1 (rawInt 8 t.lossOdd)
    ++ leBytes 1 (signedByte t.kEven) ++ leBytes 1 (signedByte t.kOdd) ++ leBytes 2 0
    ++ leBytes 4 (roundF32 true (.fin false 1 (-(l + k)))).1.toNat ++ leBytes 4 (lrT e t.stepCount).toNat
    ++ leBytes 4 (biasCorrection e.beta1 t.stepCount).toNat ++ leBytes 4 (biasCorrection e.beta2 t.stepCount).toNat
    ++ leBytes 8 t.stepCount ++ leBytes 4 (t.version + 1) ++ List.replicate 28 0

/-- Write the training-table entry of an index on every die.
DEDUCED, unsafe: log entry 138. -/
def State.writeTable (s : State) (i : Nat) (bytes : List Byte) : State :=
  allDies.foldl (fun (u : State) d => u.hubPut false d (s.tablePage * 65536 + 64 * i) bytes) s

/-- Count a decision, and log a skip. -/
def State.countUpdate (s : State) (i step : Nat) (t : TrainState) : State :=
  match t.lastUpdate with
  | .apply => s.bump P.updatesApplied 1
  | .skip => (s.bump P.updatesSkipped 1).event Ev.updateSkipped [(2, i), (2, t.handle), (8, step), (1, rawInt 8 t.lossLog2)]
  | .none => s

/-- The step before a step, modulo 2^64. -/
def stepBefore (step : Nat) : Nat := (step + 2 ^ 64 - 1) % 2 ^ 64

/-- Decide and publish the update of one adapter in the beats of a step: the reports are those of the step before, whose
exponents stand under the parity that the step after will use.
DEDUCED, unsafe: log entry 137. -/
def State.updateTrain (s : State) (d : JobDesc) (step : Nat) (first : Bool) (i : Nat) : State :=
  match s.job.trains[i]?, d.trains[i]? with
  | some t, some e =>
    let u := (t.decided (s.reports i (stepBefore step)) (step + 1) first).setNext d.gradHeadroom (step + 1)
    let s1 := { s with job := { s.job with trains := s.job.trains.set i u } }
    (s1.countUpdate i (stepBefore step) u).writeTable i (tableEntryBytes u e (t.lossOf (step + 1)) (t.kOf (step + 1)))
  | _, _ => s

/-- The step in whose beats the next update phase lies. -/
def State.nextUpdateStep (s : State) : Nat := (s.job.decidedFor.map (· + 1)).getD s.job.firstStepNow

/-- The update of every trained adapter is decided for the phase in a step's beats (R290, R291).
DEDUCED, unsafe: log entry 137. -/
def State.decideUpdates (s : State) (d : JobDesc) (step : Nat) : State :=
  let first := step == s.job.firstStepNow
  let s0 := s.reportsMet d.trains.length
  let s1 := (List.range d.trains.length).foldl (fun (t : State) i => t.updateTrain d step first i) s0
  let s2 := allDies.foldl (fun (t : State) x => t.addTally x d.tableTally 1) s1
  { s2 with job := { s2.job with decidedFor := some step } }

/-- UPDATE_DECISION (R290): once the four dies have closed the beat before UPDATE_SLOT.
DEDUCED, unsafe: log entry 138. -/
def execUpdateDecision (s : State) : Result :=
  match s.job.desc with
  | none => .next s
  | some d =>
    if s.jobActive && d.trains != [] && s.closedBelow (s.updateBeat d s.nextUpdateStep) then
      .next (s.decideUpdates d s.nextUpdateStep)
    else .next s

/-- The step in whose beats the update phase in progress, or the next one, lies. -/
def State.phaseStep (s : State) : Nat := s.job.firstStepNow + s.job.phasesClosed

/-- The JOB_BEAT whose close releases the stash of the newest update phase (R287). -/
def State.releaseBeat (s : State) (d : JobDesc) : Nat := (s.phaseStep - 1 - d.firstStep) * s.schedLen + d.releaseSlot

/-- The beat that releases the stashes has passed, and only a late die keeps it from its close. -/
def State.releaseLate (s : State) : Bool :=
  s.job.desc.any (fun d => s.job.phasesClosed != 0 && decide (s.releaseBeat d < s.beat.jobBeat))

/-- Stashes still held at the boundary that opens UPDATE_SLOT (R288): a stash that only a late die holds is released when that die
closes, and is no conflict.
DEDUCED, unsafe: log entry 195. -/
def State.stashCheck (s : State) : State :=
  s.job.trains.zipIdx.foldl (fun (t : State) (x : TrainState × Nat) =>
    if x.1.stashHeld && !s.releaseLate then
      let u : TrainState := { x.1 with conflict := true }
      (((State.bump { t with job := { t.job with trains := t.job.trains.set x.2 u } } P.stashConflicts 1).event
        Ev.stashConflict [(2, x.2), (2, x.1.handle), (4, x.1.version)])).requestHaltAll
    else t) s

/-- The update phase in the beats of a step has closed (R286, R287, R294): a new version is current, the one before is the
stash, and statistics sections are written. -/
def State.closePhase (s : State) (step : Nat) : State :=
  let s1 := s.job.trains.foldl State.writeStats s
  let next := fun (t : TrainState) => { t with version := (t.version + 1) % 2 ^ 32, stashHeld := true, conflict := false }
  let s2 := { s1 with job := { s1.job with trains := s1.job.trains.map next, inUpdate := false,
                                           lastStepUpdated := if step = s.job.firstStepNow then none
                                             else some (stepBefore step),
                                           phasesClosed := s1.job.phasesClosed + 1 } }
  s2.setParam P.recoveryStep step

/-- Stashes are released at the close of the beat in RELEASE_SLOT (R287). -/
def State.releaseStash (s : State) : State :=
  { s with job := { s.job with trains := s.job.trains.map (fun (t : TrainState) => { t with stashHeld := false }) } }

end Sys2Proof.Machine
end

