-- ==== Sys2Proof/Machine/Tenant.lean ====
section
/-! DEFINITION. The tenant: admission, the TSP lock, matters, release and scrub, and attestation (R409 to R416, R425 to R436). -/

namespace Sys2Proof.Machine

/-! ## Binding (R409 to R411) -/

/-- Post the outcome of a tenant command: 0 OK, 1 NOT_ALLOWED, 2 NO_SCRUB, 3 EPOCH_STALE, 4 TSP_ONLY (R438).
DEDUCED, unsafe: log entry 60. -/
def State.tenantResult (s : State) (r : Nat) : State := s.setParam P.tenantResult r

/-- (TENANT_EPOCH_NEXT − TENANT_EPOCH) mod 2^16 lies from 1 to 32,767 (R410). -/
def State.epochFresh (s : State) : Bool :=
  let d := (BitVec.ofNat 16 (s.param P.tenantEpochNext) - s.ten.epoch).toNat
  decide (1 ≤ d) && decide (d ≤ 32767)

/-- Both IDE streams are active and their keys' session stands (R411).
DEDUCED, unsafe: log entry 60. -/
def State.lockReady (s : State) : Bool := s.ten.ideIo && s.ten.ideMem && s.host.spdmSession

/-- Why an ADMIT is refused, for an ADMIT command or the TSP lock (R410, R411): the conditions in their order, but NO_SCRUB until the
scrub of a start-up has completed (R505).
DEDUCED, unsafe: log entry 61. -/
def State.admitFault (s : State) (lock : Bool) : Option Nat :=
  if s.boot.dev = .boot ∧ !s.ten.scrubRecorded then some 2
  else if s.boot.dev ≠ .idle then some 1
  else if !s.ten.scrubRecorded then some 2
  else if !s.epochFresh then some 3
  else if lock then (if s.param P.tenantMode = 1 ∧ s.lockReady then none else some 1)
  else if s.param P.tenantMode = 1 then some 4 else none

/-- The tenant is admitted (R410). -/
def State.admitNow (s : State) (lock : Bool) : State :=
  let epoch := BitVec.ofNat 16 (s.param P.tenantEpochNext)
  let ten := { s.ten with phase := .bound, epoch := epoch, scrubRecorded := false, keptKey := none, locked := lock,
                          release := none }
  let s1 := State.openSlot { s with ten := ten, adm := { s.adm with base := .none, fingerprint := [], install := none } } 0 0
  (((s1.setParam P.rotations 0).setParam P.telemSeq 0).setDev .admitted).event Ev.tenantAdmitted [(2, epoch.toNat), (1, s.param P.tenantMode)]

/-- ADMIT, by either way. -/
def State.admitBy (s : State) (lock : Bool) : State :=
  match s.admitFault lock with
  | some r => s.tenantResult r
  | none => (s.admitNow lock).tenantResult 0

/-- ADMIT (R410, R411). Both routes may carry it, so the route changes nothing. -/
def execAdmitTenant (_ : Route) (s : State) : Result := .next (s.admitBy false)

/-- TSP_LOCK (R411). -/
def execTspLock (s : State) : Result := .next (s.admitBy true)

/-! ## Release is asked for (R427) -/

/-- The number of a cause in its list (R439). -/
def ReleaseCause.code : ReleaseCause → Nat
  | .command => 1
  | .tspUnlock => 2
  | .ideLost => 3

/-- The code of a mode (R427). -/
def releaseModeCode : ReleaseMode → Nat
  | .orderly => 0
  | .immediate => 1

/-- Start a release, or turn one under way into an IMMEDIATE one (R427). -/
def State.askRelease (s : State) (mode : ReleaseMode) (cause : ReleaseCause) (beat : Nat) : State :=
  match s.ten.release with
  | some r =>
    if mode = .immediate then { s with ten := { s.ten with release := some { r with mode := .immediate } } } else s
  | none =>
    State.event { s with ten := { s.ten with release := some ⟨mode, cause, beat, false⟩ } } Ev.tenantReleaseBegun
      [(1, cause.code), (1, releaseModeCode mode)]

/-- TENANT_RELEASE (R427): refused while UNBOUND. -/
def execTenantRelease (_ : Route) (mode : ReleaseMode) (beat : Nat) (s : State) : Result :=
  if s.ten.phase = .unbound then .next (s.tenantResult 1)
  else .next ((s.askRelease mode .command beat).tenantResult 0)

/-- TSP_UNLOCK (R411). -/
def execTspUnlock (s : State) : Result :=
  if s.ten.locked then .next (State.askRelease { s with ten := { s.ten with locked := false } } .orderly .tspUnlock 0)
  else .next s

/-- A locked tenant loses an IDE stream or its session (R411). -/
def State.lockBroken (s : State) : State := if s.ten.locked then s.askRelease .immediate .ideLost 0 else s

/-- IDE_LOST (R411). -/
def execIdeLost (x : IdeStream) (s : State) : Result :=
  match x with
  | .io => .next (State.lockBroken { s with ten := { s.ten with ideIo := false } })
  | .cachemem => .next (State.lockBroken { s with ten := { s.ten with ideMem := false } })
  | .session => .next (State.lockBroken { s with host := { s.host with spdmSession := false } })

/-- IDE_KM (R327, R411): keys are set within a secured SPDM session only. -/
def execIdeKm (x : IdeStream) (s : State) : Result :=
  if !(s.hubUp && s.host.spdmSession) then .next s
  else
    match x with
    | .io => .next { s with ten := { s.ten with ideIo := true } }
    | .cachemem => .next { s with ten := { s.ten with ideMem := true } }
    | .session => .next s

/-- SPDM_SESSION (R327, R411): the end of a locked tenant's session starts a release. -/
def execSpdmSession (establish : Bool) (s : State) : Result :=
  if !s.hubUp then .next s
  else if establish then .next { s with host := { s.host with spdmSession := true } }
  else .next (State.lockBroken { s with host := { s.host with spdmSession := false } })

/-- A snapshot takes the release whose beat has come (R427).
DEDUCED, unsafe: log entry 79. -/
def State.takeRelease (s : State) : State :=
  match s.ten.release with
  | some r =>
    if !r.taken ∧ r.beat ≤ s.beat.count + 1 then
      { s with ten := { s.ten with release := some { r with taken := true } } }
    else s
  | none => s

/-! ## A matter is gone (R416) -/

/-- A matter holds no handle, no sequence and no mapped page any more. -/
def State.matterEmpty (s : State) (m : Nat) : Bool :=
  (s.matterHandles m).isEmpty && !(s.kv.next.seqs.any (fun (x : Nat × SeqRec) => x.2.matter == m))
    && !(s.kv.live.seqs.any (fun (x : Nat × SeqRec) => x.2.matter == m))

/-- MATTER_REMOVED (R416). -/
def execMatterRemoved (slot : Nat) (s : State) : Result :=
  let k := s.keySlot slot
  if k.state = .removing ∧ s.matterEmpty k.owner then
    let s1 := s.setKeySlot slot KeySlot.free
    let s2 := { s1 with rind := { s1.rind with
      sweeps := s1.rind.sweeps.filter (fun (w : Sweep) => w.slot != slot),
      keying := s1.rind.keying.filter (fun e => e.sweepOld.isNone || attrSlot (s1.attr e.frame) != slot) } }
    .next (s2.event Ev.matterRemoved [(4, k.owner), (2, slot)])
  else .next s

/-! ## Release (R427 to R432) -/

/-- Step 1 of a release is due: it has been taken, and no step of it has taken effect. -/
def State.releasingDue (s : State) : Bool := s.ten.phase == .bound && s.ten.release.any (·.taken)

/-- A matter command taken and not applied is discarded (R414).
DEDUCED, unsafe: log entry 67. -/
def State.discardMatter (s : State) : State :=
  let held := s.adm.matterTaken.isSome || s.adm.matterDue.isSome
  let s1 := { s with adm := { s.adm with matterWritten := none, matterTaken := none, matterDue := none } }
  if held then s1.matterResult 5 else s1

/-- Step 1 (R428): every adapter is revoked, QUEUED requests complete, and ACTIVE ones leave when the step in progress ends, at once
if this boundary has ended it. -/
def State.beginReleasing (s : State) : State :=
  let rel := s.ten.release.map (fun r => { r with beat := s.beat.count })
  let s1 := State.discardMatter { s with ten := { s.ten with phase := .releasing, release := rel } }
  let s2 := (AMap.keys s1.adm.adapters).foldl (fun (t : State) h => t.revokeFrom s.beat.count h none) s1
  let s3 := s2.finishAll (s2.requestsThat (fun r => r.phase == .queued)) .tenantReleased
  let s4 := (s3.requestsThat (fun r => r.phase == .active && r.adapter.isNone)).foldl
    (fun (t : State) i => t.modReq i (fun r => r.leave .tenantReleased)) s3
  if s4.adm.rows.isEmpty then s4.leaveNow else s4

/-- Step 1, if it is due.
DESIGN CHOICE, safe: log entry 16. -/
def State.releasingIfDue (s : State) : State := if s.releasingDue then s.beginReleasing else s

/-- RELEASING (R428 step 1).
DESIGN CHOICE, safe: log entry 16. -/
def execReleasing (s : State) : Result := .next s.releasingIfDue

/-- The deferral of R261 has ended: no request of a step in progress is left, or its limit has passed.
DEDUCED, unsafe: log entry 62. -/
def State.deferralOver (s : State) (r : Release) : Bool :=
  !s.jobActive || s.adm.requests.all (fun (x : Nat × Request) => x.2.phase != .active)
    || decide (r.beat + s.param P.admitRevokeMaxBeats ≤ s.beat.count)

/-- Step 2 is due (R428): an IMMEDIATE release at once, an ORDERLY one when the deferral has ended, never inside an update
phase.
DEDUCED, unsafe: log entry 62. -/
def State.releaseStopDue (s : State) : Bool :=
  s.ten.phase == .releasing && (match s.ten.release with
    | some r => r.mode == .immediate || (s.deferralOver r && !s.job.inUpdate)
    | none => false)

/-- Ring entries that are neither requests nor complete, with their opcodes. -/
def State.openEntries (s : State) : List (EntryId × Nat) :=
  (s.adm.lateDue ++ s.adm.late).map (fun (x : EntryId × LateCmd) => (x.1, match x.2 with
    | .evictCache _ | .evictRevoke _ => opEvict
    | .bundleDefine _ | .bundleRelease _ => opBundle))
  ++ s.adm.cancels.map (fun (c : CancelWait) => (c.id, opCancel))
  ++ s.adm.adapters.flatMap (fun (x : Nat × Adapter) => x.2.evictions.map (fun e => (e, opEvict)))
  ++ s.kv.done.map (fun (x : EntryId × Status) => (x.1, opPageEdit))
  ++ s.kv.deferred.map (fun (x : EntryId × Nat × PageEdit) => (x.1, opPageEdit))
  ++ s.kv.moves.flatMap (fun (m : Move) => (m.id.map (fun e => (e, opPageEdit))).toList)
  ++ s.boot.hub.flatMap (fun (h : HubOp) => match h with
    | .register _ (some e) _ => [(e, opRegister)]
    | .checkpoint e _ _ _ _ => [(e, opCheckpoint)]
    | _ => [])
  ++ s.host.writing.map (fun (x : EntryId × Nat × Nat) => (x.1, opCheckpoint))

/-- A firmware STAGE belongs to no tenant, so a release leaves it.
DEDUCED, safe: log entry 63. -/
def HubOp.isFirmware : HubOp → Bool
  | .fwStage _ _ => true
  | _ => false

/-- Those entries no longer wait for anything.
DEDUCED, safe: log entry 63. -/
def State.dropEntries (s : State) : State :=
  { s with adm := { s.adm with late := [], lateDue := [], cancels := [],
                               adapters := s.adm.adapters.map (fun (x : Nat × Adapter) => (x.1, { x.2 with evictions := [] })) }
           kv := { s.kv with done := [], deferred := [], moves := [] }
           boot := { s.boot with hub := s.boot.hub.filter HubOp.isFirmware } }

/-- Every outstanding entry completes (R428 step 2). -/
def State.releaseEntries (s : State) : State :=
  let s1 := s.dropEntries
  let s2 := s1.finishAll (s1.requestsThat (fun r => r.adapter.isSome)) .adapterRevoked
  let s3 := s2.finishAll (s2.requestsThat (fun _ => true)) .tenantReleased
  s.openEntries.foldl (fun (t : State) (x : EntryId × Nat) => t.postStatus x.1 x.2 .tenantReleased) s3

/-- A ring that is not DISABLED signals what it has completed, becomes DISABLED and says so in its status line.
DEDUCED, unsafe: log entry 55. -/
def State.disableRing (s : State) (k : Nat) : State :=
  let r := s.ring k
  if r.phase = .disabled then s
  else
    let s1 := if 0 < r.unsignalled then s.signal (s.param (P.ringVector k)) else s
    (s1.setRing k { pi := r.pi, sqCi := r.sqCi, cpl := r.cpl, cqCi := r.cqCi, statusDirty := true }).writeStatusLine k

/-- Every ring becomes DISABLED and the lines of CXL.cache are dropped. -/
def State.disableRings (s : State) : State :=
  ((List.range 64).foldl State.disableRing s).setParam P.ringsQuarantined 0

/-- A front end stops: no plan, nothing queued, nothing running. -/
def FrontEnd.stopAll (f : FrontEnd) : FrontEnd :=
  { f with planOpen := false, ended := false, endQueued := false, delivered := none, owed := [], loops := [],
           queues := Slots.empty, running := [], decls := [], stopped := true, nanNow := 0, infNow := 0, ovfNow := 0,
           accOvfNow := 0 }

/-- A window write that waits for the host carries the epoch of its operation or message (R425). -/
def SnoopBlock.carriesEpoch (b : SnoopBlock) : Bool :=
  match b.owner with
  | .op _ _ | .message _ => true
  | _ => false

/-- Every front end stops, and no response is awaited any more; a write of the earlier epoch that still waits for the host is not
made and counts as dropped (R224, R425, R428 step 3). -/
def State.abortWork (s : State) : State :=
  let s1 := allDies.foldl (fun (t : State) d => t.modFront d FrontEnd.stopAll) s
  let s2 := s.host.snoops.foldl (fun (t : State) b =>
    if b.carriesEpoch then t.epochDrop (windowDie b.offset) 4 else t) s1
  { s2 with fab := { s2.fab with pendings := [], backlog := [], lastMsgs := [], openMsgs := [], discarding := [],
                                 answering := [], writes := [] }
            host := { s2.host with snoops := [], writing := [] } }

/-- The tables of admission, the base and the KV cache are emptied (R430, R432). -/
def State.emptyTables (s : State) : State :=
  State.setParam
    { s with adm := { nextSerial := s.adm.nextSerial, nextOrder := s.adm.nextOrder }
             kv := { moveRate := s.kv.moveRate }
             rind := { s.rind with keying := [] } } P.baseSegmentsDone 0

/-- The performance counters are cleared (R430, R485), with the beats counted for the interval in progress.
DEDUCED, unsafe: log entry 203. -/
def State.clearPerf (s : State) : State :=
  (List.range 25).foldl (fun (t : State) i => t.setParam (P.arrayBusy i) 0)
    { s with beat := { s.beat with beatsNormal := 0, beatsIdle := 0, beatsCatchUp := 0 } }

/-- Steps 3 to 5 (R428): aborts, tables, zeroisation, the new epoch; the vault draws the key under which the scrub writes
(R429). -/
def State.zeroTenant (s : State) : State :=
  let s1 := s.abortWork.emptyTables.zeroise.clearPerf
  let s2 := State.openSlot { s1 with ten := { s1.ten with epoch := s1.ten.epoch + 1, phase := .scrubbing, keptKey := none } } 1 0
  let res := { s2.res with copying := none, standin := none, lossApplied := none, lossPending := none, awaiting := [], fetched := [],
                           image := none, restored := none }
  State.setParam { s2 with res := res } P.standinState 0

/-- Why a release ends the job: ABORT for an ORDERLY one, HALT for an IMMEDIATE one or a job that has halted. -/
def State.releaseEnd (s : State) : EndCause :=
  if s.job.phase = .halted ∨ s.ten.release.any (fun r => r.mode == .immediate) then .halt else .abort

/-- Steps 2 to 5 (R428).
DEDUCED, safe: log entry 63. -/
def State.stopRelease (s : State) : State :=
  let s0 := if s.ten.release.any (fun r => r.mode == .immediate) then s.forceAll else s.forceOverdue s.beat.count
  let s1 := s0.releaseEntries
  let s2 := if s1.jobPresent then s1.endJob s.releaseEnd else s1
  (s2.disableRings.zeroTenant).setDev .halted

/-- Step 2, if it is due.
DESIGN CHOICE, safe: log entry 16. -/
def State.releaseStopIfDue (s : State) : State := if s.releaseStopDue then s.stopRelease else s

/-- RELEASE_STOP (R428 steps 2 to 5).
DESIGN CHOICE, safe: log entry 16. -/
def execReleaseStop (s : State) : Result := .next s.releaseStopIfDue

/-- Every block of usable external memory is zero, under slot 1 generation 0 (R429). -/
def State.scrubbed (s : State) : State :=
  { s with mem := { s.mem with hbm := [], lpddr := [], memDouble := [], memSingle := [], tagBad := [] }
           rind := { s.rind with attrDefault := attrWord 1 0, attrs := [], keying := [] } }

/-- Step 7 (R428, R431, R432): no SRAM line is valid, the plan stores are empty, and there is no plan set and no job. -/
def State.clearOnDie (s : State) : State :=
  let s1 := allDies.foldl (fun (t : State) d => t.modFront d (fun f => { f with dropKeys := [] })) s
  { s1 with mem := { s.mem with sramValid := [], plan := [], planDouble := [], planSingle := [] }
            job := {} }

/-- The device leaves HALTED: no die holds a halt request any more (R536). -/
def State.dropHalts (s : State) : State :=
  allDies.foldl (fun (t : State) d => t.modFront d (fun f => { f with haltReq := false, stopped := false })) s

/-- Step 8 (R428): the scrub is recorded, and its key is kept in the always-on domain (R413). -/
def State.recordScrub (s : State) : State :=
  { s with ten := { s.ten with scrubRecorded := true, keptKey := (s.keySlot 1).keys.head?, phase := .unbound, release := none,
                               locked := false } }

/-- Steps 6 to 8 have run (R428, R429). -/
def State.endRelease (s : State) (ms : Nat) : State :=
  let s1 := s.scrubbed.copyScales.clearOnDie.dropHalts.recordScrub
  (((s1.bump P.releaseCount 1).setDev .idle).event Ev.tenantReleased [(1, 1), (4, sat32 ms)])

/-- SCRUB_COMPLETE (R428 steps 6 to 8): `ms` is the time since step 1. A scrub that a reset cut short reruns in start-up, and a device
in FAULT stays there (R496, R505). -/
def execScrubComplete (ms : Nat) (s : State) : Result :=
  if s.ten.phase = .scrubbing ∧ s.boot.dev = .halted then .next (s.endRelease ms) else .next s

/-! ## Attestation (R435, R436) -/

/-- The identity of a die as fused: lot, wafer, X, Y and stepping (R433, R480).
DEDUCED, unsafe: log entry 65. -/
def dieIdentity (i : Nat) : List Byte :=
  let n := fun (k : Nat) => dieNumber (k % 256)
  fitted 32 (dieLotBytes (P.dieLot i % 256)) ++ leBytes 1 (n (P.dieWafer i)) ++ leBytes 2 (n (P.dieX i)) ++ leBytes 2 (n (P.dieY i))
    ++ str32 "A0"

/-- The code of a tenant state (R409). -/
def TenantPhase.code : TenantPhase → Nat
  | .unbound => 0
  | .bound => 1
  | .releasing => 2
  | .scrubbing => 3

/-- The value of a measurement block (R436).
DEDUCED, unsafe: log entry 65. -/
def State.measurement (s : State) (i : Nat) : List Byte :=
  match i with
  | 1 => Config.bootRomDigest
  | 2 => s.blob P.fwDigest
  | 3 => leBytes 1 (s.param P.fwFuseCount)
  | 4 => leBytes 1 (s.param P.tenantMode) ++ leBytes 1 s.ten.phase.code ++ leBytes 2 s.ten.epoch.toNat
      ++ leBytes 1 (if s.ten.scrubRecorded then 1 else 0)
  | 5 => Config.fusedBytes 0x1000 3 ++ (List.range 5).flatMap dieIdentity
  | 6 => if s.adm.base = .valid then s.adm.fingerprint else List.replicate 48 0
  | 7 => (s.job.planSet.map (·.imageDigest)).getD (List.replicate 48 0)
  | 8 => leBytes 4 s.ten.lmsNext ++ leBytes 4 s.ten.lmsLimit
  | _ => []

/-- Leaves of the LMS tree (R435). -/
abbrev lmsLeaves : Nat := 2 ^ 20

/-- Take the next leaf: the flash limit moves ahead of it first (R435).
PRESUMED, unsafe: log entry 64. -/
def State.takeLeaf (s : State) : State :=
  let limit := if s.ten.lmsLimit ≤ s.ten.lmsNext then s.ten.lmsNext + 64 else s.ten.lmsLimit
  { s with ten := { s.ten with lmsNext := s.ten.lmsNext + 1, lmsLimit := limit } }

/-- GET_MEASUREMENTS (R435, R436): a signed report over the requester's nonce and the blocks asked for, or none once every leaf
is used.
DEDUCED, unsafe: log entry 65. DESIGN CHOICE, safe: log entry 97. -/
def execGetMeasurements (nonce : List Byte) (indices : List Nat) (s : State) : Result :=
  if !s.hubUp then .next s
  else if lmsLeaves ≤ s.ten.lmsNext then .next (s.event Ev.lmsExhausted [])
  else
    let body := nonce ++ indices.flatMap s.measurement
    let d := sha384 body
    .next ((s.takeLeaf).drawn.emit (.measurements body (Config.ecdsaSign d s.free) (Config.lmsSign d s.ten.lmsNext)))

end Sys2Proof.Machine
end

