-- ==== Sys2Proof/Machine/Resilience.lean ====
section
/-! DEFINITION. Surviving a failed device: partner copies, losses and stand-ins, restoring and resuming (R440 to R458). -/

namespace Sys2Proof.Machine

/-! ## The schedule-state record (R458) -/

/-- n little-endian bytes of a number modulo 2^64. -/
def le64 (v : Nat) : List Byte := leBytes 8 (v % 2 ^ 64)

/-- A block of bytes padded with zeros to n − 4, with its CRC-32C behind. -/
def sealed (n : Nat) (bs : List Byte) : List Byte :=
  let b := (bs ++ List.replicate n 0).take (n - 4)
  b ++ leBytes 4 (crc32c b)

/-- Micro-batches before a step: (NEXT_STEP − FIRST_STEP) × n. -/
def stepsTimes (d : JobDesc) (next n : Nat) : Nat := (next - d.firstStep) * n

/-- The record of a job for a NEXT_STEP. -/
def State.scheduleRecord (s : State) (d : JobDesc) (set : PlanSet) (next : Nat) : List Byte :=
  sealed 4096 (asciiBytes "BNXSCHED" ++ leBytes 2 1 ++ leBytes 2 d.trains.length ++ leBytes 4 d.jobTag ++ le64 d.planSetId
    ++ le64 d.jobSeed.toNat ++ le64 d.firstStep ++ le64 next ++ le64 (stepsTimes d next set.scheduleLength)
    ++ le64 (stepsTimes d next d.microBatches) ++ leBytes 2 (s.param P.deviceId) ++ leBytes 2 set.orchardSize
    ++ leBytes 2 set.scheduleLength)

/-- The step after the last one whose update phase has closed. -/
def State.nextStepNow (s : State) : Nat := (s.job.lastStepUpdated.map (· + 1)).getD s.job.firstStepNow

/-- The record of the running job now, none without a job. -/
def State.recordNow (s : State) : Option (List Byte) :=
  match s.job.desc, s.job.planSet with
  | some d, some set => some (s.scheduleRecord d set s.nextStepNow)
  | _, _ => none

/-! ## COPY_PARTNER (R441) -/

/-- An UP link leads to a device, and its feed is another one unless a shared feed is allowed. -/
def State.partnerOk (s : State) (dev : Nat) : Bool :=
  allLinks.any (fun n => (s.link n).phase == .up && s.param (P.partnerId n) == dev)
    && allLinks.all (fun n => (s.link n).phase != .up || s.param (P.partnerId n) != dev
      || s.param (P.partnerFeed n) != s.boot.feedId.toNat || s.param P.allowSharedFeed == 1)
    && dev != s.param P.deviceId

/-- Why a write of COPY_PARTNER is refused: 6 STATE, 8 RANGE (R441, R467). -/
def State.copyPartnerFault (s : State) (dev : Nat) : Option Nat :=
  if !(s.boot.dev == .idle || s.boot.dev == .admitted) || s.jobPresent then some 6
  else if dev = 0xFFFF then none
  else if 1023 < dev ∨ !s.partnerOk dev then some 8 else none

/-- A write of COPY_PARTNER. -/
def State.writeCopyPartner (s : State) (dev : Nat) : State :=
  if (s.copyPartnerFault dev).isSome then s
  else State.setParam { s with res := { s.res with lastImage := if dev = s.param P.copyPartner then s.res.lastImage else none } }
    P.copyPartner dev

/-- COPY_PARTNER_WRITE (R441). -/
def execCopyPartnerWrite (device : Nat) (s : State) : Result := .next (s.writeCopyPartner device)

/-! ## Partner copies (R440, R443 to R445) -/

/-- The trained adapters in training-index order. -/
def State.trainedAdapters (s : State) : List Adapter :=
  s.job.trains.filterMap (fun t => s.adm.adapters.find? t.handle)

/-- Pages of an image after page 0. -/
def State.imagePages (s : State) : Nat := (s.trainedAdapters.map (·.storePages)).sum

/-- The header of an image (R443). -/
def State.imageHeader (s : State) (next : Nat) (complete : Bool) : List Byte :=
  let as' := s.trainedAdapters
  let firsts := (prefixSums (as'.map (·.storePages))).flatMap (fun p => leBytes 4 (1 + p))
  let head := asciiBytes "BNXPARTN" ++ leBytes 2 1 ++ leBytes 2 (s.param P.deviceId) ++ leBytes 1 s.boot.feedId.toNat
    ++ leBytes 1 (if complete then 1 else 0) ++ leBytes 2 as'.length ++ le64 next ++ leBytes 4 s.imagePages
    ++ List.replicate 100 0
  sealed 4096 (head ++ firsts)

/-- The first byte of an image in the partner's PARTNER region (R442).
PRESUMED, unsafe: log entry 69. -/
def State.imageByte (s : State) (image : Nat) : Nat :=
  (s.regionFirst .partner + image * (s.regionPages .partner / 2)) * 65536

/-- The hub writes bytes of whole blocks into the partner's die of the same number; the request takes an operation number that no
operation has.
DEDUCED, safe: log entry 130. -/
def State.writePartner (s : State) (d : DieId) (byte : Nat) (bytes : List Byte) : State :=
  let dev := s.param P.copyPartner
  let t := s.sendWrite d s.fab.nextOp dev d (globalAddress dev d 2 0 byte) (bytes.length / 256) none bytes
  { t with fab := { t.fab with nextOp := t.fab.nextOp + 1 } }

/-- Write an image's header, and with the first one the schedule-state record, on all four dies; the copy goes on once all four
writes have completed (R444).
DEDUCED, safe: log entry 130. -/
def State.writeImageHead (s : State) (c : PartnerCopy) (complete : Bool) : State :=
  let head := s.imageHeader c.nextStep complete
  let bytes := if complete then head
    else head ++ (match s.job.desc, s.job.planSet with
      | some d, some set => s.scheduleRecord d set c.nextStep
      | _, _ => List.replicate 4096 0)
  let t := allDies.foldl (fun (t : State) d => t.writePartner d (t.imageByte c.image) bytes) s
  let ops := (List.range 4).map (fun i => s.fab.nextOp + i)
  { t with res := { t.res with copying := some { c with head := ops, sent := complete } } }

/-- A partner copy is due (R440): a training job runs, a partner is named, and the last update phase that closed was that of a
copy step, for which the job has begun none yet. -/
def State.copyDue (s : State) : Bool :=
  s.jobActive && s.job.trains != [] && s.param P.copyPartner != 0xFFFF && !s.job.inUpdate && s.res.copying.isNone
    && (match s.job.lastStepUpdated, s.job.desc with
      | some st, some d => (st - d.firstStep + 1) % s.param P.partnerInterval == 0
          && s.job.copyBegun != some (st + 1)
      | _, _ => false)

/-- The image that a copy is written into: the one that does not hold the newest complete copy (R444). Where this device does not know
which one that is, the image is a free value.
DESIGN CHOICE, safe: log entry 207. -/
def State.copyImage (s : State) : Nat :=
  match s.res.lastImage with
  | some x => 1 - x
  | none => s.freeWord.toNat % 2

/-- PARTNER_COPY_BEGIN (R440, R444). -/
def execPartnerCopyBegin (s : State) : Result :=
  if s.copyDue then
    let s1 := { s.drawn with job := { s.job with copyBegun := some s.nextStepNow } }
    .next (s1.writeImageHead ⟨s.copyImage, s.nextStepNow, 0, [], false, 0⟩ false)
  else .next s

/-- Blocks of an image after page 0. -/
def State.imageBlocks (s : State) : Nat := s.imagePages * 256

/-- Where an image block of a die lies in its ADAPTER_STORE, and how many blocks of the same adapter follow from it on.
DEDUCED, unsafe: log entry 68. -/
def sourceOf : List Adapter → Nat → Option (Nat × Nat)
  | [], _ => none
  | a :: as', b => if b < a.storePages * 256 then some (a.storePage * 256 + b, a.storePages * 256 - b)
      else sourceOf as' (b - a.storePages * 256)

/-- The chunks of the coming beat: source block, image block and chunks, none when nothing is left to move.
DEDUCED, unsafe: log entry 68. -/
def State.copyChunks (s : State) (c : PartnerCopy) : Option (Nat × Nat × Nat) :=
  match sourceOf s.trainedAdapters c.moved with
  | some (b, left) =>
    some (b, c.moved, min (s.param P.partnerChunksPerBeat) (ceilDiv left (s.param P.partnerChunkBlocks)))
  | none => none

/-- A copy in progress stands: no update phase has opened since it began (R445). -/
def State.copyLive (s : State) (c : PartnerCopy) : Bool := !s.job.inUpdate && c.nextStep == s.nextStepNow

/-- The pages of a copy may move: it stands, and its first header has been written (R444). -/
def State.copyMoves (s : State) (c : PartnerCopy) : Bool := s.copyLive c && c.head.isEmpty

/-- The descriptor of R445 for one die.
DEDUCED, unsafe: log entry 68. PRESUMED, unsafe: log entry 69. -/
def State.copyDescriptor (s : State) (d : DieId) : List Byte :=
  let x := match s.res.copying.filter s.copyMoves with
    | some c => (s.copyChunks c).map (fun (y : Nat × Nat × Nat) =>
        (y.1, globalAddress (s.param P.copyPartner) d 2 0 (s.imageByte c.image + 65536 + 256 * y.2.1), y.2.2))
    | none => none
  match x with
  | some (src, dst, n) => le64 src ++ le64 dst ++ leBytes 4 n ++ List.replicate 12 0
  | none => List.replicate 32 0

/-- Blocks moved once the coming beat has run, which opens with the JOB_BEAT after this one; a chunk that passes an adapter's end moves
on to the next adapter. -/
def State.copyAdvance (s : State) (c : PartnerCopy) : PartnerCopy :=
  if !s.copyMoves c then c
  else
  match sourceOf s.trainedAdapters c.moved, s.copyChunks c with
  | some (_, left), some (_, _, n) =>
    { c with moved := c.moved + min left (n * s.param P.partnerChunkBlocks), lastBeat := s.beat.jobBeat + 2 }
  | _, _ => c

/-- At the snapshot before a plan opens, the hub writes the coming beat's descriptor on every die (R445). -/
def State.steerCopy (s : State) : State :=
  if s.job.trains = [] then s
  else
    let s1 := allDies.foldl (fun (t : State) d => t.hubPut false d ((s.tablePage + 2) * 65536) (s.copyDescriptor d)) s
    { s1 with res := { s1.res with copying := s.res.copying.map s.copyAdvance } }

/-- Every page of a copy has been written: all have been named to the loops, and the plans that held these have closed (R444). -/
def State.copyMoved (s : State) (c : PartnerCopy) : Bool :=
  s.copyMoves c && !c.sent && decide (s.imageBlocks ≤ c.moved) && s.closedBelow c.lastBeat

/-- The final header goes out behind the pages, at a snapshot (R444). -/
def State.sealCopy (s : State) : State :=
  match s.res.copying with
  | some c => if s.copyMoved c then s.writeImageHead c true else s
  | none => s

/-- PARTNER_COPY_DONE (R444, R445): the final header has been written on every die, before the next update phase opens. -/
def execPartnerCopyDone (s : State) : Result :=
  match s.res.copying with
  | some c =>
    if s.copyMoves c ∧ c.sent then
      let s2 := { s with res := { s.res with copying := none, lastImage := some c.image } }
      .next (((s2.setParam P.partnerLastStep c.nextStep).bump P.partnerCopies 1).event Ev.partnerCopyDone
        [(2, s.param P.copyPartner), (8, c.nextStep), (1, c.image)])
    else .next s
  | none => .next s

/-- PARTNER_COPY_LATE (R445): the next update phase has opened, and maybe closed. -/
def execPartnerCopyLate (s : State) : Result :=
  match s.res.copying with
  | some c =>
    if !s.copyLive c then
      let s1 := { s with res := { s.res with copying := none } }
      .next ((s1.bump P.partnerCopiesLate 1).event Ev.partnerCopyLate [(2, s.param P.copyPartner), (8, c.nextStep)])
    else .next s
  | none => .next s

/-- An image header is complete and in order (R443, R444). -/
def headOk (b : List Byte) : Bool :=
  magicIs b "BNXPARTN" && fieldLE b 8 2 == 1 && fieldLE b 13 1 == 1 && fieldLE b 4092 4 == crc32c (b.take 4092)

/-- NEXT_STEP of a hosted image whose headers are complete and in order on every die, 0 otherwise (R443, R459). -/
def State.hostedStep (s : State) (image : Nat) : Nat :=
  let head := fun (d : DieId) => s.extGet true d (s.imageByte image) 4096
  if allDies.all (fun d => headOk (head d)) then fieldLE (head 0) 16 8 else 0

/-! ## Losing a device (R446 to R450) -/

/-- DEVICE_LOST (R446): a child's echo has been missing at 4 consecutive boundaries. -/
def execDeviceLost (l : LinkId) (s : State) : Result :=
  if s.beat.children.contains l.val ∧ 4 ≤ s.beat.missing.getD l.val 0 ∧ !s.beat.lostChildren.contains l.val then
    let e := s.beat.lastEcho.find? l.val
    .next (State.event { s with beat := { s.beat with lostChildren := s.beat.lostChildren ++ [l.val] } } Ev.deviceLost
      [(2, s.param (P.partnerId l.val)), (8, (e.map (·.jobBeat)).getD 0), (2, (e.map (·.subtreeCount)).getD 0)])
  else .next s

/-- LOSS_HOLD_EXPIRED (R447): the hold has had its beats, and no loss has been applied. A refusal stays shown.
DEDUCED, unsafe: log entry 77. -/
def execLossHoldExpired (s : State) : Result :=
  if s.beat.holdBeats ≠ 0 ∧ s.param P.lossHoldBeats ≤ s.beat.holdBeats ∧ !s.beat.holdExpired ∧ s.res.lossApplied.isNone then
    let s1 := if s.param P.lossState = 3 then s else s.setParam P.lossState 0
    .next (State.event { s1 with beat := { s1.beat with holdExpired := true } } Ev.lossHoldExpired [])
  else .next s

/-- The stand-in counts for the plan of a schedule slot on a die: (tally, total COUNT), from a lost device (R449, R451). -/
def State.standins (s : State) (src slot : Nat) (d : DieId) : List (Nat × Nat) :=
  let rows := (s.res.standin.getD []).filter (fun r => r.source == src && r.slot == slot && r.die == d.val)
  (rows.map (·.tally)).dedup.map (fun t => (t, ((rows.filter (fun r => r.tally == t)).map (·.count)).sum))

/-- What a REMOTE tally of the plan in progress still lacks of its closing value. -/
def State.shortfall (s : State) (d : DieId) (t : Nat) : Option Nat :=
  ((s.front d).decls.find? (fun x => x.tally == t && x.remote)).map (fun x =>
    let v := s.tally d t
    let b := (s.front d).base t
    if reached v b x.advance then 0 else (b + BitVec.ofNat 32 x.advance - v).toNat)

/-- Add the stand-in counts for the plan that a die holds. -/
def State.standinNow (s : State) (src : Nat) (d : DieId) : State :=
  if (s.front d).planOpen then
    (s.standins src (s.front d).schedSlot d).foldl (fun (t : State) (x : Nat × Nat) =>
      match t.shortfall d x.1 with
      | some n => t.receiveTally d x.1 (min x.2 n) t.runningTag
      | none => t) s
  else s

/-- Add the stand-in counts in full for a plan that opens after a loss has been applied (R449). -/
def State.standinOpen (s : State) (d : DieId) (slot : Nat) : State :=
  match s.res.lossApplied with
  | some src => (s.standins src slot d).foldl (fun (t : State) (x : Nat × Nat) => t.receiveTally d x.1 x.2 t.runningTag) s
  | none => s

/-- This device is the beat source, or alone (R42). -/
def State.isSource (s : State) : Bool := s.param P.beatRole != 2

/-- A boundary of the hold (R449): a CATCH_UP one, and at the source one that the hold announced.
DEDUCED, unsafe: log entry 74. -/
def State.holdBoundary (s : State) : Bool :=
  s.beat.kind == .catchUp && (!s.isSource || s.beat.holdTicks.contains s.beat.count)

/-- A loss is to be applied at the current boundary (R449). -/
def State.lossDue (s : State) : Bool :=
  s.res.lossPending == some s.beat.count && s.jobActive && s.res.lossApplied.isNone && s.holdBoundary

/-- A loss-apply beat is refused (R449). -/
def State.refuseLoss (s : State) (beat : Nat) : State := (s.setParam P.lossState 3).event Ev.lossRefused [(8, beat)]

/-- A loss is applied at the current boundary (R449, R450); its catch-up beats went out with the boundary's markers. -/
def State.applyLoss (s : State) : State :=
  let dev := s.param P.lossDevice
  let s1 := allDies.foldl (fun (t : State) d => t.standinNow dev d) s
  let s2 := { s1 with res := { s1.res with lossApplied := some dev, lossPending := none }
                      job := { s1.job with lossEndStep := some (s.stepOf s.beat.jobBeat + 1) } }
  (s2.setParam P.lossState 2).event Ev.lossApplied [(2, dev), (8, s.beat.count)]

/-- LOSS_APPLY (R449): the boundary named has come; it must be one of the hold of a running job to which no loss has been applied. -/
def execLossApply (s : State) : Result :=
  match s.res.lossPending with
  | none => .next s
  | some b =>
    if s.beat.count < b then .next s
    else if s.lossDue then .next s.applyLoss
    else .next (State.refuseLoss { s with res := { s.res with lossPending := none } } b)

/-- A write of LOSS_APPLY_BEAT whose beat has passed is refused (R449). -/
def State.writeLossApply (s : State) (beat : Nat) : State :=
  let s1 := s.setParam P.lossApplyBeat beat
  if beat ≤ s.beat.count then State.refuseLoss { s1 with res := { s1.res with lossPending := none } } beat
  else { s1 with res := { s1.res with lossPending := some beat } }

/-! ## Stand-in tables (R451) -/

/-- A stand-in entry. -/
def standinRow (v : Nat) : StandinRow := ⟨bits v 54 10, bits v 42 12, bits v 40 2, bits v 27 13, bits v 11 16⟩

/-- The entries of a table at a window offset. -/
def State.standinRows (s : State) (o n : Nat) : List StandinRow :=
  (List.range n).map (fun i => standinRow (s.windowLE (o + 128 + 8 * i) 8))

/-- A table is for this device and the loaded plan set, and intact. -/
def State.standinOk (s : State) (o : Nat) : Bool :=
  let n := s.windowLE (o + 12) 4
  let b := s.windowGet o (128 + 8 * n)
  s.inWindow o 128 && decide (1 ≤ n) && decide (n ≤ 65536) && s.inWindow o (128 + 8 * n)
    && magicIs b "BNXSTAND" && fieldLE b 8 2 == 1 && fieldLE b 10 2 == s.param P.deviceId
    && s.job.planSet.any (fun p => p.planSetId == fieldLE b 16 8)
    && (b.drop 24).take 48 == sha384 (b.take 24 ++ List.replicate 48 0 ++ b.drop 72)

/-- STANDIN_LOAD (R451).
DEDUCED, unsafe: log entry 72. -/
def execStandinLoad (offset : Nat) (s : State) : Result :=
  if s.standinOk offset then
    let rows := s.standinRows offset (s.windowLE (offset + 12) 4)
    .next (State.setParam { s with res := { s.res with standin := some rows } } P.standinState 1)
  else .next (State.setParam { s with res := { s.res with standin := none } } P.standinState 2)

/-- STANDIN_DISCARD (R451). -/
def execStandinDiscard (s : State) : Result :=
  .next (State.setParam { s with res := { s.res with standin := none } } P.standinState 0)

/-! ## Restoring (R454 to R456) -/

/-- A record with KEY_SLOT rewritten and HEADER_CRC recomputed (R454). -/
def rekeyRecord (rec' : List Byte) (slot : Nat) : List Byte :=
  let h := rec'.take 16 ++ leBytes 2 slot ++ (rec'.take 252).drop 18
  h ++ leBytes 4 (crc32c h) ++ rec'.drop 256

/-- The record of a restored adapter with its statistics section in order, and the state that has counted a rebuild (R456). -/
def State.restoredStats (s : State) (rec' : List Byte) (h : Nat) : State × List Byte :=
  let st := (rec'.drop (statsOffset rec')).take 64
  if statsOk st then (s, st)
  else ((s.bump P.statsRebuilt 1).event Ev.statsRebuilt [(2, h)], freshStats (s.paramInt P.lossScaleInit 8) st)

/-- A die's store contents from a partner image, with the rewritten header and statistics. -/
def patchStore (rec' stats bytes : List Byte) (n : Nat) : List Byte :=
  let o := statsOffset rec'
  let b := rec'.take 256 ++ (bytes.take o).drop 256 ++ stats ++ bytes.drop (o + 64)
  (b ++ List.replicate n 0).take n

/-- Register a restored record at once: `image` gives what each die stores. -/
def State.adoptRecord (s : State) (rec' : List Byte) (image : List Byte → DieId → Nat → List Byte) : State :=
  let fcb := s.param P.fillChunkBlocks
  let pages := storePagesOf (fieldLE rec' 100 4) (fieldLE rec' 128 4) (fieldLE rec' 112 8) fcb
  match s.storeRun pages, firstGap 8192 0 s.adm.adapters with
  | some page, some h =>
    let x := s.restoredStats rec' h
    let a : Adapter := { adapterOf rec' s.adm.nextSerial page pages with copied := true }
    let s1 := { x.1 with adm := { x.1.adm with adapters := x.1.adm.adapters.insert h a, nextSerial := x.1.adm.nextSerial + 1 } }
    allDies.foldl (fun (t : State) d =>
      (t.keyWholeRange true d page a.keySlot pages).extPut true d (page * 65536) (image x.2 d pages)) s1
  | _, _ => s

/-- The key slot that the vault holds for a record's matter, 0 when it holds none. -/
def State.recordSlot (s : State) (rec' : List Byte) : Nat := (s.liveMatterSlot (fieldLE rec' 12 4)).getD 0

/-- Check a rewritten record and register it, or say why not (R245, R454). -/
def State.restoreRecord (s : State) (rec' : List Byte) (image : List Byte → DieId → Nat → List Byte) : Except Status State :=
  if !(recordOk rec' (fieldLE rec' 120 8)) then .error .badRecord
  else
    match s.registerFault rec' with
    | some st => .error st
    | none => .ok (s.adoptRecord rec' image)

/-! A partner source: the compute dies read the holder's images with READ messages, first both headers and then the pages that the
list needs of the newest complete image (R443, R454). -/

/-- Where bytes of an image lie at the holder, COPY_PARTNER. -/
def State.holderAddress (s : State) (d : DieId) (image byte : Nat) : Nat :=
  globalAddress (s.param P.copyPartner) d 2 0 (s.imageByte image + byte)

/-- A die reads blocks of an image for the hub, under an operation number that no operation has. -/
def State.readHolder (s : State) (image byte blocks : Nat) (d : DieId) : State :=
  let n := s.fab.nextOp
  let t := s.sendRead d n (s.param P.copyPartner) d (s.holderAddress d image byte) blocks none
  { t with fab := { t.fab with nextOp := n + 1 }, res := { t.res with awaiting := t.res.awaiting ++ [n] } }

/-- Page 0 of both images up to the end of its schedule-state record, on every die. -/
def State.readHeads (s : State) : State :=
  [0, 1].foldl (fun (t : State) k => allDies.foldl (fun (u : State) d => u.readHolder k 0 32 d) t) s

/-- What has been read of an image's page on a die, none if nothing has. -/
def State.holderPage (s : State) (d : DieId) (image page : Nat) : Option (List Byte) :=
  s.res.fetched.find? (s.holderAddress d image (65536 * page))

/-- The header read of an image on a die. -/
def State.holderHead (s : State) (d : DieId) (image : Nat) : List Byte := (s.holderPage d image 0).getD []

/-- NEXT_STEP of an image whose headers are in order and agree on every die. -/
def State.imageStep (s : State) (image : Nat) : Option Nat :=
  let head := fun (d : DieId) => s.holderHead d image
  if allDies.all (fun d => headOk (head d) && fieldLE (head d) 16 8 == fieldLE (head 0) 16 8) then some (fieldLE (head 0) 16 8)
  else none

/-- The newest complete image at the holder (R444, R454). -/
def State.newestImage (s : State) : Option Nat :=
  match s.imageStep 0, s.imageStep 1 with
  | some a, some b => some (if a < b then 1 else 0)
  | some _, none => some 0
  | none, some _ => some 1
  | none, none => none

/-- First page and pages of an entry's store contents by the header on a die, none for an index that the image does not hold. -/
def State.imageRun (s : State) (image i : Nat) (d : DieId) : Option (Nat × Nat) :=
  let h := s.holderHead d image
  let first := fun (k : Nat) => fieldLE h (128 + 4 * k) 4
  let n := fieldLE h 14 2
  if i < n ∧ n ≤ 512 then some (first i, (if i + 1 < n then first (i + 1) else 1 + fieldLE h 24 4) - first i) else none

/-- The entries of a restore list that name the partner, from entry i on: the list ends at the first entry whose TRAIN_INDEX is not
its place. -/
def State.partnerEntries (s : State) (o i : Nat) : Nat → List Nat
  | 0 => []
  | n + 1 =>
    let a := o + 16 * i
    if s.inWindow a 16 && s.windowLE a 2 == i then
      (if s.windowLE (a + 2) 1 = 0 then [i] else []) ++ s.partnerEntries o (i + 1) n
    else []

/-- Read the pages of an entry on every die; an image holds at most its half of the region. -/
def State.readPages (s : State) (image i : Nat) : State :=
  allDies.foldl (fun (t : State) d =>
    match s.imageRun image i d with
    | some (first, n) =>
      (List.range (min n (s.regionPages .partner / 2))).foldl (fun (u : State) p => u.readHolder image (65536 * (first + p)) 256 d) t
    | none => t) s

/-- The store contents of an entry on a die as they were read, none if a page is missing. -/
def State.holderBytes (s : State) (image i : Nat) (d : DieId) : Option (List Byte) :=
  match s.imageRun image i d with
  | some (first, n) =>
    let pages := (List.range (min n (s.regionPages .partner / 2))).map (fun p => s.holderPage d image (first + p))
    if n = 0 ∨ pages.contains none then none else some (pages.flatMap (·.getD []))
  | none => none

/-- Restore one entry from the image that has been read (R454): a source that could not be read fails as a bad record does.
DEDUCED, unsafe: log entry 208. -/
def State.restorePartner (s : State) (i : Nat) : Except Status State :=
  match s.res.image with
  | none => .error .badRecord
  | some k =>
    if allDies.any (fun d => (s.holderBytes k i d).isNone) then .error .badRecord
    else if !(s.inWindow (s.param P.resumeOffset) 4096) then .error .windowRange
    else
      let bytes := fun (d : DieId) => (s.holderBytes k i d).getD []
      let rec' := rekeyRecord (bytes 0) (s.recordSlot (bytes 0))
      (s.restoreRecord rec' (fun st d n => patchStore rec' st (bytes d) (n * 65536))).map (fun t =>
        t.snoopWrite .restore (s.param P.resumeOffset) (((s.holderHead 0 k).drop 4096).take 4096))

/-- Restore one entry of the list at a window offset. -/
def State.restoreEntry (s : State) (a i : Nat) : Except Status State :=
  let fcb := s.param P.fillChunkBlocks
  match s.windowLE (a + 2) 1 with
  | 0 => s.restorePartner i
  | 1 =>
    let o := s.windowLE (a + 8) 8
    if !(s.inWindow o 256) || !(s.inWindow o (s.windowLE (o + 120) 8)) then .error .windowRange
    else
      let raw := s.windowGet o (s.windowLE (o + 120) 8)
      let rec' := rekeyRecord raw (s.recordSlot raw)
      s.restoreRecord rec' (fun st d n => storeImage rec' st fcb n d.val)
  | _ => .error .badRecord

/-- Restore the list from entry i on, and say how that ended; `first` is the first handle given. The list ends at the first entry
whose TRAIN_INDEX is not its place.
DEDUCED, unsafe: log entry 71. -/
def State.restoreFrom (s : State) (o first i : Nat) : Nat → State × RestoreEnd
  | 0 => (s, .done i first)
  | n + 1 =>
    let a := o + 16 * i
    if s.inWindow a 16 && s.windowLE a 2 == i then
      match s.restoreEntry a i with
      | .error st => (s, .failed i st.code)
      | .ok t => t.restoreFrom o first (i + 1) n
    else if i = 0 then (s, .failed 0 Status.badRecord.code)
    else (s, .done i first)

/-- Every source of a restore list has been read (R454): the restore ends with the host's last answer for the record's lines, at once
when it has written none (R331). -/
def State.restoreNow (s : State) (o : Nat) : State :=
  let x := s.restoreFrom o ((firstGap 8192 0 s.adm.adapters).getD 0) 0 512
  State.restoreAnswered { x.1 with res := { x.1.res with restored := some x.2, fetched := [], image := none } }

/-- The hub has read what it asked for (R454): once the headers of the partner's images are there, the pages of the newest complete
one are read. -/
def State.restoreDone (s : State) (o : Nat) : State :=
  let named := s.partnerEntries o 0 512
  if named = [] ∨ s.res.image.isSome then s.restoreNow o
  else
    match s.newestImage with
    | some k => named.foldl (fun (t : State) i => t.readPages k i)
        { s with res := { s.res with image := some k, lastImage := some k }
                 boot := { s.boot with hub := s.boot.hub ++ [.restore o] } }
    | none => s.restoreNow o

/-- A restore is in progress. -/
def State.restoring (s : State) : Bool := s.res.restored.isSome || s.boot.hub.any (fun h => match h with
  | .restore _ => true
  | _ => false)

/-- RESTORE (R454): it ends with HUB_COPY_DONE, and is turned away while plans run. Where the list names the partner, the headers of
its images are read first.
DEDUCED, unsafe: log entry 73. -/
def execRestore (offset : Nat) (s : State) : Result :=
  if s.boot.dev ≠ .admitted ∨ s.jobPresent then .next (s.postRestore (.failed 0 Status.notAllowed.code))
  else if s.restoring then .next s
  else
    let s1 := { s with boot := { s.boot with hub := s.boot.hub ++ [.restore offset] } }
    .next (if s.partnerEntries offset 0 512 = [] ∨ s.param P.copyPartner = 0xFFFF then s1 else s1.readHeads)

/-! ## Resuming (R457) -/

/-- A schedule-state record fits the description and the loaded plan set.
DEDUCED, unsafe: log entry 75. -/
def State.recordFits (s : State) (o r : Nat) : Bool :=
  let b := s.windowGet r 4096
  let d := s.jobDescAt o
  s.inWindow r 4096 && magicIs b "BNXSCHED" && fieldLE b 8 2 == 1 && fieldLE b 4092 4 == crc32c (b.take 4092)
    && fieldLE b 12 4 == d.jobTag && fieldLE b 16 8 == d.planSetId && fieldLE b 24 8 == d.jobSeed.toNat
    && fieldLE b 32 8 == d.firstStep && fieldLE b 64 2 == s.param P.deviceId
    && s.job.planSet.any (fun p => p.orchardSize == fieldLE b 66 2 && p.scheduleLength == fieldLE b 68 2)

/-- A RESUME that has passed every check. -/
def State.resumeJob (s : State) (o r : Nat) : State :=
  let d := s.jobDescAt o
  let s1 := (s.setParam P.jobPrepBeats (s.prepBeats d)).acceptJob d (s.windowLE (r + 40) 8) (some (s.windowLE (r + 48) 8))
  let s2 := ((s1.setParam P.lossState 0).setParam P.lossDevice 0xFFFF).setParam P.storeTorn 0
  State.jobResult { s2 with res := { s2.res with lossApplied := none } } 0

/-- RESUME (R457).
DEDUCED, unsafe: log entry 75. DESIGN CHOICE, safe: log entry 5. -/
def execResume (jobOffset recordOffset : Nat) (s : State) : Result :=
  if s.loading then .next s
  else
  match s.startFault jobOffset (s.recordFits jobOffset recordOffset) with
  | some x => .next (s.startRefused x)
  | none => .next (s.resumeJob jobOffset recordOffset)

end Sys2Proof.Machine
end

