-- ==== Sys2Proof/Machine/Checkpoint.lean ====
section
/-! DEFINITION. CHECKPOINT: an adapter's record as ADAPTER_STORE holds it, and the schedule-state record before the records of
every trained adapter (R294, R347, R350). -/

namespace Sys2Proof.Machine

/-- What a CHECKPOINT writes for a handle, or for every trained adapter (0xFFFF); `next` is the record's NEXT_STEP. -/
def State.checkpointBytes (s : State) (h next : Nat) : Option (List Byte) :=
  if h = 0xFFFF then
    match s.job.desc, s.job.planSet with
    | some d, some set => some (s.scheduleRecord d set next ++ s.trainedAdapters.flatMap s.recordBytesOf)
    | _, _ => none
  else (s.adm.adapters.find? h).map s.recordBytesOf

/-- One hub operation at the close of an update phase in the beats of a step: a CHECKPOINT that waited for it is taken. -/
def State.takeCheckpoint (s : State) (step : Nat) (o : HubOp) : HubOp :=
  match o with
  | .checkpoint e h dst max none =>
    .checkpoint e h dst max (some (match s.checkpointBytes h step with
      | none => (.unknownAdapter, [], 0)
      | some b => s.fitImage b dst max (stepBefore step)))
  | _ => o

/-- Count what the reads of a CHECKPOINT that is taken now met (R225). -/
def State.checkpointMet (s : State) (o : HubOp) : State :=
  match o with
  | .checkpoint _ h _ _ none =>
    if h = 0xFFFF then s.trainedAdapters.foldl State.recordMet s
    else match s.adm.adapters.find? h with
      | some a => s.recordMet a
      | none => s
  | _ => s

/-- Pending checkpoints of trained adapters are taken as they stand at the close of an update phase (R347). -/
def State.takeCheckpoints (s : State) (step : Nat) : State :=
  let s1 := s.boot.hub.foldl State.checkpointMet s
  { s1 with boot := { s1.boot with hub := s1.boot.hub.map (s.takeCheckpoint step) } }

end Sys2Proof.Machine
end

