-- ==== Sys2Proof/Machine/Beat.lean ====
section
/-! DEFINITION. The beat: kinds of boundary, closing and opening plans, overruns, catch-up and halt, markers and echoes, the
election of the beat source, and power capping (R22 to R57, R447, R483, R536). -/

namespace Sys2Proof.Machine

/-! ## Closure (R28, R56, R152) -/

/-- A tally holds the closing value that the plan declares, or the value it opened with. -/
def FrontEnd.tallyMet (f : FrontEnd) (t : Nat) : Bool :=
  let v := f.tallies.getD t 0
  match f.decls.find? (fun (x : Decl) => x.tally == t) with
  | some x => if x.remote then reached v (f.base t) x.advance else v == f.base t + BitVec.ofNat 32 x.advance
  | none => v == f.opened.getD t 0

/-- The first tally that does not hold its closing value. -/
def FrontEnd.badTally (f : FrontEnd) : Option Nat :=
  if f.planOpen then
    ((AMap.keys f.tallies ++ AMap.keys f.opened ++ f.decls.map (·.tally)).filter (fun t => !f.tallyMet t)).min?
  else none

/-- A slot queue still holds work; PLAN.END stands in slot C until every unit has completed (R150). -/
def FrontEnd.queueHeld (f : FrontEnd) : Bool :=
  f.planOpen && (!f.queuesEmpty || (f.endQueued && !f.running.isEmpty))

/-- The units have not finished every operation of the plan: one is in progress, or words are still to be issued (R28). An
operation that awaits answers has not completed (R149). -/
def FrontEnd.unitBusy (f : FrontEnd) : Bool := !f.running.isEmpty || (f.planOpen && !f.ended)

/-- An operation in progress is an outbound copy or a remote tally operation that its destination has not accepted (R28). -/
def Running.outbound (r : Running) : Bool :=
  r.awaiting != 0 && (r.entry.issue.hollow || (match r.entry.op with
    | .copy f => spaceDev f.dstSpace
    | .press _ f => spaceDev f.dstSpace
    | .tallyRadd _ => true
    | _ => false))

/-- The unmet conditions of R28 as a byte of CLOSE_STATUS (R56): every operation in progress is a busy unit, and one that awaits its
destination is outbound as well; a plan whose words have not all been issued counts as a busy unit.
DEDUCED, unsafe: log entries 80, 81. -/
def FrontEnd.unmet (f : FrontEnd) : Nat :=
  (if f.queueHeld then 1 else 0) + (if f.unitBusy then 2 else 0)
    + (if f.running.any Running.outbound then 4 else 0) + (if f.badTally.isSome then 8 else 0)

/-- The die is beat-closed on the plan that it holds.
DEDUCED, unsafe: log entry 81. -/
def FrontEnd.closed (f : FrontEnd) : Bool := f.unmet == 0

/-- The first unmet condition, 1 to 4.
DEDUCED, unsafe: log entry 80. -/
def firstCondition (u : Nat) : Nat := if u % 2 = 1 then 1 else if u / 2 % 2 = 1 then 2 else if u / 4 % 2 = 1 then 3 else 4

/-- The front end lets go of its plan: every declared tally's base moves on by its ADVANCE (R152). -/
def FrontEnd.closePlan (f : FrontEnd) : FrontEnd :=
  { f with planOpen := false, endQueued := false, decls := [], lateSince := none,
           bases := f.decls.foldl (fun (m : AMap W32) (x : Decl) =>
             AMap.set 0 m x.tally (m.getD x.tally 0 + BitVec.ofNat 32 x.advance)) f.bases }

/-- The staging buffers of a die are empty at every boundary (R131, R432). -/
def State.emptyStaging (s : State) (d : DieId) : State :=
  { s with cells := { s.cells with staging := s.cells.staging.filter (fun x => x.die != d) } }

/-- A die closes its plan: its counters are latched, its staging buffers are empty and its tables move on (R30 steps 1 and 2). -/
def State.closeDie (s : State) (d : DieId) : State :=
  if (s.front d).planOpen then (((s.latchCounts d).emptyStaging d).modFront d FrontEnd.closePlan).nextView d else s.nextView d

/-- What follows once a beat has been closed by every die: an update phase ends with its last beat, and stashes are released with
RELEASE_SLOT (R287, R294). -/
def State.afterClose (s : State) : State :=
  match s.job.desc with
  | none => s
  | some d =>
    let step := s.phaseStep
    let s1 := if s.job.inUpdate && s.closedBelow (s.updateBeat d step + d.updateBeats) then
        (s.closePhase step).takeCheckpoints step
      else s
    if s1.job.phasesClosed ≠ 0 && s1.job.trains.any (·.stashHeld) && s1.closedBelow (s1.releaseBeat d + 1) then s1.releaseStash
    else s1

/-! ## Opening (R30, R141 to R145, R160, R180, R99, R122, R128) -/

/-- The cells of a die as a plan finds them: vector registers, tiles, totals, translation lists and staging buffers empty. -/
def State.freshCells (s : State) (d : DieId) : State :=
  let c := s.cells
  let other := fun (n k : Nat) => k / n != d.val
  { s with
    cells := { c with vregs := c.vregs.filter (fun (x : Nat × List W32) => other 4096 x.1)
                      tiles := c.tiles.filter (fun (x : Nat × List Num) => other 256 x.1)
                      pending := c.pending.filter (fun k => other 2 k)
                      totalRows := c.totalRows.filter (fun (x : Nat × TotalRow) => other (2 ^ 20) x.1)
                      xlat := c.xlat.filter (fun (x : Nat × List Nat) => other 64 x.1)
                      staging := c.staging.filter (fun x => x.die != d)
                      flushed := c.flushed.filter (fun x => x.die != d) }
    mem := { s.mem with acc := s.mem.acc.clearRange (accKey d 0 0 0) (2 ^ 24) } }

/-- Declaration i of the plan whose header stands at a line of a die's plan store. -/
def State.storedDecl (s : State) (d : DieId) (line i : Nat) : Decl :=
  declOf (leNat (s.mem.plan.readBytes (planKey d (line * 128 + 256 + 8 * i)) 8))

/-- A plan's header line in a die's plan store, by its directory entry. -/
def State.planLine (s : State) (d : DieId) (index : Nat) : Nat :=
  (dirLineOf (leNat (s.mem.plan.readBytes (planKey d (8 * index)) 8))).start

/-- The scalar registers at a plan's opening: the batch descriptor in S0 to S15. -/
def openScalars (desc : List W32) : AMap W32 :=
  (desc.take 16).zipIdx.foldl (fun (m : AMap W32) (x : W32 × Nat) => AMap.set 0 m x.2 x.1) []

/-- The front end of a die at a plan's opening. Counts made since the last boundary that closed a plan stand for the next one
(R82). -/
def FrontEnd.opening (f : FrontEnd) (index slot jb line : Nat) (decls : List Decl) (desc : List W32) : FrontEnd :=
  { f with planOpen := true, ended := false, endQueued := false, planIndex := index, schedSlot := slot, planBeat := jb,
           line := line + 2 + declLines decls.length, wordNo := 0, nominal := 0, loops := [], ptrs := [],
           mask := BitVec.allOnes 64, scalars := openScalars desc, decls := decls, opened := f.tallies, stopped := false,
           lateSince := none, stale := false, lastStart := [] }

/-- The lines that the front end fetches to open a plan: the directory's, the header's two and the declarations' (R161, R162). -/
def openingLines (index line n : Nat) : List Nat :=
  (index / 16) :: (List.range (2 + declLines n)).map (fun k => line + k)

/-- A die opens a plan, and a lost device's stand-in counts for it are added (R30, R161, R449). -/
def State.openPlan (s : State) (d : DieId) (index jb : Nat) (desc : List W32) : State :=
  let line := s.planLine d index
  let n := leNat (s.mem.plan.readBytes (planKey d (line * 128 + 16)) 2)
  let decls := (List.range n).map (s.storedDecl d line)
  let s1 := (s.freshCells d).modFront d (fun f =>
    { f.opening index (s.slotOfBeat jb) jb line decls desc with seed := s.jobSeed, trainStep := s.trainStepOf jb })
  ((openingLines index line n).foldl (fun (t : State) k => t.fetchLine d k) s1).standinOpen d (s.slotOfBeat jb)

/-- A die that is closed opens the plan; a late one will open it when it closes (R31). -/
def State.openOrOwe (s : State) (jb : Nat) (d : DieId) : State :=
  let index := (s.front d).delivered.getD (s.adm.plan.getD 0)
  if (s.front d).closed && (s.front d).owed.isEmpty && !(s.front d).planOpen then s.openPlan d index jb s.adm.desc
  else
    let s1 := s.modFront d (fun f => { f with owed := f.owed ++ [(index, jb, s.beat.count, s.adm.desc)] })
    { s1 with kv := { s1.kv with views := s1.kv.views.set d (s1.kv.views.get d ++ [s1.kv.live]) } }

/-- How far past the work window of its plan a die has come that closes in a cycle of the current beat (R55); when a die on time
closed within its beat is a free value below GUARD_CYCLES.
DESIGN CHOICE, safe: log entry 78. -/
def State.slipNow (s : State) (d : DieId) (cycle : Nat) : Nat :=
  match (s.front d).lateSince with
  | some b => s.beat.guard + (s.beat.count - b) * s.beat.cycles + cycle
  | none => s.freeWord.toNat % s.beat.guard

/-- Note a closure in SLIP_HIGH.
DESIGN CHOICE, safe: log entry 78. -/
def State.noteSlip (s : State) (d : DieId) (cycle : Nat) : State :=
  (if (s.front d).lateSince.isSome then s else s.drawn).setParam (P.slipHigh d.val) (max (s.param (P.slipHigh d.val)) (min (s.slipNow d cycle) (2 ^ 32 - 1)))

/-- A late die that has closed opens the oldest plan that it owes, unless a halt holds it or this is a HALT boundary (R31, R41).
DEDUCED, unsafe: log entry 148. -/
def State.openOwed (s : State) (halting : Bool) (d : DieId) : State :=
  match (s.front d).owed with
  | [] => s
  | (index, jb, b, desc) :: rest =>
    if halting || s.haltHeld || !s.jobActive then s
    else
      let s1 := (s.modFront d (fun f => { f with owed := rest })).openPlan d index jb desc
      s1.modFront d (fun f => { f with lateSince := if b = s.beat.count then none else some (b + 1) })

/-- A die that meets closure at a boundary closes its plan, and if it owes another one it opens that in the same cycle (R31), but not
at a HALT boundary (R41). -/
def State.closeAtBoundary (halting : Bool) (s : State) (d : DieId) : State :=
  if !(s.front d).closed then s
  else if (s.front d).planOpen then (((s.noteSlip d 0).closeDie d).openOwed halting d) else (s.closeDie d).openOwed halting d

/-- Every die that meets closure closes its plan. -/
def State.closeDies (s : State) (halting : Bool) : State := (allDies.foldl (State.closeAtBoundary halting) s).afterClose

/-- At UPDATE_SLOT an update phase of the training job begins (R274, R288), unless a halt request keeps its plan from opening
(R41, R452). -/
def State.enterSlot (s : State) (d : JobDesc) (jb : Nat) : State :=
  let s1 := if s.slotOfBeat jb = 0 ∧ d.trains ≠ [] then s.loadKeys (s.stepOf jb) else s
  if s1.slotOfBeat jb = d.updateSlot ∧ d.trains ≠ [] then
    let s2 := s1.stashCheck
    if s2.haltHeld then s2 else { s2 with job := { s2.job with inUpdate := true } }
  else s1

/-- A NORMAL boundary: JOB_BEAT advances and the closed dies open the selected plan, unless the device holds a halt request (R26,
R30, R41). -/
def State.openBeat (s : State) : State :=
  match s.job.desc with
  | none => s
  | some d =>
    let jb := s.nextJobBeat
    let s1 := State.enterSlot { s with beat := { s.beat with jobBeat := jb, firstNormal := false } } d jb
    let s2 := if s1.haltHeld then s1 else allDies.foldl (fun (t : State) x => t.openOrOwe jb x) s1
    allDies.foldl (fun (t : State) x => t.modFront x (fun f => { f with delivered := none })) s2

/-! ## Overrun, catch-up, halt (R37 to R41) -/

/-- The beat source decides a kind for a boundary ahead of its marker. -/
def State.announce (s : State) (n : Nat) (k : BeatKind) : State :=
  if s.beat.announced.contains (n, k) then s
  else { s with beat := { s.beat with announced := s.beat.announced ++ [(n, k)] } }

/-- The source holds an overrun for the current boundary: CATCH_UP for the one after the next, unless the next one covers it
already (R38).
DEDUCED, unsafe: log entry 82. -/
def State.announceCatchUp (s : State) : State :=
  if !(s.isSource && s.jobActive) || s.beat.announced.contains (s.beat.count + 1, .catchUp) then s
  else s.announce (s.beat.count + 2) .catchUp

/-- The source holds a halt request: HALT for the boundary after the next (R41).
DEDUCED, unsafe: log entry 82. -/
def State.announceHalt (s : State) : State :=
  if s.isSource && s.jobActive then s.announce (s.beat.count + 2) .halt else s

/-- CLOSE_STATUS with a die's byte replaced (R56). -/
def closeByte (old : Nat) (d : DieId) (u : Nat) : Nat :=
  old % 2 ^ (8 * d.val) + u * 2 ^ (8 * d.val) + old / 2 ^ (8 * d.val + 8) * 2 ^ (8 * d.val + 8)

/-- A late die at a checked boundary (R37).
DEDUCED, unsafe: log entry 158. -/
def State.overrunDie (s : State) (d : DieId) : State :=
  let f := s.front d
  let c := firstCondition f.unmet
  let tally := if c = 4 then f.badTally.getD 0xFFFF else 0xFFFF
  ((((State.dieEvent { s with beat := { s.beat with overrun := true } } d Ev.beatOverrun [(1, c), (2, tally)]).bump
    P.overrunCount 1).setParam P.closeStatus (closeByte (s.param P.closeStatus) d f.unmet)).setParam P.lastOverrunBeat
      s.beat.count)

/-- The dies that are not closed. -/
def State.lateDies (s : State) : List DieId := allDies.filter (fun d => !(s.front d).closed)

/-- A late die keeps its tables, and the boundary at which it was first late is noted. -/
def State.keepLate (s : State) : State :=
  s.lateDies.foldl (fun (t : State) d => (t.keepView d).modFront d (fun f =>
    { f with lateSince := some (f.lateSince.getD t.beat.count) })) s

/-- What follows the closure check for the dies that failed it: a catch-up beat, or after one a halt (R38, R39). -/
def State.answerLate (s : State) (late : List DieId) : State :=
  let s1 :=
    if late.isEmpty then s
    else if s.beat.afterCatchUp then
      late.foldl (fun (t : State) d => (t.dieEvent d Ev.beatOverrunHalt []).requestHalt d) s
    else s.announceCatchUp
  { s1 with beat := { s1.beat with afterCatchUp := false } }

/-- A boundary checks closure: not a CATCH_UP or HALT one, and a FREE one only if a plan was running (R25). -/
def checksClosure (kind : BeatKind) (had : Bool) : Bool :=
  match kind with
  | .normal | .idle => true
  | .catchUp | .halt => false
  | .free => had

/-- A die stops issuing at a HALT boundary; what has started runs on (R41). -/
def FrontEnd.halt (f : FrontEnd) : FrontEnd := { f with stopped := true, queues := Slots.empty, owed := [], delivered := none }

/-- A HALT boundary: the device enters HALTED; an update phase cut short leaves torn moments (R41, R452). -/
def State.haltBeat (s : State) : State :=
  let s1 := allDies.foldl (fun (t : State) d => t.modFront d FrontEnd.halt) s
  let s2 := if s.job.inUpdate then (s1.setParam P.storeTorn 1).setParam P.recoveryStep 0 else s1
  State.setDev { s2 with job := { s2.job with phase := .halted } } .halted

/-! ## Kinds (R25, R27, R50, R447) -/

/-- A boundary is an idle position (R50).
DESIGN CHOICE, safe: log entry 84. -/
def State.idlePosition (s : State) (n : Nat) : Bool :=
  let w := n % 16
  let k := s.param P.idleGranted
  decide (w * k / 16 < (w + 1) * k / 16)

/-- Kinds by their codes (R25). -/
def kindOf : Nat → Option BeatKind
  | 0 => some .normal
  | 1 => some .catchUp
  | 2 => some .idle
  | 3 => some .halt
  | 4 => some .free
  | _ => none

/-- The code of a kind. -/
def BeatKind.code : BeatKind → Nat
  | .normal => 0
  | .catchUp => 1
  | .idle => 2
  | .halt => 3
  | .free => 4

/-- An IMMEDIATE release stops the job at this boundary (R428).
DEDUCED, unsafe: log entry 94. -/
def State.immediateDue (s : State) : Bool :=
  s.ten.phase == .releasing && s.ten.release.any (fun r => r.mode == .immediate)

/-- The kind of the boundary that has come (R27): FREE unless the job runs, else what has been decided for it. -/
def State.kindNow (s : State) : BeatKind :=
  if !s.jobActive then .free
  else if s.immediateDue ∨ s.beat.announced.contains (s.beat.count, .halt) then .halt
  else if s.beat.nextKind = .free then .normal
  else s.beat.nextKind

/-- The job starts at the next boundary. -/
def State.startsNext (s : State) : Bool :=
  s.job.phase == .starting && s.job.desc.any (fun d => d.startBeat == s.beat.count + 1)

/-- The source holds the orchard in catch-up beats: the newest aggregated echo misses a device and no loss has been applied
(R447).
DEDUCED, unsafe: log entry 74. -/
def State.holdDue (s : State) : Bool :=
  s.isSource && s.jobActive && decide (0 < s.beat.aggMissing) && s.res.lossApplied.isNone
    && decide (s.beat.holdBeats < s.param P.lossHoldBeats) && !s.beat.holdExpired

/-- The source announces CATCH_UP for the two boundaries after the apply boundary (R449). -/
def State.announceLoss (s : State) : State := (s.announce (s.beat.count + 1) .catchUp).announce (s.beat.count + 2) .catchUp

/-- LOSS_STATE of a hold: a refusal stays shown until another hold begins. -/
def State.showHold (s : State) (v : Nat) : State :=
  if s.param P.lossState = 3 ∧ s.beat.holdBeats ≠ 0 then s else s.setParam P.lossState v

/-- A hold beat is announced, or a hold that no longer has a cause ends; at an apply boundary the catch-up beats that follow it are
announced.
DEDUCED, unsafe: log entries 74, 77. -/
def State.hold (s : State) : State :=
  let s0 := if s.isSource && s.lossDue then s.announceLoss else s
  let b := s0.beat
  if s0.holdDue then
    let s1 := s0.showHold 1
    { s1 with beat := { b with holdBeats := b.holdBeats + 1
                               holdTicks := b.holdTicks.filter (fun n => decide (b.count ≤ n)) ++ [b.count + 1] } }.announce
      (b.count + 1) .catchUp
  else if b.aggMissing = 0 ∧ b.holdBeats ≠ 0 ∧ s0.res.lossApplied.isNone then
    let s1 := s0.showHold 0
    { s1 with beat := { b with holdBeats := 0, holdExpired := false } }
  else s0

/-- The kind of the next boundary as this device knows it: the source decides it, a follower waits for its parent's marker
(R27, R50).
DEDUCED, unsafe: log entry 83. -/
def State.nextKindNow (s : State) : BeatKind :=
  let n := s.beat.count + 1
  if !s.jobActive then (if s.startsNext then .normal else .free)
  else if !s.isSource then .normal
  else if s.beat.announced.contains (n, .halt) then .halt
  else if s.beat.announced.contains (n, .catchUp) then .catchUp
  else if s.idlePosition n then .idle
  else .normal

/-- What the source has decided for boundaries that have passed is forgotten, and the kind of the next one is set. -/
def State.lookForward (s : State) : State :=
  let s1 := s.hold
  let s2 := { s1 with beat := { s1.beat with nextKind := s1.nextKindNow } }
  { s2 with beat := { s2.beat with announced := s2.beat.announced.filter (fun (x : Nat × BeatKind) =>
      decide (s2.beat.count < x.1)) } }

/-! ## The election (R42, R43) -/

/-- Two claims by priority, then device ID. -/
def betterClaim (p a q b : Nat) : Bool := decide (p < q) || (p == q && decide (a < b))

/-- This device's own claim: priority and ID, if it may be the source. -/
def State.ownClaim (s : State) : Option (Nat × Nat) :=
  if s.beat.priority ≠ 0 ∧ s.param P.deviceId ≠ 0xFFFF then some (s.beat.priority, s.param P.deviceId)
  else none

/-- The best claim that this device knows: priority and source. -/
def State.bestClaim (s : State) : Option (Nat × Nat) :=
  (s.beat.claims.filter (fun (x : Nat × Claim) => (s.link x.1).carriesLocal)).foldl
    (fun (b : Option (Nat × Nat)) (x : Nat × Claim) =>
      match b with
      | some (p, a) => if betterClaim x.2.priority x.2.source p a then some (x.2.priority, x.2.source) else b
      | none => some (x.2.priority, x.2.source)) s.ownClaim

/-- The first link of the installed route towards a device, from a die on. -/
def State.firstHop (s : State) (dev : Nat) : Nat → DieId → Option Nat
  | 0, _ => none
  | n + 1, d =>
    let e := s.routeEntry d dev
    if !e.testBit 63 then none
    else if entryPort e < 12 then some (12 * d.val + entryPort e)
    else if entryPort e = 12 then s.firstHop dev n (rowNeighbour d)
    else s.firstHop dev n (columnNeighbour d)

/-- Post what an election has found. -/
def State.setRole (s : State) (src role link depth latency : Nat) : State :=
  ((((s.setParam P.beatSourceId src).setParam P.beatRole role).setParam P.beatParentLink link).setParam P.beatDepth
    (min depth 63)).setParam P.beatPathLatency latency

/-- The election with the claims known now; the parent link is the first hop of die 0's route (R43).
DESIGN CHOICE, unsafe: log entry 165. -/
def State.elect (s : State) : State :=
  match s.bestClaim with
  | none => s.setRole 0xFFFF 0 0xFF 0 0
  | some (_, src) =>
    if src = s.param P.deviceId then
      s.setRole src (if s.beat.claims.any (fun (x : Nat × Claim) => (s.link x.1).carriesLocal) then 1 else 0) 0xFF 0 0
    else
      match s.firstHop src 4 0 with
      | none => s.setRole src 2 0xFF 0 0
      | some l =>
        match s.beat.claims.find? l with
        | some c => s.setRole src 2 l (c.depth + 1) (c.latency + s.param (P.linkLatency l))
        | none => s.setRole src 2 l 0 0

/-! ## Markers and echoes (R44, R47) -/

/-- The bits of a marker (R44). -/
def markerWord (m : MarkerF) : Nat :=
  0x01 * 2 ^ 248 + m.thisKind * 2 ^ 244 + m.nextKind * 2 ^ 240 + m.sourceId % 1024 * 2 ^ 230 + m.depth % 64 * 2 ^ 224
    + m.sourcePriority % 256 * 2 ^ 216 + m.beatLog2 % 32 * 2 ^ 211 + m.guardDiv256 % 2048 * 2 ^ 200
    + m.beatCount % 2 ^ 64 * 2 ^ 128 + m.jobBeat % 2 ^ 64 * 2 ^ 64 + m.jobTag % 2 ^ 32 * 2 ^ 32 + m.pathLatency % 2 ^ 32

/-- The bits of an echo (R47). -/
def echoWord (e : EchoF) : Nat :=
  0x02 * 2 ^ 248 + e.senderId % 1024 * 2 ^ 238 + (if e.overrun then 2 ^ 231 else 0) + (if e.haltReq then 2 ^ 230 else 0)
    + e.idleReq % 16 * 2 ^ 226 + e.subtreeCount % 2 ^ 16 * 2 ^ 208 + e.missingCount % 2 ^ 16 * 2 ^ 192
    + e.beatCount % 2 ^ 64 * 2 ^ 128 + e.jobBeat % 2 ^ 64 * 2 ^ 64 + e.jobTag % 2 ^ 32 * 2 ^ 32

/-- JOB_BEAT and the tag as markers and echoes carry them: 0 with no job running. -/
def State.shownBeat (s : State) : Nat := if s.jobActive then s.beat.jobBeat else 0
def State.shownTag (s : State) : Nat := if s.jobActive then s.runningTag else 0

/-- The marker of the current boundary; a device that knows no source sends priority 0.
DEDUCED, safe: log entry 86. -/
def State.markerNow (s : State) : MarkerF :=
  let src := s.param P.beatSourceId
  { thisKind := s.beat.kind.code, nextKind := s.beat.nextKind.code, sourceId := if src = 0xFFFF then 0 else src,
    depth := s.param P.beatDepth, sourcePriority := (s.bestClaim.map (·.1)).getD 0,
    beatLog2 := Nat.log2 s.beat.cycles, guardDiv256 := s.beat.guard / 256, beatCount := s.beat.count,
    jobBeat := s.shownBeat, jobTag := s.shownTag, pathLatency := s.param P.beatPathLatency }

/-- Send the marker on every link that is UP, and on a QUARANTINED one (R388). The time to launch is measured by the
transmitter and is a free value.
DESIGN CHOICE, safe: log entry 87. -/
def State.sendMarkers (s : State) : State :=
  let w := leBytes 32 (markerWord s.markerNow) ++ List.replicate 208 0
  allLinks.foldl (fun (t : State) n =>
    if (t.link n).phase = .up ∨ (t.link n).phase = .quarantined then
      (t.sendLocal n (BitVec.ofNat 6 (t.freeWord.toNat % 63)) w).drawn
    else t) s

/-- The children whose echoes are wanted: a lost device's no longer count once the loss has been applied (R449). -/
def State.wantedChildren (s : State) : List Nat :=
  s.beat.children.filter (fun l => !(s.res.lossApplied.any (fun dev => dev == s.param (P.partnerId l))))

/-- Children whose echo for this boundary has not come.
DEDUCED, unsafe: log entry 90. -/
def State.missingChildren (s : State) : List Nat := s.wantedChildren.filter (fun l => (s.beat.echoes.find? l).isNone)

/-- The echo of this device's subtree for the current boundary (R47).
DEDUCED, unsafe: log entry 90. -/
def State.echoNow (s : State) : EchoF :=
  let es := s.beat.echoes.map (fun (x : Nat × EchoF) => x.2)
  { senderId := s.param P.deviceId, overrun := s.beat.overrun || es.any (·.overrun),
    haltReq := s.haltHeld || es.any (·.haltReq),
    idleReq := (es.map (·.idleReq)).foldl max (s.param P.idleRequest),
    subtreeCount := 1 + (es.map (·.subtreeCount)).sum,
    missingCount := s.missingChildren.length + (es.map (·.missingCount)).sum, beatCount := s.beat.count,
    jobBeat := s.shownBeat, jobTag := s.shownTag }

/-- The echo goes to the parent, or at the source becomes the orchard's aggregate (R47, R50). How a follower learns the k in force
is stated nowhere: its IDLE_GRANTED is a free value.
DESIGN CHOICE, safe: log entry 84. -/
def State.sendEcho (s : State) : State :=
  let e := s.echoNow
  let s1 := { s with beat := { s.beat with echoSent := true } }
  if s.isSource then
    State.setParam { s1 with beat := { s1.beat with aggMissing := e.missingCount, aggIdle := e.idleReq } } P.idleGranted
      (min e.idleReq s.beat.idleMax)
  else
    let s2 := (s1.setParam P.idleGranted (s1.freeWord.toNat % 16)).drawn
    if s.param P.beatParentLink < 48 then
      s2.sendLocal (s.param P.beatParentLink) 0 (leBytes 32 (echoWord e) ++ List.replicate 208 0)
    else s2

/-- The echo is due as soon as the device's own closure result and every child's echo are known (R47). -/
def State.echoDue (s : State) : Bool := !s.beat.echoSent && s.beat.closureKnown && s.missingChildren.isEmpty

/-- Send the echo if it is due. -/
def State.tryEcho (s : State) : State := if s.echoDue then s.sendEcho else s

/-- ECHO_SEND (R47). -/
def execEchoSend (s : State) : Result := .next s.tryEcho

/-- ECHO_DEADLINE (R47, R49): at BEAT ÷ 2 the echo goes out without the children that are missing, and they are counted. -/
def execEchoDeadline (s : State) : Result :=
  if s.beat.echoSent then .next s
  else
    let s1 := s.missingChildren.foldl (fun (t : State) l =>
      { t with beat := { t.beat with missing := AMap.set 0 t.beat.missing l (t.beat.missing.getD l 0 + 1) } }) s
    .next s1.sendEcho

/-! ## The boundary (R30, R32) -/

/-- A new beat begins: BEAT_COUNT advances and what belongs to one beat starts afresh.
DEDUCED, unsafe: log entry 163. -/
def State.newBeat (s : State) : State :=
  let b := s.beat
  { s with beat := { b with count := (b.count + 1) % 2 ^ 64, overrun := false, closureKnown := false, echoSent := false, snapTaken := false,
                            echoes := [], correction := 0,
                            markersMissed := if s.param P.beatRole = 2 then b.markersMissed + 1 else 0 }
           adm := { s.adm with consumed := 0 } }

/-- The VIOLATION messages of the beat that has ended (R387). -/
def State.reportViolations (s : State) : State :=
  allLinks.foldl (fun (t : State) n =>
    match (t.link n).violNow with
    | none => t
    | some (code, hdr, k) =>
      (t.setLink n { t.link n with violNow := none }).sendLocal n 0
        (leBytes 32 (0x06 * 2 ^ 248 + code * 2 ^ 240 + min k 65535 * 2 ^ 224 + hdr.toNat * 2 ^ 160) ++ List.replicate 208 0)) s

/-- Count the beat that begins by its kind (R55, R485); a CATCH_UP beat on an idle position is that position's idle beat too
(R27).
DEDUCED, unsafe: log entry 85. -/
def State.countKind (s : State) (kind : BeatKind) : State :=
  let b := s.beat
  match kind with
  | .normal => { s with beat := { b with beatsNormal := b.beatsNormal + 1 } }
  | .idle => State.bump { s with beat := { b with beatsIdle := b.beatsIdle + 1 } } P.idleBeatCount 1
  | .catchUp =>
    let s1 := State.bump { s with beat := { b with beatsCatchUp := b.beatsCatchUp + 1, afterCatchUp := true } } P.catchUpCount 1
    if s.idlePosition b.count then s1.bump P.idleBeatCount 1 else s1
  | _ => s

/-- The tenant's and the job's changes that fall due at a boundary, before its kind is applied. -/
def State.boundaryWork (s : State) : State := (s.applyMatter.releasingIfDue).jobStartIfDue

/-- Changes of the beat configuration take effect at a FREE boundary (R30).
DEDUCED, unsafe: log entry 76. -/
def State.adoptConfig (s : State) : State :=
  { s with beat := { s.beat with cycles := s.param P.beatCycles, guard := s.param P.guardCycles,
                                 priority := s.param P.beatSourcePriority, idleMax := s.param P.idleMax } }

/-- The edit set, page attributes and the plan of the beat, by its kind (R30). -/
def State.applyKind (s : State) (kind : BeatKind) : State :=
  let s1 := State.applyRekeys (s.keepLate.applyEditSet)
  let s2 := State.countKind { s1 with beat := { s1.beat with kind := kind } } kind
  match kind with
  | .normal => s2.openBeat
  | .halt => s2.haltBeat
  | .free => s2.adoptConfig
  | _ => s2

/-- What the device sends at its boundary: interrupts, the marker, and its echo if nothing is missing. -/
def State.boundarySends (s : State) : State :=
  let s1 := if s.haltHeld then s.announceHalt else s
  let s2 := (s1.ringInterrupts.elect).lookForward
  (State.tryEcho { s2.sendMarkers with beat := { s2.sendMarkers.beat with closureKnown := true } })

/-- What ends at a boundary whose kind is known: a release stops its work, a job that is due to end ends, and a halt ends the deferral
of every revocation (R261). Edits that the last holders of a context kept waiting then belong to this boundary's set, as no plan of
the beat reads the tables (R319). -/
def State.endings (s : State) (kind : BeatKind) : State :=
  let s1 := (s.releaseStopIfDue).jobEndIfDue (kind == .normal)
  let s2 := if kind = .halt then s1.forceAll else s1
  if s.jobActive && (!s2.jobActive || kind == .halt) then s2.settleEdits else s2

/-- The kind of a boundary at which the job may have ended: FREE if it has, but an IMMEDIATE release ends it at a HALT boundary (R27,
R428). -/
def State.kindAfter (s : State) (kind : BeatKind) : BeatKind := if s.jobActive ∨ kind = .halt then kind else .free

/-- The boundary at the end of a beat (R25 to R32). The closure check comes before a release stops the plans, or the job ends; a halted
job has no plan running (R41).
DEDUCED, unsafe: log entries 94, 158. -/
def State.boundary (s : State) : State :=
  let had := s.job.phase != .halted && s.fe.toList.any (·.planOpen)
  let s0 := s.newBeat.reportViolations
  let s1 := (s0.closeDies (s0.boundaryWork.kindNow == .halt)).boundaryWork
  let kind := s1.kindNow
  let shown := (s1.endings kind).kindAfter kind
  let checks := checksClosure shown had
  let late := if checks then s1.lateDies else []
  let s2 := (late.foldl State.overrunDie s1).endings kind
  let s3 := if checks then s2.answerLate late else s2
  let s4 := s3.applyKind (if s3.jobActive then kind else .free)
  State.boundarySends { s4 with beat := { s4.beat with kind := shown } }

/-- BEAT_BOUNDARY (R30). -/
def execBeatBoundary (s : State) : Result := .next s.boundary

/-! ## Within the beat (R31, R32) -/

/-- DIE_LATE_CLOSE (R31): the steps of R30 in the cycle in which the die closes. -/
def execDieLateClose (d : DieId) (cycle : Nat) (s : State) : Result :=
  let f := s.front d
  if f.planOpen && f.lateSince.isSome && f.closed then .next ((((s.noteSlip d cycle).closeDie d).openOwed false d).afterClose)
  else .next s

/-- BEAT_SNAPSHOT (R32, R252), once in a beat: releases, STOP and matter commands are taken, admission runs its cycle, and ring status lines are
written.
DEDUCED, unsafe: log entry 79. -/
def execBeatSnapshot (s : State) : Result :=
  if s.beat.snapTaken then .next s
  else
    let s1 := (s.takeRelease.takeStop.takeMatter).admissionCycle
    let s2 := State.writeStatusLines (if s1.nextOpening.isSome then s1.sealCopy.steerCopy else s1.sealCopy)
    .next { s2 with beat := { s2.beat with snapTaken := true } }

/-- PLAN_INDEX_DELIVERY (R32): the plan index reaches the four front ends. -/
def execPlanIndexDelivery (s : State) : Result :=
  match s.adm.plan with
  | some i => .next (allDies.foldl (fun (t : State) d => t.modFront d (fun f => { f with delivered := some i })) s)
  | none => .next s

/-! ## Markers received (R44, R45, R49, R272) -/

/-- A correction is applied (R45). One that a parameter's 16 bits do not hold reads as a free value.
DESIGN CHOICE, safe: log entry 166. -/
def State.correctPhase (s : State) (c : Int) : State :=
  let s1 := { s with beat := { s.beat with correction := c } }
  let last := if -32768 ≤ c ∧ c ≤ 32767 then rawInt 16 c else s.freeWord.toNat % 65536
  let top := if c.natAbs ≤ 65535 then max (s.param P.beatMaxCorrection) c.natAbs else s.freeWord.toNat / 65536 % 65536
  ((s1.setParam P.beatLastCorrection last).setParam P.beatMaxCorrection top).drawn

/-- The parent's boundary fell c cycles away from this device's (R45). -/
def State.align (s : State) (c : Int) : State :=
  if c.natAbs ≤ s.beat.guard / 4 ∨ !s.jobActive then s.correctPhase c
  else (s.event Ev.beatSkew []).requestHaltAll

/-- The parent's marker of START_BEAT carries another tag (R272). -/
def State.tagCheck (s : State) (m : MarkerF) : State :=
  match s.job.desc with
  | some d =>
    if s.jobActive && m.beatCount == d.startBeat && m.jobTag != d.jobTag then (s.event Ev.jobTagMismatch []).requestHaltAll
    else s
  | none => s

/-- A marker on the parent link.
DEDUCED, unsafe: log entry 83. -/
def State.takeParent (s : State) (m : MarkerF) (next : BeatKind) (launch : BitVec 6) (c : Int) : State :=
  let count := if s.jobActive then s.beat.count else m.beatCount
  let kind := if s.jobActive then next else s.beat.nextKind
  let s1 := { s with beat := { s.beat with markersMissed := 0, count := count, nextKind := kind } }
  (if launch = 63 then s1 else s1.align c).tagCheck m

/-- A marker whose period or guard is not this device's: its source is not followed, and is logged once until one of its
markers agrees again (R24).
DESIGN CHOICE, unsafe: log entry 164. -/
def State.configMismatch (s : State) (n : Nat) : State :=
  let s1 := { s with beat := { s.beat with claims := s.beat.claims.erase n } }
  if s.beat.mismatched.contains n then s1.elect
  else (State.event { s1 with beat := { s1.beat with mismatched := n :: s1.beat.mismatched } } Ev.beatConfigMismatch []).elect

/-- The source that a neighbour's marker names is noted (R42). -/
def State.hearSource (s : State) (n : Nat) (m : MarkerF) : State :=
  let id := if m.sourcePriority = 0 then 0xFFFF else m.sourceId
  { s with beat := { s.beat with heard := s.beat.heard.insert n id } }

/-- The claim of a marker is known, and the election goes on; a neighbour that is not one hop deeper is no child (R43, R47).
DEDUCED, safe: log entry 86. DEDUCED, unsafe: log entry 89. -/
def State.takeClaim (s : State) (n : Nat) (m : MarkerF) : State :=
  let c : Claim := ⟨m.sourceId, m.sourcePriority, m.depth, m.pathLatency⟩
  let claims := if m.sourcePriority = 0 then s.beat.claims.erase n else s.beat.claims.insert n c
  let s1 := State.elect { s with beat := { s.beat with claims := claims, mismatched := s.beat.mismatched.filter (· != n) } }
  if m.depth = s1.param P.beatDepth + 1 then s1
  else { s1 with beat := { s1.beat with children := s1.beat.children.filter (· != n) } }

/-- The header of a received marker: a SINGLE of CTL with its LAUNCH; the sender's SRC_DEV, SRC_DIE and EPOCH are no operands of the
row and are free values.
DESIGN CHOICE, safe: log entry 189. -/
def State.receivedHeader (s : State) (launch : BitVec 6) : W64 :=
  let w := s.freeWord
  BitVec.ofNat 64 (headerNat ⟨3, 3, 0, 0, 0, w.truncate 10, ⟨(w >>> 10).toNat % 4, Nat.mod_lt _ (by decide)⟩, 0, (w >>> 12).truncate 16,
    launch⟩)

/-- BEAT_MARKER (R44, R45): a marker of a reserved kind is dropped as a violation. -/
def execBeatMarker (l : LinkId) (m : MarkerF) (launch : BitVec 6) (c : Int) (s : State) : Result :=
  let n := l.val
  if !(s.link n).carriesLocal then .next s
  else
    let s1 := s.rxLocal n
    match kindOf m.thisKind, kindOf m.nextKind with
    | some _, some next =>
      let s1 := s1.hearSource n m
      if 2 ^ m.beatLog2 ≠ s.beat.cycles ∨ 256 * m.guardDiv256 ≠ s.beat.guard then .next (s1.configMismatch n)
      else
        let s2 := s1.takeClaim n m
        if s2.param P.beatRole = 2 ∧ s2.param P.beatParentLink = n then .next (s2.takeParent m next launch c) else .next s2
    | _, _ => .next ((s1.violate n 5 (s1.receivedHeader launch)).drawn)

/-- BEAT_MARKER_LOST (R49): 4 expected boundaries have passed without a parent's marker. -/
def execBeatMarkerLost (s : State) : Result :=
  if s.param P.beatRole = 2 ∧ 4 ≤ s.beat.markersMissed then
    let claims := s.beat.claims.erase (s.param P.beatParentLink)
    let s1 := (s.event Ev.beatMarkerLost []).requestHaltAll
    .next (State.elect { s1 with beat := { s1.beat with markersMissed := 0, claims := claims } })
  else .next s

/-! ## Echoes received (R38, R47, R50) -/

/-- An echo of a child for the current boundary is noted.
DEDUCED, unsafe: log entry 89. -/
def State.noteEcho (s : State) (n : Nat) (e : EchoF) : State :=
  let b := s.beat
  { s with beat := { b with echoes := b.echoes.insert n e, lastEcho := b.lastEcho.insert n e, missing := b.missing.erase n,
                            children := if b.children.contains n then b.children else b.children ++ [n],
                            lostChildren := b.lostChildren.filter (· != n) } }

/-- BEAT_ECHO (R38, R41, R47): at the source an overrun announces CATCH_UP and a halt request announces HALT.
DEDUCED, unsafe: log entry 88. -/
def execBeatEcho (l : LinkId) (e : EchoF) (s : State) : Result :=
  if !(s.link l.val).carriesLocal then .next s
  else
    let s1 := s.rxLocal l.val
    if e.beatCount ≠ s.beat.count then .next s1
    else
      let s2 := s1.noteEcho l.val e
      let s3 := if e.overrun then s2.announceCatchUp else s2
      .next (if e.haltReq then s3.announceHalt else s3).tryEcho

/-! ## Power capping (R51, R483) -/

/-- The calibrated reading of sensor i in 1/64 °C (R481). -/
def State.calibrated (s : State) (i : Nat) (raw : Int) : Int :=
  raw + (BitVec.ofNat 16 (fieldLE (s.blob P.tempOffsets) (2 * i) 2)).toInt

/-- The calibrated reading of a current-monitor rail in 1/65,536 W: the raw one times its gain (R481). -/
def State.calibratedPower (s : State) (rail raw : Nat) : Nat := raw * fieldLE (s.blob P.currentGains) (4 * rail) 4

/-- 1/64 °C rounded to whole degrees (R437); which way a tie goes is stated nowhere.
DESIGN CHOICE, safe: log entry 92. -/
def roundDegrees (x : Int) : Int := if x % 64 < 32 ∨ (x % 64 = 32 ∧ !Config.tempTieUp) then x / 64 else x / 64 + 1

/-- The thermal limit after an evaluation: 100 W down when a sensor is hot, 100 W up when all are cool. -/
def State.nextLimit (s : State) (temps : List Int) : Nat :=
  let t : Int := s.param P.throttleTemp
  let now := s.beat.thermalLimit
  if temps.any (fun x => decide (64 * t ≤ x)) then max 500 (now - 100)
  else if temps.all (fun x => decide (x ≤ 64 * (t - 5))) then min 2500 (now + 100)
  else now

/-- The thermal limit changes: throttling begins or ends at 2,500 W. The detail names the first hot sensor.
DEDUCED, unsafe: log entry 91. -/
def State.setLimit (s : State) (temps : List Int) : State :=
  let new := s.nextLimit temps
  let old := s.beat.thermalLimit
  let s1 := State.setParam { s with beat := { s.beat with thermalLimit := new } } P.thermalState (if new < 2500 then 1 else 0)
  if old = 2500 ∧ new < 2500 then
    let i := (temps.findIdx? (fun x => decide (64 * (s.param P.throttleTemp : Int) ≤ x))).getD 0
    (s1.bump P.throttleCount 1).event Ev.thermalThrottle [(1, i), (2, rawInt 16 (roundDegrees (temps.getD i 0)))]
  else if old < 2500 ∧ new = 2500 then s1.event Ev.thermalClear []
  else s1

/-- The smallest request that keeps the mean power within the cap, all in 1/65,536 W, 15 if none does (R51).
DEDUCED, unsafe: log entry 93. -/
def idleFor (busy idle cap : Nat) : Nat :=
  ((List.range 16).find? (fun k => decide ((16 - k) * busy + k * idle ≤ 16 * cap))).getD 15

/-- A request moves by at most 2 from one evaluation to the next. -/
def stepTowards (old new : Nat) : Nat := if new < old then max new (old - 2) else min new (old + 2)

/-- POWER_CAP_EFFECTIVE (R483). -/
def State.effectiveCap (s : State) : Nat := min (s.param P.powerCap) s.beat.thermalLimit

/-- POWER_EVAL (R51, R483): P_busy and P_idle are means of the input rail, which its gain calibrates (R481). -/
def execPowerEval (p : PowerSample) (s : State) : Result :=
  let temps := p.sensors.zipIdx.map (fun (x : Int × Nat) => s.calibrated x.2 x.1)
  let s1 := s.setLimit temps
  let s2 := s1.setParam P.powerCapEffective s1.effectiveCap
  let k := idleFor (s.calibratedPower 0 p.busy) (s.calibratedPower 0 p.idle) (65536 * s1.effectiveCap)
  .next (s2.setParam P.idleRequest (stepTowards (s.param P.idleRequest) k))

end Sys2Proof.Machine
end

