-- ==== Sys2Proof/Machine/Firmware.lean ====
section
/-! DEFINITION. Firmware images: their check, the image in flash, staging, writing, and recovery over CXL.io (R497 to R503). -/

namespace Sys2Proof.Machine

/-! ## Images (R498, R499) -/

/-- Bytes of an image besides its body: header and signature block. -/
abbrev fwOverhead : Nat := 2124

/-- The longest body. -/
abbrev fwBodyMax : Nat := 25163700

/-- BODY_BYTES of an image. -/
def fwBodyBytes (im : List Byte) : Nat := fieldLE im 16 4

/-- The signed content: header and body. -/
def fwSigned (im : List Byte) : List Byte := im.take (256 + fwBodyBytes im)

/-- Both signatures of an image verify (R434, R498).
DESIGN CHOICE, safe: log entry 97. -/
def fwSignaturesOk (im : List Byte) : Bool :=
  let d := sha384 (fwSigned im)
  let sigs := im.drop (256 + fwBodyBytes im)
  Config.ecdsaVerifies d (sigs.take 96) && Config.lmsVerifies d ((sigs.drop 96).take 1772)

/-- The first check that an image fails, by the order of the rule (R499): 1 MAGIC, FORMAT_VERSION and reserved bytes, 2
BODY_BYTES, 3 BODY_DIGEST, 4 signatures, 5 SECURITY_VERSION.
DEDUCED, unsafe: log entry 96. -/
def fwCheck (im : List Byte) (fuses : Nat) : Option Nat :=
  if !(magicIs im "BNXFWIMG" && fieldLE im 8 2 == 1 && zeroFrom im 11 12 && zeroFrom im 68 256) then some 1
  else if fwBodyMax < fwBodyBytes im ∨ im.length < fwOverhead + fwBodyBytes im then some 2
  else if sha384 ((im.drop 256).take (fwBodyBytes im)) ≠ (im.drop 20).take 48 then some 3
  else if !fwSignaturesOk im then some 4
  else if fieldLE im 10 1 < fuses then some 5
  else none

/-- FW_RESULT of a failed check: 2 BAD_IMAGE, 3 SIGNATURE, 4 ROLLBACK (R500).
DEDUCED, unsafe: log entry 96. -/
def fwCheckResult (n : Nat) : Nat := if n ≤ 3 then 2 else if n = 4 then 3 else 4

/-- Post the outcome of a firmware command. -/
def State.fwResult (s : State) (r : Nat) : State := s.setParam P.fwResult r

/-- A STAGE or WRITE has failed (R517). -/
def State.fwRefused (s : State) (r : Nat) : State := (s.fwResult r).event Ev.fwUpdateRefused [(1, r)]

/-! ## The image in flash (R497, R501) -/

/-- The image in flash.
DEDUCED, safe: log entry 142. -/
def State.flashImage (s : State) : List Byte :=
  s.mem.flash.readBytes 0 (fwOverhead + min fwBodyMax (s.mem.flash.readLE 16 4))

/-- The header's sector is erased, so that what the area holds is no valid image (R501). -/
def State.eraseHeader (s : State) : State :=
  { s with mem := { s.mem with flash := s.mem.flash.clearRange 0 4096 } }

/-- Program the image area, 24 MiB (R497).
DEDUCED, safe: log entry 142. -/
def State.programFlash (s : State) (im : List Byte) : State :=
  { s with mem := { s.mem with flash := (s.mem.flash.clearRange 0 0x1800000).writeBytes 0 (im.take 0x1800000) } }

/-! ## STAGE and WRITE (R500, R501) -/

/-- A firmware STAGE or WRITE is in progress.
DEDUCED, unsafe: log entry 100. -/
def State.fwBusy (s : State) : Bool := s.boot.fw == .staging || s.boot.fw == .writing

/-- FW_STAGE (R500): the hub's copy begins. A write of FW_CMD while a command is pending changes nothing (R467).
DEDUCED, unsafe: log entry 100. -/
def execFwStage (offset bytes : Nat) (s : State) : Result :=
  if s.fwBusy then .next s
  else if s.boot.dev ≠ .idle then .next (s.fwRefused 1)
  else
    .next { s with boot := { s.boot with fw := .staging, fwImage := [], hub := s.boot.hub ++ [.fwStage offset bytes] } }

/-- Where a staged image lies: the first 384 pages of CD0's ADAPTER_STORE. -/
def State.stagePlace (s : State) : Nat := s.regionFirst .store * 65536

/-- The hub's copy of a STAGE has ended, and the copy is checked.
DEDUCED, unsafe: log entry 98. -/
def State.fwStaged (s : State) (offset bytes : Nat) : State :=
  if !(s.inWindow offset bytes) ∨ 0x1800000 < bytes then
    State.fwRefused { s with boot := { s.boot with fw := .none } } 2
  else
    let im := s.windowGet offset bytes
    let s1 := (s.windowMet offset bytes).hubPut true 0 s.stagePlace im
    match fwCheck im (s.param P.fwFuseCount) with
    | some n => State.fwRefused { s1 with boot := { s1.boot with fw := .none } } (fwCheckResult n)
    | none =>
      let s2 := { s1 with boot := { s1.boot with fw := .staged, fwImage := im } }
      (s2.setParam P.fwStagedVersion (fieldLE im 12 4)).fwResult 0

/-- FW_WRITE (R500, R501): the write begins by erasing the header's sector.
DEDUCED, unsafe: log entry 100. -/
def execFwWrite (s : State) : Result :=
  if s.fwBusy then .next s
  else if s.boot.dev = .idle ∧ s.boot.fw = .staged then
    .next (State.eraseHeader { s with boot := { s.boot with fw := .writing } })
  else .next (s.fwRefused 1)

/-- FW_UPDATE_WRITTEN (R500): the write of the staged copy has ended. `readBackOk` says whether flash holds what was programmed;
the read-back is compared with the image that was staged.
DEDUCED, unsafe: log entry 100. -/
def execFwUpdateWritten (readBackOk : Bool) (s : State) : Result :=
  if s.boot.fw ≠ .writing then .next s
  else
    let im := s.extGet true 0 s.stagePlace s.boot.fwImage.length
    if readBackOk ∧ im = s.boot.fwImage then
      let s1 := State.programFlash { s with boot := { s.boot with fw := .written } } im
      .next ((s1.fwResult 0).event Ev.fwUpdateWritten [(4, fieldLE im 12 4), (1, fieldLE im 10 1)])
    else .next (State.fwRefused { s with boot := { s.boot with fw := .staged } } 5)

/-! ## What start-up does with the image (R493, R499, R502) -/

/-- Links start to train once stage 3 has released their dies (R493). -/
def State.trainLinks (s : State) : State := (List.range 48).foldl (fun (t : State) n => t.flushLink n .training) s

/-- Stage 2 has ended with a valid image, and firmware runs: FW_VERSION, FW_DIGEST and FW_SECURITY_VERSION are those of the running
image, and the trip comparators take the calibration in force (R493, R499, R528). -/
def State.runFirmware (s : State) (im : List Byte) : State :=
  let s1 := (s.setParam P.fwVersion (fieldLE im 12 4)).setParam P.fwSecurityVersion (fieldLE im 10 1)
  let s2 := s1.setBlob P.fwDigest (sha384 (fwSigned im))
  State.trainLinks { s2 with boot := { s2.boot with stage := .dies, tripOffsets := s2.blob P.tempOffsets } }

/-- Stage 2: the image in flash is checked (R493, R502).
DESIGN CHOICE, unsafe: log entry 3. DEDUCED, unsafe: log entry 96. -/
def State.checkFlash (s : State) : State :=
  match fwCheck s.flashImage (s.param P.fwFuseCount) with
  | none => s.runFirmware s.flashImage
  | some n => State.event { s with boot := { s.boot with stage := .recoveryWait } } Ev.fwImageInvalid [(1, n)]

/-! ## Recovery (R502) -/

/-- Stage 2 ends, if it is the one in progress (R493). -/
def State.leaveRom (s : State) : State := if s.boot.stage = .rom then s.checkFlash else s

/-- The boot ROM reads the image over CXL.io in memory reads of 512 bytes (R502). -/
def State.fetchImage (s : State) : State :=
  let n := s.boot.recover.2
  s.emits ((List.range (ceilDiv n 512)).map (fun i => .ioRead (s.boot.recover.1 + 512 * i) (min 512 (n - 512 * i))))

/-- RECOVER (R502): accepted in RECOVERY_WAIT only. Address and size say what the boot ROM fetches. -/
def execRecover (address bytes : Nat) (s0 : State) : Result :=
  let s := s0.leaveRom
  if s.fwBusy ∨ s.boot.stage = .recoveryFetch then .next s
  else if s.boot.stage = .recoveryWait then
    .next (State.fetchImage { s with boot := { s.boot with stage := .recoveryFetch, recover := (address, bytes) } })
  else .next (s.fwResult 1)

/-- A recovery has failed: the device waits again.
DEDUCED, unsafe: log entry 99. -/
def State.recoveryFailed (s : State) (r : Nat) : State :=
  State.fwResult { s with boot := { s.boot with stage := .recoveryWait } } r

/-- The image fetched a second time is programmed, and the flash copy checked (R502 step 4).
DEDUCED, unsafe: log entry 99. -/
def State.recoverWrite (s : State) (im : List Byte) : State :=
  let s1 := s.eraseHeader.programFlash im
  match fwCheck s1.flashImage (s1.param P.fwFuseCount) with
  | some n => s1.recoveryFailed (if n ≤ 3 then 5 else fwCheckResult n)
  | none => ((s1.fwResult 0).event Ev.fwRecovered [(4, fieldLE im 12 4)]).runFirmware s1.flashImage

/-- What a fetch brought: nothing unless it has the size that FW_ARG_BYTES gave (R502). -/
def State.fetched (s : State) (im : Option (List Byte)) : Option (List Byte) := im.filter (fun b => b.length == s.boot.recover.2)

/-- FW_RECOVERED (R502): what the two fetches of the image brought.
DEDUCED, unsafe: log entry 99. -/
def execFwRecovered (fetch : RecoverFetch) (s : State) : Result :=
  if s.boot.stage ≠ .recoveryFetch then .next s
  else
    match s.fetched fetch.first with
    | none => .next (s.recoveryFailed 6)
    | some im =>
      match fwCheck im (s.param P.fwFuseCount) with
      | some n => .next (s.recoveryFailed (fwCheckResult n))
      | none =>
        match s.fetched fetch.second with
        | none => .next (s.fetchImage.eraseHeader.recoveryFailed 6)
        | some im2 => .next (s.fetchImage.recoverWrite im2)

end Sys2Proof.Machine
end

