-- ==== Sys2Proof/Machine/Boot.lean ====
section
/-! DEFINITION. Start-up, the kinds of reset, input power, thermal trip and coolant (R491 to R496, R503 to R509, R514, R522 to
R532, R540). -/

namespace Sys2Proof.Machine

/-! ## What a reset of the hub leaves (R504, R505, R540) -/

/-- Counters since power-on, which a reset that is no power-on keeps.
DEDUCED, unsafe: log entry 115. -/
def sincePowerOn : List Nat := [
  P.gppDropped, P.throttleCount, P.watchdogCount, P.eventCountInfo 0, P.eventCountInfo 1, P.eventCountInfo 2,
  P.eventCountInfo 3, P.pressApplied, P.pressBf16Applied, P.releaseCount, P.rindTagFails, P.epochDrops,
  P.sramUnwrittenReads, P.kvPagesDropped, P.kvWalkFaults, P.memCorrectedCount, P.memUncorrectableCount, P.partnerCopies,
  P.statsRebuilt]

/-- Values that outlast every reset: fuses, counts since manufacture, and what the always-on domain holds and reads.
DEDUCED, unsafe: log entry 115. -/
def alwaysKept : List Nat := [
  P.saveCount, P.powerOnCount, P.fwFuseCount, P.plcaStatus, P.tempCoolantIn, P.tempCoolantOut, P.resetCause]

/-- The newest valid saved copy (R478). -/
def State.newestCopy (s : State) : Option SavedCopy :=
  match s.dict.copy0.valid, s.dict.copy1.valid with
  | true, true => some (if s.dict.copy0.generation < s.dict.copy1.generation then s.dict.copy1 else s.dict.copy0)
  | true, false => some s.dict.copy0
  | false, true => some s.dict.copy1
  | false, false => none

/-- Calibration when no valid copy exists (R481). -/
def noCalibration : AMap (List Byte) := [
  (P.tempOffsets, List.replicate 84 0),
  (P.currentGains, (List.range 19).flatMap (fun _ => leBytes 4 65536)),
  (P.fabricTxPresets, (List.range 192).flatMap (fun _ => leBytes 2 0x0880)),
  (P.cxlTxPresets, (List.range 16).flatMap (fun _ => leBytes 2 4)),
  (P.hbmTrainSeeds, []),
  (P.lpddrTrainSeeds, [])]

/-- A SAVE cut short leaves no valid copy where it wrote (R478, R509). -/
def DictState.cutSave (x : DictState) : DictState :=
  if x.saving.isNone then x
  else if x.copy0.valid && (!x.copy1.valid || decide (x.copy1.generation ≤ x.copy0.generation)) then
    { x with copy1 := { x.copy1 with valid := false }, saving := none }
  else { x with copy0 := { x.copy0 with valid := false }, saving := none }

/-- The dictionary after a power-on, module, PERST# or warm reset (R540).
DEDUCED, unsafe: log entry 115. -/
def State.resetDict (s : State) (keep : List Nat) : State :=
  let s0 := { s with dict := s.dict.cutSave }
  let kept := s0.dict.params.filter (fun (x : Nat × Nat) => keep.contains x.1)
  let saved := (s0.newestCopy.map (·.params)).getD []
  let blobs := match s0.newestCopy with
    | some c => c.blobs
    | none => noCalibration
  let dict := { s0.dict with params := kept.foldl (fun (m : AMap Nat) (x : Nat × Nat) => m.insert x.1 x.2) saved,
                             blobs := blobs, kept := [], staged := none, held := [] }
  let s1 := State.setParam { s0 with dict := dict } P.calValid (if s0.newestCopy.isSome then 1 else 0)
  s1.setParam P.powerCap (s1.param P.powerCapDefault)

/-- Memory that a reset loses; SCRUB_RECORDED and the kept key go with it (R492, R495, R504). -/
def State.loseMemory (s : State) : State :=
  { s with mem := { s.mem with hbm := [], lpddr := [], memDouble := [], memSingle := [], tagBad := [] }
           rind := { s.rind with attrDefault := 0, attrs := [] }
           ten := { s.ten with scrubRecorded := false, keptKey := none }
           boot := { s.boot with memLost := true } }

/-- A reset ends the tenancy (R505, R526): steps 3 to 5 of R428 take effect unless they have, and the scrub is owed.
DEDUCED, unsafe: log entry 129. -/
def State.endTenancy (s : State) : State :=
  if s.ten.phase = .unbound ∨ s.boot.endedIn.isSome then s
  else
    let epoch := if s.ten.phase = .scrubbing then s.ten.epoch else s.ten.epoch + 1
    { s with ten := { s.ten with phase := .scrubbing, epoch := epoch, keptKey := none, scrubRecorded := false }
             boot := { s.boot with endedIn := some s.ten.phase } }

/-- The parts of the compute dies and of the hub outside the always-on domain (R504).
DEDUCED, unsafe: log entry 163. -/
def State.clearHub (s : State) : State :=
  { s with fe := Quad.fill FrontEnd.reset, cells := {}, beat := {}, job := {}, adm := {}, kv := {}, host := {}, fab := {}, res := {}
           mem := { s.mem with sram := [], sramValid := [], plan := [], acc := [], sramDouble := [], sramSingle := [],
                               planDouble := [], planSingle := [] }
           rind := { s.rind with slots := [], sweeps := [], keying := [] }
           ten := { s.ten with locked := false, ideIo := false, ideMem := false, release := none }
           log := { s.log with records := [] }
           boot := { s.boot with fw := .none, fwImage := [], hub := [], dieWaits := [] } }

/-- A reset of the hub (R505). -/
def State.hubReset (s : State) (keepMemory : Bool) (keep : List Nat) : State :=
  let s1 := s.endTenancy.clearHub.resetDict keep
  if keepMemory then s1 else s1.loseMemory

/-! ## The log at start-up (R488, R525) -/

/-- LOG_COMMIT (R488): what waits is committed, and flash keeps the newest 4,096.
DEDUCED, safe: log entry 142. -/
def State.commitLog (s : State) : State :=
  let waiting := s.log.records.filter (fun (r : EventRec) =>
    decide ((s.log.nextSeq + 2 ^ 32 - r.seq) % 2 ^ 32 ≤ (s.log.nextSeq + 2 ^ 32 - s.log.committed) % 2 ^ 32))
  let all := s.log.flash ++ waiting
  { s with log := { s.log with flash := all.drop (all.length - 4096), committed := s.log.nextSeq } }

/-- LOG_COMMIT (R488). The hub's RAM holds no record while it has no power or is held in reset. -/
def execLogCommit (s : State) : Result :=
  if s.boot.dev = .off ∨ s.boot.stage = .resetHeld then .next s else .next s.commitLog

/-- Hold an event in always-on retention memory until the next start-up (R525, R528).
DEDUCED, unsafe: log entry 103. -/
def State.retain (s : State) (code : Nat) (fields : List (Nat × Nat)) : State :=
  { s with log := { s.log with retained := s.log.retained ++ [s.record code hubSource (detail fields)] } }

/-- ALERT_ACK has not passed a number (R488): the numbers before the acknowledged one are those up to 2^31 behind it. -/
def State.unacked (s : State) (seq : Nat) : Bool := decide (2 ^ 31 < (s.log.acked + 2 ^ 32 - 1 - seq) % 2 ^ 32 + 1)

/-- The records that alert, and MOD_ALERT_N, which is low while one is left (R488). -/
def State.setAlerts (s : State) (seqs : List Nat) : State :=
  { s with log := { s.log with alerted := seqs, alertLow := !seqs.isEmpty } }

/-- The records of a log just loaded that alert: those of a class in ALERT_MASK that ALERT_ACK has not passed. -/
def State.driveAlert (s : State) : State :=
  s.setAlerts ((s.log.records.filter (fun (r : EventRec) => (s.param P.alertMask).testBit r.cls.code && s.unacked r.seq)).map (·.seq))

/-- The records of flash are loaded, and then those held in retention memory are written (R488, R525).
DEDUCED, unsafe: log entries 102, 103, 104. -/
def State.loadLog (s : State) : State :=
  let s1 := { s with log := { s.log with records := s.log.flash, nextSeq := s.log.committed, retained := [] } }
  s.log.retained.foldl State.logRecord s1.driveAlert

/-! ## Start-up (R491 to R495) -/

/-- The events of a start-up about what came before it (R505). -/
def State.logEnded (s : State) (cause : Nat) : State :=
  match s.boot.endedIn with
  | some p =>
    State.event { s with boot := { s.boot with endedIn := none }, ten := { s.ten with owedRelease := true } }
      Ev.resetDuringTenancy [(1, cause), (1, p.code)]
  | none => s

/-- Stage 1 (R493): the device is in ROM until the flash image has been checked.
DEDUCED, unsafe: log entry 103. -/
def State.startUp (s : State) (cause : Nat) : State :=
  let s1 := State.setDev { s with boot := { s.boot with stage := .rom, cause := cause } } .boot
  let s2 := ((s1.setParam P.resetCause cause).loadLog).event Ev.bootStarted [(1, cause)]
  let s3 := if cause = 0 ∧ s2.newestCopy.isNone then s2.event Ev.paramsLoadFailed [] else s2
  s3.logEnded cause

/-- What a start-up does by itself between commands (R493): stage 2 ends with the check of the image, and the stages after it come in
their order, the scrub where R495 requires it.
DESIGN CHOICE, unsafe: log entry 101. -/
def State.bootTick (s : State) : State :=
  let go := fun (x : BootStage) => { s with boot := { s.boot with stage := x } }
  if s.boot.dev ≠ .boot then s
  else
    match s.boot.stage with
    | .rom => s.checkFlash
    | .dies => go .memoryTraining
    | .memoryTraining => if s.ten.scrubRecorded then s else go .scrub
    | _ => s

/-- A start-up held in reset (R522).
DESIGN CHOICE, safe: log entry 14. -/
def State.holdReset (s : State) (cause : Nat) : State :=
  State.setDev { s with boot := { s.boot with stage := .resetHeld, cause := cause } } .boot

/-- What a power-on clears (R495, R504).
DESIGN CHOICE, unsafe: log entry 3. PRESUMED, unsafe: log entry 64. DEDUCED, unsafe: log entry 105. DEDUCED, safe: log entry 106. -/
def State.powerOn (s : State) : State :=
  let s1 := (s.hubReset false alwaysKept).bump P.powerOnCount 1
  let ten := if s.boot.cold then { s1.ten with epoch := 0, lmsNext := s1.ten.lmsLimit } else { s1.ten with lmsNext := s1.ten.lmsLimit }
  { s1 with ten := ten
            rind := { s1.rind with linkKey := some (drawnKey s1.rind.drawn), drawn := s1.rind.drawn + 4 }
            boot := { s1.boot with cold := false, upAsked := false, uptime := 0 } }

/-- POWER_GOOD (R493).
DEDUCED, unsafe: log entry 107. -/
def execPowerGood (s : State) : Result :=
  if s.boot.regulators ∧ s.boot.dev = .off then
    .next (if s.boot.modResetHeld then s.powerOn.holdReset 0 else s.powerOn.startUp 0)
  else .next s

/-- A start-up that trains the memories applies the region parameters (R212). -/
def State.applyLayout (s : State) : State :=
  let new := s.layoutWanted
  if new = s.dict.layout then s
  else
    State.event { s with dict := { s.dict with layout := new } } Ev.memLayoutApplied
      [(4, s.param P.basePages), (2, s.param P.adapterSlotPages), (2, s.param P.hdmSize)]

/-- Stage 5 (R495): the scrub, or the kept key delivered as slot 1.
DESIGN CHOICE, unsafe: log entry 101. -/
def State.scrubOrDeliver (s : State) : State :=
  if s.ten.scrubRecorded then
    match s.ten.keptKey with
    | some k => s.setKeySlot 1 ⟨.active, 0, 0, [k]⟩
    | none => s
  else (s.openSlot 1 0).scrubbed.recordScrub

/-- A release that a reset took over has ended (R439, R505).
DEDUCED, unsafe: log entry 129. -/
def State.logReleased (s : State) (ms : Nat) : State :=
  if s.ten.owedRelease then
    (State.bump { s with ten := { s.ten with owedRelease := false } } P.releaseCount 1).event Ev.tenantReleased
      [(1, 2), (4, sat32 ms)]
  else s

/-- The fuse count catches up with the running image, as far as its 64 steps go (R503). -/
def State.advanceFuses (s : State) : State :=
  let old := s.param P.fwFuseCount
  let new := min 64 (s.param P.fwSecurityVersion)
  if old < new then (s.setParam P.fwFuseCount new).event Ev.fwFusesAdvanced [(1, old), (1, new)] else s

/-- Stages 3 to 6 have ended (R493).
DESIGN CHOICE, unsafe: log entry 101. -/
def State.bootDone (s : State) (ms : Nat) : State :=
  let scrub := !s.ten.scrubRecorded
  let s1 := s.scrubOrDeliver
  let s2 := if s1.boot.memLost then s1.applyLayout else s1
  let s3 := { s2 with boot := { s2.boot with memLost := false, stage := .done }, host := { s2.host with memActive := true } }
  let s4 := ((s3.copyScales.setParam P.bootTimeMs ms).setDev .idle).logReleased ms
  (s4.event Ev.bootComplete [(4, ms), (1, if scrub then 1 else 0)]).advanceFuses

/-- Stages 3 to 5 run (R493). -/
def State.stagesRun (s : State) : Bool :=
  s.boot.stage == .dies || s.boot.stage == .memoryTraining || s.boot.stage == .scrub

/-- BOOT_COMPLETE (R493): what is left of the stages has passed.
DESIGN CHOICE, safe: log entry 15. DESIGN CHOICE, unsafe: log entry 101. -/
def execBootComplete (ms : Nat) (s0 : State) : Result :=
  let s := s0.leaveRom
  if s.boot.dev = .boot ∧ s.stagesRun then .next (s.bootDone ms) else .next s

/-- The code of a boot stage (R516). -/
def BootStage.code : BootStage → Nat
  | .off => 0
  | .rom => 1
  | .recoveryWait => 2
  | .recoveryFetch => 3
  | .dies => 4
  | .memoryTraining => 5
  | .scrub => 6
  | .done => 7
  | .fault => 8
  | .resetHeld => 9

/-- A stage of R493 runs: the device is neither held in reset nor in recovery. -/
def State.stageRuns (s : State) : Bool :=
  s.boot.stage != .resetHeld && s.boot.stage != .recoveryWait && s.boot.stage != .recoveryFetch

/-- BOOT_FAILED (R496). A device in recovery stays there (R502). -/
def execBootFailed (fault : Nat) (unit : Byte) (s : State) : Result :=
  if s.boot.dev = .boot ∧ s.stageRuns then
    let s1 := State.setDev { s with boot := { s.boot with stage := .fault } } .fault
    let s2 := (s1.setParam P.bootFault fault).setParam P.bootFaultUnit unit.toNat
    .next (s2.event Ev.bootFailed [(1, s.boot.stage.code), (1, fault), (1, unit.toNat)])
  else .next s

/-! ## Module, PERST# and warm resets (R504) -/

/-- What a reset that is no power-on keeps of the dictionary.
DEDUCED, unsafe: log entry 115. -/
def resetKept : List Nat := sincePowerOn ++ alwaysKept

/-- The device runs, and is not held in reset.
DESIGN CHOICE, safe: log entry 14. DEDUCED, safe: log entry 108. -/
def State.running' (s : State) : Bool := s.boot.dev != .off && s.boot.stage != .resetHeld

/-- RESET_CMD 1 (R504).
DEDUCED, safe: log entry 108. -/
def execResetModule (s : State) : Result :=
  if s.running' then .next ((s.commitLog.hubReset false resetKept).startUp 4) else .next s

/-- RESET_CMD 2 (R504).
DEDUCED, safe: log entry 108. -/
def execResetWarm (s : State) : Result :=
  if s.running' then .next ((s.commitLog.hubReset true resetKept).startUp 3) else .next s

/-- A reset that the pin holds is in force. -/
def State.pinReset (s : State) : Bool := s.boot.modResetHeld && s.boot.stage == .resetHeld && s.boot.cause != 2

/-- MOD_RESET_N has been low for some microseconds and stays low (R504, R522): below 100 µs it is ignored, and from 1 ms on it is a
module reset.
DEDUCED, unsafe: log entry 107. -/
def execModResetN (lowMicros : Nat) (s : State) : Result :=
  if lowMicros < 100 then .next s
  else
    let s1 := { s with boot := { s.boot with modResetHeld := true } }
    if lowMicros < 1000 ∨ s.boot.dev = .off ∨ s.pinReset then .next s1
    else .next ((s1.hubReset false resetKept).holdReset 1)

/-- MOD_RESET_N_RELEASE (R504).
DEDUCED, unsafe: log entry 107. -/
def execModResetNRelease (s : State) : Result :=
  let s1 := { s with boot := { s.boot with modResetHeld := false } }
  if s.boot.stage = .resetHeld ∧ s.boot.cause ≠ 2 then .next (s1.startUp s.boot.cause) else .next s1

/-- PERST_ASSERT (R504).
DEDUCED, unsafe: log entry 107. -/
def execPerstAssert (s : State) : Result :=
  let s1 := { s with boot := { s.boot with perstHeld := true } }
  if s.boot.perstHeld ∨ !s.running' then .next s1 else .next ((s1.hubReset true resetKept).holdReset 2)

/-- PERST_DEASSERT (R494, R504).
DEDUCED, unsafe: log entry 107. -/
def execPerstDeassert (s : State) : Result :=
  let s1 := { s with boot := { s.boot with perstHeld := false } }
  if s.boot.stage = .resetHeld ∧ s.boot.cause = 2 then .next (s1.startUp 2) else .next s1

/-! ## The CXL link (R329) -/

/-- LINK_RATE of a rate in GT/s. -/
def linkRateCode (rate : Nat) : Nat := if rate = 16 then 1 else if rate = 32 then 2 else if rate = 64 then 3 else 0

/-- CXL_LINK_TRAINED (R329, R494): the rate in GT/s and the width in lanes, 0 and 0 for a link left down. The link trains only
while PERST# is high and the hub is out of reset.
DEDUCED, safe: log entry 113. -/
def execCxlLinkTrained (rate width : Nat) (s : State) : Result :=
  if !s.running' ∨ s.boot.perstHeld then .next s
  else if linkRateCode rate = 0 ∨ width < 4 then
    .next (((s.setParam P.linkRate 0).setParam P.linkWidth 0).event Ev.cxlLinkFailed [])
  else
    let s1 := (s.setParam P.linkRate (linkRateCode rate)).setParam P.linkWidth width
    if rate < 64 ∨ width < 16 then .next (s1.event Ev.cxlLinkDegraded [(1, linkRateCode rate), (1, width)]) else .next s1

/-! ## Die resets (R506, R507, R509) -/

/-- A map without the keys of a die. -/
def dropDie {α : Type} (m : AMap α) (per : Nat) (d : DieId) : AMap α := m.filter (fun (x : Nat × α) => x.1 / per != d.val)

/-- Cells, SRAM lines and plan store of a die are cleared (R507). -/
def State.clearDie (s : State) (d : DieId) : State :=
  let cells := { s.cells with
    vregs := dropDie s.cells.vregs 4096 d, tiles := dropDie s.cells.tiles 256 d,
    pending := s.cells.pending.filter (fun k => k / 2 != d.val), totalRows := dropDie s.cells.totalRows (2 ^ 20) d,
    staging := s.cells.staging.filter (fun (x : StageSlot) => x.die != d), xlat := dropDie s.cells.xlat 64 d,
    flushed := s.cells.flushed.filter (fun (x : FlushRec) => x.die != d) }
  let mem := { s.mem with
    sram := dropDie s.mem.sram (2 ^ 28) d, sramValid := dropDie s.mem.sramValid (2 ^ 21) d,
    plan := dropDie s.mem.plan (2 ^ 23) d, acc := dropDie s.mem.acc (2 ^ 24) d,
    sramDouble := dropDie s.mem.sramDouble (2 ^ 25) d, sramSingle := dropDie s.mem.sramSingle (2 ^ 25) d,
    planDouble := dropDie s.mem.planDouble (2 ^ 20) d, planSingle := dropDie s.mem.planSingle (2 ^ 20) d }
  { s with cells := cells, mem := mem }.modFront d (fun _ => { FrontEnd.reset with inReset := true })

/-- What awaited or carried something of a die is gone (R506). -/
def State.dropDieWork (s0 : State) (d : DieId) : State :=
  let s := (s0.fab.redWaiting.filter (fun w => w.die == d)).foldl (fun (t : State) w => t.returnCredit w.src) s0
  { s with fab := { s.fab with
             redWaiting := s.fab.redWaiting.filter (fun w => w.die != d),
             openMsgs := s.fab.openMsgs.filter (fun (x : Nat × (Nat × Message)) => x.2.2.hdr.dstDie != d),
             discarding := s.fab.discarding.filter (fun k => k / 2 ^ 26 != d.val),
             pressFailed := s.fab.pressFailed.filter (fun (m : Message) => m.hdr.dstDie != d),
             pendings := s.fab.pendings.filter (fun (x : Pending) => x.die != d),
             backlog := s.fab.backlog.filter (fun (x : Pending × Message) => x.1.die != d),
             lastMsgs := s.fab.lastMsgs.filter (fun (x : Pending × Message) => x.1.die != d),
             writes := s.fab.writes.filter (fun w => w.owner.1 != d),
             pressQueues := dropDie s.fab.pressQueues 10 d }
           res := { s.res with awaiting := s.res.awaiting.filter (fun n =>
             !(s.fab.pendings.any (fun (x : Pending) => x.die == d && x.op == n)
               || s.fab.backlog.any (fun (x : Pending × Message) => x.1.die == d && x.1.op == n))) }
           host := { s.host with snoops := s.host.snoops.filter (fun (b : SnoopBlock) => match b.owner with
             | .op x _ => x != d
             | _ => true) } }

/-- The device holds no plan set (R165, R507). -/
def State.noPlanSet (s : State) : State :=
  { s with job := { s.job with planSet := none, phase := if s.job.phase = .loaded then .none else s.job.phase } }

/-- A base install in progress falls, with the copy of a segment and its descriptor; a SEGMENT that was under way posts
NOT_ALLOWED (R506, R509).
DEDUCED, unsafe: log entry 112. -/
def State.dropInstall (s : State) : State :=
  if s.adm.base = .installing then
    let s1 := { s with adm := { s.adm with base := .none, fingerprint := [], install := none }
                       boot := { s.boot with hub := s.boot.hub.filter (fun h => !h.isSegment) } }
    if s.segmentBusy then s1.baseRefused 3 0 else s1
  else s

/-- The links of a die. -/
def dieLinks (d : DieId) : List Nat := (List.range 12).map (fun p => 12 * d.val + p)

/-- The links of a die that are not disabled go DOWN with its reset; none of the causes of R389 names it.
DESIGN CHOICE, unsafe: log entry 202. -/
def State.dieLinksDown (s : State) (d : DieId) : State :=
  (dieLinks d).foldl (fun (t : State) n => if (t.link n).phase = .disabled then t else t.downLink n 0) s

/-- The links of a die that are not disabled train again. -/
def State.dieLinksTrain (s : State) (d : DieId) : State :=
  (dieLinks d).foldl (fun (t : State) n => if (t.link n).phase = .disabled then t else t.flushLink n .training) s

/-- A die reset is allowed: IDLE, ADMITTED with no job, HALTED (R507). -/
def State.dieResetAllowed (s : State) : Bool :=
  s.boot.dev == .idle || s.boot.dev == .halted || (s.boot.dev == .admitted && !s.jobPresent)

/-- Set or clear a die's bit of DIE_RESET_STATE. -/
def State.dieResetBit (s : State) (d : DieId) (on : Bool) : State :=
  let v := s.param P.dieResetState
  let low := v - (v / 2 ^ d.val % 2) * 2 ^ d.val
  s.setParam P.dieResetState (if on then low + 2 ^ d.val else low)

/-- Keying lists and sweep entries of a die are empty (R507 step 1). -/
def State.dieListsEmpty (s : State) (d : DieId) : Bool := !(s.rind.keying.any (fun (e : KeyingEntry) => frameDie e.frame == d))

/-- A partner copy in progress ends with its image not complete (R509). -/
def State.dropCopy (s : State) : State := { s with res := { s.res with copying := none } }

/-- Send the answers over DOE that waited for a SAVE's. -/
def State.sendHeld (s : State) : State :=
  { s with dict := { s.dict with held := [] } }.emits
    (s.dict.held.map (fun (x : Nat × List Byte) => Output.response x.1 true x.2))

/-- A reset cuts a SAVE and a firmware WRITE short (R509): the SAVE's request is abandoned, and the image is invalid.
DEDUCED, unsafe: log entry 193. -/
def State.cutFlash (s : State) : State :=
  let s1 := State.sendHeld { s with dict := s.dict.cutSave }
  if s1.boot.fw = .writing then State.fwRefused { s1 with boot := { s1.boot with fw := .none, fwImage := [] } } 1 else s1

/-- A die is reset (R507 step 2): what it held and what awaited it is gone.
DEDUCED, unsafe: log entry 193. -/
def State.resetDie (s : State) (d : DieId) : State :=
  State.dieResetBit ((((s.cutFlash.clearDie d).dropDieWork d).noPlanSet.dropInstall.dropCopy).dieLinksDown d) d true

/-- The die resets that have waited long enough are made (R507 steps 1 and 2). -/
def State.runDieResets (s : State) : State :=
  let due := s.boot.dieWaits.filter s.dieListsEmpty
  due.foldl State.resetDie { s with boot := { s.boot with dieWaits := s.boot.dieWaits.filter (fun d => !due.contains d) } }

/-- RESET_CMD 3 (R504, R507): waiting records are committed, and the reset waits for the die's lists. The plan set is given up at once, so that no job starts meanwhile.
DEDUCED, unsafe: log entry 112. -/
def execResetDie (d : DieId) (s : State) : Result :=
  if !s.dieResetAllowed then .next (s.setParam P.deviceResult 1)
  else
    let t := s.commitLog
    let s1 := State.noPlanSet { t with boot := { t.boot with dieWaits := t.boot.dieWaits.filter (· != d) ++ [d] } }
    .next (s1.setParam P.deviceResult 0).runDieResets

/-- KEYING_PAGE_DONE (R420): the page leaves the list, which a die reset may wait for. -/
def execKeyingPageDone (frame : W32) (s : State) : Result := .next (s.keyedPage frame.toNat).runDieResets

/-- SWEEP_PAGE_DONE (R422): the page leaves the list, which a die reset may wait for. -/
def execSweepPageDone (frame : W32) (s : State) : Result := .next (s.sweepDone frame.toNat).runDieResets

/-- Sweeps resume on a die (R507). -/
def State.resumeSweeps (s : State) (d : DieId) : State :=
  (List.range 10).foldl (fun (t : State) c => t.fillSweeps (d.val * 10 + c)) s

/-- DIE_RESET (R507 step 3): the die is back. -/
def execDieReset (d : DieId) (ms : Nat) (s0 : State) : Result :=
  let s := s0.runDieResets
  if !(s.front d).inReset then .next s
  else
    let s1 := (s.modFront d (fun f => { f with inReset := false })).dieResetBit d false
    .next (((s1.dieLinksTrain d).resumeSweeps d).dieEvent d Ev.dieReset [(2, min ms 65535)])

/-! ## The watchdog (R514) -/

/-- Work of the management controller that a watchdog reset cuts short posts NOT_ALLOWED; a SAVE's request is abandoned without an
answer, and the answers behind it go out (R506, R514).
DEDUCED, unsafe: log entry 143. -/
def State.cutManagement (s : State) : State :=
  let s1 := State.sendHeld { s with dict := s.dict.cutSave }
  if s1.fwBusy then
    let hub := s1.boot.hub.filter (fun h => !h.isFirmware)
    State.fwRefused { s1 with boot := { s1.boot with fw := .none, fwImage := [], hub := hub } } 1
  else if s1.boot.stage = .recoveryFetch then s1.recoveryFailed 1
  else s1

/-- WATCHDOG_RESET (R514): `hung` is the bit of DOMAIN_CLOCK_STATUS of the hung access's domain, or 0xFF.
DEDUCED, unsafe: log entry 143. -/
def execWatchdogReset (hung : Byte) (s : State) : Result :=
  if !s.running' then .next s
  else .next ((s.cutManagement.bump P.watchdogCount 1).event Ev.watchdogReset [(1, hung.toNat)])

/-! ## Input power (R491, R492, R524 to R526) -/

/-- The main regulators go off: the device is in OFF, and everything outside the always-on domain is lost (R515, R526). -/
def State.mainOff (s : State) : State :=
  let s1 := s.hubReset false resetKept
  State.setDev { s1 with boot := { s1.boot with stage := .off, regulators := false, upAsked := false, offSeconds := 0 } } .off

/-- BOOT_POLICY of the newest valid copy (R491). -/
def State.bootPolicy (s : State) : Nat :=
  match s.newestCopy with
  | some c => (c.params.find? P.bootPolicy).getD (defaultParam P.bootPolicy)
  | none => defaultParam P.bootPolicy

/-- ALWAYS_ON_START (R491, R523, R524): the straps are sampled, and BOOT_POLICY decides; `inputOk` says whether both blade pairs are
in the operating range, without which the main regulators do not start. -/
def execAlwaysOnStart (feedId : Byte) (start : StartInputs) (s : State) : Result :=
  if s.boot.alwaysOn then .next s
  else
    let boot := { s.boot with alwaysOn := true, feedId := feedId, slotId := start.slotId, inputOk := start.inputOk,
                              cold := true,
                              stayOff := false, tripped := false, thermTripLow := false, offSeconds := 0,
                              regulators := start.inputOk && s.bootPolicy == 0 }
    .next { s with boot := boot, ten := { s.ten with scrubRecorded := false, keptKey := none, epoch := 0 } }

/-- ALWAYS_ON_POWER_LOST (R525): only what flash and fuses hold stays. -/
def execAlwaysOnPowerLost (s : State) : Result :=
  let s1 := s.resetDict [P.saveCount, P.powerOnCount, P.fwFuseCount]
  .next { State.reset with
    pending := s.pending, out := s.out, free := s.free
    mem := { flash := s.mem.flash }
    rind := { drawn := s.rind.drawn }
    dict := { s1.dict with layout := s.dict.layout }
    log := { nextSeq := s.log.committed, committed := s.log.committed, flash := s.log.flash, acked := s.log.acked }
    ten := { lmsNext := s.ten.lmsLimit, lmsLimit := s.ten.lmsLimit } }

/-- A cut-off of R525: while the regulators run they go off, and the event is held.
DEDUCED, unsafe: log entry 105. -/
def State.cutOff (s : State) (code : Nat) (fields : List (Nat × Nat)) : State :=
  let s1 := { s with boot := { s.boot with inputOk := false } }
  if s.boot.regulators then (s1.retain code fields).mainOff else s1

/-- INPUT_UNDERVOLTAGE (R525): the lowest input voltage in tenths of a volt. -/
def execInputUndervoltage (lowest : Nat) (s : State) : Result :=
  if lowest < 350 ∧ s.boot.alwaysOn then .next (s.cutOff Ev.inputUndervoltage [(2, lowest)]) else .next s

/-- INPUT_OVERVOLTAGE (R525): the highest input voltage in tenths of a volt. -/
def execInputOvervoltage (highest : Nat) (s : State) : Result :=
  if 450 < highest ∧ s.boot.alwaysOn then .next (s.cutOff Ev.inputOvervoltage [(2, highest)]) else .next s

/-- POWER_PAIR_LOST (R525). -/
def execPowerPairLost (pairB : Bool) (s : State) : Result :=
  if s.boot.alwaysOn then .next (s.cutOff Ev.powerPairLost [(1, if pairB then 2 else 1)]) else .next s

/-- POWER_RESTORED (R525): the device powers up as R491 provides. -/
def execPowerRestored (s : State) : Result :=
  if !s.boot.alwaysOn then .next s
  else
    let up := s.boot.dev == .off && !s.boot.stayOff && (s.bootPolicy == 0 || s.boot.upAsked)
    .next { s with boot := { s.boot with inputOk := true, regulators := s.boot.regulators || up } }

/-! ## POWER_CMD (R491, R492, R529, R532) -/

/-- A temperature parameter. -/
def State.tempParam (s : State) (k : Nat) : Int := s.paramInt k 16

/-- The coolant loop is not filled, or does not flow (R532).
DEDUCED, unsafe: log entry 109. -/
def State.coolantBad (s : State) : Bool :=
  decide (s.tempParam P.tempCoolantIn ≤ 0) || decide (s.tempParam P.tempCoolantOut ≤ 0)
    || (decide (10 ≤ s.boot.offSeconds)
      && decide (5 < (s.tempParam P.tempCoolantIn - s.tempParam P.tempCoolantOut).natAbs))

/-- A trip still bars POWER_UP (R529).
DEDUCED, safe: log entry 110. -/
def State.tripBars (s : State) : Bool :=
  s.boot.tripped && (decide (s.boot.offSeconds < 10) || decide (40 < s.tempParam P.tempCoolantIn))

/-- POWER_CMD 1 is answered with the state error.
DEDUCED, unsafe: log entry 109. -/
def State.powerUpRefused (s : State) : Bool := s.boot.dev != .off || !s.boot.alwaysOn || s.tripBars || s.coolantBad

/-- The coolant sensors bar POWER_CMD 1 in OFF, which is logged (R532). -/
def State.noteCoolant (s : State) : State :=
  if s.boot.dev = .off ∧ s.boot.alwaysOn ∧ s.coolantBad then
    s.retain Ev.coolantFlowLow [(2, s.param P.tempCoolantIn), (2, s.param P.tempCoolantOut)]
  else s

/-- POWER_CMD 1 (R491, R529, R532).
DEDUCED, unsafe: log entry 109. -/
def execPowerUp (s : State) : Result :=
  if s.powerUpRefused then .next s.noteCoolant
  else
    .next { s with boot := { s.boot with stayOff := false, tripped := false, thermTripLow := false, upAsked := true,
                                         regulators := s.boot.regulators || s.boot.inputOk } }

/-- The code of a device state (R473). -/
def DevState.code : DevState → Nat
  | .off => 0
  | .boot => 1
  | .idle => 2
  | .admitted => 3
  | .running => 4
  | .halted => 5
  | .fault => 6

/-- POWER_CMD 2 (R492). -/
def execPowerDown (s : State) : Result :=
  if s.boot.dev = .idle ∨ s.boot.dev = .fault then
    let s1 := (s.commitLog.retain Ev.powerDown [(1, s.boot.dev.code)]).mainOff
    .next { s1 with boot := { s1.boot with stayOff := true, cold := true } }
  else .next s

/-! ## Thermal trip and coolant (R528, R530) -/

/-- A sensor's raw reading in 1/64 °C with the calibration offset in force when stage 3 began (R528). -/
def State.tripReading (s : State) (sensor : Nat) (raw : Int) : Int :=
  raw + (BitVec.ofNat 16 (fieldLE s.boot.tripOffsets (2 * sensor) 2)).toInt

/-- A calibrated reading has reached the threshold of its sensor: TRIP_TEMP for sensors 0 to 35, 125 °C for the regulators.
DEDUCED, unsafe: log entry 111. -/
def State.tripReached (s : State) (sensor : Nat) (temp : Int) : Bool :=
  if sensor ≤ 35 then decide ((s.param P.tripTemp : Int) * 64 ≤ temp)
  else decide (38 ≤ sensor) && decide (sensor ≤ 41) && decide (125 * 64 ≤ temp)

/-- THERMAL_TRIP (R528, R529): the raw reading of a sensor in 1/64 °C.
DEDUCED, unsafe: log entry 111. -/
def execThermalTrip (sensor : Nat) (raw : Int) (s : State) : Result :=
  let temp := s.tripReading sensor raw
  if s.boot.alwaysOn && s.tripReached sensor temp then
    let s1 := (s.retain Ev.thermalTrip [(1, sensor), (2, rawInt 16 (roundDegrees temp))]).mainOff
    .next { s1 with boot := { s1.boot with thermTripLow := true, tripped := true, stayOff := true } }
  else .next s

/-- COOLANT_CHECK (R530): the inlet and outlet readings in 1/64 °C before calibration.
DEDUCED, unsafe: log entry 111. -/
def execCoolantCheck (inlet outlet : Int) (s : State) : Result :=
  if !(s.boot.regulators && s.running') then .next s
  else
    let tin := roundDegrees (s.calibrated 36 inlet)
    let tout := roundDegrees (s.calibrated 37 outlet)
    let s1 := if 25 < tout - tin then
        s.limited Ev.coolantFlowLow hubSource 0 1 (fun _ => [(2, rawInt 16 tin), (2, rawInt 16 tout)])
      else s
    .next (if 40 < tin then s1.limited Ev.coolantInletHigh hubSource 0 1 (fun _ => [(2, rawInt 16 tin)]) else s1)

end Sys2Proof.Machine
end

