-- ==== Sys2Proof/Machine/Hub.lean ====
section
/-! DEFINITION. The copies that the hub drives on the compute dies' engines, and what each command that needed one does when it
ends (R216). -/

namespace Sys2Proof.Machine

/-- An operation of the hub may end: a CHECKPOINT once its record has been taken (R347), a RESTORE once its reads of the partner have
been answered (R454).
DEDUCED, unsafe: log entry 114. -/
def State.hubReady (s : State) : HubOp → Bool
  | .checkpoint _ _ _ _ wrote => wrote.isSome
  | .restore _ => s.res.awaiting.isEmpty
  | _ => true

/-- A CHECKPOINT ends (R331, R347): its bytes go to the window, and it completes when the host has answered for every line; one
that could not be taken completes at once.
DEDUCED, unsafe: log entry 114. -/
def State.checkpointDone (s : State) (e : EntryId) (dst : Nat) (x : Status × List Byte × Nat) : State :=
  if x.1 = .ok then
    State.snoopWrite { s with host := { s.host with writing := s.host.writing ++ [(e, x.2.1.length, x.2.2)] } } (.checkpoint e) dst
      x.2.1
  else s.postStatus e opCheckpoint x.1

/-- What an operation of the hub does when its copy has ended.
DEDUCED, unsafe: log entry 114. -/
def State.hubDone (s : State) : HubOp → State
  | .load o => s.loadDone o
  | .segment o i => s.segmentDone o i
  | .register h id o => (s.registerDone h id o).settleRevoked
  | .checkpoint e _ dst _ wrote => match wrote with
    | some x => s.checkpointDone e dst x
    | none => s
  | .prepare => s.prepared
  | .fwStage o n => s.fwStaged o n
  | .restore o => s.restoreDone o

/-- Take the first operation that may end out of the list. -/
def takeFirst (p : HubOp → Bool) : List HubOp → Option (HubOp × List HubOp)
  | [] => none
  | o :: os => if p o then some (o, os) else (takeFirst p os).map (fun (x : HubOp × List HubOp) => (x.1, o :: x.2))

/-- A plan runs: some die has one open and is not beat-closed on it. -/
def State.plansRun (s : State) : Bool := s.fe.toList.any (fun f => f.planOpen && !f.closed)

/-- HUB_COPY_DONE (R216): the first operation that may end does. The hub drives the copy engines outside a running plan only; while a
die is in reset, or about to be, the hub's work for it is held (R506, R507).
DESIGN CHOICE, safe: log entries 15, 53. -/
def execHubCopyDone (s : State) : Result :=
  if s.plansRun || s.fe.toList.any (·.inReset) || !s.boot.dieWaits.isEmpty then .next s
  else
    match takeFirst s.hubReady s.boot.hub with
    | none => .next s
    | some (o, rest) => .next (State.hubDone { s with boot := { s.boot with hub := rest } } o)

end Sys2Proof.Machine
end

