-- ==== Sys2Proof/Machine/DictRead.lean ====
section
/-! DEFINITION. What a read of the object dictionary gives: values that rules derive from the state, stored values, and the bytes of
BLOB and STR32 entries (R437, R461, R470, R472, R480, R513, R516). -/

namespace Sys2Proof.Machine

/-! ## Codes of states -/

/-- JOB_STATE. -/
def JobPhase.code : JobPhase → Nat
  | .none => 0
  | .loaded => 1
  | .starting => 2
  | .running => 3
  | .stopping => 4
  | .halted => 5

/-- BASE_STATE (R235). -/
def BasePhase.code : BasePhase → Nat
  | .none => 0
  | .installing => 1
  | .valid => 2

/-- KEY_SLOT_STATE (R412). -/
def SlotState.code : SlotState → Nat
  | .free => 0
  | .active => 1
  | .rotating => 2
  | .removing => 3

/-- FW_STATE (R516). -/
def FwPhase.code : FwPhase → Nat
  | .none => 0
  | .staging => 1
  | .staged => 2
  | .writing => 3
  | .written => 4

/-- A truth value as a BOOL. -/
def boolNat (b : Bool) : Nat := if b then 1 else 0

/-! ## Derived numbers -/

/-- The port's MAC address (R461, R480): a globally unique unicast address, its first byte the most significant one.
DESIGN CHOICE, safe: log entry 127. PRESUMED, unsafe: log entry 206. -/
def macAddress : Nat :=
  let v := Config.fusedValue 0x1000 7 % 2 ^ 48
  v - v / 2 ^ 40 % 4 * 2 ^ 40

/-- The device's link-local address: its interface identifier is the MAC address as a modified EUI-64 (R462).
PRESUMED, unsafe: log entry 206. -/
def linkLocalAddress : Nat :=
  0xFE80 * 2 ^ 112 + ((macAddress / 2 ^ 24) ^^^ 2 ^ 17) * 2 ^ 40 + 0xFFFE * 2 ^ 24 + macAddress % 2 ^ 24

/-- Identity range (R480).
DESIGN CHOICE, safe: log entry 127. -/
def State.readIdentity (s : State) (sub : Nat) : Option Nat :=
  if sub = 0x04 then some s.boot.dev.code
  else if sub = 0x07 then some macAddress
  else if sub = 0x08 then some (s.boot.slotId.toNat + 1)
  else if sub = 0x09 then some s.boot.slotId.toNat
  else if 0x10 ≤ sub ∧ 1 ≤ sub % 8 ∧ sub % 8 ≤ 3 then some (dieNumber sub)
  else none

/-- Beat, power and boot ranges (R51, R484, R516). -/
def State.readHub (s : State) (k : Nat) : Option Nat :=
  if k = P.beatCount then some s.beat.count
  else if k = P.jobBeat then some s.beat.jobBeat
  else if k = P.powerCapEffective then some s.effectiveCap
  else if k = P.bootStage then some (if s.boot.modResetHeld then 9 else s.boot.stage.code)
  else if k = P.fwState then some s.boot.fw.code
  else if k = P.uptime then some s.boot.uptime
  else none

/-- Links, the host port and rings (R330, R333, R336, R353, R377). -/
def State.readPorts (s : State) (k : Nat) : Option Nat :=
  let i := k / 256
  if 0x2010 ≤ i ∧ i ≤ 0x203F ∧ k % 256 = 1 then some (s.link (i - 0x2010)).phase.code
  else if 0x2210 ≤ i ∧ i ≤ 0x224F ∧ k % 256 = 2 then some (match (s.ring (i - 0x2210)).phase with
    | .disabled => 0
    | .enabled => 1
    | .quarantined => 2
    | .draining => 3)
  else if 0x2210 ≤ i ∧ i ≤ 0x224F ∧ k % 256 = 0x0D then some (s.ring (i - 0x2210)).cause
  else if k = P.ideState then some (boolNat s.ten.ideIo + 2 * boolNat s.ten.ideMem)
  else if k = P.hdmBytes then some s.windowBytes
  else if k = P.cacheLinesHeld then
    some ((s.host.rings.map (fun (x : Nat × Ring) => boolNat x.2.piHeld + boolNat x.2.ciHeld)).sum)
  else none

/-- The tenant range (R409 to R412, R420, R422, R435). -/
def State.readTenant (s : State) (k : Nat) : Option Nat :=
  let sel := s.param P.keySel
  if k = P.tenantState then some s.ten.phase.code
  else if k = P.tenantEpoch then some s.ten.epoch.toNat
  else if k = P.scrubRecorded then some (boolNat s.ten.scrubRecorded)
  else if k = P.tspLocked then some (boolNat s.ten.locked)
  else if k = P.mattersActive then
    some (s.rind.slots.countP (fun (x : Nat × KeySlot) => decide (2 ≤ x.1) && x.2.state != .free))
  else if k = P.keySlotState then some (s.keySlot sel).state.code
  else if k = P.keySlotOwner then some (s.keySlot sel).owner
  else if k = P.keyGenCurrent then some (s.keySlot sel).gen
  else if k = P.sweepPagesLeft then some ((s.sweepOf sel).map (fun w => s.pagesLeft sel w.oldGen) |>.getD 0)
  else if k = P.keyingPages then some s.rind.keying.length
  else if k = P.lmsNextLeaf then some s.ten.lmsNext
  else if k = P.lmsLeafLimit then some s.ten.lmsLimit
  else none

/-- The admission range (R233 to R265). -/
def State.readAdmission (s : State) (k : Nat) : Option Nat :=
  if k = P.adaptersRegistered then some s.adm.adapters.length
  else if k = P.cacheResident then some s.adm.slots.length
  else if k = P.cachePinned then some (s.adm.slots.countP (fun (x : Nat × CacheSlot) => x.2.phase == .filling || 0 < s.slotPins x.1 x.2))
  else if k = P.bundlesDefined then some s.adm.bundles.length
  else if k = P.requestsQueued then some (s.adm.requests.countP (fun (x : Nat × Request) => x.2.phase == .queued))
  else if k = P.requestsActive then some (s.adm.requests.countP (fun (x : Nat × Request) => x.2.phase != .queued))
  else if k = P.baseState then some s.adm.base.code
  else none

/-- The training index that TRAIN_SEL names. -/
def State.trainSelected (s : State) : Option TrainState := s.job.trains[s.param P.trainSel]?

/-- The current step s: the job's first one until its first NORMAL boundary (R26, R274). -/
def State.stepNow (s : State) : Nat := if s.beat.firstNormal then s.job.firstStepNow else s.stepOf s.beat.jobBeat

/-- The training range (R299).
DEDUCED, unsafe: log entry 116. -/
def State.readTraining (s : State) (k : Nat) : Option Nat :=
  let step := s.stepNow
  let sel := fun (g : TrainState → Nat) => some ((s.trainSelected.map g).getD 0)
  if k = P.jobState then some s.job.phase.code
  else if k = P.jobTag then some s.runningTag
  else if k = P.jobStep then some (if s.jobPresent then step else 0)
  else if k = P.planSetId then some ((s.job.planSet.map (·.planSetId)).getD 0)
  else if k = P.trainCount then some s.job.trains.length
  else if k = P.auditActive then some (boolNat (s.jobActive && s.job.planSet.any (·.audit)))
  else if k = P.trainHandle then sel (·.handle)
  else if k = P.trainLossLog2 then sel (fun t => rawInt 16 t.lossLog2)
  else if k = P.trainStreak then sel (·.streak)
  else if k = P.trainVersion then sel (·.version)
  else if k = P.trainStepCount then sel (·.stepCount)
  else if k = P.trainGradK then sel (fun t => rawInt 16 (t.kOf step))
  else if k = P.trainLastUpdate then sel (fun t => t.lastUpdate.code)
  else none

/-- The KV range (R301 to R323). -/
def State.readKv (s : State) (k : Nat) : Option Nat :=
  let count := fun (p : SeqRec → Bool) => some (s.kv.live.seqs.countP (fun (x : Nat × SeqRec) => p x.2))
  if k = P.kvFrames then some s.kvFrameCount
  else if k = P.kvFramesFree then some (s.framesFree 0)
  else if k = P.kvFramesReserved then some s.kv.next.reservedSum
  else if k = P.kvSeqOpen then count (fun r => r.phase == .opened)
  else if k = P.kvSeqKept then count (fun r => r.phase == .kept)
  else if k = P.kvContexts then count (fun r => r.phase == .contextHbm || r.phase == .contextParked)
  else none

/-- The regions in the order of 0x5000.10 to 0x5000.18 (R233). -/
def regionAt (i : Nat) : Region :=
  match i with
  | 0 => .base
  | 1 => .cache
  | 2 => .checkpoint
  | 3 => .press
  | 4 => .kv
  | 5 => .hdm
  | 6 => .store
  | 7 => .partner
  | _ => .context

/-- A region parameter that waits for a start-up (R212). -/
def State.layoutPending (s : State) : Bool := s.layoutWanted != s.dict.layout

/-- Memory tiers and resilience (R212, R233, R441, R443). -/
def State.readMemory (s : State) (k : Nat) : Option Nat :=
  if k = P.layoutPending then some (boolNat s.layoutPending)
  else if P.regionBase ≤ k ∧ k ≤ P.regionContext then
    let r := regionAt (k - P.regionBase)
    some (s.regionFirst r * 2 ^ 32 + s.regionPages r)
  else if k = P.feedId then some s.boot.feedId.toNat
  else if k = P.hostedImage0Step then some (s.hostedStep 0)
  else if k = P.hostedImage1Step then some (s.hostedStep 1)
  else none

/-- The event log (R488, R489). -/
def State.readLog (s : State) (k : Nat) : Option Nat :=
  if k = P.eventNextSeq then some s.log.nextSeq
  else if k = P.eventOldest then some ((s.log.records.head?.map (·.seq)).getD s.log.nextSeq)
  else if k = P.eventCommitted then some s.log.committed
  else if k = P.alertPending then some (s.log.alerted.head?.getD 0xFFFFFFFF)
  else none

/-! ## Saved values (R477) -/

/-- The keys of every RWP entry. -/
def rwpKeys : List Nat := (dictTable.filter (fun p => p.acc == .rwp)).map (·.key)

/-- A key is an RWP number. -/
def isRwp (k : Nat) : Bool := (lookupParam k).any (fun p => p.acc == .rwp)

/-- What a SAVE takes: the RWP values that differ from their defaults, and the origin of the calibration. -/
def State.rwpParams (s : State) : AMap Nat := s.dict.params.filter (fun (x : Nat × Nat) => isRwp x.1)

/-- The RWP BLOB values, and CAL_ORIGIN with them. -/
def State.rwpBlobs (s : State) : AMap (List Byte) :=
  s.dict.blobs.filter (fun (x : Nat × List Byte) => isRwp x.1 || x.1 == P.calOrigin)

/-- PARAMS_UNSAVED (R477): CAL_ORIGIN is no RWP value. -/
def State.paramsUnsaved (s : State) : Bool :=
  let rwp := fun (m : AMap (List Byte)) => m.filter (fun (x : Nat × List Byte) => isRwp x.1)
  match s.newestCopy with
  | some c => s.rwpParams != c.params || rwp s.rwpBlobs != rwp c.blobs
  | none => true

/-- A derived number, for an entry whose value no command stores.
DEDUCED, unsafe: log entry 10. -/
def State.derived (s : State) (k : Nat) : Option Nat :=
  if k = P.paramsUnsaved then some (boolNat s.paramsUnsaved)
  else
    match k / 256 with
    | 0x1000 => s.readIdentity (k % 256)
    | 0x3000 => s.readTenant k
    | 0x4000 => s.readAdmission k
    | 0x4100 => s.readKv k
    | 0x4200 => s.readTraining k
    | 0x4300 => s.readTraining k
    | 0x5000 => s.readMemory k
    | 0x5800 => s.readMemory k
    | 0x7000 => s.readLog k
    | _ => (s.readHub k).or (s.readPorts k)

/-- Performance counters (R437, R472, R485): every entry of the telemetry range but the interval, UPTIME and POWER_ON_COUNT.
DEDUCED, unsafe: log entry 117. -/
def isPerf (k : Nat) : Bool := k / 256 == 0x6000 && (k % 256 == 2 || decide (0x10 ≤ k % 256))

/-- Performance counters read as 0 over GPP, and over DOE unless a tenant is bound (R472).
DEDUCED, unsafe: log entry 117. -/
def State.perfShown (s : State) (doe : Bool) : Bool := doe && s.ten.phase == .bound

/-- The value that a read of a numeric entry gives.
DEDUCED, unsafe: log entry 10. -/
def State.readNumber (s : State) (doe : Bool) (k : Nat) : Nat :=
  if isPerf k && !s.perfShown doe then 0 else (s.derived k).getD (s.param k)

/-! ## Clocks (R513) -/

/-- The compute dies have been released (R493). -/
def State.diesUp (s : State) : Bool :=
  s.boot.stage == .dies || s.boot.stage == .memoryTraining || s.boot.stage == .scrub || s.boot.stage == .done

/-- The core domain of a die runs.
DEDUCED, unsafe: log entry 124. -/
def State.dieClock (s : State) (d : DieId) : Bool := s.diesUp && !(s.front d).inReset

/-- The receive clock of a link runs: its die is out of reset and its lanes carry a signal.
DEDUCED, unsafe: log entry 124. -/
def State.linkClock (s : State) (n : Nat) : Bool :=
  s.dieClock (dieOf (n / 12)) && (s.link n).phase != .disabled && (s.link n).phase != .down

/-- DOMAIN_CLOCK_STATUS as a number of 128 bits. -/
def State.clockBits (s : State) : Nat :=
  let bit := fun (b : Bool) (i : Nat) => if b then 2 ^ i else 0
  let dies := allDies.map (fun (d : DieId) =>
    bit (s.dieClock d) (4 + d.val) + (if s.dieClock d then 63 * 2 ^ (16 + 6 * d.val) + 15 * 2 ^ (40 + 4 * d.val) else 0))
  1 + bit s.running' 1 + bit s.running' 2 + bit s.diesUp 3 + bit s.running' 8 + dies.sum
    + ((List.range 48).map (fun n => bit (s.linkClock n) (64 + n))).sum

/-- The die whose domain holds an entry: route tables, slips and the counts of its units (R55, R389, R485).
DEDUCED, unsafe: log entry 124. -/
def dieOfEntry (k : Nat) : Option DieId :=
  if P.routePending 0 ≤ k ∧ k ≤ P.routePending 3 then some (dieOf (k - P.routePending 0))
  else if P.routeActive 0 ≤ k ∧ k ≤ P.routeActive 3 then some (dieOf (k - P.routeActive 0))
  else if P.slipHigh 0 ≤ k ∧ k ≤ P.slipHigh 3 then some (dieOf (k - P.slipHigh 0))
  else if P.arrayBusy 0 ≤ k ∧ k ≤ P.fabricRx 3 then some (dieOf ((k - P.arrayBusy 0) % 4))
  else none

/-- Entries whose domain's clock is stopped answer STATE (R512, R513): those of a die's own domain, the counters that a link keeps in
its domain, and every entry of a link whose die is in reset (R506).
DEDUCED, unsafe: log entry 124. -/
def State.clockStopped (s : State) (k : Nat) : Bool :=
  let i := k / 256
  (dieOfEntry k).any (fun d => !s.dieClock d) ||
  decide (0x2010 ≤ i) && decide (i ≤ 0x203F) && ((s.front (dieOf ((i - 0x2010) / 12))).inReset
    || (decide (0x0C ≤ k % 256) && decide (k % 256 ≤ 0x0F) && !s.linkClock (i - 0x2010)))

/-! ## Bytes (R470, R480) -/

/-- Bytes of the identity range.
DESIGN CHOICE, safe: log entry 127. -/
def identityBytes (sub : Nat) : List Byte :=
  if sub = 1 then str32 "BNX-4896"
  else if sub = 2 then str32 "Ronsilis Microsystems"
  else if sub = 3 then Config.fusedBytes 0x1000 3
  else if sub % 8 = 4 then str32 "A0"
  else dieLotBytes sub

/-- The value of a STR32 entry. -/
def State.readText (s : State) (k : Nat) : List Byte :=
  fitted 32 (if k / 256 = 0x1000 then identityBytes (k % 256) else s.blob k)

/-- Records of the log from the one that holds an offset on, with the offset of the first (R489): those of the records asked for
that are held; where none of them is, as many of the first records held behind them as fit.
DEDUCED, unsafe: log entry 204. -/
def State.readRecords (s : State) (offset n : Nat) : Nat × List Byte :=
  let held := s.log.records.any (fun (r : EventRec) => r.seq % 2 ^ 27 == offset / 32)
  let ahead := decide (s.log.nextSeq ≤ offset / 32) && !held
  let back := fun (q : Nat) => if ahead then 0 else (s.log.nextSeq + 2 ^ 27 - q % 2 ^ 27) % 2 ^ 27
  let age := fun (r : EventRec) => (s.log.nextSeq + 2 ^ 32 - r.seq) % 2 ^ 32
  let rest := s.log.records.filter (fun (r : EventRec) => decide (age r ≤ back (offset / 32)))
  let near := rest.filter (fun (r : EventRec) => decide (back (offset / 32) < age r + n / 32))
  let got := (if near.isEmpty then rest else near).take (n / 32)
  ((got.head?.map (fun (r : EventRec) => recordOffset r.seq)).getD offset, got.flatMap EventRec.bytes)

/-- The whole value of a BLOB entry other than EVENT_RECORDS. -/
def State.readBlob (s : State) (k : Nat) : List Byte :=
  if k = P.domainClockStatus then leBytes 16 s.clockBits
  else if k = P.identityCert then Config.identityCert
  else if k = P.fwDigest then fitted 48 (s.blob k)
  else if k = P.baseFingerprint then if s.adm.base = .valid then s.adm.fingerprint else List.replicate 48 0
  else if k = P.kvScaleTable then
    let n := 2 * s.param P.kvLayers * s.param P.kvHeads
    if (s.blob k).isEmpty then List.replicate n 0x7F else s.blob k
  else s.blob k

/-- TOTAL of an answer about an entry: the length of a BLOB (R465, R489). -/
def State.blobTotal (s : State) (k : Nat) : Nat :=
  if k = P.eventRecords then 32 * (s.log.nextSeq % 2 ^ 27)
  else if (lookupParam k).any (fun p => p.type == .blob) then (s.readBlob k).length else 0

/-- The default of a BLOB or STR32 entry, none where its table gives none (R303, R389, R480, R482, R516). -/
def State.defaultBytes (s : State) (k : Nat) : Option (List Byte) :=
  if k = P.kvScaleTable then some (List.replicate (2 * s.param P.kvLayers * s.param P.kvHeads) 0x7F)
  else if k = P.baseFingerprint then some (List.replicate 48 0)
  else if k / 256 = 0x1000 ∧ k ≠ P.gppNotifyAddr ∨ k = P.domainClockStatus ∨ k = P.identityCert ∨ k = P.fwDigest
    ∨ k = P.eventRecords then none
  else if (lookupParam k).any (fun p => p.type == .str32) then some (fitted 32 [])
  else some (defaultBlob k)

/-- The value of an entry that is no BLOB. -/
def State.readValue (s : State) (doe : Bool) (p : Param) : List Byte :=
  if p.type = .str32 then s.readText p.key else leBytes p.type.size (s.readNumber doe p.key)

end Sys2Proof.Machine
end

