-- ==== Sys2Proof/Machine/Control.lean ====
section
/-! DEFINITION. Device commands, calibration, alerts and telemetry: rows of the dictionary's own ranges that act by
themselves (R83, R437, R461, R462, R476, R482 to R485, R488). -/

namespace Sys2Proof.Machine

/-- Post the outcome of a device command: 0 OK, 1 NOT_ALLOWED (R476). -/
def State.deviceResult (s : State) (r : Nat) : State := s.setParam P.deviceResult r

/-! ## Device commands (R476) -/

/-- No plan is open any more, and no die holds a halt request. -/
def State.stopPlans (s : State) : State :=
  (allDies.foldl (fun (t : State) d => t.modFront d FrontEnd.stopAll) { s with fab := { s.fab with writes := [] } }).dropHalts

/-- CLEAR_HALT (R476). -/
def execClearHalt (s : State) : Result :=
  if s.boot.dev = .halted ∧ s.ten.phase = .bound then
    let tag := s.runningTag
    let s1 := (s.endJob .halt).stopPlans.setDev .admitted
    .next ((s1.deviceResult 0).event Ev.haltCleared [(4, tag), (8, s.param P.recoveryStep)])
  else .next (s.deviceResult 1)

/-- A key lies outside what RESET_DEFAULTS sets: it is no RWP entry, or one of the calibration. -/
def keepsDefault (k : Nat) : Bool := !isRwp k || k / 256 == 0x1100

/-- RESET_DEFAULTS (R476). -/
def execResetDefaults (s : State) : Result :=
  if s.boot.dev = .idle then
    let dict := { s.dict with params := s.dict.params.filter (fun (x : Nat × Nat) => keepsDefault x.1),
                              blobs := s.dict.blobs.filter (fun (x : Nat × List Byte) => keepsDefault x.1) }
    .next ((State.copyScales { s with dict := dict }).deviceResult 0 |>.event Ev.paramsDefaulted [])
  else .next (s.deviceResult 1)

/-! ## NUM_CLEAR and ALERT_ACK (R83, R488) -/

/-- NUM_CLEAR (R83).
DEDUCED, unsafe: log entry 156. -/
def execNumClear (value : Bool) (s : State) : Result := if value && s.hubUp then .next s.clearTotals else .next s

/-- Acknowledge alerting records before a number (R488), never ahead of the log and never back.
DEDUCED, unsafe: log entry 104. -/
def State.ackAlerts (s : State) (q : Nat) : State :=
  let fwd := fun (a b : Nat) => (b + 2 ^ 32 - a) % 2 ^ 32
  let q1 := if fwd s.log.acked q ≤ fwd s.log.acked s.log.nextSeq then q else s.log.nextSeq
  let q2 := if fwd s.log.acked q < 2 ^ 31 then q1 else s.log.acked
  let s1 := { s with log := { s.log with acked := q2 } }
  s1.setAlerts (s1.log.alerted.filter s1.unacked)

/-- ALERT_ACK (R488). -/
def execAlertAck (seq : W32) (s : State) : Result := if s.hubUp then .next (s.ackAlerts seq.toNat) else .next s

/-! ## Calibration (R481, R482) -/

/-- The elements of a calibration entry: bytes of one, how many, and the number of the first in the order of R481. -/
def calElements (sub : Nat) : Nat × Nat × Nat :=
  match sub with
  | 1 => (2, 42, 0)
  | 2 => (4, 19, 42)
  | 3 => (2, 192, 61)
  | 4 => (2, 16, 253)
  | 5 => (256, 24, 269)
  | 6 => (128, 16, 293)
  | _ => (1, 0, 309)

/-- The elements that n bytes from an offset cover: the first within its entry, and how many.
DEDUCED, unsafe: log entry 128. -/
def calCovered (sub offset n : Nat) : Nat × Nat :=
  let size := (calElements sub).1
  let first := offset / size
  (first, ceilDiv (offset + n) size - first)

/-- CAL_ORIGIN with elements marked USER. -/
def markUser (origin : List Byte) (first n : Nat) : List Byte :=
  leBytes 39 (leNat origin ||| ((2 ^ n - 1) * 2 ^ first))

/-- Bytes of a list replaced from an offset on. -/
def spliced (old : List Byte) (offset : Nat) (new : List Byte) : List Byte :=
  old.take offset ++ new ++ old.drop (offset + new.length)

/-- A calibration value keeps to its encoding: gains from 0.5 to 2.0, presets P0 to P10 (R481, R482). -/
def calInRange (sub : Nat) (v : List Byte) : Bool :=
  if sub = 2 then (List.range 19).all (fun i => 32768 ≤ fieldLE v (4 * i) 4 && fieldLE v (4 * i) 4 ≤ 131072)
  else if sub = 4 then (List.range 16).all (fun i => fieldLE v (2 * i) 2 ≤ 10)
  else true

/-- Write bytes of a calibration entry (R482).
DEDUCED, unsafe: log entry 128. -/
def State.writeCal (s : State) (sub offset : Nat) (data : List Byte) : State :=
  let k := 0x110000 + sub
  let c := calCovered sub offset data.length
  let size := (calElements sub).1 * (calElements sub).2.1
  let s1 := s.setBlob k (spliced (fitted size (s.blob k)) offset data)
  let s2 := s1.setBlob P.calOrigin (markUser (s1.blob P.calOrigin) ((calElements sub).2.2 + c.1) c.2)
  s2.event Ev.calWritten [(1, sub), (1, c.1), (1, c.2)]

/-- CAL_WRITTEN (R482).
DEDUCED, unsafe: log entry 128. -/
def execCalWritten (sub offset : Nat) (data : List Byte) (s : State) : Result :=
  let size := (calElements sub).1 * (calElements sub).2.1
  let whole := spliced (fitted size (s.blob (0x110000 + sub))) offset data
  if s.boot.dev = .idle ∧ !s.ten.locked ∧ data ≠ [] ∧ offset + data.length ≤ size ∧ calInRange sub whole = true then
    .next (s.writeCal sub offset data)
  else .next s

/-! ## Telemetry (R437, R484, R485) -/

/-- Power in 1/65,536 W to the nearest 50 W, ties upward (R437). -/
def round50 (w : Nat) : Nat := (w + 25 * 65536) / (50 * 65536) * 50

/-- 64ths of a full scale num ÷ den, rounded down (R485). -/
def share64 (count num den : Nat) : Nat := if num = 0 then 0 else min 64 (64 * count * den / num)

/-- Set numbered entries from a list. -/
def State.setRow (s : State) (first : Nat) (vs : List Nat) : State :=
  (vs.zipIdx).foldl (fun (t : State) (x : Nat × Nat) => t.setParam (first + x.2) x.1) s

/-- The first n of a list of counts, as shares of a full scale. -/
def shares (n num den : Nat) (counts : List Nat) : List Nat := (counts.take n).map (fun c => share64 c num den)

/-- TELEMETRY_INTERVAL (R485): full scales in core cycles c of the interval are 128 c input vectors, 737,280 c ÷ 105 and
30,720 c ÷ 105 bytes, and 125 c ÷ 28 flit slots. -/
def execTelemetryInterval (t : TelemetryCounts) (s : State) : Result :=
  if !s.running' then .next s
  else
    let c := t.intervalCycles
    let s1 := (s.setRow (P.arrayBusy 0) (shares 4 (128 * c) 1 t.arrayBusy)).setRow (P.hbmUtil 0)
      (shares 4 (737280 * c) 105 t.hbmBytes)
    let s2 := (s1.setRow (P.lpddrUtil 0) (shares 4 (30720 * c) 105 t.lpddrBytes)).setRow (P.fabricTx 0)
      (shares 4 (125 * c) 28 t.fabricTx)
    let s3 := s2.setRow (P.fabricRx 0) (shares 4 (125 * c) 28 t.fabricRx)
    let s4 := s3.setRow P.beatsNormal ([s.beat.beatsNormal, s.beat.beatsIdle, s.beat.beatsCatchUp].map (fun n => share64 n 1024 1))
    let s5 := s4.setRow P.rowFill [share64 t.rowFill (4096 * t.slot0Boundaries) 1,
      share64 ((s.readAdmission P.cachePinned).getD 0) 1024 1]
    let s6 := { s5 with beat := { s5.beat with beatsNormal := 0, beatsIdle := 0, beatsCatchUp := 0 } }
    .next (s6.bump P.telemSeq 1)

/-- Whole degrees of readings in 1/64 °C, as raw I16. -/
def degreesRow (temps : List Int) : List Nat := temps.map (fun t => rawInt 16 (roundDegrees t))

/-- The hottest of n calibrated sensors from one on (R481, R484). -/
def State.hottest (s : State) (t : SecondReadings) (first n : Nat) : Int :=
  let at' := fun (i : Nat) => s.calibrated i (t.sensors.getD i 0)
  (List.range n).foldl (fun (m : Int) (i : Nat) => max m (at' (first + i))) (at' first)

/-- The temperatures of 0x1300.20 to 0x1300.29 (R484): HBM stacks and LPDDR packages take no offsets (R481). -/
def State.tempsShown (s : State) (t : SecondReadings) : List Int :=
  [s.hottest t 0 8, s.hottest t 8 8, s.hottest t 16 8, s.hottest t 24 8, s.hottest t 32 4, t.hbm, t.lpddr, s.hottest t 36 1,
    s.hottest t 37 1, s.hottest t 38 4]

/-- The calibrated power of n rails from one on (R481). -/
def State.railSum (s : State) (t : SecondReadings) (first n : Nat) : Nat :=
  ((List.range n).map (fun i => s.calibratedPower (first + i) (t.rails.getD (first + i) 0))).sum

/-- The rail powers of 0x1300.10 to 0x1300.18 (R484). -/
def State.railsShown (s : State) (t : SecondReadings) : List Nat :=
  [s.railSum t 1 1, s.railSum t 2 1, s.railSum t 3 1, s.railSum t 4 1, s.railSum t 5 4, s.railSum t 9 4, s.railSum t 13 4,
    s.railSum t 17 1, s.railSum t 18 1]

/-- TELEMETRY_SECOND (R437, R481, R484): one-second means, calibrated. In OFF only the coolant sensors are read (R529).
DEDUCED, safe: log entry 110. -/
def execTelemetrySecond (t : SecondReadings) (s : State) : Result :=
  if !s.boot.alwaysOn then .next s
  else if s.boot.dev = .off then
    let s1 := s.setRow P.tempCoolantIn (degreesRow [s.hottest t 36 1, s.hottest t 37 1])
    .next { s1 with boot := { s1.boot with offSeconds := s1.boot.offSeconds + 1 } }
  else
    let s1 := (s.setParam P.inputVoltage (rawInt 32 t.voltage)).setParam P.inputPower (round50 (s.railSum t 0 1))
    let s2 := (s1.setRow (P.railPower 0) ((s.railsShown t).map round50)).setRow (P.temp 0) (degreesRow (s.tempsShown t))
    let s3 := (s2.setParam P.powerBusyAvg (round50 (s.calibratedPower 0 t.busy))).setParam P.powerIdleAvg
      (round50 (s.calibratedPower 0 t.idle))
    .next { s3 with boot := { s3.boot with uptime := (s3.boot.uptime + 1) % 2 ^ 32 } }

/-! ## The management port (R461, R462) -/

/-- PLCA_BEACON_RECEIVED (R461). -/
def execPlcaBeaconReceived (s : State) : Result := if s.boot.alwaysOn then .next (s.setParam P.plcaStatus 1) else .next s

/-- PLCA_BEACON_LOST (R461). -/
def execPlcaBeaconLost (s : State) : Result := if s.boot.alwaysOn then .next (s.setParam P.plcaStatus 2) else .next s

/-- NEIGHBOR_DISCOVERY (R462): answered under RFC 4861 with the device's link-local address. -/
def execNeighborDiscovery (source : Nat) (s : State) : Result :=
  if s.boot.alwaysOn then .next (s.emit (.advertisement source linkLocalAddress)) else .next s

end Sys2Proof.Machine
end

