-- ==== Sys2Proof/Machine/DictWrite.lean ====
section
/-! DEFINITION. Writes of the object dictionary: when a write is refused with STATE or RANGE, and what an accepted one does
(R411, R467 to R475, R482). -/

namespace Sys2Proof.Machine

/-! ## Status codes (R467) -/

abbrev gppOk : Nat := 0
abbrev gppBadMessage : Nat := 1
abbrev gppNoEntry : Nat := 2
abbrev gppType : Nat := 3
abbrev gppAccess : Nat := 4
abbrev gppRange : Nat := 5
abbrev gppState : Nat := 6
abbrev gppSegment : Nat := 7
abbrev gppBusy : Nat := 8
abbrev gppFlash : Nat := 9

/-! ## STATE (R411, R471, R472, R475) -/

/-- In OFF a request is answered only for the identity range, the power and thermal range, the event log, and the power-up
controls of the boot range (R475).
DEDUCED, unsafe: log entry 118. -/
def offAnswers (k : Nat) (write : Bool) : Bool :=
  let i := k / 256
  if write then k == P.powerCmd
  else i == 0x1000 || i == 0x1300 || i == 0x7000 || k == P.powerCmd || k == P.bootPolicy

/-- What the device state allows of a request (R475).
DEDUCED, unsafe: log entry 118. -/
def State.devAllows (s : State) (k : Nat) (write : Bool) : Bool :=
  match s.boot.dev with
  | .off => offAnswers k write
  | .boot | .fault => !write || k / 256 == 0x1400
  | _ => true

/-- What a locked tenant's device allows of a write over a route (R411).
DEDUCED, unsafe: log entry 60. -/
def State.lockAllows (s : State) (doe : Bool) (p : Param) (v : Nat) : Bool :=
  if !s.ten.locked then true
  else if p.acc = .rwi ∨ p.acc = .rwp then false
  else doe || (p.key == P.tenantCmd && v == 2) || p.key == P.tenantArgMode || p.key == P.tenantArgBeat || p.key == P.powerCap

/-- A command that is still pending bars another of its kind (R467), or a rule names the state error for the write. -/
def State.commandAllows (s : State) (k v : Nat) : Bool :=
  let i := k / 256
  if k = P.powerCmd then (if v = 1 then !s.powerUpRefused else s.boot.dev == .idle || s.boot.dev == .fault)
  else if k = P.fwCmd then !s.fwBusy && s.boot.stage != .recoveryFetch
  else if k = P.jobCmd then !s.loading
  else if k = P.baseCmd then !s.segmentBusy
  else if k = P.restoreCmd then !s.restoring
  else if k = P.matterCmd then s.ten.phase == .bound && !s.matterPending
  else if k = P.copyPartner then s.copyPartnerFault v != some 6
  else if 0x2210 ≤ i ∧ i ≤ 0x224F then
    k % 256 == 1 && v == 2 || (s.ring (i - 0x2210)).phase == .disabled
  else true

/-- A write is not refused with STATE. -/
def State.writeAllowed (s : State) (doe : Bool) (p : Param) (v : Nat) : Bool :=
  s.devAllows p.key true && (p.acc != .rwi || s.boot.dev == .idle) && (p.key / 256 != 0x1100 || s.boot.dev == .idle)
    && s.lockAllows doe p v && s.commandAllows p.key v && !s.clockStopped p.key

/-! ## RANGE (R467) -/

/-- KV and CONTEXT keep at least 4,096 pages per die if a region parameter takes a value (R212). -/
def State.layoutFits (s : State) (k v : Nat) : Bool :=
  let l := (List.range 7).map (fun i => if P.basePages + i = k then v else s.param (P.basePages + i))
  let hbm := l.getD 0 0 + 1024 * l.getD 1 0 + l.getD 2 0 + l.getD 3 0
  let lp := 1024 * l.getD 4 0 + l.getD 5 0 + l.getD 6 0
  decide (hbm + 4096 ≤ tierPages false) && decide (lp + 4096 ≤ tierPages true)

/-- A device ID, or 0xFFFF for none. -/
def idOrNone (v : Nat) : Bool := v ≤ 1023 || v == 0xFFFF

/-- Ranges of a ring's parameters (R335). -/
def State.ringRange (s : State) (r sub v : Nat) : Bool :=
  if sub = 1 then v != 1 || s.ringParamsOk r
  else if sub = 3 ∨ sub = 5 then v % 4096 == 0
  else if sub = 4 ∨ sub = 6 then ringSizeOk v
  else if 7 ≤ sub ∧ sub ≤ 9 then v % 64 == 0
  else true

/-- The command of the matter range that a value of MATTER_CMD means (R414). -/
def State.matterOf (s : State) (v : Nat) : MatterCmd :=
  let id := BitVec.ofNat 32 (s.param P.matterArgId)
  if v = 1 then .create id else if v = 2 then .remove id else .rotate (s.param P.matterArgSlot)

/-- A rule that names the range error lets the value pass. A BEAT_CYCLES below 8 times the guard is accepted and leaves the guard
as it is (R22, R23).
DESIGN CHOICE, unsafe: log entry 167. -/
def State.specialRange (s : State) (k v : Nat) : Bool :=
  let i := k / 256
  if k = P.beatCycles then v == 2 ^ Nat.log2 v
  else if k = P.guardCycles then v % 256 == 0 && decide (v ≤ s.param P.beatCycles / 8)
  else if k = P.kvHeads then v == 4 || v == 8
  else if k = P.deviceId ∨ k = P.copyHosted then idOrNone v
  else if k = P.lossDevice then decide (v ≤ 1023)
  else if k = P.copyPartner then (s.copyPartnerFault v).isNone
  else if k = P.matterCmd then matterRange (s.matterOf v)
  else if P.basePages ≤ k ∧ k ≤ P.partnerPages then s.layoutFits k v
  else if 0x2210 ≤ i ∧ i ≤ 0x224F then s.ringRange (i - 0x2210) (k % 256) v
  else true

/-- A value lies in an entry's range.
DEDUCED, unsafe: log entry 76. -/
def State.inRange (s : State) (p : Param) (v : Nat) : Bool :=
  decide (p.lo ≤ (v : Int)) && decide ((v : Int) ≤ p.hi) && s.specialRange p.key v

/-! ## What a write does -/

/-- The state that a meaning answers; none of the command rows that a write reaches stops. -/
def nextOr (s : State) (r : Result) : State :=
  match r with
  | .next t => t
  | _ => s

/-- The commands of the boot range (R492, R500, R502, R504).
DEDUCED, safe: log entry 121. -/
def State.bootWrite (s : State) (k v : Nat) : State :=
  let off := s.param P.fwArgOffset
  let bytes := s.param P.fwArgBytes
  if k = P.powerCmd then nextOr s (if v = 1 then execPowerUp s else execPowerDown s)
  else if k = P.resetCmd then
    nextOr s (if v = 1 then execResetModule s else if v = 2 then execResetWarm s
      else execResetDie (dieOf (s.param P.resetArgDie)) s)
  else nextOr s (if v = 1 then execFwStage off bytes s else if v = 2 then execFwWrite s else execRecover off bytes s)

/-- The commands of the tenant range (R410, R414, R427).
DEDUCED, safe: log entry 121. -/
def State.tenantWrite (s : State) (doe : Bool) (k v : Nat) : State :=
  let route := if doe then Route.doe else Route.gpp
  let mode := if s.param P.tenantArgMode = 1 then ReleaseMode.immediate else ReleaseMode.orderly
  if k = P.matterCmd then s.writeMatter (s.matterOf v)
  else nextOr s (if v = 1 then execAdmitTenant route s else execTenantRelease route mode (s.param P.tenantArgBeat) s)

/-- The commands of the base and job ranges (R237, R267).
DEDUCED, safe: log entry 121. -/
def State.workWrite (s : State) (k v : Nat) : State :=
  let base := s.param P.baseArgOffset
  let off := s.param P.jobArgOffset
  if k = P.baseCmd then
    nextOr s (if v = 1 then execBegin base s else if v = 2 then execSegment base (s.param P.baseArgIndex) s
      else if v = 3 then execEnd s else execBaseAbort s)
  else
    nextOr s (if v = 1 then execLoad off s else if v = 2 then execStart off s else if v = 3 then execStop s
      else execJobAbort s)

/-- The commands of the resilience range (R451, R454, R457). -/
def State.rescueWrite (s : State) (k v : Nat) : State :=
  if k = P.standinCmd then nextOr s (if v = 1 then execStandinLoad (s.param P.standinOffset) s else execStandinDiscard s)
  else if k = P.restoreCmd then nextOr s (execRestore (s.param P.restoreOffset) s)
  else nextOr s (execResume (s.param P.jobArgOffset) (s.param P.resumeOffset) s)

/-- LINK_CTRL (R389). -/
def State.linkWrite (s : State) (n v : Nat) : State :=
  let l : LinkId := ⟨n % 48, Nat.mod_lt n (by decide)⟩
  nextOr s (if v = 1 then execLinkRetrain l s else if v = 2 then execLinkReleaseQuarantine l s
    else if v = 3 then execLinkDisable l s else execLinkEnable l s)

/-- RING_CTRL (R337, R355). What the two index lines hold comes with the reads' answers: free values here.
DESIGN CHOICE, safe: log entry 122. -/
def State.ringWrite (s : State) (r v : Nat) : State :=
  let k : RingId := ⟨r % 64, Nat.mod_lt r (by decide)⟩
  if v = 1 then nextOr s (execRingEnable k (s.freeWord.truncate 32) (s.drawn.freeWord.truncate 32) s.drawn.drawn)
  else nextOr s (execRingReset k s)

/-- The entries of the links and rings that act by themselves; a pending value unseals the route set (R382).
DEDUCED, safe: log entry 121. -/
def State.portWrite (s : State) (k v : Nat) : State :=
  let i := k / 256
  if 0x2010 ≤ i ∧ i ≤ 0x203F then
    (if k % 256 = 2 then s.linkWrite (i - 0x2010) v else (s.setParam k v).unseal)
  else if k % 256 = 1 then s.ringWrite (i - 0x2210) v
  else s.setParam k v

/-- Apply a write of a number: commands run with their arguments, and every other entry takes the value (R471).
DEDUCED, unsafe: log entry 76. DEDUCED, safe: log entry 121. -/
def State.applyNumber (s : State) (doe : Bool) (k v : Nat) : State :=
  let i := k / 256
  if k = P.deviceCmd then nextOr s (if v = 1 then execClearHalt s else execResetDefaults s)
  else if k = P.powerCmd ∨ k = P.resetCmd ∨ k = P.fwCmd then s.bootWrite k v
  else if k = P.tenantCmd ∨ k = P.matterCmd then s.tenantWrite doe k v
  else if k = P.baseCmd ∨ k = P.jobCmd then s.workWrite k v
  else if k = P.standinCmd ∨ k = P.restoreCmd ∨ k = P.resumeCmd then s.rescueWrite k v
  else if k = P.numClear then (if v = 1 then s.clearTotals else s)
  else if k = P.alertAck then s.ackAlerts v
  else if k = P.copyPartner then s.writeCopyPartner v
  else if k = P.lossApplyBeat then s.writeLossApply v
  else if k = P.kvLayers ∨ k = P.kvHeads then (s.setParam k v).copyScales
  else if k = P.routeGenPending then nextOr s (execRouteSeal (BitVec.ofNat 32 v) s)
  else if 0x2010 ≤ i ∧ i ≤ 0x203F ∨ 0x2210 ≤ i ∧ i ≤ 0x224F then s.portWrite k v
  else s.setParam k v

/-- The reset and power-down commands take effect after their answer (R504).
DEDUCED, safe: log entry 123. -/
def answersFirst (k v : Nat) : Bool := k == P.resetCmd || k == P.powerCmd && v == 2

/-- A refused write changes nothing; POWER_CMD 1 then logs the coolant that bars it (R532). -/
def State.writeRefused (s : State) (k v : Nat) : State := if k = P.powerCmd ∧ v = 1 then s.noteCoolant else s

/-- REGISTER_WRITE (R471): a write with no message around it.
DEDUCED, safe: log entry 121. -/
def execRegisterWrite (index sub : Nat) (value : Nat) (s : State) : Result :=
  match lookupParam (index * 256 + sub) with
  | none => .next s
  | some p =>
    if p.acc = .ro ∨ p.acc = .const ∨ p.type = .blob ∨ p.type = .str32 then .next s
    else if s.writeAllowed true p value && s.inRange p value then .next (s.applyNumber true p.key value)
    else .next (s.writeRefused p.key value)

/-! ## BLOB values -/

/-- A whole BLOB value is in range (R470, R482); a KV scale of 0xFF is not (R303). -/
def blobInRange (k : Nat) (v : List Byte) : Bool :=
  (k / 256 != 0x1100 || calInRange (k % 256) v) && (k != P.kvScaleTable || v.all (fun b => b != 0xFF))
    && (k != P.d2dOrderPending || (List.range 16).all (fun i => decide (fieldLE v (2 * i) 2 ≤ 4095)))

/-- The sizes that a BLOB may have: KV_SCALE_TABLE has the one of the geometry (R303). -/
def State.blobSizeOk (s : State) (p : Param) (n : Nat) : Bool :=
  if p.key = P.kvScaleTable then n == 2 * s.param P.kvLayers * s.param P.kvHeads
  else decide (p.lo ≤ (n : Int)) && decide ((n : Int) ≤ p.hi)

/-- A BLOB takes a value as one write (R468). -/
def State.applyBlob (s : State) (k : Nat) (v : List Byte) : State :=
  if k / 256 = 0x1100 then s.writeCal (k % 256) 0 v
  else if k / 256 = 0x2000 then (s.setBlob k v).unseal
  else if k = P.kvScaleTable then (s.setBlob k v).copyScales
  else s.setBlob k v

end Sys2Proof.Machine
end

