-- ==== Sys2Proof/Machine/Dictionary.lean ====
section
/-! DEFINITION. The dictionary engine: GPP messages over the management port and over DOE, their checks, answers, BLOB segments
and saving (R357, R462 to R469, R477, R478). -/

namespace Sys2Proof.Machine

/-! ## Answers (R465, R469) -/

/-- The body of an answer: status, entry, offset and value. -/
structure Reply where
  status : Nat
  key : Nat
  type : Nat
  offset : Nat
  value : List Byte
  deriving DecidableEq, Repr

/-- An answer that only carries a status. -/
def plainReply (m : GppMsg) (st : Nat) : Reply := ⟨st, m.index * 256 + m.sub, m.type, 0, []⟩

/-- The bytes of an answer (R465). -/
def State.replyBytes (s : State) (m : GppMsg) (r : Reply) : List Byte :=
  leBytes 1 1 ++ leBytes 1 (m.op + 0x80) ++ leBytes 1 0 ++ leBytes 1 r.status ++ leBytes 4 m.seq.toNat ++ leBytes 2 (r.key / 256)
    ++ leBytes 1 (r.key % 256) ++ leBytes 1 r.type ++ leBytes 4 r.offset ++ leBytes 4 (s.blobTotal r.key) ++ leBytes 2 r.value.length
    ++ leBytes 1 s.boot.dev.code ++ leBytes 1 0 ++ r.value

/-- The DOE object around an answer (R357): two header words, the third word with its SEQUENCE echoed, the message, padding.
DEDUCED, unsafe: log entry 126. -/
def doeObject (third : Nat) (msg : List Byte) : List Byte :=
  let body := msg ++ List.replicate (roundUp msg.length 4 - msg.length) 0
  leBytes 2 Config.pciVendorId ++ leBytes 1 1 ++ leBytes 1 0 ++ leBytes 4 (3 + body.length / 4)
    ++ leBytes 4 (third / 65536 * 65536) ++ body

/-- Keep an answer of a source, the newest of at most 16 sources (R469). -/
def keepReply (l : List KeptResponse) (k : KeptResponse) : List KeptResponse :=
  let l1 := l.filter (fun (x : KeptResponse) => x.source != k.source) ++ [k]
  l1.drop (l1.length - 16)

/-- A SAVE over DOE has not been answered yet. -/
def State.savesByDoe (s : State) : Bool :=
  s.dict.saving.any (fun (x : GppMsg × AMap Nat × AMap (List Byte)) => x.1.doe)

/-- Send an answer by the route of its request. Over DOE the answers keep the order of the requests, so one waits for that of a
SAVE before it (R357).
DEDUCED, unsafe: log entry 190. -/
def State.reply (s : State) (m : GppMsg) (r : Reply) : State :=
  let b := s.replyBytes m r
  if m.doe then
    if s.savesByDoe then
      { s with dict := { s.dict with held := s.dict.held ++ [(m.source, doeObject m.source b)] } }
    else s.emit (.response m.source true (doeObject m.source b))
  else
    let s1 := { s with dict := { s.dict with kept := keepReply s.dict.kept ⟨m.source, m.seq, b⟩ } }
    s1.emit (.response m.source false b)

/-! ## BAD_MESSAGE (R465, R467) -/

/-- The entry that a request names. -/
def entryOf (m : GppMsg) : Option Param := lookupParam (m.index * 256 + m.sub)

/-- The entry is a BLOB. -/
def namesBlob (m : GppMsg) : Bool := (entryOf m).any (fun p => p.type == .blob)

/-- The length of a message and its LENGTH field agree (R465).
DEDUCED, unsafe: log entry 120. -/
def lengthOk (m : GppMsg) : Bool :=
  if m.op = 2 then m.value.length == m.length
  else m.value.isEmpty && (m.length == 0 || (m.op == 1 && namesBlob m && decide (m.length ≤ 1024)))

/-- The FLAGS that an operation may carry: LAST on a WRITE, NEXT on a DESCRIBE.
DEDUCED, unsafe: log entry 120. -/
def flagsOk (m : GppMsg) : Bool := m.flags == 0 || (m.flags == 1 && m.op == 2) || (m.flags == 2 && m.op == 3)

/-- Fields that belong to a BLOB are zero elsewhere (R465).
DEDUCED, unsafe: log entry 120. -/
def blobFieldsOk (m : GppMsg) : Bool :=
  if m.op = 3 ∨ m.op = 4 ∨ ((entryOf m).isSome ∧ !namesBlob m) then
    m.offset == 0 && m.total == 0 && (m.flags != 1)
  else true

/-- A message is in form (R465 to R467). -/
def messageOk (m : GppMsg) : Bool :=
  m.version == 1 && decide (1 ≤ m.op) && decide (m.op ≤ 4) && flagsOk m && m.status == 0 && m.state == 0 && m.reserved == 0
    && lengthOk m && blobFieldsOk m && (m.op != 4 || (m.index == 0 && m.sub == 0 && m.type == 0))

/-! ## READ and DESCRIBE (R466, R489) -/

/-- Why a READ is refused. -/
def State.readFault (s : State) (m : GppMsg) (p : Param) : Option Nat :=
  if p.acc = .wo then some gppAccess
  else if m.type ≠ 0 ∧ m.type ≠ p.type.code then some gppType
  else if !(s.devAllows p.key false) || s.clockStopped p.key then some gppState
  else none

/-- The answer to a READ that is allowed. -/
def State.readReply (s : State) (m : GppMsg) (p : Param) : Reply :=
  if p.key = P.eventRecords then
    let x := s.readRecords m.offset m.length
    ⟨gppOk, p.key, p.type.code, x.1, x.2⟩
  else if p.type = .blob then
    ⟨gppOk, p.key, p.type.code, m.offset, ((s.readBlob p.key).drop m.offset).take m.length⟩
  else ⟨gppOk, p.key, p.type.code, 0, s.readValue m.doe p⟩

/-- READ. -/
def State.doReadReq (s : State) (m : GppMsg) (p : Param) : State :=
  match s.readFault m p with
  | some st => s.reply m ⟨st, p.key, m.type, 0, []⟩
  | none => s.reply m (s.readReply m p)

/-- The default of a numeric entry: POWER_CAP has that of POWER_CAP_DEFAULT (R484). -/
def State.defaultOf (s : State) (p : Param) : Nat := if p.key = P.powerCap then s.param P.powerCapDefault else p.dflt

/-- The value of an entry differs from its newest saved one (R466). -/
def State.differsSaved (s : State) (p : Param) : Bool :=
  p.acc == .rwp && (match s.newestCopy with
    | some c => if p.type = .blob then (c.blobs.find? p.key).getD (defaultBlob p.key) != s.blob p.key
        else (c.params.find? p.key).getD p.dflt != s.param p.key
    | none => true)

/-- The value of an entry differs from its default (R466). -/
def State.differsDefault (s : State) (doe : Bool) (p : Param) : Bool :=
  p.acc != .wo && (if p.type = .blob then (s.defaultBytes p.key).any (fun b => b != s.readBlob p.key)
    else if p.type = .str32 then (s.defaultBytes p.key).any (fun b => b != s.readText p.key)
    else s.readNumber doe p.key != s.defaultOf p)

/-- The value of a DESCRIBE's answer (R466). -/
def State.describeValue (s : State) (doe : Bool) (p : Param) : List Byte :=
  let dflt := if p.type = .blob ∨ p.type = .str32 then 0 else s.defaultOf p
  leBytes 1 p.acc.code ++ leBytes 1 (boolNat (s.differsSaved p) + 2 * boolNat (s.differsDefault doe p)) ++ leBytes 2 0
    ++ leBytes 8 dflt ++ leBytes 4 0

/-- The first entry after a key (R466). -/
def nextEntry (k : Nat) : Option Param := (allKeys.find? (fun x => decide (k < x))).bind lookupParam

/-- DESCRIBE. -/
def State.doDescribe (s : State) (m : GppMsg) : State :=
  let k := m.index * 256 + m.sub
  match (if m.flags = 2 then nextEntry k else lookupParam k) with
  | none => s.reply m (plainReply m gppNoEntry)
  | some p =>
    if !(s.devAllows p.key false) || s.clockStopped p.key then s.reply m (plainReply m gppState)
    else s.reply m ⟨gppOk, p.key, p.type.code, 0, s.describeValue m.doe p⟩

/-! ## WRITE (R467, R468) -/

/-- Staged bytes are discarded. -/
def State.unstage (s : State) : State := { s with dict := { s.dict with staged := none } }

/-- A write of a number.
DEDUCED, safe: log entry 123. -/
def State.writeNumber (s : State) (m : GppMsg) (p : Param) : State :=
  let v := leNat m.value
  if !(s.writeAllowed m.doe p v) then
    (s.writeRefused p.key v).reply m (plainReply m gppState)
  else if !(s.inRange p v) then s.reply m (plainReply m gppRange)
  else if answersFirst p.key v then (s.reply m (plainReply m gppOk)).applyNumber m.doe p.key v
  else (s.applyNumber m.doe p.key v).reply m (plainReply m gppOk)

/-- The staged write that a segment continues or begins; none when it is out of order. -/
def State.segmentStart (s : State) (m : GppMsg) (p : Param) : Option StagedBlob :=
  match s.dict.staged with
  | some b => if b.index = m.index ∧ b.sub = m.sub ∧ m.offset = b.bytes.length then some b else none
  | none => if m.offset = 0 then some ⟨m.doe, p.key / 256, p.key % 256, m.total, []⟩ else none

/-- A segment of a BLOB in order is staged, or completes the write (R468); one that is refused changes nothing (R467).
DEDUCED, unsafe: log entry 120. -/
def State.writeSegment (s : State) (m : GppMsg) (p : Param) (b : StagedBlob) : State :=
  let bytes := b.bytes ++ m.value
  if b.total < bytes.length then s.reply m (plainReply m gppSegment)
  else if s.dict.staged.isNone && !(s.blobSizeOk p b.total) then s.reply m (plainReply m gppRange)
  else if m.flags ≠ 1 ∨ bytes.length ≠ b.total then
    State.reply { s with dict := { s.dict with staged := some { b with bytes := bytes } } } m (plainReply m gppOk)
  else if !(blobInRange p.key bytes) then s.reply m (plainReply m gppRange)
  else (s.unstage.applyBlob p.key bytes).reply m (plainReply m gppOk)

/-- A write of a BLOB segment.
DEDUCED, unsafe: log entry 120. -/
def State.writeBlob (s : State) (m : GppMsg) (p : Param) : State :=
  if !(s.writeAllowed m.doe p 0) then s.reply m (plainReply m gppState)
  else if s.dict.staged.any (fun (b : StagedBlob) => b.doe != m.doe) then s.reply m (plainReply m gppBusy)
  else if 1024 < m.value.length then s.reply m (plainReply m gppSegment)
  else
    match s.segmentStart m p with
    | none => s.unstage.reply m (plainReply m gppSegment)
    | some b => s.writeSegment m p b

/-- WRITE. -/
def State.doWriteReq (s : State) (m : GppMsg) (p : Param) : State :=
  if p.acc = .ro ∨ p.acc = .const then s.reply m (plainReply m gppAccess)
  else if m.type ≠ p.type.code ∨ (p.type ≠ .blob ∧ m.value.length ≠ p.type.size) then s.reply m (plainReply m gppType)
  else if p.type = .blob then s.writeBlob m p
  else s.writeNumber m p

/-! ## SAVE (R477) -/

/-- SAVE: its answer is sent when it ends.
DEDUCED, unsafe: log entry 119. -/
def State.doSave (s : State) (m : GppMsg) : State :=
  if s.ten.locked ∨ s.boot.dev = .off ∨ s.boot.dev = .fault then s.reply m (plainReply m gppState)
  else if s.dict.saving.isSome then s.reply m (plainReply m gppBusy)
  else { s with dict := { s.dict with saving := some (m, s.rwpParams, s.rwpBlobs) } }

/-- The generation that a SAVE writes. -/
def State.nextGeneration (s : State) : Nat := (s.newestCopy.map (fun c => (c.generation + 1) % 2 ^ 32)).getD 0

/-- Write the copy that does not hold the newest valid generation.
DEDUCED, safe: log entry 142. -/
def State.putCopy (s : State) (c : SavedCopy) : State :=
  if s.newestCopy == some s.dict.copy0 && s.dict.copy0.valid then { s with dict := { s.dict with copy1 := c } }
  else { s with dict := { s.dict with copy0 := c } }

/-- PARAMS_SAVED (R477).
DEDUCED, unsafe: log entry 125. -/
def execParamsSaved (ok : Bool) (s : State) : Result :=
  match s.dict.saving with
  | none => .next s
  | some (m, ps, bs) =>
    let g := s.nextGeneration
    let s1 := State.bump (State.putCopy s ⟨ok, g, ps, bs⟩) P.saveCount 1
    let s2 := { s1 with dict := { s1.dict with saving := none } }
    if ok then .next ((s2.event Ev.paramsSaved [(4, g), (4, s2.param P.saveCount)]).reply m (plainReply m gppOk)).sendHeld
    else .next ((s2.event Ev.saveFailed [(4, g)]).reply m (plainReply m gppFlash)).sendHeld

/-! ## The engine (R464, R469) -/

/-- A request is checked and executed (R467). -/
def State.serve (s : State) (m : GppMsg) : State :=
  if !(messageOk m) then s.reply m (plainReply m gppBadMessage)
  else if m.op = 4 then s.doSave m
  else if 0xF000 ≤ m.index then s.reply m (plainReply m gppAccess)
  else if m.op = 3 then s.doDescribe m
  else
    match entryOf m with
    | none => s.reply m (plainReply m gppNoEntry)
    | some p => if m.op = 1 then s.doReadReq m p else s.doWriteReq m p

/-- The kept answer to a repeated request (R469). -/
def State.keptFor (s : State) (m : GppMsg) : Option KeptResponse :=
  s.dict.kept.find? (fun (x : KeptResponse) => x.source == m.source && x.seq == m.seq)

/-- The request repeats one that still executes (R469). -/
def State.stillRuns (s : State) (m : GppMsg) : Bool :=
  s.dict.saving.any (fun (x : GppMsg × AMap Nat × AMap (List Byte)) => !x.1.doe && x.1.source == m.source && x.1.seq == m.seq)

/-- A datagram is accepted: it was sent to the device's link-local address on GPP's port, from a link-local source (R462). -/
def addressed (m : GppMsg) : Bool := m.dest == linkLocalAddress && m.port == gppPort && m.source / 2 ^ 134 == 0x3FA

/-- A request is executed, unless it repeats one over GPP (R469). -/
def State.accept (s : State) (m : GppMsg) : State :=
  if m.doe then s.serve m
  else
    match s.keptFor m with
    | some k => s.emit (.response m.source false k.bytes)
    | none => if s.stillRuns m then s else s.serve m

/-- A request arrives by its route. Without power there is no responder; DOE needs the hub. A request is served when it arrives, so
none waits in the queue.
DESIGN CHOICE, safe: log entry 205. -/
def State.arrive (s : State) (m : GppMsg) : State :=
  if !s.boot.alwaysOn || (if m.doe then !s.running' else !addressed m) then s else s.accept m

/-- READ (R466). -/
def execGppRead (m : GppMsg) (s : State) : Result := .next (s.arrive m)

/-- WRITE (R466). -/
def execGppWrite (m : GppMsg) (s : State) : Result := .next (s.arrive m)

/-- DESCRIBE (R466). -/
def execDescribe (m : GppMsg) (s : State) : Result := .next (s.arrive m)

/-- SAVE (R477). -/
def execSave (m : GppMsg) (s : State) : Result := .next (s.arrive m)

/-- GPP_DROPPED (R462): a datagram has come beyond the 8 queued requests. In OFF the responder counts, and no log runs.
DESIGN CHOICE, safe: log entry 205. -/
def execGppDropped (s : State) : Result :=
  if !s.boot.alwaysOn then .next s
  else if s.boot.dev = .off then .next (s.bump P.gppDropped 1)
  else .next ((s.bump P.gppDropped 1).limited Ev.gppDropped hubSource 0 1 (fun n => [(4, n)]))

/-- BLOB_STAGE_TIMEOUT (R468). -/
def execBlobStageTimeout (s : State) : Result := .next s.unstage

/-- GPP_RESPONSE_EXPIRE (R469). -/
def execGppResponseExpire (source : Nat) (s : State) : Result :=
  .next { s with dict := { s.dict with kept := s.dict.kept.filter (fun (x : KeptResponse) => x.source != source) } }

/-! ## DOE mailbox 1 (R357) -/

/-- The message that the bytes after the third word spell; padding of the last word is no part of it.
DEDUCED, unsafe: log entry 126. -/
def parseGpp (third : Nat) (b : List Byte) : GppMsg :=
  let op := fieldLE b 1 1
  let want := if op = 2 then fieldLE b 20 2 else 0
  let rest := b.drop 24
  let pad := rest.drop want
  let value := if pad.length < 4 ∧ pad.all (fun x => x == 0) then rest.take want else rest
  { doe := true, source := third, dest := 0, port := 0, version := fieldLE b 0 1, op := op, flags := BitVec.ofNat 8 (fieldLE b 2 1),
    status := fieldLE b 3 1, seq := BitVec.ofNat 32 (fieldLE b 4 4), index := fieldLE b 8 2, sub := fieldLE b 10 1,
    type := fieldLE b 11 1, offset := fieldLE b 12 4, total := fieldLE b 16 4, length := fieldLE b 20 2,
    state := fieldLE b 22 1, reserved := fieldLE b 23 1, value := value }

/-- DOE_OBJECT (R357): `length` is the header's length in words, 0 for 2^18, and `words` are the words behind the two header
words.
DEDUCED, unsafe: log entry 126. -/
def execDoeObject (vendor type length : Nat) (words : List W32) (s : State) : Result :=
  if !s.running' || vendor != Config.pciVendorId || type != 1 then .next s
  else if (if length = 0 then 2 ^ 18 else length) ≠ words.length + 2 ∨ 1024 < words.length + 2 ∨ words.length < 7 then
    .next (s.emit .doeError)
  else
    let bytes := words.tail.flatMap (fun w => leBytes 4 w.toNat)
    .next (s.arrive (parseGpp ((words.head?.map (·.toNat)).getD 0) bytes))

end Sys2Proof.Machine
end

