-- ==== Sys2Proof/Machine/OpRows.lean ====
section
/-! DEFINITION. One meaning for each operation of slots A, V, F, M0, M1, X and T as a command of its own: the operation runs
with no wait and no signal field and completes at once unless it awaits an answer (R176 to R201). -/

namespace Sys2Proof.Machine

/-- The slot of an operation that both M0 and M1 have. -/
def moverSlot (i : Issue) : Slot := if i.m1 then .m1 else .m0

/-- TLOAD (R179). -/
def execTload (d : DieId) (i : Issue) (f : TloadF) (s : State) : Result := s.runOp d .a i (.tload false f)

/-- TLOAD.T (R114). -/
def execTloadT (d : DieId) (i : Issue) (f : TloadF) (s : State) : Result := s.runOp d .a i (.tload true f)

/-- MMA (R182). -/
def execMma (d : DieId) (i : Issue) (f : MmaF) (s : State) : Result := s.runOp d .a i (.mma f)

/-- ACC.DRAIN (R183). -/
def execAccDrain (d : DieId) (i : Issue) (f : DrainF) (s : State) : Result := s.runOp d .a i (.drain f)

/-- VMOV (R185). -/
def execVmov (d : DieId) (i : Issue) (f : VArithF) (s : State) : Result := s.runOp d .v i (.varith .mov f)

/-- VADD (R185). -/
def execVadd (d : DieId) (i : Issue) (f : VArithF) (s : State) : Result := s.runOp d .v i (.varith .add f)

/-- VSUB (R185). -/
def execVsub (d : DieId) (i : Issue) (f : VArithF) (s : State) : Result := s.runOp d .v i (.varith .sub f)

/-- VMUL (R185). -/
def execVmul (d : DieId) (i : Issue) (f : VArithF) (s : State) : Result := s.runOp d .v i (.varith .mul f)

/-- VFMA (R185). -/
def execVfma (d : DieId) (i : Issue) (f : VArithF) (s : State) : Result := s.runOp d .v i (.varith .fma f)

/-- VMAX (R185). -/
def execVmax (d : DieId) (i : Issue) (f : VArithF) (s : State) : Result := s.runOp d .v i (.varith .max f)

/-- VMIN (R185). -/
def execVmin (d : DieId) (i : Issue) (f : VArithF) (s : State) : Result := s.runOp d .v i (.varith .min f)

/-- VCMP (R185). -/
def execVcmp (d : DieId) (i : Issue) (f : VArithF) (s : State) : Result := s.runOp d .v i (.varith .cmp f)

/-- VSEL (R185). -/
def execVsel (d : DieId) (i : Issue) (f : VArithF) (s : State) : Result := s.runOp d .v i (.varith .sel f)

/-- VRELU (R185). -/
def execVrelu (d : DieId) (i : Issue) (f : VArithF) (s : State) : Result := s.runOp d .v i (.varith .relu f)

/-- VABS (R185). -/
def execVabs (d : DieId) (i : Issue) (f : VArithF) (s : State) : Result := s.runOp d .v i (.varith .abs f)

/-- VNEG (R185). -/
def execVneg (d : DieId) (i : Issue) (f : VArithF) (s : State) : Result := s.runOp d .v i (.varith .neg f)

/-- VIOTA (R185). -/
def execViota (d : DieId) (i : Issue) (f : VArithF) (s : State) : Result := s.runOp d .v i (.varith .iota f)

/-- VMASK (R185). -/
def execVmask (d : DieId) (i : Issue) (f : VArithF) (s : State) : Result := s.runOp d .v i (.varith .mask f)

/-- VRSUM (R185). -/
def execVrsum (d : DieId) (i : Issue) (f : VArithF) (s : State) : Result := s.runOp d .v i (.varith .rsum f)

/-- VRMAX (R185). -/
def execVrmax (d : DieId) (i : Issue) (f : VArithF) (s : State) : Result := s.runOp d .v i (.varith .rmax f)

/-- CVT (R188). -/
def execCvt (d : DieId) (i : Issue) (f : CvtF) (s : State) : Result := s.runOp d .v i (.cvt f)

/-- UNP (R189). -/
def execUnp (d : DieId) (i : Issue) (f : CvtF) (s : State) : Result := s.runOp d .v i (.unp f)

/-- STAGE (R190). -/
def execStage (d : DieId) (i : Issue) (f : StageF) (s : State) : Result := s.runOp d .v i (.stage f)

/-- VDROP (R191, R296). -/
def execVdrop (d : DieId) (i : Issue) (f : VdropF) (s : State) : Result := s.runOp d .v i (.vdrop f)

/-- FN (R192). -/
def execFn (d : DieId) (i : Issue) (f : FnF) (s : State) : Result := s.runOp d .f i (.fn false f)

/-- FND (R192). -/
def execFnd (d : DieId) (i : Issue) (f : FnF) (s : State) : Result := s.runOp d .f i (.fn true f)

/-- COPY (R195). -/
def execCopy (d : DieId) (i : Issue) (f : CopyF) (s : State) : Result := s.runOp d (moverSlot i) i (.copy f)

/-- GATHER (R196). -/
def execGather (d : DieId) (i : Issue) (f : GatherF) (s : State) : Result := s.runOp d (moverSlot i) i (.gather f)

/-- WALK (R197). -/
def execWalk (d : DieId) (i : Issue) (f : WalkF) (s : State) : Result := s.runOp d .m1 i (.walk f)

/-- FLUSH.TAIL (R198). -/
def execFlushTail (d : DieId) (i : Issue) (f : FlushF) (s : State) : Result := s.runOp d .m1 i (.flushTail f)

/-- Run a Press operation by itself: its blocks are applied by the Press units of this device before the command ends. -/
def State.runPressOp (s : State) (d : DieId) (i : Issue) (o : PressOp) (f : PressF) : Result :=
  match s.runOp d .x i (.press o f) with
  | .next t => .next t.pressAll
  | r => r

/-- PRESS.CLEAR (R395). -/
def execPressClear (d : DieId) (i : Issue) (f : PressF) (s : State) : Result := s.runPressOp d i .clear f

/-- PRESS.MAX.E8 (R398). -/
def execPressMaxE8 (d : DieId) (i : Issue) (f : PressF) (s : State) : Result := s.runPressOp d i .maxE8 f

/-- PRESS.ADD.I32 (R396). -/
def execPressAddI32 (d : DieId) (i : Issue) (f : PressF) (s : State) : Result := s.runPressOp d i .addI32 f

/-- PRESS.ADD.BF16 (R397). -/
def execPressAddBf16 (d : DieId) (i : Issue) (f : PressF) (s : State) : Result := s.runPressOp d i .addBf16 f

/-- PRESS.QADD.FP16 (R399). -/
def execPressQaddFp16 (d : DieId) (i : Issue) (f : PressF) (s : State) : Result := s.runPressOp d i .qaddFp16 f

/-- PRESS.QADD.BF16 (R399). -/
def execPressQaddBf16 (d : DieId) (i : Issue) (f : PressF) (s : State) : Result := s.runPressOp d i .qaddBf16 f

/-- PRESS.FINISH.FP16 (R401). -/
def execPressFinishFp16 (d : DieId) (i : Issue) (f : PressF) (s : State) : Result := s.runPressOp d i .finishFp16 f

/-- PRESS.FINISH.BF16 (R401). -/
def execPressFinishBf16 (d : DieId) (i : Issue) (f : PressF) (s : State) : Result := s.runPressOp d i .finishBf16 f

/-- TALLY.ADD (R154). -/
def execTallyAdd (d : DieId) (i : Issue) (f : TallyAddF) (s : State) : Result := s.runOp d .t i (.tallyAdd f)

/-- TALLY.RADD (R154). -/
def execTallyRadd (d : DieId) (i : Issue) (f : TallyRaddF) (s : State) : Result := s.runOp d .t i (.tallyRadd f)

end Sys2Proof.Machine
end

