-- ==== Sys2Proof/Machine/Dispatch.lean ====
section
/-! DEFINITION. The dispatcher: one arm per command, each a direct call of that command's meaning. -/

namespace Sys2Proof.Machine

/-- What a command does to everything but the queue. -/
def exec (i : Instr) (s : State) : Host.Outcome State Fault Refusal :=
  match i with
  | .beatBoundary => Sys2Proof.Machine.execBeatBoundary s
  | .dieLateClose d cycle => Sys2Proof.Machine.execDieLateClose d cycle s
  | .beatSnapshot => Sys2Proof.Machine.execBeatSnapshot s
  | .planIndexDelivery => Sys2Proof.Machine.execPlanIndexDelivery s
  | .echoDeadline => Sys2Proof.Machine.execEchoDeadline s
  | .echoSend => Sys2Proof.Machine.execEchoSend s
  | .beatMarker l m launch c => Sys2Proof.Machine.execBeatMarker l m launch c s
  | .beatEcho l e => Sys2Proof.Machine.execBeatEcho l e s
  | .beatMarkerLost => Sys2Proof.Machine.execBeatMarkerLost s
  | .deviceLost l => Sys2Proof.Machine.execDeviceLost l s
  | .lossHoldExpired => Sys2Proof.Machine.execLossHoldExpired s
  | .lossApply => Sys2Proof.Machine.execLossApply s
  | .powerEval p => Sys2Proof.Machine.execPowerEval p s
  | .wordDispatch d => Sys2Proof.Machine.execWordDispatch d s
  | .operationStart d slot cycle => Sys2Proof.Machine.execOperationStart d slot cycle s
  | .operationComplete d slot n => Sys2Proof.Machine.execOperationComplete d slot n s
  | .tload d iss f => Sys2Proof.Machine.execTload d iss f s
  | .tloadT d iss f => Sys2Proof.Machine.execTloadT d iss f s
  | .mma d iss f => Sys2Proof.Machine.execMma d iss f s
  | .accDrain d iss f => Sys2Proof.Machine.execAccDrain d iss f s
  | .vmov d iss f => Sys2Proof.Machine.execVmov d iss f s
  | .vadd d iss f => Sys2Proof.Machine.execVadd d iss f s
  | .vsub d iss f => Sys2Proof.Machine.execVsub d iss f s
  | .vmul d iss f => Sys2Proof.Machine.execVmul d iss f s
  | .vfma d iss f => Sys2Proof.Machine.execVfma d iss f s
  | .vmax d iss f => Sys2Proof.Machine.execVmax d iss f s
  | .vmin d iss f => Sys2Proof.Machine.execVmin d iss f s
  | .vcmp d iss f => Sys2Proof.Machine.execVcmp d iss f s
  | .vsel d iss f => Sys2Proof.Machine.execVsel d iss f s
  | .vrelu d iss f => Sys2Proof.Machine.execVrelu d iss f s
  | .vabs d iss f => Sys2Proof.Machine.execVabs d iss f s
  | .vneg d iss f => Sys2Proof.Machine.execVneg d iss f s
  | .viota d iss f => Sys2Proof.Machine.execViota d iss f s
  | .vmask d iss f => Sys2Proof.Machine.execVmask d iss f s
  | .vrsum d iss f => Sys2Proof.Machine.execVrsum d iss f s
  | .vrmax d iss f => Sys2Proof.Machine.execVrmax d iss f s
  | .cvt d iss f => Sys2Proof.Machine.execCvt d iss f s
  | .unp d iss f => Sys2Proof.Machine.execUnp d iss f s
  | .stage d iss f => Sys2Proof.Machine.execStage d iss f s
  | .vdrop d iss f => Sys2Proof.Machine.execVdrop d iss f s
  | .fn d iss f => Sys2Proof.Machine.execFn d iss f s
  | .fnd d iss f => Sys2Proof.Machine.execFnd d iss f s
  | .copy d iss f => Sys2Proof.Machine.execCopy d iss f s
  | .gather d iss f => Sys2Proof.Machine.execGather d iss f s
  | .walk d iss f => Sys2Proof.Machine.execWalk d iss f s
  | .flushTail d iss f => Sys2Proof.Machine.execFlushTail d iss f s
  | .pressClear d iss f => Sys2Proof.Machine.execPressClear d iss f s
  | .pressMaxE8 d iss f => Sys2Proof.Machine.execPressMaxE8 d iss f s
  | .pressAddI32 d iss f => Sys2Proof.Machine.execPressAddI32 d iss f s
  | .pressAddBf16 d iss f => Sys2Proof.Machine.execPressAddBf16 d iss f s
  | .pressQaddFp16 d iss f => Sys2Proof.Machine.execPressQaddFp16 d iss f s
  | .pressQaddBf16 d iss f => Sys2Proof.Machine.execPressQaddBf16 d iss f s
  | .pressFinishFp16 d iss f => Sys2Proof.Machine.execPressFinishFp16 d iss f s
  | .pressFinishBf16 d iss f => Sys2Proof.Machine.execPressFinishBf16 d iss f s
  | .pressApplication d ctrl => Sys2Proof.Machine.execPressApplication d ctrl s
  | .tallyAdd d iss f => Sys2Proof.Machine.execTallyAdd d iss f s
  | .tallyRadd d iss f => Sys2Proof.Machine.execTallyRadd d iss f s
  | .loop d f => Sys2Proof.Machine.execLoop d f s
  | .ptrSet d f => Sys2Proof.Machine.execPtrSet d f s
  | .ptrAdd d f => Sys2Proof.Machine.execPtrAdd d f s
  | .maskSet d f => Sys2Proof.Machine.execMaskSet d f s
  | .sAlu d f => Sys2Proof.Machine.execSAlu d f s
  | .sRead d f => Sys2Proof.Machine.execSRead d f s
  | .planEnd d => Sys2Proof.Machine.execPlanEnd d s
  | .remoteTallyAdd m => Sys2Proof.Machine.execRemoteTallyAdd m s
  | .tallyAck m => Sys2Proof.Machine.execTallyAck m s
  | .write m => Sys2Proof.Machine.execWrite m s
  | .read m => Sys2Proof.Machine.execRead m s
  | .writeAck m => Sys2Proof.Machine.execWriteAck m s
  | .readData m => Sys2Proof.Machine.execReadData m s
  | .press m => Sys2Proof.Machine.execPress m s
  | .pressAck m => Sys2Proof.Machine.execPressAck m s
  | .routedFlitForward d inp f => Sys2Proof.Machine.execRoutedFlitForward d inp f s
  | .violation l code count header => Sys2Proof.Machine.execViolation l code count header s
  | .hello l h => Sys2Proof.Machine.execHello l h s
  | .helloInterval => Sys2Proof.Machine.execHelloInterval s
  | .probe l t1 t2 t3 launch => Sys2Proof.Machine.execProbe l t1 t2 t3 launch s
  | .probeReply l t1 t2 t3 t4 launch => Sys2Proof.Machine.execProbeReply l t1 t2 t3 t4 launch s
  | .creditAck l f => Sys2Proof.Machine.execCreditAck l f s
  | .retryReq l f => Sys2Proof.Machine.execRetryReq l f s
  | .idle l f => Sys2Proof.Machine.execIdle l f s
  | .llcAckDue l => Sys2Proof.Machine.execLlcAckDue l s
  | .flitCrcFail l => Sys2Proof.Machine.execFlitCrcFail l s
  | .linkRetryExhausted l => Sys2Proof.Machine.execLinkRetryExhausted l s
  | .linkTrained l => Sys2Proof.Machine.execLinkTrained l s
  | .linkTrainTimeout l => Sys2Proof.Machine.execLinkTrainTimeout l s
  | .linkSignalLost l => Sys2Proof.Machine.execLinkSignalLost l s
  | .routeCommit => Sys2Proof.Machine.execRouteCommit s
  | .routeSeal gen => Sys2Proof.Machine.execRouteSeal gen s
  | .snoopInvalidation r w => Sys2Proof.Machine.execSnoopInvalidation r w s
  | .indexLineRead r w value => Sys2Proof.Machine.execIndexLineRead r w value s
  | .entryFetchComplete r n bytes => Sys2Proof.Machine.execEntryFetchComplete r n bytes s
  | .submit e f => Sys2Proof.Machine.execSubmit e f s
  | .cancel e targetTag => Sys2Proof.Machine.execCancel e targetTag s
  | .adapterRegister e recordOffset recordBytes => Sys2Proof.Machine.execAdapterRegister e recordOffset recordBytes s
  | .adapterEvictCache e handle => Sys2Proof.Machine.execAdapterEvictCache e handle s
  | .adapterEvictRevoke e handle => Sys2Proof.Machine.execAdapterEvictRevoke e handle s
  | .bundleDefine e f => Sys2Proof.Machine.execBundleDefine e f s
  | .bundleRelease e bundle => Sys2Proof.Machine.execBundleRelease e bundle s
  | .pageEditKeep e seq set => Sys2Proof.Machine.execPageEditKeep e seq set s
  | .pageEditRelease e seq => Sys2Proof.Machine.execPageEditRelease e seq s
  | .pageEditTruncate e seq position => Sys2Proof.Machine.execPageEditTruncate e seq position s
  | .pageEditDrop e seq position => Sys2Proof.Machine.execPageEditDrop e seq position s
  | .pageEditPark e seq => Sys2Proof.Machine.execPageEditPark e seq s
  | .pageEditUnpark e seq => Sys2Proof.Machine.execPageEditUnpark e seq s
  | .contextPrefill e matter tokens tokenOffset => Sys2Proof.Machine.execContextPrefill e matter tokens tokenOffset s
  | .checkpoint e handle dstOffset maxBytes => Sys2Proof.Machine.execCheckpoint e handle dstOffset maxBytes s
  | .revokeForced handle => Sys2Proof.Machine.execRevokeForced handle s
  | .ringDrained r => Sys2Proof.Machine.execRingDrained r s
  | .hostMemRead offset => Sys2Proof.Machine.execHostMemRead offset s
  | .hostMemWrite offset data => Sys2Proof.Machine.execHostMemWrite offset data s
  | .bisnpResponse offset => Sys2Proof.Machine.execBisnpResponse offset s
  | .cxlMalformed p => Sys2Proof.Machine.execCxlMalformed p s
  | .doeObject vendor type length words => Sys2Proof.Machine.execDoeObject vendor type length words s
  | .getMeasurements nonce indices => Sys2Proof.Machine.execGetMeasurements nonce indices s
  | .tspLock => Sys2Proof.Machine.execTspLock s
  | .tspUnlock => Sys2Proof.Machine.execTspUnlock s
  | .ideLost x => Sys2Proof.Machine.execIdeLost x s
  | .gppRead m => Sys2Proof.Machine.execGppRead m s
  | .gppWrite m => Sys2Proof.Machine.execGppWrite m s
  | .describe m => Sys2Proof.Machine.execDescribe m s
  | .save m => Sys2Proof.Machine.execSave m s
  | .paramsSaved ok => Sys2Proof.Machine.execParamsSaved ok s
  | .gppDropped => Sys2Proof.Machine.execGppDropped s
  | .blobStageTimeout => Sys2Proof.Machine.execBlobStageTimeout s
  | .gppResponseExpire source => Sys2Proof.Machine.execGppResponseExpire source s
  | .calWritten sub offset data => Sys2Proof.Machine.execCalWritten sub offset data s
  | .copyPartnerWrite device => Sys2Proof.Machine.execCopyPartnerWrite device s
  | .numClear value => Sys2Proof.Machine.execNumClear value s
  | .alertAck seq => Sys2Proof.Machine.execAlertAck seq s
  | .admitTenant r => Sys2Proof.Machine.execAdmitTenant r s
  | .tenantRelease r mode beat => Sys2Proof.Machine.execTenantRelease r mode beat s
  | .releasing => Sys2Proof.Machine.execReleasing s
  | .releaseStop => Sys2Proof.Machine.execReleaseStop s
  | .scrubComplete ms => Sys2Proof.Machine.execScrubComplete ms s
  | .create id => Sys2Proof.Machine.execCreate id s
  | .remove id => Sys2Proof.Machine.execRemove id s
  | .matterRemoved slot => Sys2Proof.Machine.execMatterRemoved slot s
  | .rotate slot => Sys2Proof.Machine.execRotate slot s
  | .sweepPageDone frame => Sys2Proof.Machine.execSweepPageDone frame s
  | .rotateDone slot => Sys2Proof.Machine.execRotateDone slot s
  | .keyingPageDone frame => Sys2Proof.Machine.execKeyingPageDone frame s
  | .begin offset => Sys2Proof.Machine.execBegin offset s
  | .segment offset index => Sys2Proof.Machine.execSegment offset index s
  | .end_ => Sys2Proof.Machine.execEnd s
  | .baseAbort => Sys2Proof.Machine.execBaseAbort s
  | .load offset => Sys2Proof.Machine.execLoad offset s
  | .start offset => Sys2Proof.Machine.execStart offset s
  | .stop => Sys2Proof.Machine.execStop s
  | .jobAbort => Sys2Proof.Machine.execJobAbort s
  | .jobStarted => Sys2Proof.Machine.execJobStarted s
  | .jobEnded => Sys2Proof.Machine.execJobEnded s
  | .updateDecision => Sys2Proof.Machine.execUpdateDecision s
  | .partnerCopyBegin => Sys2Proof.Machine.execPartnerCopyBegin s
  | .partnerCopyDone => Sys2Proof.Machine.execPartnerCopyDone s
  | .partnerCopyLate => Sys2Proof.Machine.execPartnerCopyLate s
  | .standinLoad offset => Sys2Proof.Machine.execStandinLoad offset s
  | .standinDiscard => Sys2Proof.Machine.execStandinDiscard s
  | .restore offset => Sys2Proof.Machine.execRestore offset s
  | .resume jobOffset recordOffset => Sys2Proof.Machine.execResume jobOffset recordOffset s
  | .clearHalt => Sys2Proof.Machine.execClearHalt s
  | .resetDefaults => Sys2Proof.Machine.execResetDefaults s
  | .ringEnable r pi cqCi => Sys2Proof.Machine.execRingEnable r pi cqCi s
  | .ringReset r => Sys2Proof.Machine.execRingReset r s
  | .linkRetrain l => Sys2Proof.Machine.execLinkRetrain l s
  | .linkReleaseQuarantine l => Sys2Proof.Machine.execLinkReleaseQuarantine l s
  | .linkDisable l => Sys2Proof.Machine.execLinkDisable l s
  | .linkEnable l => Sys2Proof.Machine.execLinkEnable l s
  | .fwStage offset bytes => Sys2Proof.Machine.execFwStage offset bytes s
  | .fwWrite => Sys2Proof.Machine.execFwWrite s
  | .fwUpdateWritten readBackOk => Sys2Proof.Machine.execFwUpdateWritten readBackOk s
  | .recover address bytes => Sys2Proof.Machine.execRecover address bytes s
  | .fwRecovered fetch => Sys2Proof.Machine.execFwRecovered fetch s
  | .powerUp => Sys2Proof.Machine.execPowerUp s
  | .powerDown => Sys2Proof.Machine.execPowerDown s
  | .resetModule => Sys2Proof.Machine.execResetModule s
  | .resetWarm => Sys2Proof.Machine.execResetWarm s
  | .resetDie d => Sys2Proof.Machine.execResetDie d s
  | .dieReset d ms => Sys2Proof.Machine.execDieReset d ms s
  | .modResetN lowMicros => Sys2Proof.Machine.execModResetN lowMicros s
  | .perstAssert => Sys2Proof.Machine.execPerstAssert s
  | .perstDeassert => Sys2Proof.Machine.execPerstDeassert s
  | .alwaysOnStart feedId start => Sys2Proof.Machine.execAlwaysOnStart feedId start s
  | .powerGood => Sys2Proof.Machine.execPowerGood s
  | .bootComplete ms => Sys2Proof.Machine.execBootComplete ms s
  | .bootFailed fault unit => Sys2Proof.Machine.execBootFailed fault unit s
  | .watchdogReset hung => Sys2Proof.Machine.execWatchdogReset hung s
  | .inputUndervoltage lowest => Sys2Proof.Machine.execInputUndervoltage lowest s
  | .inputOvervoltage highest => Sys2Proof.Machine.execInputOvervoltage highest s
  | .powerPairLost pairB => Sys2Proof.Machine.execPowerPairLost pairB s
  | .powerRestored => Sys2Proof.Machine.execPowerRestored s
  | .thermalTrip sensor temp => Sys2Proof.Machine.execThermalTrip sensor temp s
  | .coolantCheck inlet outlet => Sys2Proof.Machine.execCoolantCheck inlet outlet s
  | .telemetryInterval t => Sys2Proof.Machine.execTelemetryInterval t s
  | .telemetrySecond t => Sys2Proof.Machine.execTelemetrySecond t s
  | .logCommit => Sys2Proof.Machine.execLogCommit s
  | .registerWrite index sub value => Sys2Proof.Machine.execRegisterWrite index sub value s
  | .cxlLinkTrained rate width => Sys2Proof.Machine.execCxlLinkTrained rate width s
  | .modResetNRelease => Sys2Proof.Machine.execModResetNRelease s
  | .alwaysOnPowerLost => Sys2Proof.Machine.execAlwaysOnPowerLost s
  | .plcaBeaconReceived => Sys2Proof.Machine.execPlcaBeaconReceived s
  | .plcaBeaconLost => Sys2Proof.Machine.execPlcaBeaconLost s
  | .neighborDiscovery source => Sys2Proof.Machine.execNeighborDiscovery source s
  | .hubCopyDone => Sys2Proof.Machine.execHubCopyDone s
  | .ideKm x => Sys2Proof.Machine.execIdeKm x s
  | .spdmSession establish => Sys2Proof.Machine.execSpdmSession establish s
  | .msixVectorUnmask vector => Sys2Proof.Machine.execMsixVectorUnmask vector s

end Sys2Proof.Machine
end

