-- ==== Sys2Proof/Machine/Step.lean ====
section
/-! DEFINITION. One step: take the command at the front of the queue and run it. -/

namespace Sys2Proof.Machine

/-- The state with the queue replaced. -/
def State.withPending (s : State) (q : List Instr) : State := { s with pending := q }

/-- One step of the block. On an empty queue the block idles, but a start-up goes on.
DESIGN CHOICE, safe: log entry 1. -/
def step (s : State) : Host.Outcome State Fault Refusal :=
  match s.pending with
  | [] => .next s.bootTick
  | c :: rest => exec c (s.withPending rest)

/-- The state with the command that a table word spells put at the front of the queue (no row of the
table has bits, so no word spells a command).
DESIGN CHOICE, safe: log entries 2, 5. -/
def State.withFetchWord (s : State) (nbits w : Nat) : State :=
  match Sys2Proof.decodeTableWord nbits w with
  | none => s
  | some c => s.withPending (c :: s.pending)

end Sys2Proof.Machine
end

