-- ==== Sys2Proof/WellFormed.lean ====
section
/-! DEFINITION. Which commands are well formed: operands within the widths that their fields have in the spec. A command that the
device itself answers as malformed (a GPP message, a ring entry, a CXL error) is well formed here: its meaning says what happens.
The meanings do not rest on these checks. -/

namespace Sys2Proof

/-- A number fits a field of w bits. -/
def fits (w n : Nat) : Bool := decide (n < 2 ^ w)

/-- A flit carries exactly 240 payload bytes (R362). -/
def Flit.wf (f : Flit) : Bool := f.payload.length == 240

/-- The fields of a marker fit their bits (R44). -/
def MarkerF.wf (m : MarkerF) : Bool :=
  fits 4 m.thisKind && fits 4 m.nextKind && fits 10 m.sourceId && fits 6 m.depth && fits 8 m.sourcePriority
    && fits 5 m.beatLog2 && fits 11 m.guardDiv256 && fits 64 m.beatCount && fits 64 m.jobBeat && fits 32 m.jobTag
    && fits 32 m.pathLatency

/-- The fields of an echo fit their bits (R47). -/
def EchoF.wf (e : EchoF) : Bool :=
  fits 10 e.senderId && fits 4 e.idleReq && fits 16 e.subtreeCount && fits 16 e.missingCount && fits 64 e.beatCount
    && fits 64 e.jobBeat && fits 32 e.jobTag

/-- An evaluation reads the 36 on-die and hub sensors (R481, R483). -/
def PowerSample.wf (p : PowerSample) : Bool := p.sensors.length == 36

/-- A message carries whole blocks of 256 bytes, at most 256 of them (R370, R371). -/
def Message.wf (m : Message) : Bool := m.data.length % 256 == 0 && decide (m.data.length ≤ 65536)

/-- HELLO carries a version byte and a serial of 32 bytes (R375). -/
def HelloF.wf (h : HelloF) : Bool := fits 8 h.version && h.serial.length == 32

/-- An interval's counts are given for the four dies (R485). -/
def TelemetryCounts.wf (t : TelemetryCounts) : Bool :=
  [t.arrayBusy, t.hbmBytes, t.lpddrBytes, t.fabricTx, t.fabricRx].all (fun l => l.length == 4)

/-- A second's readings are those of 19 rails and 42 sensors (R481). -/
def SecondReadings.wf (t : SecondReadings) : Bool := t.rails.length == 19 && t.sensors.length == 42

/-- SUBMIT operands fit their fields (R342). -/
def SubmitF.wf (f : SubmitF) : Bool :=
  fits 32 f.promptTokens && fits 32 f.maxNew && fits 32 f.contSeq && fits 64 f.promptOffset && fits 64 f.outOffset

/-- BUNDLE_PIN operands fit their fields (R345). -/
def BundleF.wf (f : BundleF) : Bool := fits 16 f.bundle && fits 16 f.handle && f.context.all (fits 32)

/-- The operands of a command fit their fields. -/
def Instr.wf : Instr → Bool
  | .beatMarker _ m _ _ => m.wf
  | .beatEcho _ e => e.wf
  | .powerEval p => p.wf
  | .remoteTallyAdd m | .tallyAck m | .write m | .read m | .writeAck m | .readData m | .press m | .pressAck m => m.wf
  | .routedFlitForward _ _ f => f.wf
  | .hello _ h => h.wf
  | .entryFetchComplete _ _ bytes => bytes.length == 128
  | .submit _ f => f.wf
  | .adapterRegister _ o n => fits 64 o && fits 64 n
  | .adapterEvictCache _ h | .adapterEvictRevoke _ h | .bundleRelease _ h => fits 16 h
  | .bundleDefine _ f => f.wf
  | .pageEditKeep _ q _ | .pageEditRelease _ q | .pageEditPark _ q | .pageEditUnpark _ q => fits 32 q
  | .pageEditTruncate _ q p | .pageEditDrop _ q p => fits 32 q && fits 32 p
  | .contextPrefill _ m n o => fits 32 m && fits 32 n && fits 64 o
  | .checkpoint _ h o n => fits 16 h && fits 64 o && fits 64 n
  | .hostMemRead o | .bisnpResponse o => fits 64 o && o % 64 == 0
  | .hostMemWrite o data => fits 64 o && o % 64 == 0 && data.length == 64
  | .doeObject v t n _ => fits 16 v && fits 8 t && fits 18 n
  | .getMeasurements nonce _ => nonce.length == 32
  | .tenantRelease _ _ b => fits 64 b
  | .begin o | .load o | .start o | .standinLoad o | .restore o => fits 64 o
  | .segment o i => fits 64 o && fits 16 i
  | .resume o r | .fwStage o r | .recover o r => fits 64 o && fits 64 r
  | .copyPartnerWrite n => fits 16 n
  | .registerWrite i sub v => fits 16 i && fits 8 sub && fits 64 v
  | .calWritten sub o data => fits 8 sub && fits 32 o && decide (data.length ≤ 65536)
  | .rotate n | .matterRemoved n | .rotateDone n => fits 12 n
  | .revokeForced h => fits 13 h
  | .telemetryInterval t => t.wf
  | .telemetrySecond t => t.wf
  | .bootFailed fault _ => fits 8 fault
  | .thermalTrip i _ => decide (i < 42)
  | .beatBoundary | .dieLateClose _ _ | .beatSnapshot | .planIndexDelivery | .echoDeadline | .echoSend | .beatMarkerLost
  | .deviceLost _ | .lossHoldExpired | .lossApply | .wordDispatch _ | .operationStart _ _ _ | .operationComplete _ _ _
  | .tload _ _ _ | .tloadT _ _ _ | .mma _ _ _ | .accDrain _ _ _ | .vmov _ _ _ | .vadd _ _ _ | .vsub _ _ _ | .vmul _ _ _
  | .vfma _ _ _ | .vmax _ _ _ | .vmin _ _ _ | .vcmp _ _ _ | .vsel _ _ _ | .vrelu _ _ _ | .vabs _ _ _ | .vneg _ _ _
  | .viota _ _ _ | .vmask _ _ _ | .vrsum _ _ _ | .vrmax _ _ _ | .cvt _ _ _ | .unp _ _ _ | .stage _ _ _ | .vdrop _ _ _
  | .fn _ _ _ | .fnd _ _ _ | .copy _ _ _ | .gather _ _ _ | .walk _ _ _ | .flushTail _ _ _ | .pressClear _ _ _
  | .pressMaxE8 _ _ _ | .pressAddI32 _ _ _ | .pressAddBf16 _ _ _ | .pressQaddFp16 _ _ _ | .pressQaddBf16 _ _ _
  | .pressFinishFp16 _ _ _ | .pressFinishBf16 _ _ _ | .pressApplication _ _ | .tallyAdd _ _ _ | .tallyRadd _ _ _
  | .loop _ _ | .ptrSet _ _ | .ptrAdd _ _ | .maskSet _ _ | .sAlu _ _ | .sRead _ _ | .planEnd _ | .violation _ _ _ _
  | .helloInterval | .probe _ _ _ _ _ | .probeReply _ _ _ _ _ _ | .creditAck _ _ | .retryReq _ _ | .idle _ _
  | .llcAckDue _ | .flitCrcFail _ | .linkRetryExhausted _ | .linkTrained _ | .linkTrainTimeout _ | .linkSignalLost _
  | .routeCommit | .routeSeal _ | .snoopInvalidation _ _ | .indexLineRead _ _ _ | .cancel _ _ | .ringDrained _
  | .cxlMalformed _ | .tspLock | .tspUnlock | .ideLost _ | .gppRead _ | .gppWrite _ | .describe _ | .save _
  | .paramsSaved _ | .gppDropped | .blobStageTimeout | .gppResponseExpire _ | .numClear _ | .alertAck _ | .admitTenant _
  | .releasing | .releaseStop | .scrubComplete _ | .create _ | .remove _ | .sweepPageDone _ | .keyingPageDone _ | .end_
  | .baseAbort | .stop | .jobAbort | .jobStarted | .jobEnded | .updateDecision | .partnerCopyBegin | .partnerCopyDone
  | .partnerCopyLate | .standinDiscard | .clearHalt | .resetDefaults | .ringEnable _ _ _ | .ringReset _ | .linkRetrain _
  | .linkReleaseQuarantine _ | .linkDisable _ | .linkEnable _ | .fwWrite | .fwUpdateWritten _ | .fwRecovered _ | .powerUp
  | .powerDown | .resetModule | .resetWarm | .resetDie _ | .dieReset _ _ | .modResetN _ | .perstAssert | .perstDeassert
  | .alwaysOnStart _ _ | .powerGood | .bootComplete _ | .watchdogReset _ | .inputUndervoltage _ | .inputOvervoltage _
  | .powerPairLost _ | .powerRestored | .coolantCheck _ _ | .logCommit | .cxlLinkTrained _ _ | .modResetNRelease
  | .alwaysOnPowerLost | .plcaBeaconReceived | .plcaBeaconLost | .neighborDiscovery _ | .hubCopyDone | .ideKm _
  | .spdmSession _ | .msixVectorUnmask _ => true

end Sys2Proof
end

