-- ==== Sys2Proof/Safety.lean ====
section
/-! DEFINITION. Safe runs, and the terms in which the statements speak of a state and of what a command leaves alone. -/

namespace Sys2Proof

open Sys2Proof.Machine

/-- A state is safe to step when its front command does not stop the machine. -/
def Safe (s : Machine.State) : Prop := ∃ t, Machine.step s = .next t

/-! ## Registers by name -/

/-- Pointer register p of a die (R144). -/
def pointer (s : State) (d : DieId) (p : Nat) : PtrReg := (s.front d).ptrs.getD p {}

/-- A field of a pointer register (R144). -/
def ptrField (r : PtrReg) : PtrField → W32
  | .base => r.base
  | .cellStride => r.cellStride
  | .step0 => r.step0
  | .step1 => r.step1
  | .step2 => r.step2
  | .step3 => r.step3

/-- Lane j of vector register r of a cell (R122). -/
def lane (s : State) (d : DieId) (c r j : Nat) : W32 := (s.vreg d c r).getD j 0

/-! ## Frames -/

/-- Only the front end of die d may differ. -/
def OnlyFront (d : DieId) (s t : State) : Prop := t = s.setFront d (t.front d)

/-- The tables, the beat, the job, Rind, the tenant and the device state are unchanged, and no command has joined the queue. -/
def SameControl (s t : State) : Prop :=
  t.pending = s.pending ∧ t.rind = s.rind ∧ t.beat = s.beat ∧ t.job = s.job ∧ t.adm = s.adm ∧ t.kv = s.kv ∧
    t.ten = s.ten ∧ t.res = s.res ∧ t.boot = s.boot

/-- Nothing was logged, counted in the dictionary or sent. -/
def SameLogs (s t : State) : Prop := t.log = s.log ∧ t.dict = s.dict ∧ t.out = s.out ∧ t.host = s.host

/-- Memories, front ends, cells, links and Rind are unchanged. -/
def SameData (s t : State) : Prop :=
  t.mem = s.mem ∧ t.fe = s.fe ∧ t.cells = s.cells ∧ t.fab = s.fab ∧ t.rind = s.rind

/-- A byte of HBM holds the hub's copy of the KV scale table of some die (R303, R309). -/
def InScales (s : State) (k : Nat) : Prop :=
  ∃ d : DieId, extKey d (s.regionFirst .kv * 65536) ≤ k ∧
    k < extKey d (s.regionFirst .kv * 65536) + 2 * s.param P.kvLayers * s.param P.kvHeads

/-- The newest record of the log has a code and detail fields (R486, R487). -/
def LastEvent (t : State) (code : Nat) (fields : List (Nat × Nat)) : Prop :=
  ∃ r, t.log.records.getLast? = some r ∧ r.code = code ∧ r.detail = detail fields

/-- No memory holds a corrected error that a read would report. -/
def NoCorrected (s : State) : Prop := s.mem.sramSingle = [] ∧ s.mem.memSingle = [] ∧ s.mem.planSingle = []

/-- The number of the next operation names no operation in progress, no block that waits for the host, no request, no held message
and no write of external memory. -/
def OpsFresh (s : State) : Prop :=
  (∀ d, ∀ r ∈ (s.front d).running, r.id < s.fab.nextOp) ∧
    (∀ b ∈ s.host.snoops, ∀ d n, b.owner = .op d n → n < s.fab.nextOp) ∧
    (∀ p ∈ s.fab.pendings, p.op < s.fab.nextOp) ∧ (∀ p ∈ s.fab.backlog, p.1.op < s.fab.nextOp) ∧
    (∀ p ∈ s.fab.lastMsgs, p.1.op < s.fab.nextOp) ∧
    (∀ w ∈ s.fab.writes, w.owner.2 < s.fab.nextOp)

/-- No operation that has written external memory still runs, so that no access races with it (R221). -/
def NoOpenWrites (s : State) : Prop :=
  ∀ w ∈ s.fab.writes, ∀ r ∈ (s.front w.owner.1).running, r.id ≠ w.owner.2

/-! ## Families of operations (R185, R199) -/

/-- The command of each arithmetic operation of slot V. -/
def vectorCommand (o : VOp) (d : DieId) (i : Issue) (f : VArithF) : Instr :=
  match o with
  | .mov => .vmov d i f | .add => .vadd d i f | .sub => .vsub d i f | .mul => .vmul d i f | .fma => .vfma d i f
  | .max => .vmax d i f | .min => .vmin d i f | .cmp => .vcmp d i f | .sel => .vsel d i f | .relu => .vrelu d i f
  | .abs => .vabs d i f | .neg => .vneg d i f | .iota => .viota d i f | .mask => .vmask d i f | .rsum => .vrsum d i f
  | .rmax => .vrmax d i f

/-- The command of each Press operation. -/
def pressCommand (o : PressOp) (d : DieId) (i : Issue) (f : PressF) : Instr :=
  match o with
  | .clear => .pressClear d i f | .maxE8 => .pressMaxE8 d i f | .addI32 => .pressAddI32 d i f
  | .addBf16 => .pressAddBf16 d i f | .qaddFp16 => .pressQaddFp16 d i f | .qaddBf16 => .pressQaddBf16 d i f
  | .finishFp16 => .pressFinishFp16 d i f | .finishBf16 => .pressFinishBf16 d i f

/-- The slot of an operation (R137). -/
def opSlot (i : Issue) : Op → Slot
  | .tload _ _ | .mma _ | .drain _ => .a
  | .varith _ _ | .cvt _ | .unp _ | .stage _ | .vdrop _ => .v
  | .fn _ _ => .f
  | .copy _ | .gather _ => moverSlot i
  | .walk _ | .flushTail _ => .m1
  | .press _ _ => .x
  | .tallyAdd _ | .tallyRadd _ => .t

/-- The command of an operation of slots A to T. -/
def opCommand (d : DieId) (i : Issue) : Op → Instr
  | .tload tr f => if tr then .tloadT d i f else .tload d i f
  | .mma f => .mma d i f
  | .drain f => .accDrain d i f
  | .varith o f => vectorCommand o d i f
  | .cvt f => .cvt d i f
  | .unp f => .unp d i f
  | .stage f => .stage d i f
  | .vdrop f => .vdrop d i f
  | .fn dv f => if dv then .fnd d i f else .fn d i f
  | .copy f => .copy d i f
  | .gather f => .gather d i f
  | .walk f => .walk d i f
  | .flushTail f => .flushTail d i f
  | .press o f => pressCommand o d i f
  | .tallyAdd f => .tallyAdd d i f
  | .tallyRadd f => .tallyRadd d i f

/-! ## Run-time faults and hollow operations (R159, R205) -/

/-- The run-time fault of an operation that is not hollow: the first that one of its accesses meets (R174, R175, R205, R225, R424,
R431). -/
def opTrip (s : State) (d : DieId) (i : Issue) : Op → Option Trip
  | .tload _ f => s.touchesTrip d ((maskCells i.mask).flatMap (tloadTouches f))
  | .mma f => if s.mmaFits d i f then s.touchesTrip d ((maskCells i.mask).flatMap (mmaTouches f)) else none
  | .varith o f => s.touchesTrip d ((maskCells i.mask).flatMap (vopTouches o f))
  | .cvt f => s.touchesTrip d ((maskCells i.mask).flatMap (cvtTouches f))
  | .unp f => s.touchesTrip d ((maskCells i.mask).flatMap (unpTouches f))
  | .stage f => (maskCells i.mask).findSome? (s.stageTrip d f)
  | .vdrop f =>
    s.touchesTrip d ((maskCells i.mask).flatMap (fun c => opndReads f.pos .f32 c ++ opndWrites f.dst .f32 c))
  | .fn _ f =>
    s.touchesTrip d ((maskCells i.mask).flatMap (fun c => opndReads f.src f.sfmt c ++ opndWrites f.dst (fnTarget f) c))
  | .copy f =>
    ((s.devTrip d f.srcSpace f.dev).or (s.devTrip d f.dstSpace f.dev)).or
      (s.passesTrip (f.len.toNat + 1) (s.copyPasses d i f))
  | .gather f =>
    (s.touchesTrip d ((passCells f.expand i.mask).map (fun c =>
      ⟨(gatherList f c).1, (gatherList f c).2.1, 4 * (f.count.toNat + 1), false, false⟩))).or
      (s.passesTrip (f.rowBlocks.toNat + 1) ((passCells f.expand i.mask).flatMap (s.gatherRows d f)))
  | .walk f =>
    ((maskCells i.mask).findSome? (s.walkTrip d f)).or (s.touchesTrip d ((maskCells i.mask).flatMap (fun c =>
      [⟨c, ptrSram f.dst f.dstOff c, (f.npage.val + 1) * partBytes f.part, true, true⟩])))
  | .flushTail f => (maskCells i.mask).findSome? (fun c =>
      (s.openSlots d c (ptrAt f.seq c) (ptrAt f.head c) f.layer.toNat).findSome? s.mergeTrip)
  | .press o f =>
    if pressIsFinish o then (passCells f.expand i.mask).findSome? (s.finishTrip d f (f.len.toNat + 1))
    else (s.devTrip d f.dstSpace f.dev).or ((s.pressPasses d i f).findSome? (s.pressTrip o f (f.len.toNat + 1)
      (match s.spacePlace d f.dstSpace f.targetDie f.dev with | .here _ => true | .away _ _ => false)))
  | .tallyRadd f =>
    if s.param P.deviceId = 0xFFFF ∨ 1024 ≤ f.device.toNat ∨
        (f.device.toNat ≠ s.param P.deviceId ∧ s.routed d f.device.toNat = false) then
      some (.tallyUnroutable f.device.toNat)
    else none
  | .drain _ | .tallyAdd _ => none

/-- The run-time fault with which an operation starts: a hollow one can only name a device that has no route (R159, R205). -/
def startTrip (s : State) (d : DieId) (i : Issue) (o : Op) : Option Trip :=
  if i.hollow then
    match o with
    | .tallyRadd f => opTrip s d i (.tallyRadd f)
    | o => s.hollowTrip d o
  else opTrip s d i o

/-- What a hollow operation leaves of the cells: only a TLOAD makes its shadow pending, and an MMA that swaps exchanges its tiles. -/
def HollowCells (s t : State) (d : DieId) (o : Op) : Prop :=
  { t.cells with tiles := s.cells.tiles, pending := s.cells.pending } = s.cells ∧
    (∀ e c a sh, c < 64 → a < 2 → sh < 2 → t.tile e c a sh =
      match o with
      | .mma f => if f.swap = true ∧ e = d ∧ a ∈ selArrays f.array then s.tile e c a (1 - sh) else s.tile e c a sh
      | _ => s.tile e c a sh) ∧
    (∀ e a, a < 2 → t.shadowPending e a =
      match o with
      | .tload _ f => s.shadowPending e a || (e == d && a == f.loader.val)
      | .mma f => s.shadowPending e a && !(f.swap && e == d && (selArrays f.array).contains a)
      | _ => s.shadowPending e a) ∧
    (match o with
      | .tload _ _ | .mma _ => True
      | _ => t.cells = s.cells)

/-- What an operation's own signal adds to tally k of die e (R140). -/
def ownCount (d : DieId) (sig : Option (BitVec 13 × Nat)) (e : DieId) (k : Nat) : W32 :=
  match sig with
  | some (j, n) => if e = d ∧ j.toNat = k then BitVec.ofNat 32 n else 0
  | none => 0

/-- What a hollow operation adds to tally k of die e beside its own signal: its count, or one for its destination signal (R159). -/
def hollowCount (s : State) (d : DieId) (o : Op) (e : DieId) (k : Nat) : W32 :=
  match o with
  | .tallyAdd f => if e = d ∧ f.tally.toNat = k then BitVec.ofNat 32 f.count.toNat else 0
  | .tallyRadd f => if e = f.die ∧ f.tally.toNat = k then BitVec.ofNat 32 f.count.toNat else 0
  | o =>
    match s.opSignal d o with
    | some (j, .here x) => if e = x ∧ j.toNat = k then 1 else 0
    | _ => 0

/-- An operation has turned hollow: it has written nothing and has given its own signal alone, its die holds a halt request, and the
event is logged (R205, R121, R225, R424, R431). -/
def TurnedHollow (s t : State) (d : DieId) (sl : Slot) (e : QEntry) (x : Trip) : Prop :=
  let at' : List (Nat × Nat) := [(2, (s.front d).planIndex), (2, e.issue.word)]
  (t.front d).running = (s.front d).running ∧ (∀ y k, t.tally y k = s.tally y k + ownCount d e.sig y k) ∧
    t.mem = s.mem ∧ HollowCells s t d e.op ∧ SameControl s t ∧ (s.jobActive = true → (t.front d).haltReq = true) ∧
    (match x with
      | .range c => LastEvent t Ev.opRange (at' ++ [(1, slotNo sl), (1, c)])
      | .baseWrite => LastEvent t Ev.opBaseWrite (at' ++ [(1, slotNo sl)])
      | .unroutable dev => LastEvent t Ev.opUnroutable (at' ++ [(2, dev)])
      | .tallyUnroutable dev => LastEvent t Ev.tallyUnroutable (at' ++ [(2, dev)])
      | .unwritten _ c a => LastEvent t Ev.sramUnwritten [(1, c), (4, a)]
      | .sramDouble y c a => LastEvent t Ev.sramUncorrectable [(1, c), (4, a)] ∧ (s.jobActive = true → (t.front y).haltReq = true)
      | .memDouble f b => LastEvent t Ev.memUncorrectable ([(4, f), (1, b)] ++ at')
      | .tag f b c => LastEvent t Ev.rindTagFail ([(4, f), (1, b), (1, c)] ++ at'))

/-- Lane j of the result of an arithmetic operation on operands a, b and c, as the table of R185 gives it; NaN results are
canonical. -/
def laneValue (audit : Bool) (o : VOp) (flags : BitVec 4) (j : Nat) (a b c : List Machine.Num) : W32 :=
  let x := a.getD j numZero
  let y := b.getD j numZero
  let z := c.getD j numZero
  let round := fun (v : Machine.Num) => (roundF32 audit v).1
  match o with
  | .mov => moveF32 x
  | .add => round (x.add y)
  | .sub => round (x.add y.neg)
  | .mul => round (x.mul y)
  | .fma => round ((x.mul y).add z)
  | .iota => round (x.add (.fin false j 0))
  | .max => moveF32 (numMax x y)
  | .min => moveF32 (numMin x y)
  | .abs => moveF32 x.abs
  | .neg => moveF32 x.neg
  | .sel => moveF32 (if z.isZero then y else x)
  | .relu => moveF32 (if x.isNan then .nan else if numZero.lt x then x else numZero)
  | .cmp => if (if flags.toNat % 4 = 0 then x.lt y else if flags.toNat % 4 = 1 then x.le y
      else if flags.toNat % 4 = 2 then x.eq y else !x.eq y) then 0x3F800000 else 0
  | .mask => if (if flags.toNat % 2 = 0 then y.le z else z.lt y) then moveF32 x else 0xFF800000
  | .rsum => (laneSum audit a).1
  | .rmax => laneMax a

/-- A byte of a cell's SRAM (R117). -/
def sramByte (s : State) (d : DieId) (c a : Nat) : Byte := s.mem.sram.read (sramKey d c a)

/-- Every memory of bytes has its canonical form. -/
def MemoryWf (s : State) : Prop :=
  s.mem.sram.wf = true ∧ s.mem.hbm.wf = true ∧ s.mem.lpddr.wf = true ∧ s.mem.plan.wf = true ∧ s.mem.acc.wf = true ∧
    s.mem.flash.wf = true

end Sys2Proof
end

