-- ==== Sys2Proof/Certificates/Slice0/Obligations.lean ====
section
/-! DEFINITION. The statements for the provers. -/

open Sys2Proof
open Sys2Proof.Machine

/-- A step runs the command at the front of the queue. -/
def Obligations.StepRunsFront : Prop :=
  ∀ (c : Instr) (rest : List Instr) (s : State), s.pending = c :: rest → step s = exec c (s.withPending rest)

/-- With no command waiting the block idles, but a start-up goes on from stage to stage: the model's choice, log entries 1 and 101
(R493, R495, R502). -/
def Obligations.EmptyQueueIdles : Prop :=
  ∀ s : State, s.pending = [] →
    (s.boot.dev ≠ .boot → step s = .next s) ∧
    (s.boot.dev = .boot →
      (s.boot.stage = .rom → ∃ t, step s = .next t ∧ t.pending = [] ∧ t.fe = s.fe ∧ t.mem = s.mem ∧ t.boot.dev = .boot ∧
        (fwCheck s.flashImage (s.param P.fwFuseCount) = none → t.boot.stage = .dies ∧
          t.param P.fwVersion = fieldLE s.flashImage 12 4) ∧
        (∀ n, fwCheck s.flashImage (s.param P.fwFuseCount) = some n → t.boot.stage = .recoveryWait ∧
          LastEvent t Ev.fwImageInvalid [(1, n)])) ∧
      (s.boot.stage = .dies → step s = .next { s with boot := { s.boot with stage := .memoryTraining } }) ∧
      (s.boot.stage = .memoryTraining → s.ten.scrubRecorded = false →
        step s = .next { s with boot := { s.boot with stage := .scrub } }) ∧
      (s.boot.stage = .memoryTraining → s.ten.scrubRecorded = true → step s = .next s) ∧
      (s.boot.stage ≠ .rom → s.boot.stage ≠ .dies → s.boot.stage ≠ .memoryTraining → step s = .next s))

/-- From every state whose byte memories are canonical, a step gives a state whose byte memories are canonical. -/
def Obligations.MemoriesStayCanonical : Prop :=
  ∀ s t : State, MemoryWf s → step s = .next t → MemoryWf t

/-- What reset leaves (R491, R495, R540). That it is the unpowered machine, and the values that the spec does not give, are the model's choice: log entries 3 and 4. -/
def Obligations.ResetLeaves : Prop :=
  MemoryWf State.reset ∧ OpsFresh State.reset ∧ State.reset.pending = [] ∧ State.reset.boot.dev = .off ∧
    State.reset.boot.alwaysOn = false ∧ State.reset.boot.regulators = false ∧ State.reset.ten.phase = .unbound ∧
    State.reset.ten.scrubRecorded = false ∧ State.reset.ten.epoch = 0 ∧ State.reset.job.phase = .none ∧
    State.reset.job.planSet = none ∧ (∀ d n, State.reset.tally d n = 0 ∧ (State.reset.front d).base n = 0) ∧
    (∀ d, (State.reset.front d).planOpen = false ∧ (State.reset.front d).mask = BitVec.allOnes 64) ∧
    (∀ k, State.reset.param k = defaultParam k) ∧ (∀ n, State.reset.keySlot n = KeySlot.free)

/-- PTR.SET writes, and PTR.ADD adds modulo 2^32 to, one field of one pointer register, and nothing else (R202). -/
def Obligations.PointerWrites : Prop :=
  ∀ (d : DieId) (f : PtrSetF) (s : State),
    (∃ t, exec (.ptrSet d f) s = .next t ∧ OnlyFront d s t ∧
      { t.front d with ptrs := (s.front d).ptrs } = s.front d ∧
      ptrField (pointer t d f.p.val) f.field = f.value ∧
      (∀ x, x ≠ f.field → ptrField (pointer t d f.p.val) x = ptrField (pointer s d f.p.val) x) ∧
      ∀ p, p ≠ f.p.val → pointer t d p = pointer s d p) ∧
    (∃ t, exec (.ptrAdd d f) s = .next t ∧ OnlyFront d s t ∧
      { t.front d with ptrs := (s.front d).ptrs } = s.front d ∧
      ptrField (pointer t d f.p.val) f.field = ptrField (pointer s d f.p.val) f.field + f.value ∧
      (∀ x, x ≠ f.field → ptrField (pointer t d f.p.val) x = ptrField (pointer s d f.p.val) x) ∧
      ∀ p, p ≠ f.p.val → pointer t d p = pointer s d p)

/-- S.ALU, S.READ and MASK.SET (R202 to R204). -/
def Obligations.ScalarAndMaskWrites : Prop :=
  (∀ (d : DieId) (f : SAluF) (s : State), ∃ t, exec (.sAlu d f) s = .next t ∧ OnlyFront d s t ∧
    { t.front d with scalars := (s.front d).scalars } = s.front d ∧
    (∀ n, n ≠ f.dst.val → (t.front d).scalar n = (s.front d).scalar n) ∧
    ∃ a b : W32, a = (s.front d).scalar f.sa.val ∧
      (match f.b with | .inl r => b = (s.front d).scalar r.val | .inr v => b = v) ∧
      (t.front d).scalar f.dst.val = match f.fn with
        | .add => a + b
        | .sub => a - b
        | .mul => a * b
        | .and => a &&& b
        | .or => a ||| b
        | .xor => a ^^^ b
        | .shl => BitVec.ofNat 32 (a.toNat * 2 ^ (b.toNat % 32))
        | .shr => BitVec.ofNat 32 (a.toNat / 2 ^ (b.toNat % 32))
        | .sar => BitVec.ofInt 32 (a.toInt / 2 ^ (b.toNat % 32))
        | .umin => if a.toNat ≤ b.toNat then a else b
        | .umax => if a.toNat ≤ b.toNat then b else a) ∧
  (∀ (d : DieId) (f : SReadF) (s : State), ∃ t, exec (.sRead d f) s = .next t ∧ OnlyFront d s t ∧
    { t.front d with scalars := (s.front d).scalars } = s.front d ∧
    (∀ n, n ≠ f.dst.val → (t.front d).scalar n = (s.front d).scalar n) ∧
    (t.front d).scalar f.dst.val = BitVec.ofNat 32 (match f.source with
      | .jobBeatLo => (s.front d).planBeat
      | .jobBeatHi => (s.front d).planBeat / 2 ^ 32
      | .beatCountLo => s.beat.count
      | .beatCountHi => s.beat.count / 2 ^ 32
      | .nan => (s.front d).nanLast
      | .inf => (s.front d).infLast
      | .ovf => (s.front d).ovfLast
      | .deviceId => s.param P.deviceId
      | .dieNo => d.val
      | .orchard => (s.job.planSet.map (·.orchardSize)).getD 1
      | .slot => (s.front d).schedSlot
      | .plan => (s.front d).planIndex)) ∧
  (∀ (d : DieId) (f : MaskSetF) (s : State), ∃ t, exec (.maskSet d f) s = .next t ∧ OnlyFront d s t ∧
    { t.front d with mask := (s.front d).mask } = s.front d ∧
    (t.front d).mask = if f.high then f.value ++ (s.front d).mask.extractLsb' 0 32
      else (s.front d).mask.extractLsb' 32 32 ++ f.value)

/-- LOOP opens a loop (R158, R159); PLAN.END leaves slot C's queue once the die is idle (R150). -/
def Obligations.LoopOpensAndPlanEnds : Prop :=
  (∀ (d : DieId) (f : LoopF) (s : State), ∃ t fr, exec (.loop d f) s = .next t ∧
    (t.front d).loops = fr :: (s.front d).loops ∧
    { t.front d with loops := (s.front d).loops } = s.front d ∧
    (∀ e, e ≠ d → t.front e = s.front e) ∧
    fr.bodyLen = f.body.toNat ∧ fr.max = f.max.toNat ∧ fr.count = min f.count.toNat f.max.toNat ∧ fr.iter = 0 ∧
    fr.bodyWord = (s.front d).wordNo ∧ fr.firstNominal = (s.front d).nominal ∧
    t.mem = s.mem ∧ t.cells = s.cells ∧ t.rind = s.rind ∧ t.beat = s.beat ∧ t.job = s.job ∧ t.adm = s.adm ∧
    t.kv = s.kv ∧ t.fab = s.fab ∧ t.ten = s.ten ∧ t.res = s.res ∧ t.boot = s.boot ∧ t.pending = s.pending ∧
    (f.count.toNat ≤ f.max.toNat → t.log = s.log ∧ t.out = s.out ∧ t.dict = s.dict ∧ t.host = s.host)) ∧
  (∀ (d : DieId) (s : State), (s.front d).queuesEmpty = true → (s.front d).running = [] →
    exec (.planEnd d) s = .next (s.setFront d { s.front d with endQueued := false }))

/-- The result lanes of every arithmetic operation of slot V, and what stays unchanged (R185). -/
def Obligations.VectorResults : Prop :=
  ∀ (o : VOp) (d : DieId) (i : Issue) (f : VArithF) (s : State), i.hollow = false → vopDefined o f = true →
    s.touchesTrip d ((maskCells i.mask).flatMap (vopTouches o f)) = none →
    ∃ t, exec (vectorCommand o d i f) s = .next t ∧
      (∀ r, f.dst = .reg r → ∀ c, c < 64 → i.mask.getLsbD c = true → ∀ j, j < 64 →
        lane t d c r.val j = laneValue s.audit o f.flags j (s.opnd d c f.sfmt f.a) (s.opnd d c f.sfmt f.b)
          (s.opnd d c f.sfmt f.c)) ∧
      (∀ e c r, ¬ (e = d ∧ i.mask.getLsbD c = true ∧ ∃ x, f.dst = .reg x ∧ r = x.val) → c < 64 → r < 64 →
        t.vreg e c r = s.vreg e c r) ∧
      (∀ p off, f.dst = .sram p off → ∀ c, c < 64 → i.mask.getLsbD c = true → ∀ j, j < 64 →
        t.sramRead d c (ptrSram p off c + 4 * j) 4 = leBytes 4 (laneValue s.audit o f.flags j (s.opnd d c f.sfmt f.a)
          (s.opnd d c f.sfmt f.b) (s.opnd d c f.sfmt f.c)).toNat) ∧
      (∀ e c a, c < 64 → a < 2 ^ 22 →
        ¬ (e = d ∧ i.mask.getLsbD c = true ∧ ∃ p off, f.dst = .sram p off ∧
            ptrSram p off c ≤ a ∧ a < ptrSram p off c + 256) →
        sramByte t e c a = sramByte s e c a) ∧
      t.cells.tiles = s.cells.tiles ∧ t.cells.staging = s.cells.staging ∧ t.mem.hbm = s.mem.hbm ∧
      t.mem.lpddr = s.mem.lpddr ∧ t.mem.plan = s.mem.plan ∧ t.mem.acc = s.mem.acc ∧ t.mem.flash = s.mem.flash ∧
      SameControl s t ∧ (∀ e, e ≠ d → t.front e = s.front e) ∧ (NoCorrected s → SameLogs s t)

/-- Operand forms that the spec calls undefined (R173, R186, R187) stop the machine by name. The stop is the model's choice, log
entry 150. -/
def Obligations.VectorEncodingsRefused : Prop :=
  ∀ (o : VOp) (d : DieId) (i : Issue) (f : VArithF) (s : State), i.hollow = false → vopDefined o f = false →
    exec (vectorCommand o d i f) s = .fault .undefinedOperation

/-- CVT and UNP (R188, R189). That a NaN source under SET in a format without NaN overwrites the scale byte given for its block is the
model's reading, log entry 152. -/
def Obligations.ConversionsWriteTheirCodes : Prop :=
  (∀ (d : DieId) (i : Issue) (f : CvtF) (s : State), i.hollow = false → cvtDefined f = true →
    s.touchesTrip d ((maskCells i.mask).flatMap (cvtTouches f)) = none →
    (fmtBlocked f.fmt = true → ∀ c, c < 64 → opndAddr f.scale c + cvtScales f ≤ opndAddr f.dst c / 128 * 128 ∨
      (opndAddr f.dst c + cvtRows f * rowBytes f.fmt + 127) / 128 * 128 ≤ opndAddr f.scale c / 128 * 128) →
    ∃ t, exec (.cvt d i f) s = .next t ∧
      (∀ c, c < 64 → i.mask.getLsbD c = true → fmtBlocked f.fmt = false →
        t.sramRead d c (opndAddr f.dst c) (cvtRows f * rowBytes f.fmt) = packRow (fmtWidth f.fmt)
          (((s.cvtSource d f c).zip (s.cvtDraws d i f c)).map (fun x =>
            (convertElem s.audit f.fmt f.round f.ovf x.2 x.1).1))) ∧
      (∀ c, c < 64 → i.mask.getLsbD c = true → fmtBlocked f.fmt = true →
        ∃ codes scales n, convertBlocks s.audit f (if f.rule = .set then s.sramRead d c (opndAddr f.scale c) (cvtScales f)
            else []) (s.cvtDraws d i f c) (s.cvtSource d f c) = (scales, codes, n) ∧
          t.sramRead d c (opndAddr f.dst c) (cvtRows f * rowBytes f.fmt) = packRow (fmtWidth f.fmt) codes ∧
          ∀ k, k < cvtScales f → sramByte t d c (opndAddr f.scale c + k) =
            if f.rule = .set ∧ ¬ (fmtNanless f.fmt = true ∧
                (((s.cvtSource d f c).drop (k * blkSize f.blk)).take (blkSize f.blk)).any Machine.Num.isNan = true) then
              sramByte s d c (opndAddr f.scale c + k)
            else scales.getD k 0) ∧
      t.cells = s.cells ∧ t.mem.hbm = s.mem.hbm ∧ t.mem.lpddr = s.mem.lpddr ∧ t.mem.acc = s.mem.acc ∧ SameControl s t) ∧
  (∀ (d : DieId) (i : Issue) (f : CvtF) (s : State), i.hollow = false → unpDefined f = true →
    s.touchesTrip d ((maskCells i.mask).flatMap (unpTouches f)) = none →
    ∃ t, exec (.unp d i f) s = .next t ∧
      (∀ r, f.dst = .reg r → ∀ c, c < 64 → i.mask.getLsbD c = true → ∀ k, k < cvtRows f → ∀ j, j < 64 →
        lane t d c (r.val + k) j =
          (expandLane s.audit
            (if fmtBlocked f.fmt then
              scaledElem s.audit f.fmt
                (elemAt (fmtWidth f.fmt) (s.sramRead d c (opndAddr f.src c) (cvtRows f * rowBytes f.fmt)) (64 * k + j))
                (sramByte s d c (opndAddr f.scale c + (64 * k + j) / blkSize f.blk)).toNat
            else readElem s.audit f.fmt
              (elemAt (fmtWidth f.fmt) (s.sramRead d c (opndAddr f.src c) (cvtRows f * rowBytes f.fmt)) (64 * k + j)))).1) ∧
      (∀ e c q, c < 64 → q < 64 →
        ¬ (e = d ∧ i.mask.getLsbD c = true ∧ ∃ r, f.dst = .reg r ∧ r.val ≤ q ∧ q < r.val + cvtRows f) →
        t.vreg e c q = s.vreg e c q) ∧
      t.cells.tiles = s.cells.tiles ∧ t.mem.sram = s.mem.sram ∧ t.mem.hbm = s.mem.hbm ∧ t.mem.lpddr = s.mem.lpddr ∧
      t.mem.acc = s.mem.acc ∧ SameControl s t)

/-- FN, FND and VDROP into registers and into SRAM (R127, R191, R192, R296). That a function whose result the formulas do not fix
gives a free value within its bound is log entry 24; that a POS operand in SRAM is binary32 is log entry 214. -/
def Obligations.FunctionAndDropOutResults : Prop :=
  (∀ (dv : Bool) (d : DieId) (i : Issue) (f : FnF) (s : State) (r : Fin 64), i.hollow = false → fnDefined f = true →
    f.dst = .reg r → s.touchesTrip d ((maskCells i.mask).flatMap (fun c => opndReads f.src f.sfmt c)) = none →
    ∃ t, exec (if dv then .fnd d i f else .fn d i f) s = .next t ∧
      (∀ c, c < 64 → i.mask.getLsbD c = true → ∀ j, j < 64 →
        lane t d c r.val j =
          match (if dv then fndSpecial f.func ((s.opnd d c f.sfmt f.src).getD j numZero)
              else fnSpecial f.func ((s.opnd d c f.sfmt f.src).getD j numZero)) with
          | some v => moveF32 v
          | none => BitVec.ofNat 32 (flushCode s.audit .f32 (fnOrdinary dv f.func
              (Config.fnResult (fnCode f.func) dv (moveF32 ((s.opnd d c f.sfmt f.src).getD j numZero)))
              ((s.opnd d c f.sfmt f.src).getD j numZero)).toNat)) ∧
      (∀ e c q, c < 64 → q < 64 → ¬ (e = d ∧ i.mask.getLsbD c = true ∧ q = r.val) → t.vreg e c q = s.vreg e c q) ∧
      t.cells.tiles = s.cells.tiles ∧ t.mem.sram = s.mem.sram ∧ t.mem.hbm = s.mem.hbm ∧ t.mem.lpddr = s.mem.lpddr ∧
      t.mem.acc = s.mem.acc ∧ SameControl s t) ∧
  (∀ (d : DieId) (i : Issue) (f : VdropF) (s : State) (r : Fin 64), i.hollow = false → f.keep ≠ 0 → f.dst = .reg r →
    s.touchesTrip d ((maskCells i.mask).flatMap (fun c => opndReads f.pos .f32 c)) = none →
    ∃ t, exec (.vdrop d i f) s = .next t ∧
      (∀ c, c < 64 → i.mask.getLsbD c = true → ∀ j, j < 64 →
        lane t d c r.val j =
          match smallInt ((s.opnd d c .f32 f.pos).getD j numZero) with
          | none => 0x7FC00000
          | some e =>
            if (mix64 ((s.front d).dropKeys.getD f.keyEntry.toNat 0 ^^^
                (BitVec.ofNat 64 (f.layer.toNat * 2 ^ 56) ||| BitVec.ofNat 64 (ptrAt f.tok c * 2 ^ 16) |||
                  BitVec.ofNat 64 e)) >>> 56).toNat < f.keep.toNat then 0x3F800000 else 0) ∧
      (∀ e c q, c < 64 → q < 64 → ¬ (e = d ∧ i.mask.getLsbD c = true ∧ q = r.val) → t.vreg e c q = s.vreg e c q) ∧
      t.cells.tiles = s.cells.tiles ∧ t.mem.sram = s.mem.sram ∧ t.mem.hbm = s.mem.hbm ∧ t.mem.lpddr = s.mem.lpddr ∧
      t.mem.acc = s.mem.acc ∧ SameControl s t) ∧
  (∀ (dv : Bool) (d : DieId) (i : Issue) (f : FnF) (s : State) (p : Ptr) (off : BitVec 10), i.hollow = false →
    fnDefined f = true → f.dst = .sram p off →
    s.touchesTrip d ((maskCells i.mask).flatMap (fun c => opndReads f.src f.sfmt c ++ opndWrites f.dst f.ofmt c)) = none →
    ∃ t, exec (if dv then .fnd d i f else .fn d i f) s = .next t ∧
      (∀ c, c < 64 → i.mask.getLsbD c = true →
        t.sramRead d c (ptrSram p off c) (rowBytes f.ofmt) = packRow (fmtWidth f.ofmt)
          ((s.opnd d c f.sfmt f.src).zipIdx.map (fun x =>
            if f.ofmt = .f32 then (fnLane s.audit dv f.func x.1).1.toNat
            else (convertElem s.audit f.ofmt f.round f.ovf (s.convDraw d c x.2 (i.nominal + 8) 9 0)
              (readF32 s.audit (fnLane s.audit dv f.func x.1).1)).1))) ∧
      (∀ e c a, c < 64 → a < 2 ^ 22 →
        ¬ (e = d ∧ i.mask.getLsbD c = true ∧ ptrSram p off c ≤ a ∧ a < ptrSram p off c + rowBytes f.ofmt) →
        sramByte t e c a = sramByte s e c a) ∧
      t.cells = s.cells ∧ t.mem.hbm = s.mem.hbm ∧ t.mem.lpddr = s.mem.lpddr ∧ t.mem.acc = s.mem.acc ∧ SameControl s t) ∧
  (∀ (d : DieId) (i : Issue) (f : VdropF) (s : State) (p : Ptr) (off : BitVec 10), i.hollow = false → f.keep ≠ 0 →
    f.dst = .sram p off →
    s.touchesTrip d ((maskCells i.mask).flatMap (fun c => opndReads f.pos .f32 c ++ opndWrites f.dst .f32 c)) = none →
    ∃ t, exec (.vdrop d i f) s = .next t ∧
      (∀ c, c < 64 → i.mask.getLsbD c = true → ∀ j, j < 64 →
        t.sramRead d c (ptrSram p off c + 4 * j) 4 = leBytes 4 (dropLane ((s.front d).dropKeys.getD f.keyEntry.toNat 0)
          f.layer.toNat (ptrAt f.tok c) f.keep.toNat ((s.opnd d c .f32 f.pos).getD j numZero)).1.toNat) ∧
      (∀ e c a, c < 64 → a < 2 ^ 22 →
        ¬ (e = d ∧ i.mask.getLsbD c = true ∧ ptrSram p off c ≤ a ∧ a < ptrSram p off c + 256) →
        sramByte t e c a = sramByte s e c a) ∧
      t.cells = s.cells ∧ t.mem.hbm = s.mem.hbm ∧ t.mem.lpddr = s.mem.lpddr ∧ t.mem.acc = s.mem.acc ∧ SameControl s t)

/-- TLOAD and TLOAD.T (R114, R179, R180). -/
def Obligations.TileLoadFillsShadow : Prop :=
  ∀ (tr : Bool) (d : DieId) (i : Issue) (f : TloadF) (s : State), i.hollow = false → f.fmt ≠ .u16l → f.fmt ≠ .f32 →
    s.touchesTrip d ((maskCells i.mask).flatMap (tloadTouches f)) = none →
    ∃ t, exec (if tr then .tloadT d i f else .tload d i f) s = .next t ∧
      t.shadowPending d f.loader.val = true ∧
      (∀ e a, ¬ (e = d ∧ a = f.loader.val) → a < 2 → t.shadowPending e a = s.shadowPending e a) ∧
      (∀ c, c < 64 → i.mask.getLsbD c = true → ∀ k n, k < 64 → n < 64 →
        tileElem (t.tile d c f.loader.val 1) (if tr then n else k) (if tr then k else n) =
          (if fmtBlocked f.fmt then
            scaledElem s.audit f.fmt
              (elemAt (fmtWidth f.fmt) (s.sramRead d c (ptrSram f.src f.srcOff c + k * rowBytes f.fmt) (rowBytes f.fmt)) n)
              (sramByte s d c (ptrBytes f.sc f.scOff c + k * blkPerRow f.blk + n * blkPerRow f.blk / 64)).toNat
          else readElem s.audit f.fmt
            (elemAt (fmtWidth f.fmt) (s.sramRead d c (ptrSram f.src f.srcOff c + k * rowBytes f.fmt) (rowBytes f.fmt)) n))) ∧
      (∀ e c a sh, c < 64 → a < 2 → sh < 2 →
        ¬ (e = d ∧ i.mask.getLsbD c = true ∧ a = f.loader.val ∧ sh = 1) → t.tile e c a sh = s.tile e c a sh) ∧
      t.cells.vregs = s.cells.vregs ∧ t.mem.sram = s.mem.sram ∧ t.mem.hbm = s.mem.hbm ∧ t.mem.lpddr = s.mem.lpddr ∧
      t.mem.acc = s.mem.acc ∧ SameControl s t

/-- MMA (R91, R93, R182). The rows of one cell's array that it adds to were opened in one format; which format and rounding a
row has, and that a row which nothing has opened counts as opened by this operation, is log entry 38. -/
def Obligations.MmaPromotesIntoTotals : Prop :=
  ∀ (d : DieId) (i : Issue) (f : MmaF) (s : State), i.hollow = false → mmaDefined f = true → s.mmaFits d i f = true →
    s.touchesTrip d ((maskCells i.mask).flatMap (mmaTouches f)) = none →
    (∀ c, c < 64 → i.mask.getLsbD c = true → ∀ arr ∈ selArrays f.array, ∀ j, j ≤ f.nvec.val →
      ((s.mmaRow d f c arr j).mode = .a16 ↔ (s.mmaRow d f c arr 0).mode = .a16)) →
    ∃ t, exec (.mma d i f) s = .next t ∧
      (∀ c, c < 64 → i.mask.getLsbD c = true → ∀ arr ∈ selArrays f.array, ∀ j, j ≤ f.nvec.val →
        t.totalRow d c arr f.tile.val f.colgrp.val (f.row.val + j) =
          ⟨(s.mmaRow d f c arr j).mode, (s.mmaRow d f c arr j).chunks + 1⟩ ∧
        ((s.mmaRow d f c arr j).mode = if f.acc = true ∧
            (s.totalRow d c arr f.tile.val f.colgrp.val (f.row.val + j)).mode ≠ .closed then
          (s.totalRow d c arr f.tile.val f.colgrp.val (f.row.val + j)).mode
        else if f.a16 then .a16 else if f.psr then .a32Sr else .a32) ∧ ∀ n, n < 64 →
        let h := s.mmaRow d f c arr j
        let a16 := h.mode == .a16
        t.total d c arr (totalAt f.tile.val f.shape a16 (f.row.val + j) (f.colgrp.val * 64 + n)) a16 =
          (promote s.audit a16 (h.mode == .a32Sr)
            (s.promDraw d c n (i.nominal + j / vectorsPerCycle f.wFmt f.inFmt + 14)
              (4 * arr + j % vectorsPerCycle f.wFmt f.inFmt) j h.chunks)
            (if f.acc = true ∧ h.chunks ≠ 0 then
              s.total d c arr (totalAt f.tile.val f.shape a16 (f.row.val + j) (f.colgrp.val * 64 + n)) a16
              else 0)
            (chunkSum ((List.range 64).map (fun k =>
              ((s.inputVector d f c j).getD k (.fin false 0 0)).mul
                (tileElem (s.tile d c arr (if f.swap then 1 else 0)) k n))))).1) ∧
      (∀ e c arr, c < 64 → arr < 2 → ∀ sh, sh < 2 → t.tile e c arr sh =
        if f.swap = true ∧ e = d ∧ arr ∈ selArrays f.array then s.tile e c arr (1 - sh) else s.tile e c arr sh) ∧
      (∀ c b arr, c < 64 → arr < 2 → b < 131072 → i.mask.getLsbD c = false →
        t.mem.acc.read (accKey d c arr b) = s.mem.acc.read (accKey d c arr b)) ∧
      t.cells.vregs = s.cells.vregs ∧ t.mem.sram = s.mem.sram ∧ t.mem.hbm = s.mem.hbm ∧ t.mem.lpddr = s.mem.lpddr ∧
      SameControl s t

/-- ACC.DRAIN (R91, R99, R183). That a row which nothing has opened drains as +0 is the model's reading: log entry 38. -/
def Obligations.DrainWidensTotals : Prop :=
  ∀ (d : DieId) (i : Issue) (f : DrainF) (s : State), i.hollow = false → drainDefined true f = true →
    s.drainFits d i f = true →
    ∃ t, exec (.accDrain d i f) s = .next t ∧
      (∀ c, c < 64 → i.mask.getLsbD c = true → ∀ k n, k ≤ f.nrows.val → n < 64 →
        let mode := (s.totalRow d c f.array.val f.tile.val f.colgrp.val (f.row.val + k)).mode
        let a16 := mode == .a16
        lane t d c (f.dst.val + k) n = if mode = .closed then 0
          else moveF32 (decodeElem (if a16 then .bf16 else .f32)
            (s.total d c f.array.val (totalAt f.tile.val f.shape a16 (f.row.val + k) (f.colgrp.val * 64 + n)) a16))) ∧
      (∀ e c q, c < 64 → q < 64 →
        ¬ (e = d ∧ i.mask.getLsbD c = true ∧ f.dst.val ≤ q ∧ q ≤ f.dst.val + f.nrows.val) →
        t.vreg e c q = s.vreg e c q) ∧
      t.cells.tiles = s.cells.tiles ∧ t.mem = s.mem ∧ SameControl s t

/-- COPY of one pass, or with EXPAND of one pass for each enabled cell: within the device every pass moves its blocks at once, and a
copy with another device at one end goes as messages and runs on (R194, R195, R371). -/
def Obligations.CopyMovesBlocks : Prop :=
  (∀ (d : DieId) (i : Issue) (f : CopyF) (s : State) (x y : DieId), i.hollow = false → copyDefined f = true → OpsFresh s →
    NoOpenWrites s → s.devTrip d f.srcSpace f.dev = none → s.devTrip d f.dstSpace f.dev = none →
    s.spacePlace d f.srcSpace f.targetDie f.dev = .here x → s.spacePlace d f.dstSpace f.targetDie f.dev = .here y →
    s.passesTrip (f.len.toNat + 1) (s.copyPasses d i f) = none →
    (∀ p ∈ s.copyPasses d i f, ∀ q ∈ s.copyPasses d i f, overlaps (f.len.toNat + 1) p.2.1 q.2.2 = false) →
    (s.copyPasses d i f).Pairwise (fun p q => overlaps (f.len.toNat + 1) p.2.2 q.2.2 = false) →
    (∀ p ∈ s.copyPasses d i f, ∀ lp e b, p.2.2 = .ext lp e b → s.touchesRegion .hdm lp b (f.len.toNat + 1) = false) →
    ∃ t, exec (.copy d i f) s = .next t ∧
      (∀ p ∈ s.copyPasses d i f, t.readLoc (f.len.toNat + 1) p.2.2 = s.readLoc (f.len.toNat + 1) p.2.1) ∧
      (t.front d).running = (s.front d).running ∧
      (∀ e n, t.tally e n = s.tally e n + if e = y ∧ ∃ g, f.dsig = some g ∧ g.toNat = n then 1 else 0) ∧
      (∀ e c a, c < 64 → a < 2 ^ 22 → (∀ p ∈ s.copyPasses d i f, ∀ b, p.2.2 = .sram e c b →
          ¬ (b ≤ a ∧ a < b + 256 * (f.len.toNat + 1))) → sramByte t e c a = sramByte s e c a) ∧
      (∀ lp e b, b < 2 ^ 30 → (∀ p ∈ s.copyPasses d i f, ∀ k, p.2.2 = .ext lp e k →
          ¬ (k ≤ b ∧ b < k + (f.len.toNat + 1))) →
        t.extRead lp e (b * 256) 256 = s.extRead lp e (b * 256) 256) ∧
      t.cells.vregs = s.cells.vregs ∧ t.cells.tiles = s.cells.tiles ∧ t.mem.acc = s.mem.acc ∧
      t.mem.plan = s.mem.plan ∧ t.mem.flash = s.mem.flash ∧ t.beat = s.beat ∧ t.job = s.job ∧ t.adm = s.adm ∧
      t.kv = s.kv ∧ t.ten = s.ten) ∧
  (∀ (d : DieId) (i : Issue) (f : CopyF) (s : State), i.hollow = false → copyDefined f = true → OpsFresh s →
    s.devTrip d f.srcSpace f.dev = none → s.devTrip d f.dstSpace f.dev = none → s.copyPasses d i f ≠ [] →
    (∀ p ∈ s.copyPasses d i f, (∃ dev e tier c b, p.2.1 = .remote dev e tier c b) ∨ ∃ dev e tier c b, p.2.2 = .remote dev e tier c b) →
    s.passesTrip (f.len.toNat + 1) (s.copyPasses d i f) = none →
    ∃ t, exec (.copy d i f) s = .next t ∧
      (∃ r ∈ (t.front d).running, r.id = s.fab.nextOp ∧ r.entry.op = .copy f ∧ 0 < r.awaiting) ∧
      t.mem.sram = s.mem.sram ∧ t.mem.hbm = s.mem.hbm ∧ t.mem.lpddr = s.mem.lpddr ∧
      (∀ e n, t.tally e n = s.tally e n))

/-- GATHER of one list, or with EXPAND of one for each enabled cell (R196, R226 to R228). -/
def Obligations.GatherCollectsRows : Prop :=
  (∀ (d : DieId) (i : Issue) (f : GatherF) (s : State), i.hollow = false → f.expand = false → f.nom ≠ 0 → OpsFresh s → NoOpenWrites s →
    (f.srcSpace = .hbm ∨ f.srcSpace = .lpddr) → f.dstSpace = .sram →
    s.touchesTrip d [⟨(gatherList f 0).1, (gatherList f 0).2.1, 4 * (f.count.toNat + 1), false, false⟩] = none →
    s.passesTrip (f.rowBlocks.toNat + 1) (s.gatherRows d f 0) = none →
    ∃ t, exec (.gather d i f) s = .next t ∧
      (∀ k, k ≤ f.count.toNat → (s.gatherIndices d f 0).getD k 0 ≠ 0xFFFFFFFF →
        t.sramRead d (ptrAt f.dst 0 / 2 ^ 22 % 64) (ptrAt f.dst 0 % 2 ^ 22 + 256 * (k * (f.rowBlocks.toNat + 1)))
            (256 * (f.rowBlocks.toNat + 1)) =
          s.extRead (f.srcSpace == .lpddr) d
            ((ptrAt f.src 0 + (s.gatherIndices d f 0).getD k 0 * (f.rowBlocks.toNat + 1)) * 256)
            (256 * (f.rowBlocks.toNat + 1))) ∧
      (∀ k, k ≤ f.count.toNat → (s.gatherIndices d f 0).getD k 0 = 0xFFFFFFFF →
        t.sramRead d (ptrAt f.dst 0 / 2 ^ 22 % 64) (ptrAt f.dst 0 % 2 ^ 22 + 256 * (k * (f.rowBlocks.toNat + 1)))
            (256 * (f.rowBlocks.toNat + 1)) =
          s.sramRead d (ptrAt f.dst 0 / 2 ^ 22 % 64) (ptrAt f.dst 0 % 2 ^ 22 + 256 * (k * (f.rowBlocks.toNat + 1)))
            (256 * (f.rowBlocks.toNat + 1))) ∧
      t.mem.hbm = s.mem.hbm ∧ t.mem.lpddr = s.mem.lpddr ∧ t.mem.acc = s.mem.acc ∧
      t.cells.vregs = s.cells.vregs ∧ t.cells.tiles = s.cells.tiles ∧ SameControl s t) ∧
  (∀ (d : DieId) (i : Issue) (f : GatherF) (s : State) (rows : List (Nat × Loc × Loc)), i.hollow = false →
    gatherDefined f = true → OpsFresh s → NoOpenWrites s →
    s.touchesTrip d ((passCells f.expand i.mask).map (fun c =>
      ⟨(gatherList f c).1, (gatherList f c).2.1, 4 * (f.count.toNat + 1), false, false⟩)) = none →
    rows = (passCells f.expand i.mask).flatMap (s.gatherRows d f) → s.passesTrip (f.rowBlocks.toNat + 1) rows = none →
    (∀ p ∈ rows, ∀ q ∈ rows, overlaps (f.rowBlocks.toNat + 1) p.2.1 q.2.2 = false) →
    rows.Pairwise (fun p q => overlaps (f.rowBlocks.toNat + 1) p.2.2 q.2.2 = false) →
    ∃ t, exec (.gather d i f) s = .next t ∧
      (∀ p ∈ rows, t.readLoc (f.rowBlocks.toNat + 1) p.2.2 = s.readLoc (f.rowBlocks.toNat + 1) p.2.1) ∧
      (t.front d).running = (s.front d).running ∧
      (∀ e n, t.tally e n = s.tally e n + if e = d ∧ ∃ g, f.dsig = some g ∧ g.toNat = n then 1 else 0) ∧
      (∀ e c a, c < 64 → a < 2 ^ 22 → (∀ p ∈ rows, ∀ b, p.2.2 = .sram e c b →
          ¬ (b ≤ a ∧ a < b + 256 * (f.rowBlocks.toNat + 1))) → sramByte t e c a = sramByte s e c a) ∧
      t.mem.lpddr = s.mem.lpddr ∧ t.mem.acc = s.mem.acc ∧ t.cells.vregs = s.cells.vregs ∧ t.cells.tiles = s.cells.tiles)

/-- STAGE (R129, R130, R190). That a row for which the staging buffer has no room is not taken is log entry 175. -/
def Obligations.StageAddsOneRow : Prop :=
  ∀ (d : DieId) (i : Issue) (f : StageF) (s : State), i.hollow = false → stageDefined f = true →
    (∀ c, c < 64 → i.mask.getLsbD c = true → s.stageTrip d f c = none) →
    let rec? := fun c => s.seq? d (ptrAt f.seq c)
    let tpp := fun c => kvTpp (((rec? c).map (·.fmt)).getD 0)
    let page := fun c => ptrAt f.pos c / tpp c
    let entry := fun c => match rec? c with
      | some q => s.pte d (s.pteOf q f.layer.toNat (ptrAt f.head c) (page c))
      | none => Pte.none
    let fills := fun c => decide (tpp c ≤ (entry c).used + (addRow s.cells.staging d c (ptrAt f.seq c) (ptrAt f.head c)
      f.layer.toNat (page c) ⟨ptrAt f.pos c, [], []⟩).2.rows.length)
    let room := fun c => stagingFits (addRow s.cells.staging d c (ptrAt f.seq c) (ptrAt f.head c) f.layer.toNat (page c)
      ⟨ptrAt f.pos c, (s.stageHalf d i f c false).1, (s.stageHalf d i f c true).1⟩).1 d c
    ∃ t, exec (.stage d i f) s = .next t ∧
      (∀ c, c < 64 → i.mask.getLsbD c = true → s.appendFault d (rec? c) (entry c) = none → room c = true →
          fills c = false →
        ∃ x ∈ t.cells.staging, x.die = d ∧ x.cell.val = c ∧ x.seq = ptrAt f.seq c ∧ x.head = ptrAt f.head c ∧
          x.layer = f.layer.toNat ∧ x.page = page c ∧
          ∃ row ∈ x.rows, row.pos = ptrAt f.pos c ∧ row.k = (s.stageHalf d i f c false).1 ∧
            row.v = (s.stageHalf d i f c true).1) ∧
      (∀ c, c < 64 → i.mask.getLsbD c = true → s.appendFault d (rec? c) (entry c) ≠ none ∨ room c = false →
        t.cells.staging.filter (fun x => x.die == d && x.cell.val == c) =
          s.cells.staging.filter (fun x => x.die == d && x.cell.val == c)) ∧
      ((∀ c, c < 64 → i.mask.getLsbD c = true → fills c = false) → t.mem = s.mem) ∧
      t.mem.sram = s.mem.sram ∧ t.cells.vregs = s.cells.vregs ∧ t.cells.tiles = s.cells.tiles

/-- WALK (R197, R310). -/
def Obligations.WalkDeliversPages : Prop :=
  ∀ (d : DieId) (i : Issue) (f : WalkF) (s : State), i.hollow = false → f.nom ≠ 0 → OpsFresh s → NoOpenWrites s →
    (∀ c, c < 64 → i.mask.getLsbD c = true → s.walkTrip d f c = none) →
    s.touchesTrip d ((maskCells i.mask).map (fun c =>
      ⟨c, ptrSram f.dst f.dstOff c, (f.npage.val + 1) * partBytes f.part, true, true⟩)) = none →
    let fmt := fun c => ((s.seq? d (ptrAt f.seq c)).map (·.fmt)).getD 0
    ∃ t, exec (.walk d i f) s = .next t ∧
      (∀ c, c < 64 → i.mask.getLsbD c = true → ∀ m e, (s.walkList d f c)[m]? = some e →
        ∀ h v, (partHalves f.part)[h]? = some v → ∀ k, k < kvTpp (fmt c) →
        t.sramRead d c (ptrSram f.dst f.dstOff c + m * partBytes f.part + h * 32768 + k * kvStride (fmt c))
            (kvStride (fmt c)) =
          if e.2.2.isSome = true ∨ e.2.1.valid = false then List.replicate (kvStride (fmt c)) 0
          else match s.stagedRow d c (ptrAt f.seq c) (ptrAt f.head c) f.layer.toNat e.1 (kvTpp (fmt c)) k with
            | some r => ((if v then r.v else r.k) ++ List.replicate (kvStride (fmt c)) 0).take (kvStride (fmt c))
            | none =>
              if k < e.2.1.used ∨
                  s.flushedToken d (ptrAt f.seq c) (ptrAt f.head c) f.layer.toNat e.1 (kvTpp (fmt c)) k = true then
                s.extRead false d (framePage e.2.1.frame * 65536 + (if v then 32768 else 0) + k * kvStride (fmt c))
                  (kvStride (fmt c))
              else List.replicate (kvStride (fmt c)) 0) ∧
      (∀ c, c < 64 → i.mask.getLsbD c = true →
        t.cells.xlat.getD (d.val * 64 + c) [] = (s.walkList d f c).map (fun e => e.2.1.frame)) ∧
      t.mem.hbm = s.mem.hbm ∧ t.mem.lpddr = s.mem.lpddr ∧ t.mem.acc = s.mem.acc ∧
      t.cells.vregs = s.cells.vregs ∧ t.cells.tiles = s.cells.tiles ∧ t.cells.staging = s.cells.staging

/-- FLUSH.TAIL (R198, R313). -/
def Obligations.TailFlushClosesSlots : Prop :=
  ∀ (d : DieId) (i : Issue) (f : FlushF) (s : State), i.hollow = false →
    (∀ c, c < 64 → i.mask.getLsbD c = true → ∀ x ∈ s.openSlots d c (ptrAt f.seq c) (ptrAt f.head c) f.layer.toNat,
      s.mergeTrip x = none) →
    ∃ t, exec (.flushTail d i f) s = .next t ∧
      (∀ c, c < 64 → i.mask.getLsbD c = true →
        t.openSlots d c (ptrAt f.seq c) (ptrAt f.head c) f.layer.toNat = []) ∧
      (∀ c, c < 64 → i.mask.getLsbD c = true → ∀ x ∈ s.openSlots d c (ptrAt f.seq c) (ptrAt f.head c) f.layer.toNat,
        ∀ q, s.seq? d x.seq = some q →
          s.appendFault d (some q) (s.pte d (s.pteOf q x.layer x.head x.page)) = none →
          (⟨d, s.pteOf q x.layer x.head x.page, (s.pte d (s.pteOf q x.layer x.head x.page)).frame, x.rows.length⟩
            : AddUsed) ∈ t.kv.added ∧
          (⟨d, x.head, x.layer, x.seq, x.page, x.rows.map (·.pos)⟩ : FlushRec) ∈ t.cells.flushed) ∧
      t.mem.sram = s.mem.sram ∧ t.mem.lpddr = s.mem.lpddr ∧ t.mem.acc = s.mem.acc ∧
      t.cells.vregs = s.cells.vregs ∧ t.cells.tiles = s.cells.tiles

/-- The six Press operations that send, on this device, in one pass or with EXPAND in one for each enabled cell (R199, R394 to
R399). -/
def Obligations.PressAppliesBlocks : Prop :=
  ∀ (o : PressOp) (d : DieId) (i : Issue) (f : PressF) (s : State) (x : DieId),
    pressIsFinish o = false → i.hollow = false → pressDefined o f = true → OpsFresh s → NoOpenWrites s →
    s.fab.pressQueues = [] → s.devTrip d f.dstSpace f.dev = none →
    s.spacePlace d f.dstSpace f.targetDie f.dev = .here x →
    (∀ p ∈ s.pressPasses d i f, s.pressTrip o f (f.len.toNat + 1) true p = none) →
    (s.pressPasses d i f).Pairwise (fun p q => p.dB + (f.len.toNat + 1) * pressPer o ≤ q.dB ∨
      q.dB + (f.len.toNat + 1) * pressPer o ≤ p.dB) →
    (∀ p ∈ s.pressPasses d i f, ∀ k, k < (f.len.toNat + 1) * pressPer o →
      s.keyingOf (frameOf (spaceLp f.dstSpace) x ((p.dB + k) / 252)) = none ∧
      (o ≠ .clear → s.blockTrip (spaceLp f.dstSpace) x (pressBlockAt (p.dB + k)) = none) ∧
      s.blockTrip (spaceLp f.dstSpace) x (pressCountAt (p.dB + k) / 256) = none) →
    ∃ t, exec (pressCommand o d i f) s = .next t ∧
      (∀ p ∈ s.pressPasses d i f, ∀ k, k < (f.len.toNat + 1) * pressPer o →
        t.extRead (spaceLp f.dstSpace) x (pressBlockAt (p.dB + k) * 256) 256 =
            (if o = .clear then List.replicate 256 0
              else (applyBlock s.audit o (s.extRead (spaceLp f.dstSpace) x (pressBlockAt (p.dB + k) * 256) 256)
                ((s.pressData d o (f.len.toNat + 1) p.dB p.src p.aux).1.getD k [])).data) ∧
        leNat (t.extRead (spaceLp f.dstSpace) x (pressCountAt (p.dB + k)) 4) =
            if o = .clear then 0
            else min (leNat (s.extRead (spaceLp f.dstSpace) x (pressCountAt (p.dB + k)) 4) + 1) (2 ^ 32 - 1)) ∧
      (∀ e n, t.tally e n = s.tally e n + if e = x ∧ ∃ g, f.dsig = some g ∧ g.toNat = n then 1 else 0) ∧
      t.fab.pressQueues = [] ∧ (t.front d).running = (s.front d).running ∧
      t.mem.sram = s.mem.sram ∧ t.mem.acc = s.mem.acc ∧ t.cells = s.cells ∧ t.beat = s.beat ∧ t.job = s.job ∧
      t.adm = s.adm ∧ t.kv = s.kv ∧ t.ten = s.ten

/-- FINISH, in one pass or with EXPAND in one for each enabled cell (R200, R401). What a lane over a count of 0 gives is a free value,
log entry 51. -/
def Obligations.PressFinishDivides : Prop :=
  ∀ (o : PressOp) (d : DieId) (i : Issue) (f : PressF) (s : State), pressIsFinish o = true → i.hollow = false →
    pressDefined o f = true → (f.expand = true → f.dstSpace = .sram) → OpsFresh s → NoOpenWrites s →
    s.fab.pressQueues = [] → (∀ c ∈ passCells f.expand i.mask, s.finishTrip d f (f.len.toNat + 1) c = none) →
    (∀ c ∈ passCells f.expand i.mask, ∀ lp e b, s.place d f.dstSpace (ptrAt f.dst c) none d 0 = .ext lp e b →
      s.touchesRegion .hdm lp b ((f.len.toNat + 1) / 2) = false) →
    let cell := fun (c : Nat) => if f.expand then some c else none
    let dst := fun (c : Nat) => s.place d f.dstSpace (ptrAt f.dst c) (cell c) d 0
    ∃ t, exec (pressCommand o d i f) s = .next t ∧
      (∀ c ∈ passCells f.expand i.mask, ∀ k e v, k ≤ f.len.toNat → e < 64 →
        finishLane ((s.pressSrcRead (pressSrc d f.srcSpace (ptrAt f.src c) (cell c) k)).1.getD e 0)
          (s.pressSrcRead (pressSrc d f.srcSpace (ptrAt f.src c) (cell c) k)).2
          ((s.auxBytes (s.place d f.srcSpace (ptrAt f.aux c) (cell c) d 0) (f.len.toNat + 1)).getD k 0).toNat = some v →
        leNat (((t.readLoc ((f.len.toNat + 1) / 2) (dst c)).drop (128 * k + 2 * e)).take 2) =
          (convertElem s.audit (pressFmt o) .rne .strict 0 v).1) ∧
      (∀ e c a, c < 64 → a < 2 ^ 22 → (∀ x ∈ passCells f.expand i.mask, ∀ b, dst x = .sram e c b →
          ¬ (b ≤ a ∧ a < b + 128 * (f.len.toNat + 1))) → sramByte t e c a = sramByte s e c a) ∧
      (∀ e n, t.tally e n = s.tally e n + if e = d ∧ ∃ g, f.dsig = some g ∧ g.toNat = n then 1 else 0) ∧
      (f.dstSpace ≠ .hbm → t.mem.hbm = s.mem.hbm) ∧ (f.dstSpace ≠ .lpddr → t.mem.lpddr = s.mem.lpddr) ∧
      t.cells = s.cells ∧ t.mem.acc = s.mem.acc ∧ (t.front d).running = (s.front d).running

/-- TALLY.ADD and TALLY.RADD (R154, R155). That a count of 0, which R201 calls undefined, stops the machine is the model's choice, log
entry 150. -/
def Obligations.TallyOperations : Prop :=
  (∀ (d : DieId) (i : Issue) (f : TallyAddF) (s : State), f.count ≠ 0 → OpsFresh s →
    ∃ t, exec (.tallyAdd d i f) s = .next t ∧
      t.tally d f.tally.toNat = s.tally d f.tally.toNat + BitVec.ofNat 32 f.count.toNat ∧
      (∀ n, n ≠ f.tally.toNat → t.tally d n = s.tally d n) ∧
      { t.front d with tallies := (s.front d).tallies } = s.front d ∧ (∀ e, e ≠ d → t.front e = s.front e) ∧
      { t with fe := s.fe, fab := { t.fab with nextOp := s.fab.nextOp } } = s) ∧
  (∀ (d : DieId) (i : Issue) (f : TallyRaddF) (s : State), f.count ≠ 0 → OpsFresh s → s.jobActive = true →
    s.param P.deviceId < 1024 → f.device.toNat = s.param P.deviceId →
    ∃ t, exec (.tallyRadd d i f) s = .next t ∧
      t.tally f.die f.tally.toNat = s.tally f.die f.tally.toNat + BitVec.ofNat 32 f.count.toNat ∧
      (∀ e n, ¬ (e = f.die ∧ n = f.tally.toNat) → t.tally e n = s.tally e n) ∧
      (∀ e, { t.front e with tallies := (s.front e).tallies } = s.front e) ∧
      { t with fe := s.fe, fab := { t.fab with nextOp := s.fab.nextOp } } = s) ∧
  (∀ (d : DieId) (i : Issue) (f : TallyRaddF) (s : State), f.count ≠ 0 → OpsFresh s → s.param P.deviceId < 1024 →
    f.device.toNat < 1024 → f.device.toNat ≠ s.param P.deviceId → s.routed d f.device.toNat = true →
    ∃ t, exec (.tallyRadd d i f) s = .next t ∧
      (∃ r ∈ (t.front d).running, r.id = s.fab.nextOp ∧ r.awaiting = 1) ∧ (∀ e n, t.tally e n = s.tally e n) ∧
      t.mem = s.mem ∧ t.cells = s.cells ∧ t.job = s.job ∧ t.beat = s.beat) ∧
  (∀ (d : DieId) (i : Issue) (f : TallyAddF) (s : State), f.count = 0 →
    exec (.tallyAdd d i f) s = .fault .undefinedOperation)

/-- WORD_DISPATCH (R147, R161). That a word which no table defines stops the machine is the model's choice, log entry 150, and that a
line which cannot be read stops its die's plan is log entry 177. -/
def Obligations.WordDispatchQueuesSlots : Prop :=
  ∀ (d : DieId) (s : State),
    let f := s.front d
    let w := s.planWord d f.wordNo
    let word := f.decodeWord ⟨f.mask, f.hollowNow, f.nominal, f.wordNo, false⟩ w
    (f.mayDispatch = false → exec (.wordDispatch d) s = .next s) ∧
    (f.mayDispatch = true → State.planLineBad s.mem.planDouble d (f.line + f.wordNo) = 0 →
      (∀ es c, word = some (es, c) → f.roomFor es = true →
        ∃ t, exec (.wordDispatch d) s = .next t ∧
          (∀ sl, sl ≠ .c → (t.front d).queues.get sl =
            f.queues.get sl ++ (es.filter (fun e => e.1 = sl)).map (fun e => e.2)) ∧
          (∀ e, e ≠ d → t.front e = s.front e) ∧ t.mem = s.mem ∧ t.cells = s.cells ∧ SameControl s t) ∧
      (∀ es c, word = some (es, c) → f.roomFor es = false → exec (.wordDispatch d) s = .next s) ∧
      (word = none → exec (.wordDispatch d) s = .fault .undefinedEncoding)) ∧
    (f.mayDispatch = true → State.planLineBad s.mem.planDouble d (f.line + f.wordNo) ≠ 0 →
      ∃ t, exec (.wordDispatch d) s = .next t ∧ (t.front d).stopped = true ∧
        (s.jobActive = true → (t.front d).haltReq = true) ∧ t.mem = s.mem ∧ t.cells = s.cells ∧ SameControl s t)

/-- OPERATION_START and OPERATION_COMPLETE, hollow operations, and the run-time faults, which turn an operation hollow whether a slot
starts it or a command runs it (R148, R149, R155, R159, R205). Which accesses fault in which order, that a hollow operation faults on
an unroutable signal alone, and which die logs a fault of another die's cell, are the model's reading: log entries 22, 31, 32, 150,
151 and 200. -/
def Obligations.OperationsStartAndComplete : Prop :=
  (∀ (d : DieId) (sl : Slot) (cycle : Nat) (s : State), (s.front d).queues.get sl = [] →
    exec (.operationStart d sl cycle) s = .next s) ∧
  (∀ (d : DieId) (sl : Slot) (cycle : Nat) (s : State) (e : QEntry) (es : List QEntry),
    (s.front d).queues.get sl = e :: es → s.mayStart d sl e cycle = false →
    exec (.operationStart d sl cycle) s = .next s) ∧
  (∀ (d : DieId) (sl : Slot) (cycle : Nat) (s : State) (e : QEntry), s.waitMet d e.wait = false →
    s.mayStart d sl e cycle = false) ∧
  (∀ (d : DieId) (sl : Slot) (cycle : Nat) (s u : State) (e : QEntry) (es : List QEntry),
    (s.front d).queues.get sl = e :: es → s.mayStart d sl e cycle = true → e.issue.hollow = false →
    effOp ((s.setFront d ({ s.front d with queues := (s.front d).queues.set sl es }.started sl e.op cycle)).beginOp d sl e
      cycle) d s.fab.nextOp e.issue e.op = .ok u →
    exec (.operationStart d sl cycle) s = .next (if s.completesAtOnce d e then u.settle d s.fab.nextOp else u)) ∧
  (∀ (d : DieId) (sl : Slot) (cycle : Nat) (s : State) (e : QEntry) (es : List QEntry),
    (s.front d).queues.get sl = e :: es → s.mayStart d sl e cycle = true → e.issue.hollow = true → OpsFresh s →
    (match e.op with
      | .tallyAdd f => f.count ≠ 0
      | .tallyRadd f => f.count ≠ 0 ∧ s.jobActive = true ∧ s.param P.deviceId < 1024 ∧ f.device.toNat = s.param P.deviceId
      | o => s.hollowTrip d o = none ∧
          ∀ j y, s.opSignal d o = some (j, y) → ∃ x, y = .here x ∧ (x = d ∨ s.jobActive = true)) →
    ∃ t, exec (.operationStart d sl cycle) s = .next t ∧ (t.front d).queues = (s.front d).queues.set sl es ∧
      (∀ y, (t.front y).running = (s.front y).running) ∧
      (∀ y k, t.tally y k = s.tally y k + ownCount d e.sig y k + hollowCount s d e.op y k) ∧
      t.mem = s.mem ∧ HollowCells s t d e.op ∧ SameControl s t ∧ SameLogs s t) ∧
  (∀ (d : DieId) (sl : Slot) (cycle : Nat) (s : State) (e : QEntry) (es : List QEntry),
    (s.front d).queues.get sl = e :: es → s.mayStart d sl e cycle = true → e.issue.hollow = true → OpsFresh s →
    (match e.op with
      | .tallyRadd f => f.count ≠ 0 ∧ s.param P.deviceId < 1024 ∧ f.device.toNat ≠ s.param P.deviceId ∧
          s.routed d f.device.toNat = true
      | o => s.hollowTrip d o = none ∧ ∃ j dev x, s.opSignal d o = some (j, .away dev x)) →
    ∃ t, exec (.operationStart d sl cycle) s = .next t ∧ (t.front d).queues = (s.front d).queues.set sl es ∧
      (∃ r, (t.front d).running = (s.front d).running ++ [r] ∧ r.id = s.fab.nextOp ∧ r.entry = e ∧ r.awaiting = 1 ∧
        ∀ audit c k, holds audit c r k = false) ∧
      (∀ y k, t.tally y k = s.tally y k) ∧ t.mem = s.mem ∧ t.cells = s.cells ∧ SameControl s t) ∧
  (∀ (d : DieId) (sl : Slot) (cycle : Nat) (s : State) (e : QEntry) (es : List QEntry) (x : Trip),
    (s.front d).queues.get sl = e :: es → s.mayStart d sl e cycle = true → OpsFresh s →
    (e.issue.hollow = false ∨ (∃ f, e.op = .tallyRadd f) → opDefined e.op = true) →
    startTrip s d e.issue e.op = some x →
    ∃ t, exec (.operationStart d sl cycle) s = .next t ∧ (t.front d).queues = (s.front d).queues.set sl es ∧
      TurnedHollow s t d sl e x) ∧
  (∀ (d : DieId) (i : Issue) (o : Op) (s : State) (x : Trip), OpsFresh s → s.fab.pressQueues = [] → i.hollow = false →
    opDefined o = true → opTrip s d i o = some x →
    ∃ t, exec (opCommand d i o) s = .next t ∧ TurnedHollow s t d (opSlot i o) ⟨o, i, none, none⟩ x) ∧
  (∀ (d : DieId) (t : Touch) (s : State), (t.line = true ∧ t.addr % 128 ≠ 0) ∨ sramEnd < t.addr + t.len →
    s.touchTrip d t = some (.range t.cell)) ∧
  (∀ (d : DieId) (t : Touch) (s : State) (b : Nat), t.write = false → (t.line = true → t.addr % 128 = 0) →
    t.addr + t.len ≤ sramEnd → t.addr ≤ b → b < t.addr + t.len →
    s.mem.sramValid.getD (lineKey d t.cell (b / 128)) false = false →
    ∃ a, s.touchTrip d t = some (.unwritten d t.cell a)) ∧
  (∀ (d : DieId) (sl : Slot) (n : Nat) (s : State) (r : Running),
    ((s.front d).running.filter (fun x => x.slot == sl))[n]? = some r → s.running? d r.id = some r →
    r.awaiting = 0 → (∀ b ∈ s.host.snoops, b.owner ≠ .op d r.id) → r.entry.issue.hollow = false →
    ∃ t, exec (.operationComplete d sl n) s = .next t ∧
      (t.front d).running = (s.front d).running.filter (fun x => x.id ≠ r.id) ∧
      (∀ e k, t.tally e k = s.tally e k +
        (match r.entry.sig with
          | some (j, m) => if e = d ∧ j.toNat = k then BitVec.ofNat 32 m else 0
          | none => 0) +
        (match s.opSignal d r.entry.op with
          | some (j, .here x) => if e = x ∧ j.toNat = k then 1 else 0
          | _ => 0)) ∧
      (t.front d).queues = (s.front d).queues ∧ t.mem = s.mem ∧ t.cells = s.cells ∧ SameControl s t ∧ SameLogs s t)

/-- The invariant on which the statements about operations in progress rest. -/
def Obligations.OperationNumbersStayFresh : Prop :=
  ∀ s t : State, OpsFresh s → step s = .next t → OpsFresh t

/-- REMOTE_TALLY_ADD and its TALLY_ACK, which a dropped one has too (R155, R156, R373). -/
def Obligations.TallyMessagesApplyOrDrop : Prop :=
  ∀ (m : Message) (s : State), m.hdr.epoch = s.ten.epoch →
    ∃ u t : State, exec (.remoteTallyAdd m) s = .next t ∧ t = u.respond m 0x11 0 3 [] ∧ u.fab = s.fab ∧ u.ten = s.ten ∧
      (∀ e n, t.tally e n = s.tally e n +
        if s.jobActive = true ∧ m.desc.jobTag.toNat = s.runningTag ∧ e = m.hdr.dstDie ∧ n = m.desc.tally.toNat then
          BitVec.ofNat 32 m.desc.count.toNat else 0) ∧
      t.fab.pendings = s.fab.pendings ∧ t.mem = s.mem ∧ t.cells = s.cells ∧ t.beat = s.beat ∧ t.job = s.job ∧ t.adm = s.adm ∧ t.kv = s.kv

/-- WRITE and READ at their destination and their answers (R221, R372, R373). That a WRITE into the host's window would be answered
only after the host is log entry 46. -/
def Obligations.WriteMessagesStoreTheirBlocks : Prop :=
  (∀ (m : Message) (s : State), m.hdr.epoch = s.ten.epoch → msgInRange m = true → s.messageIn m .base = false →
    s.messageIn m .hdm = false → s.messageIn m .partner = false → m.data.length = 256 * msgCount m →
    (∀ b ∈ s.host.snoops, b.owner ≠ .message (bareMessage m)) → NoOpenWrites s →
    ∃ u t : State, exec (.write m) s = .next t ∧ t = u.respond m 0x30 0 1 [] ∧ t.readLoc (msgCount m) (msgPlace m) = m.data ∧
      (∀ e n, t.tally e n = s.tally e n +
        match m.desc.dsig with
        | some g => if e = m.hdr.dstDie ∧ n = g.toNat then 1 else 0
        | none => 0) ∧
      t.mem.acc = s.mem.acc ∧ t.mem.plan = s.mem.plan ∧ t.cells = s.cells ∧ t.beat = s.beat ∧ t.job = s.job) ∧
  (∀ (m : Message) (s : State), m.hdr.epoch = s.ten.epoch → msgInRange m = false →
    exec (.write m) s = .next (s.respond m 0x30 1 1 []) ∧
      ∃ bytes, bytes.length = 256 * msgCount m ∧ exec (.read m) s = .next (s.respond m 0x31 1 1 bytes).drawn) ∧
  (∀ (m : Message) (s : State), m.hdr.epoch = s.ten.epoch → msgInRange m = true → s.messageIn m .partner = false →
    (match msgPlace m with
      | .sram d c a => s.touchTrip d ⟨c, a, 256 * msgCount m, false, false⟩
      | .ext lp d b => s.blocksTrip lp d b (msgCount m)
      | .remote .. => none) = none → NoCorrected s → NoOpenWrites s →
    exec (.read m) s = .next (s.respond m 0x31 0 1 (s.readLoc (msgCount m) (msgPlace m)))) ∧
  (∀ (m : Message) (s : State) (type status cls : Nat) (data : List Byte),
    (s.respond m type status cls data).mem = s.mem ∧ (s.respond m type status cls data).cells = s.cells ∧
      (s.respond m type status cls data).fe = s.fe)

/-- The four responses at their sender (R373); the message that carries a destination signal goes out behind the answers to the
others (R195, R394). -/
def Obligations.ResponsesSettleOperations : Prop :=
  ∀ (type : Byte) (m : Message) (s : State) (c : Instr),
    (c, type) ∈ [(Instr.tallyAck m, 0x11), (Instr.writeAck m, 0x30), (Instr.readData m, 0x31), (Instr.pressAck m, 0x32)] →
    m.hdr.epoch = s.ten.epoch → m.desc.status = 0 →
    (s.pendingOf { m with desc := { m.desc with type := type } } = none → exec c s = .next s) ∧
    (∀ p r, s.pendingOf { m with desc := { m.desc with type := type } } = some p → p.epoch = s.ten.epoch →
      s.fab.backlog = [] → s.running? p.die p.op = some r → r.entry.issue.hollow = false →
      (∀ b ∈ s.host.snoops, b.owner ≠ .op p.die p.op) →
      (∀ x ∈ s.fab.lastMsgs, ¬ (x.1.die = p.die ∧ x.1.op = p.op)) →
      (p.dest = none ∨ ∃ d k a, p.dest = some (.sram d k a)) →
      ∃ t, exec c s = .next t ∧ t.fab.pendings = s.fab.pendings.erase p ∧
        (∀ d k a, p.dest = some (.sram d k a) → t.sramRead d k a m.data.length = m.data) ∧
        (1 < r.awaiting → t.running? p.die p.op = some { r with awaiting := r.awaiting - 1 } ∧
          ∀ e n, t.tally e n = s.tally e n) ∧
        (r.awaiting = 1 → t.running? p.die p.op = none ∧
          ∀ e n, t.tally e n = s.tally e n +
            (match r.entry.sig with
              | some (j, k) => if e = p.die ∧ j.toNat = n then BitVec.ofNat 32 k else 0
              | none => 0) +
            (match s.opSignal p.die r.entry.op with
              | some (j, .here x) => if e = x ∧ j.toNat = n then 1 else 0
              | _ => 0)) ∧
        t.mem.hbm = s.mem.hbm ∧ t.mem.lpddr = s.mem.lpddr ∧ t.mem.acc = s.mem.acc ∧ t.cells = s.cells ∧
        t.beat = s.beat ∧ t.job = s.job) ∧
    (∀ p r x, s.pendingOf { m with desc := { m.desc with type := type } } = some p → p.epoch = s.ten.epoch →
      s.fab.backlog = [] → s.running? p.die p.op = some r → r.awaiting = 2 → p.dest = none →
      List.find? (fun (y : Pending × Message) => y.1.die == p.die && y.1.op == p.op) s.fab.lastMsgs = some x →
      ∃ u : State, exec c s = .next (u.request x.1 x.2) ∧ u.fab.lastMsgs = s.fab.lastMsgs.erase x ∧
        u.running? p.die p.op = some { r with awaiting := 1 } ∧ u.mem = s.mem ∧ u.cells = s.cells ∧ u.beat = s.beat ∧
        u.job = s.job)

/-- PRESS at its destination, and PRESS_APPLICATION (R371, R393, R394, R395, R405). -/
def Obligations.PressBlocksQueueAndApply : Prop :=
  (∀ (m : Message) (s : State) (o : PressOp), m.hdr.epoch = s.ten.epoch → popOp m.desc.pop.toNat = some o →
    bits m.desc.address.toNat 50 2 ≠ 0 → msgInRange m = true → s.messageIn m .base = false → s.messageIn m .hdm = false →
    m.desc.address.toNat % 2 ^ 38 / 256 % 256 + msgCount m ≤ 252 →
    let lp := bits m.desc.address.toNat 50 2 == 2
    ∃ t, exec (.press m) s = .next t ∧
      t.fab.pressQueues.getD (pressKey m.hdr.dstDie lp (msgDataBlock m)) [] =
        s.fab.pressQueues.getD (pressKey m.hdr.dstDie lp (msgDataBlock m)) [] ++
          pressBlocks m.hdr.dstDie lp (msgDataBlock m) o m.hdr.epoch none (some (bareMessage m))
            ((List.range (msgCount m)).map (fun k => if o = .clear then [] else (m.data.drop (256 * k)).take 256)) ∧
      { t with fab := s.fab } = s) ∧
  (∀ (m : Message) (s : State), m.hdr.epoch = s.ten.epoch → (popOp m.desc.pop.toNat = none ∨ msgInRange m = false) →
    exec (.press m) s = .next (s.respond m 0x32 1 1 [])) ∧
  (∀ (d : DieId) (ctrl : Fin 10) (s : State) (x : PressBlock) (q : List PressBlock),
    s.fab.pressQueues.getD (d.val * 10 + ctrl.val) [] = x :: q → x.epoch = s.ten.epoch → s.heldTrip x = none →
    x.op ≠ .clear → x.data.length = 256 → x.op' = none → x.answer = none → s.fab.redWaiting = [] → NoOpenWrites s →
    ∃ t, exec (.pressApplication d ctrl) s = .next t ∧
      t.fab.pressQueues.getD (d.val * 10 + ctrl.val) [] = q ∧
      t.extRead x.lpddr x.die (pressBlockAt x.dataBlock * 256) 256 =
        (applyBlock s.audit x.op (s.extRead x.lpddr x.die (pressBlockAt x.dataBlock * 256) 256) x.data).data ∧
      leNat (t.extRead x.lpddr x.die (pressCountAt x.dataBlock) 4) =
        min (leNat (s.extRead x.lpddr x.die (pressCountAt x.dataBlock) 4) + 1) (2 ^ 32 - 1) ∧
      t.mem.sram = s.mem.sram ∧ t.mem.acc = s.mem.acc ∧ t.cells = s.cells ∧ t.job = s.job ∧ t.beat = s.beat) ∧
  (∀ (d : DieId) (ctrl : Fin 10) (s : State), s.fab.pressQueues.getD (d.val * 10 + ctrl.val) [] = [] →
    s.fab.redWaiting = [] → exec (.pressApplication d ctrl) s = .next s)

/-- A message under another epoch is dropped and counted (R425). -/
def Obligations.EarlierEpochsAreDropped : Prop :=
  ∀ (m : Message) (s : State) (c : Instr),
    c ∈ [Instr.remoteTallyAdd m, .tallyAck m, .write m, .read m, .writeAck m, .readData m, .press m, .pressAck m] →
    m.hdr.epoch ≠ s.ten.epoch →
    ∃ t, exec c s = .next t ∧
      t.param P.epochDrops = (s.param P.epochDrops + 1) % paramModulus P.epochDrops ∧
      t.mem = s.mem ∧ t.cells = s.cells ∧ t.fe = s.fe ∧ t.fab = s.fab ∧ t.job = s.job ∧ t.beat = s.beat ∧ t.adm = s.adm ∧
      t.kv = s.kv ∧ t.rind = s.rind ∧ t.ten = s.ten

/-- The events and commands that move a link between its states (R361, R366, R376, R377, R388, R389, R508); a QUARANTINED link
leaves that state only by its release. What of this the spec leaves open is the model's reading: log entries 43 and 44. -/
def Obligations.LinkStateChanges : Prop :=
  ∀ (l : LinkId) (s : State) (c : Instr) (ok : Bool) (to' : LinkPhase) (cause : Option Nat),
    let ph := (s.link l.val).phase
    (c, ok, to', cause) ∈
      [(Instr.linkTrained l, ph == .training || ph == .down, LinkPhase.discovery, none),
       (.linkTrainTimeout l, ph == .training || ph == .down, .down, some 1),
       (.linkSignalLost l, ph != .disabled && ph != .quarantined, .down, some 3),
       (.linkRetryExhausted l, ph != .quarantined && (s.link l.val).carriesLocal && decide (16 ≤ (s.link l.val).replays), .down,
         some 2),
       (.linkRetrain l, ph != .disabled && ph != .quarantined, .training, none),
       (.linkReleaseQuarantine l, ph == .quarantined, .discovery, none),
       (.linkDisable l, ph != .disabled && ph != .quarantined, .disabled, some 4),
       (.linkEnable l, ph == .disabled, .training, none)] →
    (ok = false → ph ≠ .quarantined ∨ c ∉ [Instr.linkSignalLost l, .linkRetryExhausted l] → exec c s = .next s) ∧
    (ph = .quarantined → c = .linkSignalLost l ∨ c = .linkRetryExhausted l ∧ 16 ≤ (s.link l.val).replays →
      ∃ t, exec c s = .next t ∧ (t.link l.val).phase = .quarantined ∧ (t.link l.val).retry = [] ∧ (t.link l.val).queue = [] ∧
        (∀ n, n ≠ l.val → { t.link n with owed := (s.link n).owed } = s.link n) ∧ t.mem = s.mem ∧ t.fe = s.fe ∧
        t.ten = s.ten) ∧
    (ok = true → ∃ t, exec c s = .next t ∧ (t.link l.val).phase = to' ∧
      (∀ n, cause = some n → t.param (P.linkDownCause l.val) = n) ∧
      (to' ≠ .discovery → (t.link l.val).retry = [] ∧ (t.link l.val).queue = []) ∧
      (∀ n, n ≠ l.val → { t.link n with owed := (s.link n).owed } = s.link n) ∧
      t.mem = s.mem ∧ t.cells = s.cells ∧ t.fe = s.fe ∧ t.rind = s.rind ∧ t.beat = s.beat ∧ t.job = s.job ∧
      t.adm = s.adm ∧ t.kv = s.kv ∧ t.ten = s.ten ∧ t.boot = s.boot)

/-- Link-layer control (R365 to R368). -/
def Obligations.LinkLayerControl : Prop :=
  (∀ (l : LinkId) (f : LlcF) (s : State) (c : Instr), c ∈ [Instr.creditAck l f, .idle l f, .retryReq l f] →
    (s.link l.val).carriesLocal = false → exec c s = .next s) ∧
  (∀ (l : LinkId) (f : LlcF) (s : State) (c : Instr), c ∈ [Instr.creditAck l f, .idle l f] →
    (s.link l.val).carriesLocal = true → (s.link l.val).queue = [] →
    ∃ t, exec c s = .next t ∧
      (∀ v, v < (s.link l.val).credits.length →
        (t.link l.val).credits.getD v 0 = min 64 ((s.link l.val).credits.getD v 0 + bits f.credit.toNat (8 * v) 8)) ∧
      (t.link l.val).retry =
        (if ((s.link l.val).txSeq - 1 - f.ackSeq).toNat < (s.link l.val).retry.length then
          (s.link l.val).retry.drop ((s.link l.val).retry.length - ((s.link l.val).txSeq - 1 - f.ackSeq).toNat)
        else (s.link l.val).retry) ∧
      (∀ n, n ≠ l.val → t.link n = s.link n) ∧ { t with fab := s.fab } = s) ∧
  (∀ (l : LinkId) (f : LlcF) (s : State) (held : List Flit), (s.link l.val).carriesLocal = true →
    (s.link l.val).queue = [] →
    held = (if ((s.link l.val).txSeq - 1 - f.ackSeq).toNat < (s.link l.val).retry.length then
          (s.link l.val).retry.drop ((s.link l.val).retry.length - ((s.link l.val).txSeq - 1 - f.ackSeq).toNat)
        else (s.link l.val).retry) →
    0 < ((s.link l.val).txSeq - f.retrySeq).toNat → ((s.link l.val).txSeq - f.retrySeq).toNat ≤ held.length →
    ∃ t, exec (.retryReq l f) s = .next t ∧
      t.out = s.out ++ (((held.drop (held.length - ((s.link l.val).txSeq - f.retrySeq).toNat)).map replayed).zipIdx.map
        (fun x => Output.flit l.val (flitBytes (f.retrySeq + BitVec.ofNat 12 x.2) x.1))) ∧
      (t.link l.val).txSeq = (s.link l.val).txSeq ∧ (t.link l.val).retry.length = held.length ∧
      t.param (P.retries l.val) = (s.param (P.retries l.val) + 1) % paramModulus (P.retries l.val)) ∧
  (∀ (l : LinkId) (s : State), (s.link l.val).carriesLocal = true →
    (∃ t b, exec (.llcAckDue l) s = .next t ∧ t.out = s.out ++ [.flit l.val b] ∧
      (t.link l.val).owed = List.replicate 8 0 ∧ (t.link l.val).rxSeq = (s.link l.val).rxSeq ∧
      (∀ n, n ≠ l.val → t.link n = s.link n) ∧ t.mem = s.mem ∧ t.fe = s.fe ∧ t.dict = s.dict) ∧
    (∃ t b, exec (.flitCrcFail l) s = .next t ∧ t.out = s.out ++ [.flit l.val b] ∧
      t.param (P.crcErrors l.val) = (s.param (P.crcErrors l.val) + 1) % paramModulus (P.crcErrors l.val) ∧
      (t.link l.val).rxSeq = (s.link l.val).rxSeq ∧ (∀ n, n ≠ l.val → t.link n = s.link n) ∧ t.mem = s.mem ∧
      t.fe = s.fe))

/-- Discovery on a link (R374 to R377, R387). -/
def Obligations.DiscoveryBringsLinksUp : Prop :=
  (∀ (l : LinkId) (h : HelloF) (s : State),
    ((s.link l.val).phase = .discovery ∨ (s.link l.val).phase = .mismatch → (s.link l.val).latencyKnown = true →
      s.helloFault l.val h = none →
      ∃ t, exec (.hello l h) s = .next t ∧ (t.link l.val).phase = .up ∧
        t.param (P.partnerLink l.val) = h.link.val ∧ t.param (P.partnerFeed l.val) = h.feedId.toNat ∧
        t.param (P.partnerId l.val) = (h.deviceId.map (·.toNat)).getD 0xFFFF ∧
        (∀ n, n ≠ l.val → t.link n = s.link n) ∧ t.mem = s.mem ∧ t.fe = s.fe) ∧
    ((s.link l.val).phase = .discovery ∨ (s.link l.val).phase = .up → s.helloFault l.val h ≠ none →
      ∃ t, exec (.hello l h) s = .next t ∧ (t.link l.val).phase = .mismatch ∧
        (∀ w ∈ (t.link l.val).queue, linkLocal w.flit = true) ∧
        (∀ n, n ≠ l.val → { t.link n with owed := (s.link n).owed } = s.link n) ∧ t.mem = s.mem ∧ t.fe = s.fe)) ∧
  (∀ (l : LinkId) (t1 t2 t3 : W64) (launch : BitVec 6) (s : State), (s.link l.val).carriesLocal = true → launch ≠ 63 →
    (s.link l.val).queue = [] → 0 < (s.link l.val).credits.getD 6 0 → (s.link l.val).retry.length < 512 →
    ∃ t xs h, exec (.probe l t1 t2 t3 launch) s = .next t ∧
      t.out = s.out ++ xs ++ [.flit l.val (flitBytes (s.link l.val).txSeq
        ⟨h, leBytes 32 (0x05 * 2 ^ 248 + t2.toNat * 2 ^ 128 + t1.toNat * 2 ^ 64 + t3.toNat)⟩)] ∧
      t.mem = s.mem ∧ t.fe = s.fe ∧ t.dict = s.dict) ∧
  (∀ (l : LinkId) (t1 t2 t3 t4 : W64) (launch : BitVec 6) (s : State), (s.link l.val).phase = .discovery →
    (s.link l.val).latencyKnown = false → launch ≠ 63 →
    ∃ t, exec (.probeReply l t1 t2 t3 t4 launch) s = .next t ∧
      (t.link l.val).probes = (s.link l.val).probes ++ [((t4 - t1) - (t3 - t2)).toNat] ∧
      ((s.link l.val).probes.length = 15 → t.param (P.linkLatency l.val) =
        roundSixteenths ((s.link l.val).probes.foldl min ((t4 - t1) - (t3 - t2)).toNat)) ∧
      t.mem = s.mem ∧ t.fe = s.fe) ∧
  (∀ (s : State), ∃ t, exec .helloInterval s = .next t ∧
    (∀ n, n < 48 → (s.link n).phase ≠ .discovery → (s.link n).phase ≠ .up → (s.link n).phase ≠ .quarantined →
      { t.link n with owed := (s.link n).owed } = s.link n) ∧
    (∀ n, n < 48 → ((s.link n).phase = .discovery ∨ (s.link n).phase = .up ∨ (s.link n).phase = .quarantined) →
      (s.link n).queue = [] → 0 < (s.link n).credits.getD 6 0 → (s.link n).retry.length < 512 →
      ∃ h, Output.flit n (flitBytes (s.link n).txSeq ⟨h, s.helloPayload n⟩) ∈ t.out) ∧
    t.mem = s.mem ∧ t.fe = s.fe ∧ t.dict = s.dict) ∧
  (∀ (l : LinkId) (code : Byte) (n : W16) (h : W64) (s : State), (s.link l.val).carriesLocal = true →
    ∃ t, exec (.violation l code n h) s = .next t ∧ (t.link l.val).rxSeq = (s.link l.val).rxSeq + 1 ∧
      (t.link l.val).phase = (s.link l.val).phase ∧ t.dict = s.dict ∧ t.mem = s.mem ∧ t.fe = s.fe)

/-- Routes (R380 to R382). -/
def Obligations.RoutesSealAndCommit : Prop :=
  (∀ (gen : W32) (s : State), ∃ t, exec (.routeSeal gen) s = .next t ∧ t.param P.routeGenPending = gen.toNat ∧
    ((s.setParam P.routeGenPending gen.toNat).routeFault = none →
      t.param P.routeStatus = 1 ∧ t.fab.sealed = true ∧ t.fab.sealedGen = gen) ∧
    (∀ x, (s.setParam P.routeGenPending gen.toNat).routeFault = some x →
      t.param P.routeStatus = 3 ∧ t.param P.routeRefuseDetail = x ∧ t.fab.sealed = false) ∧
    (∀ d : DieId, t.blob (P.routeActive d.val) = s.blob (P.routeActive d.val)) ∧ t.mem = s.mem ∧ t.fe = s.fe) ∧
  (∀ (s : State), s.param P.routeCommitBeat ≠ s.beat.count → exec .routeCommit s = .next s) ∧
  (∀ (s : State), s.param P.routeCommitBeat = s.beat.count → s.fab.sealed = true → s.beat.kind = .free →
    ∃ t, exec .routeCommit s = .next t ∧ t.param P.routeStatus = 2 ∧ t.fab.sealed = false ∧
      t.param P.routeGenActive = s.fab.sealedGen.toNat ∧
      (∀ d : DieId, t.blob (P.routeActive d.val) = s.blob (P.routePending d.val)) ∧
      (∀ n, n < 48 → t.param (P.order0Active n) = s.param (P.order0Pending n) ∧
        t.param (P.order1Active n) = s.param (P.order1Pending n)) ∧ t.mem = s.mem ∧ t.fe = s.fe) ∧
  (∀ (s : State), s.param P.routeCommitBeat = s.beat.count → (s.fab.sealed = false ∨ s.beat.kind ≠ .free) →
    ∃ t, exec .routeCommit s = .next t ∧ (s.fab.sealed = true → t.param P.routeStatus = 4) ∧
      (∀ d : DieId, t.blob (P.routeActive d.val) = s.blob (P.routeActive d.val)) ∧
      t.param P.routeGenActive = s.param P.routeGenActive ∧ t.mem = s.mem ∧ t.fe = s.fe) ∧
  (∀ (d : DieId) (l : LinkId) (lv : BitVec 1) (f : Flit) (s : State) (e n : Nat),
    (s.link l.val).phase = .up → s.headerFault (some (l.val, flitChannel f)) f = none → (s.front d).inReset = false →
    s.param P.deviceId ≠ f.hdr.dstDev.toNat → e = s.routeEntry d f.hdr.dstDev.toNat → e.testBit 63 = true →
    e.testBit (29 + inputBit (.link l lv)) = true → (s.passOn l.val f).isSome = true → entryPort e < 12 → n = 12 * d.val + entryPort e → n ≠ l.val →
    (s.link n).phase = .up → (s.link n).queue = [] → (s.link n).retry.length < 512 →
    0 < (s.link n).credits.getD (2 * f.hdr.cls.toNat + (BitVec.ofNat 1 (entryLevel e)).toNat) 0 →
    ∃ t xs, exec (.routedFlitForward d (.link l lv) f) s = .next t ∧
      t.out = s.out ++ xs ++ [.flit n (flitBytes (s.link n).txSeq
        { f with hdr := { f.hdr with level := BitVec.ofNat 1 (entryLevel e) } })] ∧
      (t.link n).txSeq = (s.link n).txSeq + 1 ∧ t.mem = s.mem ∧ t.fe = s.fe ∧ t.cells = s.cells)

/-- Ring control and MSI-X (R335 to R337, R355, R356). -/
def Obligations.RingsEnableAndDrain : Prop :=
  (∀ (r : RingId) (pi ci : W32) (s : State),
    (s.hubUp = true → (s.ring r.val).phase = .disabled → s.ringParamsOk r.val = true →
      ∃ t, exec (.ringEnable r pi ci) s = .next t ∧
        t.ring r.val = { phase := .enabled, pi := pi, sqCi := pi, cpl := ci, cqCi := ci,
                         statusDirty := !s.beat.snapTaken, piHeld := true, ciHeld := true } ∧
        (∀ k, k ≠ r.val → t.ring k = s.ring k) ∧
        t.out = s.out ++ (if s.beat.snapTaken then
            [.statusLine r.val (s.param (P.statusLine r.val)) (statusLineBytes (t.ring r.val) (s.beat.count + 1))] else []) ++
          [.readShared (s.param (P.piLine r.val)), .readShared (s.param (P.cqCiLine r.val))] ∧
        SameData s t ∧ SameControl s t ∧ t.log = s.log ∧ t.dict = s.dict) ∧
    ((s.ring r.val).phase ≠ .disabled ∨ s.ringParamsOk r.val = false → exec (.ringEnable r pi ci) s = .next s)) ∧
  (∀ (r : RingId) (s : State), s.hubUp = true →
    ∃ t, exec (.ringReset r) s = .next t ∧ (t.ring r.val).phase = .draining ∧
      (∀ i x, t.adm.requests.find? i = some x → x.id.ring = r → x.phase ≠ .queued ∧ x.leaving.isSome = true) ∧
      SameData s t ∧ t.job = s.job ∧ t.beat = s.beat ∧ t.ten = s.ten ∧ t.boot = s.boot) ∧
  (∀ (r : RingId) (s : State),
    ((s.ring r.val).phase = .draining → (s.ring r.val).outstanding = [] →
      ∃ t, exec (.ringDrained r) s = .next t ∧ (t.ring r.val).phase = .disabled ∧
        (t.ring r.val).statusDirty = !s.beat.snapTaken ∧
        (t.param P.ringsQuarantined).testBit r.val = false ∧ (∀ k, k ≠ r.val → t.ring k = s.ring k) ∧
        SameData s t ∧ SameControl s t ∧ t.log = s.log ∧
        t.out = s.out ++ (if s.beat.snapTaken then
          [.statusLine r.val (s.param (P.statusLine r.val)) (statusLineBytes (t.ring r.val) (s.beat.count + 1))] else [])) ∧
    ((s.ring r.val).phase ≠ .draining ∨ (s.ring r.val).outstanding ≠ [] → exec (.ringDrained r) s = .next s)) ∧
  (∀ (v : BitVec 11) (s : State), ∃ t, exec (.msixVectorUnmask v) s = .next t ∧
    t.host.maskedVectors.getD v.toNat true = false ∧
    (∀ k, k ≠ v.toNat → t.host.maskedVectors.getD k true = s.host.maskedVectors.getD k true) ∧ t.host.pendingVectors.getD v.toNat false = false ∧
    t.out = (if s.host.pendingVectors.getD v.toNat false then s.out ++ [.msix v.toNat] else s.out) ∧
    SameData s t ∧ SameControl s t ∧ t.log = s.log ∧ t.dict = s.dict)

/-- Index lines and entries (R334, R353). -/
def Obligations.IndexLinesAreFollowed : Prop :=
  (∀ (r : RingId) (s : State), (s.ring r.val).phase = .enabled →
    (∃ t, exec (.snoopInvalidation r .producer) s = .next t ∧ t.ring r.val = { s.ring r.val with piHeld := false } ∧
      t.out = s.out ++ [.readShared (s.param (P.piLine r.val))] ∧ SameData s t ∧ SameControl s t) ∧
    (∃ t, exec (.snoopInvalidation r .consumer) s = .next t ∧ t.ring r.val = { s.ring r.val with ciHeld := false } ∧
      t.out = s.out ++ [.readShared (s.param (P.cqCiLine r.val))] ∧ SameData s t ∧ SameControl s t)) ∧
  (∀ (r : RingId) (v : W32) (s : State), (s.ring r.val).phase = .enabled → (v - (s.ring r.val).pi).toNat < 2 ^ 31 →
    (v - (s.ring r.val).sqCi).toNat ≤ s.param (P.sqSize r.val) →
    ∃ t, exec (.indexLineRead r .producer v) s = .next t ∧ t.ring r.val = { s.ring r.val with pi := v, piHeld := true } ∧
      t.out = s.out ++ (List.range (v - (s.ring r.val).pi).toNat).flatMap (fun i =>
        let a := s.param (P.sqBase r.val) +
          ((s.ring r.val).pi + BitVec.ofNat 32 i).toNat % s.param (P.sqSize r.val) * 128
        [Output.readCurrent a, Output.readCurrent (a + 64)]) ∧ SameData s t ∧ SameControl s t ∧ t.log = s.log) ∧
  (∀ (r : RingId) (v : W32) (s : State), (s.ring r.val).phase = .enabled → (v - (s.ring r.val).cqCi).toNat < 2 ^ 31 →
    ((v - (s.ring r.val).cpl).toNat = 0 ∨ 2 ^ 31 ≤ (v - (s.ring r.val).cpl).toNat) →
    ∃ t, exec (.indexLineRead r .consumer v) s = .next t ∧ t.ring r.val = { s.ring r.val with cqCi := v, ciHeld := true } ∧
      t.out = s.out ∧ SameData s t ∧ SameControl s t ∧ t.log = s.log) ∧
  (∀ (r : RingId) (w : IndexLine) (v : W32) (cause : Nat) (s : State), (s.ring r.val).phase = .enabled →
    (w = .producer ∧ cause = 1 ∧ 2 ^ 31 ≤ (v - (s.ring r.val).pi).toNat ∨
      w = .producer ∧ cause = 2 ∧ v ≠ (s.ring r.val).pi ∧ (v - (s.ring r.val).pi).toNat < 2 ^ 31 ∧
        s.param (P.sqSize r.val) < (v - (s.ring r.val).sqCi).toNat ∨
      w = .consumer ∧ cause = 3 ∧ 2 ^ 31 ≤ (v - (s.ring r.val).cqCi).toNat ∨
      w = .consumer ∧ cause = 4 ∧ v ≠ (s.ring r.val).cqCi ∧ (v - (s.ring r.val).cqCi).toNat < 2 ^ 31 ∧
        1 ≤ (v - (s.ring r.val).cpl).toNat ∧ (v - (s.ring r.val).cpl).toNat < 2 ^ 31) →
    ∃ t, exec (.indexLineRead r w v) s = .next t ∧ (t.ring r.val).phase = .quarantined ∧ (t.ring r.val).cause = cause ∧
      (t.ring r.val).pi = (s.ring r.val).pi ∧ (t.ring r.val).cqCi = (s.ring r.val).cqCi ∧
      (t.ring r.val).sqCi = (s.ring r.val).sqCi ∧ (t.ring r.val).cpl = (s.ring r.val).cpl ∧
      (t.param P.ringsQuarantined).testBit r.val = true ∧
      LastEvent t Ev.ringQuarantined [(1, r.val), (1, cause), (4, v.toNat)] ∧ SameData s t ∧ SameControl s t) ∧
  (∀ (r : RingId) (n : W32) (b : List Byte) (s : State), (s.ring r.val).phase = .enabled →
    (n - (s.ring r.val).sqCi).toNat < ((s.ring r.val).pi - (s.ring r.val).sqCi).toNat →
    (∀ x ∈ (s.ring r.val).fetched, x.1 ≠ n) →
    ∃ t, exec (.entryFetchComplete r n b) s = .next t ∧
      t.ring r.val = { s.ring r.val with fetched := (s.ring r.val).fetched ++ [(n, b)] } ∧ SameData s t ∧
      SameControl s t ∧ t.out = s.out) ∧
  (∀ (r : RingId) (w : IndexLine) (v n : W32) (b : List Byte) (c : Instr) (s : State), (s.ring r.val).phase ≠ .enabled →
    c ∈ [Instr.snoopInvalidation r w, .indexLineRead r w v, .entryFetchComplete r n b] → exec c s = .next s)

/-- Consumption of ring commands (R33, R338): now, or from the next cycle once the snapshot of the beat has been taken. -/
def Obligations.RingCommandsAreConsumed : Prop :=
  ∀ (e : EntryId) (f : SubmitF) (g : BundleF) (tag : W64) (a b q p : Nat) (keep : Bool) (c : Instr) (s : State),
    c ∈ [Instr.submit e f, .cancel e tag, .adapterRegister e a b, .adapterEvictCache e a, .adapterEvictRevoke e a,
      .bundleDefine e g, .bundleRelease e a, .pageEditKeep e q keep, .pageEditRelease e q, .pageEditTruncate e q p,
      .pageEditDrop e q p, .pageEditPark e q, .pageEditUnpark e q, .contextPrefill e a b p, .checkpoint e a b p] →
    (s.beat.snapTaken = false → s.mayConsume e.ring.val = true → (needsIndex c = true → s.hasIndex = true) →
      ∃ t, exec c s = .next t ∧ (t.ring e.ring.val).sqCi = e.n + 1 ∧ (t.ring e.ring.val).statusDirty = true ∧
        t.adm.consumed = s.adm.consumed + 1 ∧ t.kv.live = s.kv.live ∧ SameData s t ∧ t.job = s.job ∧ t.beat = s.beat ∧
        t.ten = s.ten ∧ t.res = s.res ∧ t.boot.dev = s.boot.dev ∧ t.pending = s.pending) ∧
    (s.beat.snapTaken = false → s.mayConsume e.ring.val = false ∨ (needsIndex c = true ∧ s.hasIndex = false) →
      exec c s = .next s) ∧
    (s.beat.snapTaken = true → exec c s = .next (if (s.ring e.ring.val).phase = .enabled then
      { s with adm := { s.adm with heldCmds := s.adm.heldCmds ++ [(e, c)] } } else s))

/-- Request, adapter, bundle, context and checkpoint commands (R245, R249, R343 to R347). -/
def Obligations.RequestCommandsTakeEffect : Prop :=
  (∀ (e : EntryId) (f : SubmitF) (s : State) (tg : Target) (span i : Nat), s.beat.snapTaken = false →
    s.mayConsume e.ring.val = true →
    firstBad (submitChecks f) = none → (s.consume e).asOfStepTwo.submitCheck f = .ok (tg, span) →
    firstGap 65536 0 s.adm.requests = some i →
    ∃ t x, exec (.submit e f) s = .next t ∧ t.adm.requests.find? i = some x ∧ x.phase = .queued ∧ x.id = e ∧ x.f = f ∧
      x.isContext = false ∧ x.span = span ∧ x.punnet = punnetOf span ∧ x.order = s.adm.nextOrder ∧
      t.adm.nextOrder = s.adm.nextOrder + 1 ∧ (∀ j, j ≠ i → t.adm.requests.find? j = s.adm.requests.find? j)) ∧
  (∀ (e : EntryId) (tag : W64) (s : State), s.beat.snapTaken = false → s.mayConsume e.ring.val = true →
    ∃ t, exec (.cancel e tag) s = .next t ∧
      ∀ i x, t.adm.requests.find? i = some x → x.id.ring = e.ring → x.id.tag = tag →
        x.phase ≠ .queued ∧ x.leaving.isSome = true) ∧
  (∀ (e : EntryId) (o n h page : Nat) (s : State), s.beat.snapTaken = false → s.mayConsume e.ring.val = true →
    o % 4096 = 0 → 256 ≤ n →
    s.inWindow o n = true → recordOk (s.windowGet o n) n = true → s.registerFault (s.windowGet o n) = none →
    s.storeRun (storePagesOf (fieldLE (s.windowGet o n) 100 4) (fieldLE (s.windowGet o n) 128 4)
      (fieldLE (s.windowGet o n) 112 8) (s.param P.fillChunkBlocks)) = some page →
    firstGap 8192 0 s.adm.adapters = some h →
    ∃ t a, exec (.adapterRegister e o n) s = .next t ∧ t.adm.adapters.find? h = some a ∧ a.copied = false ∧
      a.storePage = page ∧ a.serial = s.adm.nextSerial ∧ t.boot.hub = s.boot.hub ++ [.register h (some e) o] ∧
      (∀ j, j ≠ h → t.adm.adapters.find? j = s.adm.adapters.find? j)) ∧
  (∀ (e : EntryId) (h : Nat) (g : BundleF) (c : Instr) (x : LateCmd) (s : State), s.beat.snapTaken = false →
    s.mayConsume e.ring.val = true → h ≤ 8191 → g.bundle ≤ 8191 → g.handle ≤ 8191 →
    (c, x) ∈ [(Instr.adapterEvictCache e h, LateCmd.evictCache h), (.adapterEvictRevoke e h, .evictRevoke h),
      (.bundleDefine e g, .bundleDefine g), (.bundleRelease e h, .bundleRelease h)] →
    ∃ t, exec c s = .next t ∧ t.adm.late = s.adm.late ++ [(e, x)] ∧ t.adm.adapters = s.adm.adapters ∧
      t.adm.bundles = s.adm.bundles ∧ t.adm.requests = s.adm.requests ∧ t.out = s.out) ∧
  (∀ (e : EntryId) (m n o i : Nat) (s : State), s.beat.snapTaken = false → s.mayConsume e.ring.val = true → firstBad (prefillChecks n o) = none →
    s.inWindow o (4 * n) = true → (s.liveMatterSlot m).isSome = true →
    contextRows n (s.param P.kvFormat) * s.rowEntries ≤ s.kvFrameCount → firstGap 65536 0 s.adm.requests = some i →
    ∃ t x, exec (.contextPrefill e m n o) s = .next t ∧ t.adm.requests.find? i = some x ∧ x.phase = .queued ∧ x.id = e ∧
      x.isContext = true ∧ x.matter = m ∧ x.f.promptTokens = n ∧ x.f.promptOffset = o ∧ x.seq = s.freeSeq) ∧
  (∀ (e : EntryId) (h dst n : Nat) (s : State), s.beat.snapTaken = false → s.mayConsume e.ring.val = true →
    dst % 4096 = 0 → s.windowBytes ≠ 0 →
    (h ≤ 8191 ∧ (s.adapter? h).isSome = true ∧ s.inTraining h = true ∨
      h = 0xFFFF ∧ s.jobActive = true ∧ s.job.trains ≠ [] →
      ∃ t, exec (.checkpoint e h dst n) s = .next t ∧
        t.boot.hub = s.boot.hub ++ [.checkpoint e h dst n none] ∧ t.out = s.out) ∧
    (∀ a, h ≤ 8191 → s.adapter? h = some a → s.inTraining h = false → (s.recordBytesOf a).length ≤ n →
      s.inWindow dst (s.recordBytesOf a).length = true →
      ∃ t, exec (.checkpoint e h dst n) s = .next t ∧
        t.boot.hub = s.boot.hub ++ [.checkpoint e h dst n (some (.ok, s.recordBytesOf a, 0))] ∧
        (NoCorrected s → (∀ d b, s.blockTrip true d b = none) → t.out = s.out)))

/-- PAGE_EDIT (R317, R318, R319, R323); that an edit whose entries do not fit into the set waits is log entry 170. -/
def Obligations.PageEditsEnterTheEditSet : Prop :=
  (∀ (e : EntryId) (q p : Nat) (keep : Bool) (c : Instr) (s : State), s.beat.snapTaken = false → s.mayConsume e.ring.val = true →
    s.nextSeq q = none →
    c ∈ [Instr.pageEditKeep e q keep, .pageEditRelease e q, .pageEditTruncate e q p, .pageEditDrop e q p,
      .pageEditPark e q, .pageEditUnpark e q] →
    exec c s = .next ((s.consume e).markStepTwo.postStatus e opPageEdit .seqUnknown)) ∧
  (∀ (e : EntryId) (q p : Nat) (keep : Bool) (c : Instr) (x : PageEdit) (r : SeqRec) (s : State),
    s.beat.snapTaken = false → s.mayConsume e.ring.val = true → s.nextSeq q = some r →
    (c, x) ∈ [(Instr.pageEditKeep e q keep, PageEdit.keep keep), (.pageEditRelease e q, .release),
      (.pageEditTruncate e q p, .truncate p), (.pageEditDrop e q p, .drop p), (.pageEditPark e q, .park),
      (.pageEditUnpark e q, .unpark)] → editAllowed x r.phase r.filling = false →
    exec c s = .next ((s.consume e).markStepTwo.postStatus e opPageEdit .seqBusy)) ∧
  (∀ (e : EntryId) (q p : Nat) (keep : Bool) (r : SeqRec) (s : State), s.beat.snapTaken = false → s.mayConsume e.ring.val = true →
    s.nextSeq q = some r → s.moving q = false → s.editWaits q = false →
    let edited := fun (x : PageEdit) => (State.applyEdit (s.consume e).markStepTwo e q r x).1
    let fits := fun (x : PageEdit) => s.kv.editCount = 0 ∨ (edited x).editRoom 0 = true
    (editAllowed (.keep keep) r.phase r.filling = true →
      ∃ t, exec (.pageEditKeep e q keep) s = .next t ∧ t.nextSeq q = some { r with keep := keep } ∧
        t.kv.live = s.kv.live ∧ t.kv.done = s.kv.done ++ [(e, .ok)] ∧ t.out = s.out) ∧
    (r.phase ≠ .opened → s.contextHeld q = false → fits .release →
      ∃ t, exec (.pageEditRelease e q) s = .next t ∧ t.nextSeq q = none ∧
        (∀ j, j ≠ q → t.nextSeq j = s.nextSeq j) ∧ t.kv.live = s.kv.live ∧ t.kv.done = s.kv.done ++ [(e, .ok)] ∧
        t.out = s.out) ∧
    (r.phase = .kept → p ≤ r.length → fits (.truncate p) →
      ∃ t x, exec (.pageEditTruncate e q p) s = .next t ∧ t.nextSeq q = some x ∧ x.length = p ∧
        (∀ j, j ≠ q → t.nextSeq j = s.nextSeq j) ∧ t.kv.live = s.kv.live ∧ t.kv.done = s.kv.done ++ [(e, .ok)] ∧
        t.out = s.out) ∧
    ((r.phase = .kept ∨ r.phase = .contextHbm) → s.contextHeld q = false → p < r.length → fits (.drop p) →
      ∃ t x, exec (.pageEditDrop e q p) s = .next t ∧ t.nextSeq q = some x ∧
        x.droppedFrom = some (min (p / kvTpp r.fmt * kvTpp r.fmt) (r.droppedFrom.getD (p / kvTpp r.fmt * kvTpp r.fmt))) ∧ (∀ j, j ≠ q → t.nextSeq j = s.nextSeq j) ∧
        t.kv.live = s.kv.live ∧ t.kv.done = s.kv.done ++ [(e, .ok)] ∧ t.out = s.out) ∧
    (∀ c x, (c, x) ∈ [(Instr.pageEditRelease e q, PageEdit.release), (.pageEditTruncate e q p, .truncate p),
        (.pageEditDrop e q p, .drop p)] → editAllowed x r.phase r.filling = true → editInRange x r.length = true →
      (editDefers x = true → s.contextHeld q = false) → s.kv.editCount ≠ 0 → s.kv.editCount < (edited x).kv.editCount →
      (edited x).editRoom 0 = false →
      ∃ t, exec c s = .next t ∧ t.kv = { s.kv with deferred := s.kv.deferred ++ [(e, q, x)] } ∧ t.out = s.out)) ∧
  (∀ (e : EntryId) (q : Nat) (r : SeqRec) (s : State) (c : Instr) (x : PageEdit), s.beat.snapTaken = false → s.mayConsume e.ring.val = true →
    s.nextSeq q = some r → s.moving q = false → s.editWaits q = false → s.contextHeld q = false → s.rateInForce ≠ 0 →
    (c = .pageEditPark e q ∧ x = .park ∧ r.phase = .contextHbm ∨
      c = .pageEditUnpark e q ∧ x = .unpark ∧ r.phase = .contextParked) →
    ∃ t, exec c s = .next t ∧ t.kv.live = s.kv.live ∧ t.kv.done = s.kv.done ∧
      ((∃ m, t.kv.moves = s.kv.moves ++ [m] ∧ m.seq = q ∧ m.park = decide (x = .park) ∧ m.id = some e ∧
          t.kv.deferred = s.kv.deferred) ∨
        (t.kv.moves = s.kv.moves ∧ t.kv.deferred = s.kv.deferred ++ [(e, q, x)])))

/-- Host accesses of the window (R221, R229 to R232, R331, R332, R354, R494); what a read of memory that is not active yet gives is
free (log entry 209). -/
def Obligations.HostAccessesTheWindow : Prop :=
  (∀ (o : Nat) (s : State), s.hubUp = true → s.host.memActive = true → s.inWindow o 64 = true → s.ten.phase ≠ .scrubbing →
    (s.blockTrip true (windowDie o) (windowBlock o) = none →
      ∃ t xs, exec (.hostMemRead o) s = .next t ∧ t.out = s.out ++ xs ++ [.hostData o (s.windowRead o 64) false] ∧
        t.mem.lpddr = s.mem.lpddr ∧ t.mem.hbm = s.mem.hbm ∧ t.mem.sram = s.mem.sram ∧ t.fe = s.fe ∧ t.cells = s.cells ∧
        SameControl s t) ∧
    (s.blockTrip true (windowDie o) (windowBlock o) ≠ none →
      ∃ t xs, exec (.hostMemRead o) s = .next t ∧ t.out = s.out ++ xs ++ [.hostData o (List.replicate 64 0) true] ∧
        t.mem = s.mem ∧ t.fe = s.fe ∧ t.cells = s.cells ∧ SameControl s t)) ∧
  (∀ (o : Nat) (b : List Byte) (s : State), s.hubUp = true → s.host.memActive = true → s.inWindow o b.length = true → o % 64 + b.length ≤ 64 →
    b ≠ [] → s.ten.phase ≠ .scrubbing →
    (s.blockTrip true (windowDie o) (windowBlock o) = none →
      ∃ t xs, exec (.hostMemWrite o b) s = .next t ∧ t.out = s.out ++ xs ++ [.hostWritten o] ∧
        t.windowRead o b.length = b ∧
        (∀ k, (∀ i, i < b.length → k ≠ windowKey (o + i)) → t.mem.lpddr.read k = s.mem.lpddr.read k) ∧
        t.mem.hbm = s.mem.hbm ∧ t.mem.sram = s.mem.sram ∧ t.mem.plan = s.mem.plan ∧ t.fe = s.fe ∧ t.cells = s.cells ∧
        t.beat = s.beat ∧ t.job = s.job ∧ t.adm = s.adm ∧ t.kv = s.kv) ∧
    (s.blockTrip true (windowDie o) (windowBlock o) ≠ none →
      ∃ t xs, exec (.hostMemWrite o b) s = .next t ∧ t.out = s.out ++ xs ++ [.hostWritten o] ∧ t.mem = s.mem ∧
        SameControl s t)) ∧
  (∀ (o : Nat) (b : List Byte) (s : State), s.hubUp = true → s.host.memActive = true → s.ten.phase = .scrubbing →
    (s.inWindow o 64 = true → ∃ t, exec (.hostMemRead o) s = .next t ∧
      t.out = s.out ++ [.hostData o (List.replicate 64 0) true] ∧ t.mem = s.mem ∧
      t.param P.releaseHostDrops = (s.param P.releaseHostDrops + 1) % paramModulus P.releaseHostDrops) ∧
    (s.inWindow o b.length = true → ∃ t, exec (.hostMemWrite o b) s = .next t ∧ t.out = s.out ++ [.hostWritten o] ∧
      t.mem = s.mem ∧
      t.param P.releaseHostDrops = (s.param P.releaseHostDrops + 1) % paramModulus P.releaseHostDrops)) ∧
  (∀ (o : Nat) (b : List Byte) (s : State), s.boot.dev ≠ .off → s.boot.stage ≠ .resetHeld → s.host.memActive = false →
    (∃ t x p, exec (.hostMemRead o) s = .next t ∧ x.length = 64 ∧ t.out = s.out ++ [.hostData o x p] ∧ t.mem = s.mem ∧
      t.fe = s.fe ∧ SameControl s t) ∧
    (∃ t, exec (.hostMemWrite o b) s = .next t ∧ t.out = s.out ++ [.hostWritten o] ∧ { t with out := s.out } = s)) ∧
  (∀ (o : Nat) (b : List Byte) (s : State), s.host.memActive = true ∨ s.boot.dev = .off ∨ s.boot.stage = .resetHeld →
    s.inWindow o 64 = false ∧ s.inWindow o b.length = false ∨ s.hubUp = false →
    exec (.hostMemRead o) s = .next s ∧ exec (.hostMemWrite o b) s = .next s) ∧
  (∀ (o : Nat) (b : SnoopBlock) (s : State), s.host.snoops.find? (fun x => x.lines.contains o) = some b →
    ((∀ l ∈ b.lines, l = o) → ∃ t, exec (.bisnpResponse o) s = .next t ∧
      ((∀ d id, b.owner ≠ .op d id) →
        t.mem = (s.racePut true (windowDie b.offset) (windowByte b.offset) b.data).mem) ∧
      (∀ d id, b.owner = .op d id →
        t.mem = (s.raceStore (d, id) true (windowDie b.offset) (windowBlock b.offset) b.data).mem) ∧
      (∀ x, b.owner = .restore → s.res.restored = some x → (∀ y ∈ s.host.snoops.erase b, y.owner ≠ .restore) →
        t.res.restored = none ∧ t.param P.restoreResult = (match x with
          | .failed i st => i * 65536 + st
          | .done _ _ => 0)) ∧
      t.host.snoops = s.host.snoops.erase b ∧ t.cells = s.cells ∧ t.job = s.job ∧ t.adm = s.adm ∧ t.kv = s.kv) ∧
    ((∃ l ∈ b.lines, l ≠ o) → ∃ t, exec (.bisnpResponse o) s = .next t ∧
      t.host.snoops = s.host.snoops.map (fun x =>
        if x = b then { b with lines := b.lines.filter (fun l => l != o) } else x) ∧
      { t with host := { t.host with snoops := s.host.snoops } } = s)) ∧
  (∀ (o : Nat) (s : State), s.host.snoops.find? (fun x => x.lines.contains o) = none →
    exec (.bisnpResponse o) s = .next s) ∧
  (∀ (p : CxlProtocol) (s : State), ∃ t, exec (.cxlMalformed p) s = .next t ∧ Output.aer p ∈ t.out ∧
    t.param P.cxlMalformedCount = (s.param P.cxlMalformedCount + 1) % paramModulus P.cxlMalformedCount ∧
    SameData s t ∧ SameControl s t)

/-- Admission of a tenant (R410, R411, R505). That the first condition which fails gives the result, and that the TSP lock posts
NOT_ALLOWED for its own conditions, is log entry 61. -/
def Obligations.AdmitBindsOneTenant : Prop :=
  (∀ (lock : Bool) (rt : Route) (c : Instr) (s : State), c = (if lock then .tspLock else .admitTenant rt) →
    s.boot.dev = .idle → s.ten.scrubRecorded = true →
    1 ≤ (BitVec.ofNat 16 (s.param P.tenantEpochNext) - s.ten.epoch).toNat →
    (BitVec.ofNat 16 (s.param P.tenantEpochNext) - s.ten.epoch).toNat ≤ 32767 →
    (if lock then s.param P.tenantMode = 1 ∧ s.ten.ideIo = true ∧ s.ten.ideMem = true ∧ s.host.spdmSession = true
      else s.param P.tenantMode ≠ 1) →
    ∃ t, exec c s = .next t ∧ t.ten.phase = .bound ∧ t.ten.epoch = BitVec.ofNat 16 (s.param P.tenantEpochNext) ∧
      t.ten.scrubRecorded = false ∧ t.ten.keptKey = none ∧ t.ten.locked = lock ∧ t.ten.release = none ∧
      (t.keySlot 0).state = .active ∧ t.adm.base = .none ∧ t.boot.dev = .admitted ∧ t.param P.tenantResult = 0 ∧
      LastEvent t Ev.tenantAdmitted [(2, t.ten.epoch.toNat), (1, s.param P.tenantMode)] ∧
      { t.mem with tagBad := s.mem.tagBad } = s.mem ∧ t.fe = s.fe ∧
      t.cells = s.cells ∧ t.kv = s.kv ∧ t.job = s.job) ∧
  (∀ (lock : Bool) (rt : Route) (c : Instr) (x : Nat) (s : State), c = (if lock then .tspLock else .admitTenant rt) →
    s.admitFault lock = some x →
    exec c s = .next (s.setParam P.tenantResult x) ∧
      (s.boot.dev ≠ .idle → ¬ (s.boot.dev = .boot ∧ s.ten.scrubRecorded = false) → x = 1) ∧
      (s.boot.dev = .idle ∨ s.boot.dev = .boot → s.ten.scrubRecorded = false → x = 2) ∧
      (s.boot.dev = .idle → s.ten.scrubRecorded = true → s.epochFresh = false → x = 3) ∧
      (s.boot.dev = .idle → s.ten.scrubRecorded = true → s.epochFresh = true → x = if lock then 1 else 4))

/-- Sessions, locks, attestation and DOE (R327, R357, R411, R435, R436). The layout of a measurement report is the model's, log
entry 65. -/
def Obligations.SessionsAndLocks : Prop :=
  (∀ (b : Bool) (s : State), s.hubUp = true → (b = true ∨ s.ten.locked = false) →
    exec (.spdmSession b) s = .next { s with host := { s.host with spdmSession := b } }) ∧
  (∀ (s : State), s.hubUp = true → s.host.spdmSession = true →
    exec (.ideKm .io) s = .next { s with ten := { s.ten with ideIo := true } } ∧
    exec (.ideKm .cachemem) s = .next { s with ten := { s.ten with ideMem := true } }) ∧
  (∀ (x : IdeStream) (s : State), s.host.spdmSession = false → exec (.ideKm x) s = .next s) ∧
  (∀ (x : IdeStream) (s : State),
    ∃ t, exec (.ideLost x) s = .next t ∧ t.ten.ideIo = (s.ten.ideIo && x != .io) ∧
      t.ten.ideMem = (s.ten.ideMem && x != .cachemem) ∧ t.host.spdmSession = (s.host.spdmSession && x != .session) ∧
      (s.ten.locked = false → t.ten.release = s.ten.release ∧ t.log = s.log) ∧
      (s.ten.locked = true → s.ten.release = none →
        t.ten.release = some ⟨.immediate, .ideLost, 0, false⟩ ∧ LastEvent t Ev.tenantReleaseBegun [(1, 3), (1, 1)]) ∧
      SameData s t ∧ t.job = s.job ∧ t.adm = s.adm ∧ t.beat = s.beat) ∧
  (∀ (s : State), (s.ten.locked = false → exec .tspUnlock s = .next s) ∧
    (s.ten.locked = true → s.ten.release = none → ∃ t, exec .tspUnlock s = .next t ∧ t.ten.locked = false ∧
      t.ten.release = some ⟨.orderly, .tspUnlock, 0, false⟩ ∧ LastEvent t Ev.tenantReleaseBegun [(1, 2), (1, 0)] ∧
      SameData s t ∧ t.job = s.job ∧ t.adm = s.adm ∧ t.beat = s.beat)) ∧
  (∀ (nonce : List Byte) (ix : List Nat) (s : State), s.hubUp = true →
    (s.ten.lmsNext < 2 ^ 20 → s.ten.lmsNext ≤ s.ten.lmsLimit → ∃ t a b, exec (.getMeasurements nonce ix) s = .next t ∧
      t.out = s.out ++ [.measurements (nonce ++ ix.flatMap s.measurement) a b] ∧ t.ten.lmsNext = s.ten.lmsNext + 1 ∧
      t.ten.lmsNext ≤ t.ten.lmsLimit ∧ { t with ten := s.ten, out := s.out, free := s.free } = s) ∧
    (2 ^ 20 ≤ s.ten.lmsNext → ∃ t, exec (.getMeasurements nonce ix) s = .next t ∧ LastEvent t Ev.lmsExhausted [] ∧
      t.ten = s.ten ∧ t.mem = s.mem)) ∧
  (∀ (len : Nat) (third : W32) (ws : List W32) (s : State), s.running' = true → 6 ≤ ws.length → ws.length ≤ 1021 →
    (len = ws.length + 3 → exec (.doeObject Config.pciVendorId 1 len (third :: ws)) s
      = exec (.gppRead (parseGpp third.toNat (ws.flatMap (fun w => leBytes 4 w.toNat)))) s) ∧
    (len ≠ ws.length + 3 → len ≠ 0 → exec (.doeObject Config.pciVendorId 1 len (third :: ws)) s
      = .next (s.emit .doeError))) ∧
  (∀ (third : W32) (ws : List W32) (m : GppMsg) (p : Param) (s : State), s.running' = true → s.boot.alwaysOn = true →
    6 ≤ ws.length → ws.length ≤ 1021 → m = parseGpp third.toNat (ws.flatMap (fun w => leBytes 4 w.toNat)) → m.op = 1 →
    messageOk m = true → m.index < 0xF000 → entryOf m = some p → p.type ≠ .blob → s.readFault m p = none →
    s.savesByDoe = false →
    ∃ t, exec (.doeObject Config.pciVendorId 1 (ws.length + 3) (third :: ws)) s = .next t ∧
      t.out = s.out ++ [.response third.toNat true
        (Machine.doeObject third.toNat (s.replyBytes m ⟨0, p.key, p.type.code, 0, s.readValue true p⟩))] ∧
      { t with out := s.out } = s) ∧
  (∀ (v ty len : Nat) (ws : List W32) (s : State), ∃ t, exec (.doeObject v ty len ws) s = .next t ∧
    (s.running' = false ∨ v ≠ Config.pciVendorId ∨ ty ≠ 1 → t = s))

/-- Requests and their answers (R462, R465 to R469, R471). -/
def Obligations.RequestsAreAnsweredOnce : Prop :=
  (∀ (m : GppMsg) (c : Instr) (s : State), c ∈ [Instr.gppRead m, .gppWrite m, .describe m, .save m] →
    (s.boot.alwaysOn = false ∨ m.doe = false ∧ addressed m = false → exec c s = .next s) ∧
    (s.boot.alwaysOn = true → m.doe = false → addressed m = true → ∀ k, s.keptFor m = some k →
      exec c s = .next (s.emit (.response m.source false k.bytes)))) ∧
  (∀ (m : GppMsg) (c : Instr) (s : State), (m.op = 1 ∧ c = .gppRead m ∨ m.op = 3 ∧ c = .describe m) →
    ∃ t, exec c s = .next t ∧
      { t with out := s.out, dict := { t.dict with kept := s.dict.kept, held := s.dict.held } } = s) ∧
  (∀ (m : GppMsg) (p : Param) (s : State), m.op = 1 → s.boot.alwaysOn = true → m.doe = false → addressed m = true →
    s.keptFor m = none → s.stillRuns m = false → messageOk m = true → m.index < 0xF000 → entryOf m = some p → s.readFault m p = none →
    p.type ≠ .blob →
    ∃ t, exec (.gppRead m) s = .next t ∧
      t.out = s.out ++ [.response m.source false (s.replyBytes m ⟨0, p.key, p.type.code, 0, s.readValue false p⟩)]) ∧
  (∀ (m : GppMsg) (p : Param) (st : Nat) (s : State), m.op = 2 → s.boot.alwaysOn = true → m.doe = false →
    addressed m = true → s.keptFor m = none → s.stillRuns m = false → messageOk m = true → m.index < 0xF000 → entryOf m = some p →
    p.type ≠ .blob →
    ((p.acc = .ro ∨ p.acc = .const) ∧ st = 4 ∨
      p.acc ≠ .ro ∧ p.acc ≠ .const ∧ (m.type ≠ p.type.code ∨ m.value.length ≠ p.type.size) ∧ st = 3 ∨
      p.acc ≠ .ro ∧ p.acc ≠ .const ∧ m.type = p.type.code ∧ m.value.length = p.type.size ∧
        s.writeAllowed false p (leNat m.value) = false ∧ (p.key = P.powerCmd → leNat m.value ≠ 1) ∧ st = 6 ∨
      p.acc ≠ .ro ∧ p.acc ≠ .const ∧ m.type = p.type.code ∧ m.value.length = p.type.size ∧
        s.writeAllowed false p (leNat m.value) = true ∧ s.inRange p (leNat m.value) = false ∧ st = 5) →
    ∃ t, exec (.gppWrite m) s = .next t ∧ t.out = s.out ++ [.response m.source false (s.replyBytes m (plainReply m st))] ∧
      { t with out := s.out, dict := { t.dict with kept := s.dict.kept } } = s) ∧
  (∀ (m : GppMsg) (p : Param) (s : State), m.op = 2 → s.boot.alwaysOn = true → m.doe = false → addressed m = true →
    s.keptFor m = none → s.stillRuns m = false → messageOk m = true → m.index < 0xF000 → entryOf m = some p →
    p.acc ≠ .ro → p.acc ≠ .const → m.type = p.type.code →
    (p.type ≠ .blob → m.value.length = p.type.size → s.writeAllowed false p (leNat m.value) = true →
      s.inRange p (leNat m.value) = true →
      ∃ t, exec (.gppWrite m) s = .next t ∧
        (answersFirst p.key (leNat m.value) = false →
          t = (s.applyNumber false p.key (leNat m.value)).reply m (plainReply m 0)) ∧
        (answersFirst p.key (leNat m.value) = true →
          t = (s.reply m (plainReply m 0)).applyNumber false p.key (leNat m.value))) ∧
    (p.type = .blob → s.writeAllowed false p 0 = true → s.dict.staged = none → m.offset = 0 → m.value.length ≤ 1024 →
      s.blobSizeOk p m.total = true →
      (m.flags = 1 → m.value.length = m.total → blobInRange p.key m.value = true →
        exec (.gppWrite m) s = .next ((s.applyBlob p.key m.value).reply m (plainReply m 0))) ∧
      (m.flags ≠ 1 → m.value.length ≤ m.total → ∃ t, exec (.gppWrite m) s = .next t ∧
        t.dict.staged = some ⟨false, p.key / 256, p.key % 256, m.total, m.value⟩ ∧ t.dict.blobs = s.dict.blobs ∧
        t.out = s.out ++ [.response m.source false (s.replyBytes m (plainReply m 0))]))) ∧
  (∀ (m : GppMsg) (r : Reply) (u : State), m.doe = false →
    (u.reply m r).out = u.out ++ [.response m.source false (u.replyBytes m r)] ∧
      { u.reply m r with out := u.out, dict := { (u.reply m r).dict with kept := u.dict.kept } } = u) ∧
  (∀ (doe : Bool) (k v : Nat) (s : State),
    k ∉ [P.deviceCmd, P.powerCmd, P.resetCmd, P.fwCmd, P.tenantCmd, P.matterCmd, P.baseCmd, P.jobCmd, P.standinCmd,
      P.restoreCmd, P.resumeCmd, P.numClear, P.alertAck, P.copyPartner, P.lossApplyBeat, P.kvLayers, P.kvHeads,
      P.routeGenPending] → ¬ (0x2010 ≤ k / 256 ∧ k / 256 ≤ 0x203F) → ¬ (0x2210 ≤ k / 256 ∧ k / 256 ≤ 0x224F) →
    s.applyNumber doe k v = s.setParam k v ∧ (s.setParam k v).param k = v) ∧
  (∀ (i j v : Nat) (p : Param) (s : State), lookupParam (i * 256 + j) = some p → p.acc ≠ .ro → p.acc ≠ .const →
    p.type ≠ .blob → p.type ≠ .str32 →
    (s.writeAllowed true p v = true → s.inRange p v = true →
      exec (.registerWrite i j v) s = .next (s.applyNumber true p.key v)) ∧
    (s.writeAllowed true p v = false ∨ s.inRange p v = false → exec (.registerWrite i j v) s = .next
      (if i * 256 + j = P.powerCmd ∧ v = 1 then s.noteCoolant else s))) ∧
  (∀ (v : Nat) (s : State), s.applyNumber true P.beatSourcePriority v = s.setParam P.beatSourcePriority v ∧
    (s.setParam P.beatSourcePriority v).param P.beatSourcePriority = v) ∧
  (∀ (s : State), s.boot.alwaysOn = true → ∃ t, exec .gppDropped s = .next t ∧
    t.param P.gppDropped = (s.param P.gppDropped + 1) % paramModulus P.gppDropped ∧ SameData s t ∧ SameControl s t) ∧
  (∀ (s : State), exec .blobStageTimeout s = .next { s with dict := { s.dict with staged := none } }) ∧
  (∀ (n : Nat) (s : State), ∃ t, exec (.gppResponseExpire n) s = .next t ∧ (∀ x ∈ t.dict.kept, x.source ≠ n) ∧
    (∀ x ∈ s.dict.kept, x.source ≠ n → x ∈ t.dict.kept) ∧ { t with dict := { t.dict with kept := s.dict.kept } } = s)

/-- SAVE and PARAMS_SAVED (R477). That a SAVE is accepted in BOOT, and that BUSY answers a SAVE during a SAVE alone, is the model's
reading, log entry 119. -/
def Obligations.SavedParametersAlternate : Prop :=
  (∀ (m : GppMsg) (s : State), m.op = 4 → s.boot.alwaysOn = true → m.doe = false → addressed m = true →
    s.keptFor m = none → s.stillRuns m = false → messageOk m = true → s.ten.locked = false → s.boot.dev ≠ .off → s.boot.dev ≠ .fault →
    s.dict.saving = none →
    exec (.save m) s = .next { s with dict := { s.dict with saving := some (m, s.rwpParams, s.rwpBlobs) } }) ∧
  (∀ (ok : Bool) (m : GppMsg) (ps : AMap Nat) (bs : AMap (List Byte)) (s : State),
    s.dict.saving = some (m, ps, bs) →
    ∃ t, exec (.paramsSaved ok) s = .next t ∧ t.dict.saving = none ∧
      t.param P.saveCount = (s.param P.saveCount + 1) % paramModulus P.saveCount ∧
      (ok = true → (∀ c, s.newestCopy = some c → c.generation + 1 < 2 ^ 32) →
        t.newestCopy = some ⟨true, ((s.newestCopy.map (fun c => c.generation + 1)).getD 0), ps, bs⟩) ∧
      (ok = false → t.newestCopy = s.newestCopy) ∧
      (∀ k, isRwp k = true → t.param k = s.param k) ∧ t.dict.blobs = s.dict.blobs ∧ SameData s t ∧ SameControl s t) ∧
  (∀ (ok : Bool) (s : State), s.dict.saving = none → exec (.paramsSaved ok) s = .next s)

/-- Device commands, totals, alerts, calibration, copy partner (R83, R441, R476, R482, R488). That a calibration write may cover part of
an entry is log entry 128; when the hub copies the KV scale table is log entry 192. -/
def Obligations.DeviceCommandsAndCalibration : Prop :=
  (∀ (s : State), s.boot.dev = .halted → s.ten.phase = .bound → s.job.desc ≠ none →
    ∃ t, exec .clearHalt s = .next t ∧ t.boot.dev = .admitted ∧ t.job.desc = none ∧
      (t.job.phase = .loaded ∨ t.job.phase = .none) ∧ (∀ d, (t.front d).haltReq = false ∧ (t.front d).planOpen = false) ∧
      t.param P.deviceResult = 0 ∧ t.param P.recoveryStep = s.param P.recoveryStep ∧ t.mem = s.mem ∧ t.ten = s.ten) ∧
  (∀ (s : State), s.boot.dev ≠ .halted ∨ s.ten.phase ≠ .bound → exec .clearHalt s = .next (s.setParam P.deviceResult 1)) ∧
  (∀ (s : State), s.boot.dev = .idle → s.rind.keying = [] → (∀ d b, s.blockTrip false d b = none) →
    ∃ t, exec .resetDefaults s = .next t ∧ t.param P.deviceResult = 0 ∧
    (∀ k, isRwp k = true → k / 256 ≠ 0x1100 → t.param k = defaultParam k) ∧ LastEvent t Ev.paramsDefaulted [] ∧
    (∀ (d : DieId) (i : Nat), i < 2 * t.param P.kvLayers * t.param P.kvHeads → i < 2 ^ 16 →
      t.mem.hbm.read (extKey d (t.regionFirst .kv * 65536 + i)) = 0x7F) ∧
    (∀ k, InScales t k ∨ t.mem.hbm.read k = s.mem.hbm.read k) ∧ t.mem.lpddr = s.mem.lpddr ∧ t.mem.sram = s.mem.sram ∧
    t.mem.plan = s.mem.plan ∧ t.mem.flash = s.mem.flash ∧ t.fe = s.fe ∧ t.cells = s.cells ∧ t.fab = s.fab ∧
    t.rind.slots = s.rind.slots ∧ t.rind.attrs = s.rind.attrs ∧ t.beat = s.beat ∧ t.job = s.job ∧ t.adm = s.adm ∧
    t.kv = s.kv ∧ t.ten = s.ten ∧ t.boot = s.boot) ∧
  (∀ (s : State), s.boot.dev ≠ .idle → exec .resetDefaults s = .next (s.setParam P.deviceResult 1)) ∧
  (∀ (s : State), s.hubUp = true → ∃ t, exec (.numClear true) s = .next t ∧
    (∀ k ∈ [P.numNanTotal, P.numInfTotal, P.numOverflowTotal, P.numLastNan, P.numLastInf, P.numLastOverflow,
      P.numFirstNonfiniteBeat], t.param k = defaultParam k) ∧ { t with dict := s.dict } = s) ∧
  (∀ (q : W32) (s : State), s.hubUp = true → s.log.acked < 2 ^ 32 → s.log.nextSeq < 2 ^ 32 →
    (q - BitVec.ofNat 32 s.log.acked).toNat ≤ (BitVec.ofNat 32 s.log.nextSeq - BitVec.ofNat 32 s.log.acked).toNat →
    (q - BitVec.ofNat 32 s.log.acked).toNat < 2 ^ 31 →
    ∃ t, exec (.alertAck q) s = .next t ∧ t.log.acked = q.toNat ∧ t.log.records = s.log.records ∧
      t.log.alerted = s.log.alerted.filter t.unacked ∧ (t.log.alertLow = false ↔ t.log.alerted = []) ∧
      { t with log := s.log } = s) ∧
  (∀ (sub o : Nat) (b : List Byte) (s : State), s.boot.dev = .idle → s.ten.locked = false → b ≠ [] →
    o + b.length ≤ (calElements sub).1 * (calElements sub).2.1 →
    calInRange sub (spliced (fitted ((calElements sub).1 * (calElements sub).2.1) (s.blob (0x110000 + sub))) o b) = true →
    1 ≤ sub → sub ≤ 6 →
    ∃ t, exec (.calWritten sub o b) s = .next t ∧
      t.blob (0x110000 + sub) =
        spliced (fitted ((calElements sub).1 * (calElements sub).2.1) (s.blob (0x110000 + sub))) o b ∧
      (∀ x, x ≠ sub → x ≠ 7 → t.blob (0x110000 + x) = s.blob (0x110000 + x)) ∧ SameData s t ∧ SameControl s t) ∧
  (∀ (sub o : Nat) (b : List Byte) (s : State), s.boot.dev ≠ .idle ∨ s.ten.locked = true →
    exec (.calWritten sub o b) s = .next s) ∧
  (∀ (dev : Nat) (s : State),
    (s.copyPartnerFault dev = none → ∃ t, exec (.copyPartnerWrite dev) s = .next t ∧ t.param P.copyPartner = dev ∧
      (dev = s.param P.copyPartner → t.res = s.res) ∧
      (dev ≠ s.param P.copyPartner → t.res = { s.res with lastImage := none }) ∧ { t with dict := s.dict, res := s.res } = s) ∧
    (s.copyPartnerFault dev ≠ none → exec (.copyPartnerWrite dev) s = .next s) ∧
    (s.boot.dev ≠ .idle → s.boot.dev ≠ .admitted → s.copyPartnerFault dev = some 6) ∧
    (dev ≤ 1023 → dev = s.param P.deviceId → s.copyPartnerFault dev ≠ none))

/-- CREATE as it is applied at the boundary (R415): results 0 OK, 1 EXISTS, 2 NO_SLOT. That what the vault draws is the stream of
its DRBG is the model's choice, log entry 9. -/
def Obligations.CreateTakesTheLowestSlot : Prop :=
  (∀ (id : W32) (n : Nat) (s : State), s.adm.matterDue = some (.create id) → s.matterSlot id.toNat = none → 2 ≤ n →
    n ≤ 4095 → (s.keySlot n).state = .free → (∀ j, 2 ≤ j → j < n → (s.keySlot j).state ≠ .free) →
    (s.applyMatter.keySlot n).state = .active ∧ (s.applyMatter.keySlot n).owner = id.toNat ∧
      (s.applyMatter.keySlot n).gen = 0 ∧
      (s.applyMatter.keySlot n).keys = [⟨0, drawnKey s.rind.drawn, drawnKey (s.rind.drawn + 4), drawnKey (s.rind.drawn + 8)⟩] ∧
      s.applyMatter.rind.drawn = s.rind.drawn + 12 ∧ (∀ j, j ≠ n → s.applyMatter.keySlot j = s.keySlot j) ∧
      s.applyMatter.param P.matterResult = 0 ∧ s.applyMatter.param P.matterResultSlot = n ∧
      LastEvent s.applyMatter Ev.matterCreated [(4, id.toNat), (2, n)] ∧ s.applyMatter.adm.matterDue = none) ∧
  (∀ (id : W32) (s : State), s.adm.matterDue = some (.create id) → s.matterSlot id.toNat ≠ none →
    s.applyMatter.param P.matterResult = 1 ∧ s.applyMatter.rind = s.rind) ∧
  (∀ (id : W32) (s : State), s.adm.matterDue = some (.create id) → s.matterSlot id.toNat = none →
    (∀ j, 2 ≤ j → j ≤ 4095 → (s.keySlot j).state ≠ .free) →
    s.applyMatter.param P.matterResult = 2 ∧ s.applyMatter.rind = s.rind)

/-- Matter commands, REMOVE and ROTATE as they are applied, that a boundary applies them and CREATE, and the ends of sweeps and
removals (R414, R416, R420 to R423): results 0 OK, 3 UNKNOWN_MATTER, 4 ROTATE_BUSY, 5 NOT_ALLOWED. That a
REMOVE waits while an adapter of its matter is trained is log entry 66; the generation that ROTATE_DONE names is log entry 191. -/
def Obligations.MatterCommandsWaitAndSweepsEnd : Prop :=
  (∀ (id : W32) (s : State), s.adm.matterDue = some (.remove id) →
    (s.matterSlot id.toNat = none → s.applyMatter.param P.matterResult = 3 ∧ s.applyMatter.rind = s.rind ∧
      s.applyMatter.adm.adapters = s.adm.adapters ∧ s.applyMatter.adm.matterDue = none) ∧
    (∀ n, s.matterSlot id.toNat = some n → (s.keySlot n).state ≠ .removing →
      (s.matterTrained id.toNat = true → s.applyMatter = s) ∧
      (s.matterTrained id.toNat = false →
        s.applyMatter.keySlot n = { s.keySlot n with state := .removing } ∧
        (∀ j, j ≠ n → s.applyMatter.keySlot j = s.keySlot j) ∧ s.applyMatter.param P.matterResult = 0 ∧
        s.applyMatter.adm.matterDue = none ∧
        (∀ h a b, s.adm.adapters.find? h = some a → a.matter = id.toNat →
          s.applyMatter.adm.adapters.find? h = some b → b.revoking = true) ∧
        (∀ x ∈ s.applyMatter.adm.bundles, x.2.adapter ∉ s.matterSerials id.toNat)))) ∧
  (∀ (slot : Nat) (s : State), s.adm.matterDue = some (.rotate slot) →
    ((s.keySlot slot).state = .active → s.sweepOf slot = none →
      ∃ k, s.applyMatter.keySlot slot = ⟨.rotating, (s.keySlot slot).owner, ((s.keySlot slot).gen + 1) % 8,
          k :: (s.keySlot slot).keys.filter (fun x => x.gen == (s.keySlot slot).gen)⟩ ∧
        k.gen = ((s.keySlot slot).gen + 1) % 8 ∧ (∀ j, j ≠ slot → s.applyMatter.keySlot j = s.keySlot j) ∧
        s.applyMatter.sweepOf slot = some ⟨slot, (s.keySlot slot).gen, 0⟩ ∧ s.applyMatter.rind.attrs = s.rind.attrs ∧
        s.applyMatter.param P.matterResult = 0 ∧
        LastEvent s.applyMatter Ev.rotateStarted [(2, slot), (1, ((s.keySlot slot).gen + 1) % 8)] ∧
        s.applyMatter.adm.matterDue = none) ∧
    ((s.keySlot slot).state = .rotating → s.applyMatter.param P.matterResult = 4 ∧ s.applyMatter.rind = s.rind) ∧
    ((s.keySlot slot).state = .free ∨ (s.keySlot slot).state = .removing →
      s.applyMatter.param P.matterResult = 5 ∧ s.applyMatter.rind = s.rind)) ∧
  (∀ (id : W32) (n slot : Nat) (s : State), s.ten.release = none →
    (s.adm.matterDue = some (.create id) → s.matterSlot id.toNat = none → 2 ≤ n → n ≤ 4095 → (s.keySlot n).state = .free →
      (∀ j, 2 ≤ j → j < n → (s.keySlot j).state ≠ .free) →
      ∃ t, exec .beatBoundary s = .next t ∧ (t.keySlot n).state = .active ∧ (t.keySlot n).owner = id.toNat ∧
        t.param P.matterResult = 0 ∧ t.param P.matterResultSlot = n ∧ t.adm.matterDue = none) ∧
    (s.adm.matterDue = some (.remove id) → s.matterSlot id.toNat = some n → s.matterTrained id.toNat = false →
      ∃ t, exec .beatBoundary s = .next t ∧ (t.keySlot n).state = .removing ∧ t.param P.matterResult = 0 ∧
        t.adm.matterDue = none) ∧
    (s.adm.matterDue = some (.rotate slot) → (s.keySlot slot).state = .active →
      ∃ t, exec .beatBoundary s = .next t ∧ (t.keySlot slot).state = .rotating ∧
        (t.keySlot slot).gen = ((s.keySlot slot).gen + 1) % 8 ∧ t.param P.matterResult = 0 ∧ t.adm.matterDue = none)) ∧
  (∀ (id : W32) (slot : Nat) (c : Instr) (x : MatterCmd) (s : State),
    (c, x) ∈ [(Instr.create id, MatterCmd.create id), (.remove id, .remove id), (.rotate slot, .rotate slot)] →
    (s.ten.phase = .bound → s.adm.matterWritten = none → s.adm.matterTaken = none → s.adm.matterDue = none →
      ((∃ y, x = .rotate y) ∨ id ≠ 0 ∧ id ≠ 0xFFFF_FFFF) → slot ≤ 4095 →
      exec c s = .next { s with adm := { s.adm with matterWritten := some x } }) ∧
    (s.ten.phase ≠ .bound ∨ s.adm.matterWritten ≠ none ∨ s.adm.matterTaken ≠ none ∨ s.adm.matterDue ≠ none →
      exec c s = .next s)) ∧
  (∀ (f : W32) (e : KeyingEntry) (old : Nat) (s : State), s.boot.dieWaits = [] →
    s.keyingOf f.toNat = some e → e.sweepOld = some old →
    attrWord (attrSlot (s.attr f.toNat)) (s.genOf (attrSlot (s.attr f.toNat))) ≠ attrWord (attrSlot (s.attr f.toNat)) old →
    ∃ t, exec (.sweepPageDone f) s = .next t ∧
      t.attr f.toNat = attrWord (attrSlot (s.attr f.toNat)) (s.genOf (attrSlot (s.attr f.toNat))) ∧
      t.keyingOf f.toNat = none ∧ (∀ g, g ≠ f.toNat → t.attr g = s.attr g) ∧ t.rind.slots = s.rind.slots ∧
      t.mem = s.mem ∧ t.fe = s.fe ∧ t.adm = s.adm ∧ t.kv = s.kv) ∧
  (∀ (f : W32) (s : State), s.boot.dieWaits = [] → s.keyingOf f.toNat = none → exec (.sweepPageDone f) s = .next s) ∧
  (∀ (f : W32) (s : State), s.boot.dieWaits = [] → ∃ t, exec (.keyingPageDone f) s = .next t ∧
    (∀ e ∈ s.rind.keying, e.frame ≠ f.toNat ∨ e.sweepOld.isSome = true → e ∈ t.rind.keying) ∧
    (∀ e ∈ t.rind.keying, e.sweepOld = none → e ∈ s.rind.keying ∧ e.frame ≠ f.toNat) ∧
    (s.rind.sweeps = [] → ∀ e ∈ t.rind.keying, e ∈ s.rind.keying) ∧ t.rind.attrs = s.rind.attrs ∧ { t with rind := s.rind } = s) ∧
  (∀ (slot : Nat) (w : Sweep) (s : State), s.sweepOf slot = some w → s.pagesLeft slot w.oldGen = 0 →
    ∃ t, exec (.rotateDone slot) s = .next t ∧ (∀ k ∈ (t.keySlot slot).keys, k ∈ (s.keySlot slot).keys ∧ k.gen ≠ w.oldGen) ∧
      (t.keySlot slot).state ≠ .rotating ∧ t.sweepOf slot = none ∧ (∀ j, j ≠ slot → t.keySlot j = s.keySlot j) ∧
      t.param P.rotations = (s.param P.rotations + 1) % paramModulus P.rotations ∧
      LastEvent t Ev.rotateDone [(2, slot), (1, w.oldGen), (4, w.swept)] ∧ t.mem = s.mem ∧ t.fe = s.fe) ∧
  (∀ (slot : Nat) (s : State), s.sweepOf slot = none → exec (.rotateDone slot) s = .next s) ∧
  (∀ (slot : Nat) (s : State),
    ((s.keySlot slot).state = .removing → s.matterEmpty (s.keySlot slot).owner = true →
      ∃ t, exec (.matterRemoved slot) s = .next t ∧ t.keySlot slot = KeySlot.free ∧ t.sweepOf slot = none ∧
        (∀ j, j ≠ slot → t.keySlot j = s.keySlot j) ∧
        LastEvent t Ev.matterRemoved [(4, (s.keySlot slot).owner), (2, slot)] ∧ t.mem = s.mem ∧ t.fe = s.fe) ∧
    ((s.keySlot slot).state ≠ .removing ∨ s.matterEmpty (s.keySlot slot).owner = false →
      exec (.matterRemoved slot) s = .next s))

/-- Release (R427 to R432). That a matter command written but not yet taken is dropped with it is the model's reading, log
entry 67. -/
def Obligations.ReleaseEndsTheTenancy : Prop :=
  (∀ (rt : Route) (mode : ReleaseMode) (b : Nat) (s : State),
    (s.ten.phase = .unbound → exec (.tenantRelease rt mode b) s = .next (s.setParam P.tenantResult 1)) ∧
    (s.ten.phase ≠ .unbound → s.ten.release = none → ∃ t, exec (.tenantRelease rt mode b) s = .next t ∧
      t.ten.release = some ⟨mode, .command, b, false⟩ ∧ t.ten.phase = s.ten.phase ∧ t.param P.tenantResult = 0 ∧
      LastEvent t Ev.tenantReleaseBegun [(1, 1), (1, releaseModeCode mode)] ∧ SameData s t ∧ t.adm = s.adm) ∧
    (∀ r, s.ten.phase ≠ .unbound → s.ten.release = some r → ∃ t, exec (.tenantRelease rt mode b) s = .next t ∧
      t.ten.release = some (if mode = .immediate then { r with mode := .immediate } else r) ∧ t.log = s.log)) ∧
  (∀ (s : State),
    (s.ten.phase = .bound → (∃ r, s.ten.release = some r ∧ r.taken = true) →
      ∃ t, exec .releasing s = .next t ∧ t.ten.phase = .releasing ∧ t.ten.epoch = s.ten.epoch ∧
        t.adm.matterWritten = none ∧ t.adm.matterTaken = none ∧ t.adm.matterDue = none ∧
        (∀ i x, t.adm.requests.find? i = some x → x.phase ≠ .queued) ∧
        (∀ h a, t.adm.adapters.find? h = some a → a.revoking = true) ∧ SameData s t ∧ t.job = s.job) ∧
    (s.ten.phase ≠ .bound ∨ (∀ r, s.ten.release = some r → r.taken = false) → exec .releasing s = .next s)) ∧
  (∀ (s : State), (∀ r, s.ten.phase = .releasing → s.ten.release = some r → r.mode = .immediate →
      s.releaseStopDue = true) ∧
    (s.releaseStopDue = false → exec .releaseStop s = .next s) ∧
    (s.releaseStopDue = true → ∃ t, exec .releaseStop s = .next t ∧ t.ten.phase = .scrubbing ∧
      t.ten.epoch = s.ten.epoch + 1 ∧ t.boot.dev = .halted ∧ t.adm.requests = [] ∧ t.adm.adapters = [] ∧
      t.kv.live.seqs = [] ∧ t.kv.next.seqs = [] ∧ (∀ k, k < 64 → (t.ring k).phase = .disabled) ∧
      t.fab.pendings = [] ∧ t.host.snoops = [] ∧ t.rind.keying = [] ∧
      (∀ d, (t.front d).planOpen = false ∧ (t.front d).running = []) ∧
      (∀ n, n ≠ 1 → t.keySlot n = KeySlot.free) ∧ (t.keySlot 1).state = .active ∧
      { t.mem with tagBad := s.mem.tagBad } = s.mem)) ∧
  (∀ (ms : Nat) (s : State),
    (s.ten.phase = .scrubbing → s.boot.dev = .halted → ∃ t, exec (.scrubComplete ms) s = .next t ∧ t.ten.phase = .unbound ∧
      t.ten.scrubRecorded = true ∧ t.ten.keptKey = (s.keySlot 1).keys.head? ∧ t.ten.epoch = s.ten.epoch ∧
      t.boot.dev = .idle ∧ t.mem.lpddr = [] ∧ (∀ k, InScales t k ∨ t.mem.hbm.read k = 0) ∧ (∀ f, t.attr f = attrWord 1 0) ∧
      t.mem.sramValid = [] ∧ t.mem.plan = [] ∧ t.job.planSet = none ∧ t.job.desc = none ∧ t.haltHeld = false ∧
      LastEvent t Ev.tenantReleased [(1, 1), (4, sat32 ms)]) ∧
    (s.ten.phase ≠ .scrubbing ∨ s.boot.dev ≠ .halted → exec (.scrubComplete ms) s = .next s))

/-- Base installs (R235 to R238, R265). The segment that the event of a refused BEGIN names is the model's choice, log entry 199. -/
def Obligations.BaseInstallRunsInOrder : Prop :=
  (∀ (o i : Nat) (c : Instr) (s : State), c ∈ [Instr.begin o, .segment o i, .end_, .baseAbort] → s.segmentBusy = true →
    exec c s = .next s) ∧
  (∀ (o : Nat) (s : State), s.segmentBusy = false →
    (s.beginAllowed = true → s.inWindow o 64 = true →
      s.inWindow o (64 + 64 * fieldLE (s.windowGet o 64) 10 2) = true →
      s.manifestOk (s.readManifest o) (fieldLE (s.windowGet o 64) 10 2) = true →
      ∃ t, exec (.begin o) s = .next t ∧ t.adm.base = .installing ∧ t.adm.fingerprint = [] ∧
        t.adm.install = some ⟨sha384 (s.readManifest o),
          manifestSegments (s.readManifest o) (fieldLE (s.windowGet o 64) 10 2), []⟩ ∧
        t.param P.baseResult = 0 ∧ t.adm.adapters = s.adm.adapters ∧ t.adm.requests = s.adm.requests ∧ SameData s t) ∧
    (∀ x, (s.beginAllowed = false ∧ x = 3 ∨
        s.beginAllowed = true ∧ (s.inWindow o 64 = false ∨
          s.inWindow o (64 + 64 * fieldLE (s.windowGet o 64) 10 2) = false) ∧ x = 5 ∨
        s.beginAllowed = true ∧ s.inWindow o 64 = true ∧
          s.inWindow o (64 + 64 * fieldLE (s.windowGet o 64) 10 2) = true ∧
          s.manifestOk (s.readManifest o) (fieldLE (s.windowGet o 64) 10 2) = false ∧ x = 1) →
      ∃ t, exec (.begin o) s = .next t ∧ t.param P.baseResult = x ∧ LastEvent t Ev.baseInstallFailed [(1, x), (2, 0)] ∧
        t.adm = s.adm ∧ SameData s t)) ∧
  (∀ (o i : Nat) (s : State), s.segmentBusy = false →
    (∀ ins g, s.adm.install = some ins → ins.segments[i]? = some g → s.inWindow o g.bytes = true →
      exec (.segment o i) s = .next { s with boot := { s.boot with hub := s.boot.hub ++ [.segment o i] } }) ∧
    (s.adm.install = none → ∃ t, exec (.segment o i) s = .next t ∧ t.param P.baseResult = 3 ∧ t.adm = s.adm ∧
      LastEvent t Ev.baseInstallFailed [(1, 3), (2, i)] ∧ SameData s t ∧ t.boot.hub = s.boot.hub) ∧
    (∀ ins, s.adm.install = some ins → ins.segments[i]? = none →
      ∃ t, exec (.segment o i) s = .next t ∧ t.param P.baseResult = 5 ∧ t.adm = s.adm ∧
        LastEvent t Ev.baseInstallFailed [(1, 5), (2, i)] ∧ SameData s t ∧ t.boot.hub = s.boot.hub)) ∧
  (∀ (s : State), s.segmentBusy = false →
    (∀ ins, s.adm.install = some ins → ins.doneSegs.length = ins.segments.length →
      ∃ t, exec .end_ s = .next t ∧ t.adm.base = .valid ∧ t.adm.fingerprint = ins.fingerprint ∧ t.adm.install = none ∧
        t.param P.baseResult = 0 ∧
        (∀ h a, s.adm.adapters.find? h = some a →
          t.adm.adapters.find? h = some { a with invalid := if ins.fingerprint = s.adm.prevFingerprint
            then a.invalid && a.fingerprint != ins.fingerprint else a.invalid || a.fingerprint != ins.fingerprint }) ∧
        SameData s t) ∧
    (∀ ins, s.adm.install = some ins → ins.doneSegs.length ≠ ins.segments.length →
      exec .end_ s = .next (s.setParam P.baseResult 4)) ∧
    (s.adm.install = none → exec .end_ s = .next (s.setParam P.baseResult 3) ∧
      exec .baseAbort s = .next (s.setParam P.baseResult 3)) ∧
    (s.adm.install ≠ none → ∃ t, exec .baseAbort s = .next t ∧ t.adm.base = .none ∧ t.adm.install = none ∧
      t.adm.fingerprint = [] ∧ t.param P.baseResult = 0 ∧ t.segmentBusy = false ∧ SameData s t ∧ t.log = s.log))

/-- Jobs (R157, R165, R267, R270, R271, R290, R300, R383). -/
def Obligations.JobsStartAndEnd : Prop :=
  (∀ (o : Nat) (c : Instr) (s : State), c ∈ [Instr.load o, .start o, .stop, .jobAbort] → s.loading = true →
    exec c s = .next s) ∧
  (∀ (o : Nat) (s : State), s.loading = false →
    (s.boot.dev = .admitted → s.jobPresent = false →
      exec (.load o) s = .next { s with boot := { s.boot with hub := s.boot.hub ++ [.load o] } }) ∧
    (s.boot.dev ≠ .admitted ∨ s.jobPresent = true → exec (.load o) s = .next (s.setParam P.jobResult 3))) ∧
  (∀ (o : Nat) (s : State), s.loading = false →
    (s.startFault o true = none → ∃ t, exec (.start o) s = .next t ∧ t.job.phase = .starting ∧
      t.job.desc = some (s.jobDescAt o) ∧ t.job.planSet = s.job.planSet ∧
      t.job.trains.length = (s.jobDescAt o).trains.length ∧ t.boot.hub = s.boot.hub ++ [.prepare] ∧
      (∀ d n, t.tally d n = 0 ∧ (t.front d).base n = 0) ∧ t.param P.jobResult = 0 ∧ t.beat.firstNormal = true ∧
      t.mem = s.mem ∧ t.cells = s.cells ∧ t.rind = s.rind ∧ t.ten = s.ten ∧ t.kv = s.kv) ∧
    (∀ x i, s.startFault o true = some (x, some i) → ∃ t, exec (.start o) s = .next t ∧ t.param P.jobResult = x ∧
      LastEvent t Ev.jobStartRefused [(1, x), (2, i)] ∧ t.job = s.job ∧ t.adm = s.adm ∧ SameData s t) ∧
    (∀ x, s.startFault o true = some (x, none) → ∃ t, exec (.start o) s = .next t ∧ t.param P.jobResult = x ∧
      t.job = s.job ∧ t.adm = s.adm ∧ SameData s t)) ∧
  (∀ (s : State), s.loading = false →
    (s.job.phase = .running →
      exec .stop s = .next (State.setParam { s with job := { s.job with stopWritten := true } } P.jobResult 0)) ∧
    (s.job.phase ≠ .running → exec .stop s = .next (s.setParam P.jobResult 3)) ∧
    (s.job.phase = .running ∨ s.job.phase = .starting →
      exec .jobAbort s = .next (State.setParam { s with job := { s.job with abortGiven := true } } P.jobResult 0)) ∧
    (s.job.phase ≠ .running → s.job.phase ≠ .starting → exec .jobAbort s = .next (s.setParam P.jobResult 3))) ∧
  (∀ (d : JobDesc) (s : State), s.job.phase = .starting → s.job.desc = some d →
    (s.beat.count = d.startBeat → s.job.abortGiven = false →
      ∃ t, exec .jobStarted s = .next t ∧ t.job = { s.job with phase := .running } ∧ t.boot.dev = .running ∧
        t.boot.hub.contains .prepare = false ∧
        t.param P.numNanTotal = 0 ∧ t.param P.numInfTotal = 0 ∧ t.param P.numOverflowTotal = 0 ∧
        t.param P.numLastNan = s.param P.numLastNan ∧ t.beat = s.beat ∧
        (s.boot.hub.contains .prepare = false → SameData s t ∧ t.adm = s.adm)) ∧
    (s.beat.count ≠ d.startBeat ∨ s.job.abortGiven = true → exec .jobStarted s = .next s)) ∧
  (∀ (d : JobDesc) (l : Nat) (s : State), s.job.desc = some d → (s.jobActive = true ∨ s.job.phase = .starting) →
    s.job.abortGiven = true → s.job.inUpdate = false → s.job.lastStepUpdated = some l →
    ∃ t, exec .jobEnded s = .next t ∧ t.job.desc = none ∧ (t.job.phase = .loaded ∨ t.job.phase = .none) ∧
      t.job.planSet = s.job.planSet ∧ (∀ i x, t.adm.requests.find? i = some x → x.phase = .queued) ∧
      LastEvent t Ev.jobEnded [(4, d.jobTag), (8, l), (1, 3)] ∧ t.mem = s.mem ∧ t.ten = s.ten ∧
      (s.ten.phase = .bound → s.boot.dev = .running → t.boot.dev = .admitted)) ∧
  (∀ (s : State), s.jobActive = false ∧ s.job.phase ≠ .starting ∨ s.endCause s.nextJobBeat = none →
    exec .jobEnded s = .next s) ∧
  (∀ (d : JobDesc) (s : State), s.job.desc = some d →
    (s.jobActive = true → d.trains ≠ [] → s.closedBelow (s.updateBeat d s.nextUpdateStep) = true →
      ∃ t, exec .updateDecision s = .next t ∧ t.job.decidedFor = some s.nextUpdateStep ∧
        (∀ x, t.tally x d.tableTally = s.tally x d.tableTally + 1 ∧
          ∀ n, n ≠ d.tableTally → t.tally x n = s.tally x n) ∧
        t.mem.lpddr = s.mem.lpddr ∧ t.mem.sram = s.mem.sram ∧ t.cells = s.cells ∧ t.beat = s.beat ∧ t.adm = s.adm) ∧
    (s.jobActive = false ∨ d.trains = [] → exec .updateDecision s = .next s)) ∧
  (∀ (d : DieId) (dev n o r : Nat) (s : State),
    (dev < 1024 ∧ (s.routeEntry d dev).testBit 63 = true ∧ entryPort (s.routeEntry d dev) < 12 ∧
        (s.link (12 * d.val + entryPort (s.routeEntry d dev))).phase ≠ .up) ∨
      (n < 48 ∧ (s.link n).phase = .up ∧ ∃ h, (s.link n).hello = some h ∧
        h.routeGen.toNat ≠ s.param P.routeGenActive) → s.loading = false →
    (∃ t, exec (.start o) s = .next t ∧ t.job = s.job ∧ t.param P.jobResult ≠ 0 ∧ t.adm = s.adm ∧ SameData s t) ∧
    (∃ t, exec (.resume o r) s = .next t ∧ t.job = s.job ∧ t.param P.jobResult ≠ 0 ∧ t.adm = s.adm ∧ SameData s t))

/-- Boundaries by their kind (R25 to R27, R30, R31, R37, R39, R41), those of a training job (R274, R287, R288, R294) and the plan
index (R32). When a configuration written between beats is taken is log entry 76, and that a stash which only a late die holds is no
conflict is log entry 195. -/
def Obligations.BoundariesAdvanceTheBeat : Prop :=
  (∀ s : State, ∃ t, exec .beatBoundary s = .next t ∧ t.beat.count = (s.beat.count + 1) % 2 ^ 64 ∧
    t.boot.feedId = s.boot.feedId ∧ t.mem.flash = s.mem.flash ∧ t.pending = s.pending) ∧
  (∀ s : State, s.jobActive = false → s.job.phase ≠ .starting → s.job.desc = none → s.ten.release = none →
    (∀ d, (s.front d).planOpen = false) →
    ∃ t, exec .beatBoundary s = .next t ∧ t.beat.kind = .free ∧ t.job = s.job ∧ t.beat.jobBeat = s.beat.jobBeat ∧
      t.boot.dev = s.boot.dev ∧ ∀ d, (t.front d).planOpen = false) ∧
  (∀ (d : JobDesc) (s : State), s.jobActive = true → s.job.desc = some d → d.trains = [] → s.job.trains = [] →
    s.job.inUpdate = false → s.job.abortGiven = false → s.ten.release = none → s.adm.matterDue = none →
    s.endCause s.nextJobBeat = none →
    (s.haltHeld = true ∨ ∀ x, (s.front x).closed = true → (s.front x).owed = []) →
    (s.beat.announced.contains ((s.beat.count + 1) % 2 ^ 64, BeatKind.halt) = false →
      (s.beat.nextKind = .normal → s.haltHeld = false → s.beat.afterCatchUp = false →
        ∃ t, exec .beatBoundary s = .next t ∧ t.beat.kind = .normal ∧ t.beat.jobBeat = s.nextJobBeat ∧
          t.beat.firstNormal = false ∧ t.job.phase = s.job.phase ∧ t.boot.dev = s.boot.dev ∧
          (∀ x, (s.front x).closed = true →
            (t.front x).planOpen = true ∧ (t.front x).planIndex = (s.front x).delivered.getD (s.adm.plan.getD 0) ∧
              (t.front x).planBeat = s.nextJobBeat ∧ (t.front x).schedSlot = s.nextJobBeat % s.schedLen ∧
              (t.front x).wordNo = 0 ∧ (t.front x).nominal = 0 ∧ (t.front x).loops = [] ∧ (t.front x).ptrs = [] ∧
              (t.front x).mask = BitVec.allOnes 64 ∧ (t.front x).delivered = none) ∧
          (∀ x, (s.front x).closed = false →
            (t.front x).planOpen = (s.front x).planOpen ∧ (t.front x).planBeat = (s.front x).planBeat ∧
              (t.front x).owed.length = (s.front x).owed.length + 1 ∧ (t.front x).lateSince ≠ none ∧
              t.beat.overrun = true)) ∧
      (∀ k, (k = BeatKind.catchUp ∨ k = .idle) → s.beat.nextKind = k →
        ∃ t, exec .beatBoundary s = .next t ∧ t.beat.kind = k ∧ t.beat.jobBeat = s.beat.jobBeat ∧
          t.job.phase = s.job.phase ∧ (∀ x, (t.front x).planOpen = true → (s.front x).planOpen = true) ∧
          ∀ x, (t.front x).owed = (s.front x).owed)) ∧
    (s.beat.announced.contains ((s.beat.count + 1) % 2 ^ 64, BeatKind.halt) = true ∨ s.beat.nextKind = .halt →
      ∃ t, exec .beatBoundary s = .next t ∧ t.beat.kind = .halt ∧ t.beat.jobBeat = s.beat.jobBeat ∧
        t.job.phase = .halted ∧ t.boot.dev = .halted ∧
        ∀ x, (t.front x).stopped = true ∧ (t.front x).queues = Slots.empty ∧ (t.front x).owed = [] ∧
          (t.front x).tallies = (s.front x).tallies)) ∧
  (∀ (d : JobDesc) (k : BeatKind) (s : State), s.jobActive = true → s.job.desc = some d → d.trains = [] →
    s.job.trains = [] → s.job.inUpdate = false → s.job.abortGiven = false → s.ten.release = none →
    s.adm.matterDue = none → s.endCause s.nextJobBeat = none →
    (s.haltHeld = true ∨ ∀ x, (s.front x).closed = true → (s.front x).owed = []) →
    s.beat.announced.contains ((s.beat.count + 1) % 2 ^ 64, BeatKind.halt) = false → (k = .normal ∨ k = .idle) →
    s.beat.nextKind = k → s.beat.afterCatchUp = true →
    ∃ t, exec .beatBoundary s = .next t ∧ t.beat.kind = k ∧ t.beat.afterCatchUp = false ∧
      (∀ x, (s.front x).closed = false → (t.front x).haltReq = true ∧ t.beat.overrun = true ∧
        ∀ y, (t.front y).planOpen = true → (s.front y).planOpen = true) ∧
      (k = .idle → (∀ x, (s.front x).closed = true) → t.haltHeld = s.haltHeld)) ∧
  (∀ (d : JobDesc) (s : State), s.jobActive = true → s.job.desc = some d → d.trains ≠ [] → s.job.abortGiven = false →
    s.ten.release = none → s.adm.matterDue = none →
    s.beat.announced.contains ((s.beat.count + 1) % 2 ^ 64, BeatKind.halt) = false →
    (∀ x, (s.front x).closed = true ∧ (s.front x).owed = []) → s.beat.firstNormal = false →
    (s.job.inUpdate = false → s.endCause s.nextJobBeat = none → s.beat.nextKind = .normal → s.haltHeld = false →
      s.slotOfBeat s.nextJobBeat = d.updateSlot →
      ((∀ u ∈ s.job.trains, u.stashHeld = false) →
        ∃ t, exec .beatBoundary s = .next t ∧ t.beat.kind = .normal ∧ t.beat.jobBeat = s.nextJobBeat ∧
          t.job.inUpdate = true ∧ ∀ x, (t.front x).planOpen = true ∧ (t.front x).planBeat = s.nextJobBeat) ∧
      ((∃ u ∈ s.job.trains, u.stashHeld = true) →
        s.job.phasesClosed = 0 ∨ s.nextJobBeat ≤ s.releaseBeat d ∧ s.beat.jobBeat < s.releaseBeat d →
        ∃ t, exec .beatBoundary s = .next t ∧ t.beat.kind = .normal ∧ t.job.inUpdate = false ∧
          (∀ x, (t.front x).haltReq = true ∧ (t.front x).planOpen = false) ∧
          ∀ (i : Nat) (u : TrainState), s.job.trains[i]? = some u → t.job.trains[i]? = some { u with conflict := u.stashHeld || u.conflict })) ∧
    (∀ k, (k = BeatKind.catchUp ∨ k = .idle) → s.beat.nextKind = k →
      (s.job.inUpdate = true → s.updateBeat d s.phaseStep + d.updateBeats ≤ s.beat.jobBeat + 1 →
        s.beat.jobBeat < (s.phaseStep - d.firstStep) * s.schedLen + d.releaseSlot →
        ∃ t, exec .beatBoundary s = .next t ∧ t.beat.kind = k ∧ t.job.inUpdate = false ∧
          t.job.phasesClosed = s.job.phasesClosed + 1 ∧ t.job.trains.length = s.job.trains.length ∧
          (∀ (i : Nat) (u v : TrainState), s.job.trains[i]? = some u → t.job.trains[i]? = some v →
            v.version = (u.version + 1) % 2 ^ 32 ∧ v.stashHeld = true) ∧ t.param P.recoveryStep = s.phaseStep) ∧
      (s.job.inUpdate = false → s.job.phasesClosed ≠ 0 → s.releaseBeat d ≤ s.beat.jobBeat →
        ∃ t, exec .beatBoundary s = .next t ∧ t.beat.kind = k ∧
          t.job.trains = s.job.trains.map (fun u => { u with stashHeld := false })))) ∧
  (∀ (d : JobDesc) (x : DieId) (index jb n : Nat) (desc : List W32) (rest : List (Nat × Nat × Nat × List W32)) (s : State),
    s.jobActive = true → s.job.desc = some d → d.trains = [] → s.job.trains = [] → s.job.inUpdate = false →
    s.job.abortGiven = false → s.ten.release = none → s.adm.matterDue = none → s.haltHeld = false →
    s.beat.nextKind = .catchUp → s.beat.announced.contains ((s.beat.count + 1) % 2 ^ 64, BeatKind.halt) = false →
    (s.front x).closed = true → (s.front x).owed = (index, jb, n, desc) :: rest → (∀ y, y ≠ x → (s.front y).owed = []) →
    ∃ t, exec .beatBoundary s = .next t ∧ (t.front x).planOpen = true ∧ (t.front x).planIndex = index ∧
      (t.front x).planBeat = jb ∧ (t.front x).wordNo = 0 ∧ (t.front x).owed = rest ∧ t.beat.jobBeat = s.beat.jobBeat) ∧
  (∀ (s : State), (∀ d, (s.front d).planOpen = false) → s.jobActive = false → s.job.phase ≠ .starting → s.job.desc = none →
    s.ten.release = none →
    ∃ t, exec .beatBoundary s = .next t ∧ t.beat.cycles = s.param P.beatCycles ∧ t.beat.guard = s.param P.guardCycles ∧
      t.beat.priority = s.param P.beatSourcePriority ∧ t.beat.idleMax = s.param P.idleMax) ∧
  (∀ (s : State),
    (∀ i, s.adm.plan = some i → ∃ t, exec .planIndexDelivery s = .next t ∧
      (∀ d, t.front d = { s.front d with delivered := some i }) ∧ { t with fe := s.fe } = s) ∧
    (s.adm.plan = none → exec .planIndexDelivery s = .next s))

/-- BEAT_SNAPSHOT and DIE_LATE_CLOSE (R31, R32, R55, R252, R267, R414, R427). -/
def Obligations.SnapshotsTakeAndLateDiesOpen : Prop :=
  (∀ s : State, s.beat.snapTaken = true → exec .beatSnapshot s = .next s) ∧
  (∀ s : State, s.beat.snapTaken = false → ∃ t, exec .beatSnapshot s = .next t ∧ (OpsFresh s → t.fe = s.fe) ∧
    t.beat = { s.beat with snapTaken := true } ∧ t.mem.sram = s.mem.sram ∧
    t.mem.plan = s.mem.plan ∧ t.pending = s.pending ∧
    (∀ k, k < 64 → (t.ring k).statusDirty = false) ∧
    (∀ r, s.ten.release = some r → r.taken = false → r.beat ≤ s.beat.count + 1 →
      t.ten.release = some { r with taken := true }) ∧
    (∀ r, s.ten.release = some r → r.taken = false → s.beat.count + 1 < r.beat → t.ten.release = some r) ∧
    (s.job.stopWritten = true → s.job.phase = .running → t.job.phase = .stopping ∧ t.job.stopTaken = true ∧
      t.job.stopWritten = false) ∧
    (s.job.stopWritten = false → t.job.phase = s.job.phase) ∧
    (s.adm.matterDue = none → t.adm.matterDue = s.adm.matterTaken ∧ t.adm.matterTaken = s.adm.matterWritten ∧
      t.adm.matterWritten = none) ∧
    (∀ x, s.adm.matterDue = some x → t.adm.matterDue = some x ∧ t.adm.matterTaken = s.adm.matterTaken ∧
      t.adm.matterWritten = s.adm.matterWritten)) ∧
  (∀ (d : DieId) (cycle b : Nat) (s : State), (s.front d).planOpen = true → (s.front d).lateSince = some b →
    (s.front d).closed = true →
    ((s.front d).owed = [] ∨ s.haltHeld = true ∨ s.jobActive = false →
      ∃ t, exec (.dieLateClose d cycle) s = .next t ∧ (t.front d).planOpen = false ∧ (t.front d).decls = [] ∧
        (t.front d).owed = (s.front d).owed ∧ (t.front d).tallies = (s.front d).tallies ∧
        t.param (P.slipHigh d.val) = max (s.param (P.slipHigh d.val)) (min (s.beat.guard
          + (s.beat.count - b) * s.beat.cycles + cycle) (2 ^ 32 - 1)) ∧
        (∀ x, x ≠ d → t.front x = s.front x) ∧ t.beat = s.beat ∧ t.mem.sram = s.mem.sram) ∧
    (∀ index jb n desc rest, (s.front d).owed = (index, jb, n, desc) :: rest → s.haltHeld = false → s.jobActive = true →
      ∃ t, exec (.dieLateClose d cycle) s = .next t ∧ (t.front d).planOpen = true ∧ (t.front d).planIndex = index ∧
        (t.front d).planBeat = jb ∧ (t.front d).wordNo = 0 ∧ (t.front d).owed = rest ∧
        (t.front d).lateSince = (if n = s.beat.count then none else some (n + 1)) ∧
        (∀ x, x ≠ d → t.front x = s.front x) ∧ t.beat = s.beat ∧ t.mem.sram = s.mem.sram)) ∧
  (∀ (d : DieId) (cycle : Nat) (s : State),
    (s.front d).planOpen = false ∨ (s.front d).lateSince = none ∨ (s.front d).closed = false →
    exec (.dieLateClose d cycle) s = .next s)

/-- Markers and echoes (R24, R38, R41, R44, R45, R47, R49, R50, R272). When the source announces, which echoes count, and what an echo
and a repeated mismatch say where the spec is silent are the model's readings: log entries 82, 83, 88, 89, 90, 164 and 166. -/
def Obligations.MarkersAndEchoesKeepTheOrchard : Prop :=
  (∀ (c : Instr) (s : State),
    (c = .echoDeadline ∧ s.beat.echoSent = false ∨ c = .echoSend ∧ s.echoDue = true) →
    ∃ t, exec c s = .next t ∧ t.beat.echoSent = true ∧
      (s.isSource = true → t.beat.aggMissing = s.missingChildren.length + (s.beat.echoes.map (·.2.missingCount)).sum ∧
        t.param P.idleGranted = min ((s.beat.echoes.map (·.2.idleReq)).foldl max (s.param P.idleRequest)) s.beat.idleMax) ∧
      (∀ l, t.beat.missing.getD l 0 =
        s.beat.missing.getD l 0 + (if c = .echoDeadline then s.missingChildren.count l else 0)) ∧
      t.beat.count = s.beat.count ∧ t.beat.kind = s.beat.kind ∧ t.fe = s.fe ∧ t.mem = s.mem ∧ t.job = s.job ∧ t.log = s.log) ∧
  (∀ (c : Instr) (p : Nat) (s : State),
    (c = .echoDeadline ∧ s.beat.echoSent = false ∨ c = .echoSend ∧ s.echoDue = true) → s.isSource = false →
    p = s.param P.beatParentLink → p < 48 → (s.link p).carriesLocal = true → (s.link p).queue = [] →
    0 < (s.link p).credits.getD 6 0 → (s.link p).retry.length < 512 →
    ∃ t h e, exec c s = .next t ∧
      Output.flit p (flitBytes (s.link p).txSeq ⟨h, leBytes 32 (echoWord e) ++ List.replicate 208 0⟩) ∈ t.out ∧
      e.senderId = s.param P.deviceId ∧ e.overrun = (s.beat.overrun || s.beat.echoes.any (·.2.overrun)) ∧
      e.haltReq = (s.haltHeld || s.beat.echoes.any (·.2.haltReq)) ∧
      e.idleReq = (s.beat.echoes.map (·.2.idleReq)).foldl max (s.param P.idleRequest) ∧
      e.subtreeCount = 1 + (s.beat.echoes.map (·.2.subtreeCount)).sum ∧
      e.missingCount = s.missingChildren.length + (s.beat.echoes.map (·.2.missingCount)).sum ∧
      e.beatCount = s.beat.count ∧ (s.jobActive = true → e.jobBeat = s.beat.jobBeat ∧ e.jobTag = s.runningTag) ∧
      (s.jobActive = false → e.jobBeat = 0 ∧ e.jobTag = 0)) ∧
  (∀ s : State, (s.beat.echoSent = true → exec .echoDeadline s = .next s) ∧
    (s.echoDue = false → exec .echoSend s = .next s)) ∧
  (∀ (l : LinkId) (m : MarkerF) (launch : BitVec 6) (c : Int) (s : State),
    ((s.link l.val).carriesLocal = false → exec (.beatMarker l m launch c) s = .next s) ∧
    ((s.link l.val).carriesLocal = true → (4 < m.thisKind ∨ 4 < m.nextKind) →
      ∃ t, exec (.beatMarker l m launch c) s = .next t ∧ t.param (P.lastViolation l.val) = 5 ∧
        t.param (P.linkViolations l.val) = (s.param (P.linkViolations l.val) + 1) % paramModulus (P.linkViolations l.val) ∧
        t.beat = s.beat ∧ t.fe = s.fe ∧ t.mem = s.mem ∧ t.job = s.job) ∧
    ((s.link l.val).carriesLocal = true → m.thisKind ≤ 4 → m.nextKind ≤ 4 →
      (2 ^ m.beatLog2 ≠ s.beat.cycles ∨ 256 * m.guardDiv256 ≠ s.beat.guard) →
      ∃ t, exec (.beatMarker l m launch c) s = .next t ∧ t.beat.claims.find? l.val = none ∧ t.beat.count = s.beat.count ∧
        t.beat.nextKind = s.beat.nextKind ∧ t.fe = s.fe ∧ t.mem = s.mem ∧
        (l.val ∉ s.beat.mismatched → LastEvent t Ev.beatConfigMismatch []) ∧ (l.val ∈ s.beat.mismatched → t.log = s.log)) ∧
    (∀ k, (s.link l.val).carriesLocal = true → m.thisKind ≤ 4 → kindOf m.nextKind = some k →
      2 ^ m.beatLog2 = s.beat.cycles → 256 * m.guardDiv256 = s.beat.guard →
      ∃ t, exec (.beatMarker l m launch c) s = .next t ∧ t.mem = s.mem ∧
        t.beat.claims.find? l.val = (if m.sourcePriority = 0 then none
          else some ⟨m.sourceId, m.sourcePriority, m.depth, m.pathLatency⟩) ∧
        (t.param P.beatRole ≠ 2 ∨ t.param P.beatParentLink ≠ l.val →
          t.beat.count = s.beat.count ∧ t.beat.nextKind = s.beat.nextKind ∧ t.fe = s.fe ∧ t.log = s.log) ∧
        (t.param P.beatRole = 2 → t.param P.beatParentLink = l.val → t.beat.markersMissed = 0 ∧
          (s.jobActive = false → t.beat.count = m.beatCount ∧ t.fe = s.fe ∧
            (launch ≠ 63 → t.beat.correction = c ∧
              (-32768 ≤ c → c ≤ 32767 → t.param P.beatLastCorrection = rawInt 16 c))) ∧
          (s.jobActive = true → t.beat.count = s.beat.count ∧ t.beat.nextKind = k ∧
            (∀ d, s.job.desc = some d → m.beatCount = d.startBeat → m.jobTag ≠ d.jobTag →
              LastEvent t Ev.jobTagMismatch [] ∧ ∀ x, (t.front x).haltReq = true) ∧
            (∀ d, s.job.desc = some d → (m.beatCount = d.startBeat → m.jobTag = d.jobTag) → launch ≠ 63 →
              (c.natAbs ≤ s.beat.guard / 4 → t.beat.correction = c ∧ t.fe = s.fe) ∧
              (s.beat.guard / 4 < c.natAbs → t.beat.correction = s.beat.correction ∧
                LastEvent t Ev.beatSkew [] ∧ ∀ x, (t.front x).haltReq = true)))))) ∧
  (∀ s : State,
    (s.param P.beatRole = 2 → 4 ≤ s.beat.markersMissed →
      ∃ t, exec .beatMarkerLost s = .next t ∧ t.beat.markersMissed = 0 ∧ LastEvent t Ev.beatMarkerLost [] ∧
        t.beat.claims.find? (s.param P.beatParentLink) = none ∧ t.beat.count = s.beat.count ∧
        (s.jobActive = true → ∀ x, (t.front x).haltReq = true) ∧ (s.jobActive = false → t.fe = s.fe) ∧ t.mem = s.mem ∧
        t.job = s.job) ∧
    (s.param P.beatRole ≠ 2 ∨ s.beat.markersMissed < 4 → exec .beatMarkerLost s = .next s)) ∧
  (∀ (l : LinkId) (e : EchoF) (s : State),
    ((s.link l.val).carriesLocal = false → exec (.beatEcho l e) s = .next s) ∧
    ((s.link l.val).carriesLocal = true → ∃ t, exec (.beatEcho l e) s = .next t ∧ t.fe = s.fe ∧ t.mem = s.mem ∧
      t.job = s.job ∧ t.log = s.log ∧ t.beat.count = s.beat.count ∧
      (e.beatCount ≠ s.beat.count → t.beat = s.beat) ∧
      (e.beatCount = s.beat.count → t.beat.echoes.find? l.val = some e ∧ t.beat.lastEcho.find? l.val = some e ∧
        t.beat.missing.getD l.val 0 = 0 ∧ l.val ∈ t.beat.children ∧ l.val ∉ t.beat.lostChildren ∧
        (s.isSource = true → s.jobActive = true →
          (e.overrun = true → (s.beat.count + 1, BeatKind.catchUp) ∈ t.beat.announced ∨
            (s.beat.count + 2, BeatKind.catchUp) ∈ t.beat.announced) ∧
          (e.haltReq = true → (s.beat.count + 2, BeatKind.halt) ∈ t.beat.announced)))))

/-- POWER_EVAL (R51, R483, on calibrated readings, R481) and losses (R446, R447, R449, R450); LOSS_STATE after the expiry of a hold is
the model's choice, log entry 77, and which boundaries are those of the hold is log entry 74. -/
def Obligations.PowerIsCappedAndLossesAreApplied : Prop :=
  (∀ (p : PowerSample) (s : State), ∃ t, exec (.powerEval p) s = .next t ∧
    (let temps := p.sensors.zipIdx.map (fun x => s.calibrated x.2 x.1)
     t.beat.thermalLimit =
      (if ∃ x ∈ temps, 64 * (s.param P.throttleTemp : Int) ≤ x then max 500 (s.beat.thermalLimit - 100)
       else if ∀ x ∈ temps, x ≤ 64 * ((s.param P.throttleTemp : Int) - 5) then min 2500 (s.beat.thermalLimit + 100)
       else s.beat.thermalLimit)) ∧
    t.param P.powerCapEffective = min (s.param P.powerCap) t.beat.thermalLimit ∧
    t.param P.thermalState = (if t.beat.thermalLimit < 2500 then 1 else 0) ∧
    (∀ k, k ≤ 15 → (16 - k) * s.calibratedPower 0 p.busy + k * s.calibratedPower 0 p.idle ≤
        16 * (65536 * t.param P.powerCapEffective) →
      (∀ j, j < k → ¬(16 - j) * s.calibratedPower 0 p.busy + j * s.calibratedPower 0 p.idle ≤
        16 * (65536 * t.param P.powerCapEffective)) →
      t.param P.idleRequest = if k < s.param P.idleRequest then max k (s.param P.idleRequest - 2)
        else min k (s.param P.idleRequest + 2)) ∧
    (s.beat.thermalLimit = 2500 → t.beat.thermalLimit < 2500 → ∃ fs, LastEvent t Ev.thermalThrottle fs) ∧
    (s.beat.thermalLimit < 2500 → t.beat.thermalLimit = 2500 → LastEvent t Ev.thermalClear []) ∧
    t.beat.count = s.beat.count ∧ t.beat.kind = s.beat.kind ∧ SameData s t ∧ t.job = s.job ∧ t.adm = s.adm) ∧
  (∀ (l : LinkId) (s : State),
    (l.val ∈ s.beat.children → 4 ≤ s.beat.missing.getD l.val 0 → l.val ∉ s.beat.lostChildren →
      ∃ t, exec (.deviceLost l) s = .next t ∧ t.beat = { s.beat with lostChildren := s.beat.lostChildren ++ [l.val] } ∧
        (∀ e, s.beat.lastEcho.find? l.val = some e →
          LastEvent t Ev.deviceLost [(2, s.param (P.partnerId l.val)), (8, e.jobBeat), (2, e.subtreeCount)]) ∧
        SameData s t ∧ t.job = s.job) ∧
    (l.val ∉ s.beat.children ∨ s.beat.missing.getD l.val 0 < 4 ∨ l.val ∈ s.beat.lostChildren →
      exec (.deviceLost l) s = .next s)) ∧
  (∀ s : State,
    (s.beat.holdBeats ≠ 0 → s.param P.lossHoldBeats ≤ s.beat.holdBeats → s.beat.holdExpired = false →
      s.res.lossApplied = none →
      ∃ t, exec .lossHoldExpired s = .next t ∧ t.beat = { s.beat with holdExpired := true } ∧
        t.param P.lossState = (if s.param P.lossState = 3 then 3 else 0) ∧
        LastEvent t Ev.lossHoldExpired [] ∧ SameData s t ∧ t.job = s.job) ∧
    (s.beat.holdBeats = 0 ∨ s.beat.holdBeats < s.param P.lossHoldBeats ∨ s.beat.holdExpired = true ∨
        s.res.lossApplied ≠ none →
      exec .lossHoldExpired s = .next s)) ∧
  (∀ s : State, s.isSource = true → s.lossDue = true → (s.beat.count + 1, BeatKind.catchUp) ∈ s.hold.beat.announced ∧
    (s.beat.count + 2, BeatKind.catchUp) ∈ s.hold.beat.announced) ∧
  (∀ (doe : Bool) (b : Nat) (s : State),
    (b ≤ s.beat.count → (s.applyNumber doe P.lossApplyBeat b).param P.lossState = 3 ∧
      LastEvent (s.applyNumber doe P.lossApplyBeat b) Ev.lossRefused [(8, b)] ∧
      (s.applyNumber doe P.lossApplyBeat b).res.lossPending = none) ∧
    (s.beat.count < b → s.applyNumber doe P.lossApplyBeat b =
      { s.setParam P.lossApplyBeat b with res := { s.res with lossPending := some b } })) ∧
  (∀ s : State,
    (s.res.lossPending = none → exec .lossApply s = .next s) ∧
    (∀ b, s.res.lossPending = some b → s.beat.count < b → exec .lossApply s = .next s) ∧
    (s.res.lossApplied = none → s.jobActive = true → s.res.lossPending = some s.beat.count → s.beat.kind = .catchUp →
      (s.isSource = true → s.beat.count ∈ s.beat.holdTicks) →
      ∃ t, exec .lossApply s = .next t ∧ t.res.lossApplied = some (s.param P.lossDevice) ∧ t.res.lossPending = none ∧
        t.param P.lossState = 2 ∧
        t.job = { s.job with lossEndStep := some (s.stepOf s.beat.jobBeat + 1) } ∧
        t.beat = s.beat ∧
        LastEvent t Ev.lossApplied [(2, s.param P.lossDevice), (8, s.beat.count)] ∧ t.mem = s.mem ∧ t.cells = s.cells ∧
        ∀ d, { t.front d with tallies := (s.front d).tallies } = s.front d) ∧
    (∀ b, s.res.lossPending = some b → b ≤ s.beat.count →
      (s.beat.count ≠ b ∨ s.beat.kind ≠ .catchUp ∨ s.isSource = true ∧ s.beat.count ∉ s.beat.holdTicks ∨
        s.jobActive = false ∨ s.res.lossApplied ≠ none) →
      ∃ t, exec .lossApply s = .next t ∧ t.param P.lossState = 3 ∧
        LastEvent t Ev.lossRefused [(8, b)] ∧ SameData s t ∧ t.job = s.job ∧ t.beat = s.beat ∧
        t.res = { s.res with lossPending := none }))

/-- Partner copies, stand-ins, restoring, resuming, forced revocations and hub copies (R216, R235, R261, R440, R444, R445, R451,
R454, R457). The model's choices in it: the image of a first copy (log entry 207), which pages of it a beat moves (log entry 68), the
status of a RESTORE turned away (log entry 73), what a stand-in table is checked for (log entry 72), when a forced revocation is
meant (log entry 49), when a hub copy may end (log entries 53, 112 and 114) and the fit of a record (log entry 75). -/
def Obligations.CopiesRestoreAndResume : Prop :=
  (∀ s : State,
    (s.copyDue = true → ∃ t, exec .partnerCopyBegin s = .next t ∧
      (∃ c, t.res.copying = some c ∧ c.image = s.copyImage ∧ c.nextStep = s.nextStepNow ∧ c.moved = 0 ∧
        c.head.length = 4 ∧ c.sent = false) ∧ { t.res with copying := s.res.copying } = s.res ∧
      (∀ x, s.res.lastImage = some x → s.copyImage = 1 - x) ∧ t.mem = s.mem ∧
      t.job = { s.job with copyBegun := some s.nextStepNow } ∧ t.beat = s.beat) ∧
    (s.copyDue = false → exec .partnerCopyBegin s = .next s) ∧
    (∀ c, s.res.copying = some c → s.imageBlocks ≤ c.moved → s.job.inUpdate = false → c.nextStep = s.nextStepNow →
      c.head = [] → c.sent = false → s.closedBelow c.lastBeat = true →
      ∃ h, h.length = 4 ∧ s.sealCopy.res.copying = some { c with head := h, sent := true } ∧ s.sealCopy.mem = s.mem) ∧
    (∀ c, s.res.copying = some c → c.sent = true → c.head = [] → s.job.inUpdate = false → c.nextStep = s.nextStepNow →
      ∃ t, exec .partnerCopyDone s = .next t ∧
      t.res = { s.res with copying := none, lastImage := some c.image } ∧ t.param P.partnerLastStep = c.nextStep ∧
      t.param P.partnerCopies = (s.param P.partnerCopies + 1) % paramModulus P.partnerCopies ∧
      LastEvent t Ev.partnerCopyDone [(2, s.param P.copyPartner), (8, c.nextStep), (1, c.image)] ∧ t.mem = s.mem ∧
      t.job = s.job) ∧
    (∀ c, s.res.copying = some c → c.sent = false ∨ c.head ≠ [] ∨ s.job.inUpdate = true ∨ c.nextStep ≠ s.nextStepNow →
      exec .partnerCopyDone s = .next s) ∧
    (∀ c, s.res.copying = some c → s.job.inUpdate = true ∨ c.nextStep ≠ s.nextStepNow → ∃ t, exec .partnerCopyLate s = .next t ∧
      t.res = { s.res with copying := none } ∧
      t.param P.partnerCopiesLate = (s.param P.partnerCopiesLate + 1) % paramModulus P.partnerCopiesLate ∧
      LastEvent t Ev.partnerCopyLate [(2, s.param P.copyPartner), (8, c.nextStep)] ∧ SameData s t ∧ t.job = s.job) ∧
    (s.res.copying = none → exec .partnerCopyLate s = .next s) ∧
    (∀ c, s.res.copying = some c → s.job.inUpdate = false → c.nextStep = s.nextStepNow → exec .partnerCopyLate s = .next s) ∧
    (∀ c d, s.res.copying = some c → s.job.inUpdate = true ∨ c.nextStep ≠ s.nextStepNow ∨ c.head ≠ [] →
      s.copyDescriptor d = List.replicate 32 0) ∧
    (s.res.copying = none → exec .partnerCopyDone s = .next s)) ∧
  (∀ (o : Nat) (s : State),
    (s.standinOk o = true → ∃ t, exec (.standinLoad o) s = .next t ∧ t.param P.standinState = 1 ∧
      t.res = { s.res with standin := some (s.standinRows o (s.windowLE (o + 12) 4)) } ∧ SameData s t ∧ t.job = s.job) ∧
    (s.standinOk o = false → ∃ t, exec (.standinLoad o) s = .next t ∧ t.param P.standinState = 2 ∧
      t.res = { s.res with standin := none } ∧ SameData s t ∧ t.job = s.job) ∧
    (∃ t, exec .standinDiscard s = .next t ∧ t.param P.standinState = 0 ∧ t.res = { s.res with standin := none } ∧
      SameData s t ∧ t.job = s.job)) ∧
  (∀ (o : Nat) (s : State),
    (s.boot.dev = .admitted → s.jobPresent = false → s.restoring = false →
      s.partnerEntries o 0 512 = [] ∨ s.param P.copyPartner = 0xFFFF →
      exec (.restore o) s = .next { s with boot := { s.boot with hub := s.boot.hub ++ [.restore o] } }) ∧
    (s.boot.dev = .admitted → s.jobPresent = false → s.restoring = false → s.partnerEntries o 0 512 ≠ [] →
      s.param P.copyPartner ≠ 0xFFFF →
      ∃ t, exec (.restore o) s = .next t ∧ t.boot = { s.boot with hub := s.boot.hub ++ [.restore o] } ∧
        (∃ ns, ns.length = 8 ∧ t.res = { s.res with awaiting := s.res.awaiting ++ ns }) ∧ t.mem = s.mem ∧
        t.adm = s.adm ∧ t.job = s.job) ∧
    (s.restoring = true → s.boot.dev = .admitted → s.jobPresent = false → exec (.restore o) s = .next s) ∧
    (s.boot.dev ≠ .admitted ∨ s.jobPresent = true →
      ∃ t, exec (.restore o) s = .next t ∧ t.param P.restoreResult = Status.notAllowed.code ∧ SameData s t ∧
        t.boot = s.boot ∧ t.adm = s.adm)) ∧
  (∀ (o r : Nat) (s : State), s.loading = true → exec (.resume o r) s = .next s) ∧
  (∀ (o r : Nat) (s : State), s.loading = false →
    (s.startFault o (s.recordFits o r) = none → ∃ t, exec (.resume o r) s = .next t ∧ t.job.phase = .starting ∧
      t.job.desc = some (s.jobDescAt o) ∧ t.job.firstStepNow = s.windowLE (r + 40) 8 ∧
      t.job.resumeBeat = some (s.windowLE (r + 48) 8) ∧ t.beat.firstNormal = true ∧ t.res.lossApplied = none ∧
      t.param P.lossState = 0 ∧ t.param P.lossDevice = 0xFFFF ∧ t.param P.storeTorn = 0 ∧ t.param P.jobResult = 0 ∧
      (∀ d n, t.tally d n = 0 ∧ (t.front d).base n = 0) ∧ t.boot.hub = s.boot.hub ++ [.prepare] ∧ t.mem = s.mem) ∧
    (∀ x i, s.startFault o (s.recordFits o r) = some (x, some i) → ∃ t, exec (.resume o r) s = .next t ∧
      t.param P.jobResult = x ∧ LastEvent t Ev.jobStartRefused [(1, x), (2, i)] ∧ t.job = s.job ∧ t.adm = s.adm ∧
      SameData s t)) ∧
  (∀ (h : Nat) (s : State),
    (∀ a, s.adm.adapters.find? h = some a → a.revoking = true →
      (s.job.phase = .halted ∨ a.revokedAt + s.param P.admitRevokeMaxBeats ≤ s.beat.count ∧
        (s.jobActive = false ∨ s.beat.snapTaken = false)) →
      ∃ t, exec (.revokeForced h) s = .next t ∧
        (∀ i x, t.adm.requests.find? i = some x → x.phase ≠ .queued → x.adapter ≠ some a.serial) ∧
        (∀ i x, t.adm.requests.find? i = some x → s.adm.requests.find? i = some x) ∧
        t.fe = s.fe ∧ t.beat = s.beat ∧ t.job = s.job ∧ t.mem.sram = s.mem.sram ∧ t.ten = s.ten) ∧
    (∀ a, s.adm.adapters.find? h = some a →
      (a.revoking = false ∨
        s.job.phase ≠ .halted ∧ (s.beat.count < a.revokedAt + s.param P.admitRevokeMaxBeats ∨
          s.jobActive = true ∧ s.beat.snapTaken = true)) →
      exec (.revokeForced h) s = .next s) ∧
    (s.adm.adapters.find? h = none → exec (.revokeForced h) s = .next s)) ∧
  (∀ s : State,
    ((∃ d, (s.front d).inReset = true) ∨ s.boot.dieWaits ≠ [] ∨ s.plansRun = true ∨
        takeFirst s.hubReady s.boot.hub = none →
      exec .hubCopyDone s = .next s) ∧
    (∀ o rest, (∀ d, (s.front d).inReset = false) → s.boot.dieWaits = [] → s.plansRun = false →
      takeFirst s.hubReady s.boot.hub = some (o, rest) →
      ∃ t, exec .hubCopyDone s = .next t ∧ t.beat = s.beat ∧
        (let u : State := { s with boot := { s.boot with hub := rest } }
         let again := fun (x : Nat) (k : Nat) => u.partnerEntries x 0 512 ≠ [] ∧ s.res.image = none ∧ u.newestImage = some k
         ((∀ x k, o = .restore x → ¬ again x k) → t.boot.hub = rest) ∧
         (∀ x k, o = .restore x → again x k → t.boot.hub = rest ++ [.restore x] ∧ t.res.image = some k ∧
            t.res.lastImage = some k ∧ t.mem = s.mem ∧ t.adm = s.adm) ∧
         (∀ x, o = .load x → t.param P.standinState = 0 ∧ t.res.standin = none ∧
            (u.loadFault x = none → t.job.phase = .loaded ∧ t.job.planSet ≠ none ∧ t.param P.jobResult = 0) ∧
            (u.loadFault x ≠ none → t.job.phase = .none ∧ t.job.planSet = none ∧ t.param P.jobResult = 5 ∧
              t.mem.plan = s.mem.plan)) ∧
         (∀ x i ins g, o = .segment x i → s.adm.install = some ins → ins.segments[i]? = some g →
            (sha384 (u.windowGet x g.bytes) = g.digest → t.param P.baseResult = 0 ∧
              ∃ n, t.adm.install = some n ∧ i ∈ n.doneSegs ∧ n.segments = ins.segments) ∧
            (sha384 (u.windowGet x g.bytes) ≠ g.digest → t.param P.baseResult = 2 ∧
              ∃ n, t.adm.install = some n ∧ i ∉ n.doneSegs)) ∧
         (∀ x, o = .restore x → (∀ k, ¬ again x k) → (∀ y ∈ t.host.snoops, y.owner ≠ .restore) → t.res.restored = none) ∧
         (∀ x y, o = .restore x → (∀ k, ¬ again x k) → y ∈ t.host.snoops → y.owner = .restore → t.res.restored ≠ none ∧ t.restoring = true))))

/-- Firmware (R499 to R503, R517, R528). The model's readings in it: the memory with nothing listed that the first check sees (log entry
7), what the check and its order leave open (log entries 96 and 98), a recovery that fails (log entry 99) and what a command in
progress means (log entry 100). -/
def Obligations.FirmwareIsStagedWrittenAndRecovered : Prop :=
  (∀ (o n : Nat) (s : State),
    (s.fwBusy = true → exec (.fwStage o n) s = .next s ∧ exec .fwWrite s = .next s ∧
      exec (.recover o n) s = .next s.leaveRom) ∧
    (s.boot.stage ≠ .rom → s.leaveRom = s) ∧
    (∀ k, (s.fwRefused k).param P.fwResult = k ∧ LastEvent (s.fwRefused k) Ev.fwUpdateRefused [(1, k)] ∧
      SameData s (s.fwRefused k) ∧ (s.fwRefused k).boot = s.boot) ∧
    (s.fwBusy = false → s.boot.dev = .idle →
      exec (.fwStage o n) s = .next { s with boot := { s.boot with
        fw := .staging, fwImage := [], hub := s.boot.hub ++ [.fwStage o n] } }) ∧
    (s.fwBusy = false → s.boot.dev ≠ .idle → exec (.fwStage o n) s = .next (s.fwRefused 1)) ∧
    (s.boot.dev = .idle → s.boot.fw = .staged → ∃ t, exec .fwWrite s = .next t ∧ t.boot = { s.boot with fw := .writing } ∧
      (∀ a, t.mem.flash.read a = if a < 4096 then 0 else s.mem.flash.read a) ∧ t.mem.lpddr = s.mem.lpddr ∧
      t.dict = s.dict) ∧
    (s.fwBusy = false → (s.boot.dev ≠ .idle ∨ s.boot.fw ≠ .staged) → exec .fwWrite s = .next (s.fwRefused 1)) ∧
    (s.fwBusy = false → s.boot.stage = .recoveryWait →
      let boot := { s.boot with stage := .recoveryFetch, recover := (o, n) }
      let reads := (List.range (ceilDiv n 512)).map (fun i => Output.ioRead (o + 512 * i) (min 512 (n - 512 * i)))
      exec (.recover o n) s = .next { s with boot := boot, out := s.out ++ reads }) ∧
    (s.fwBusy = false → s.boot.stage = .rom → fwCheck s.flashImage (s.param P.fwFuseCount) ≠ none →
      ∃ t, exec (.recover o n) s = .next t ∧ t.boot.stage = .recoveryFetch ∧ t.boot.recover = (o, n) ∧ t.mem = s.mem) ∧
    (s.boot.stage = .recoveryFetch → exec (.recover o n) s = .next s) ∧
    (s.fwBusy = false → s.boot.stage ≠ .rom → s.boot.stage ≠ .recoveryFetch → s.boot.stage ≠ .recoveryWait →
      exec (.recover o n) s = .next (s.setParam P.fwResult 1))) ∧
  (∀ (o n : Nat) (s : State), s.inWindow o n = true → n ≤ 0x1800000 →
    (fwCheck (s.windowGet o n) (s.param P.fwFuseCount) = none →
      (s.fwStaged o n).boot.fw = .staged ∧ (s.fwStaged o n).boot.fwImage = s.windowGet o n ∧
        (s.fwStaged o n).param P.fwResult = 0 ∧
        (s.fwStaged o n).param P.fwStagedVersion = fieldLE (s.windowGet o n) 12 4) ∧
    (∀ k, fwCheck (s.windowGet o n) (s.param P.fwFuseCount) = some k →
      (s.fwStaged o n).boot.fw = .none ∧ (s.fwStaged o n).param P.fwResult = (if k ≤ 3 then 2 else if k = 4 then 3 else 4) ∧
        (s.fwStaged o n).mem.flash = s.mem.flash ∧
        LastEvent (s.fwStaged o n) Ev.fwUpdateRefused [(1, if k ≤ 3 then 2 else if k = 4 then 3 else 4)])) ∧
  (∀ (ok : Bool) (s : State),
    (s.boot.fw ≠ .writing → exec (.fwUpdateWritten ok) s = .next s) ∧
    (s.boot.fw = .writing → ok = true → s.extGet true 0 s.stagePlace s.boot.fwImage.length = s.boot.fwImage →
      ∃ t, exec (.fwUpdateWritten ok) s = .next t ∧ t.boot.fw = .written ∧ t.param P.fwResult = 0 ∧
        t.mem.flash.readBytes 0 (min s.boot.fwImage.length 0x1800000) = s.boot.fwImage.take 0x1800000 ∧
        (∀ a, 0x1800000 ≤ a → t.mem.flash.read a = s.mem.flash.read a) ∧
        LastEvent t Ev.fwUpdateWritten [(4, fieldLE s.boot.fwImage 12 4), (1, fieldLE s.boot.fwImage 10 1)] ∧
        t.fe = s.fe ∧ t.mem.lpddr = s.mem.lpddr) ∧
    (s.boot.fw = .writing → (ok = false ∨ s.extGet true 0 s.stagePlace s.boot.fwImage.length ≠ s.boot.fwImage) →
      ∃ t, exec (.fwUpdateWritten ok) s = .next t ∧ t.param P.fwResult = 5 ∧
        LastEvent t Ev.fwUpdateRefused [(1, 5)] ∧ t.mem = s.mem ∧ t.fe = s.fe)) ∧
  (∀ (f : RecoverFetch) (s : State),
    (s.boot.stage ≠ .recoveryFetch → exec (.fwRecovered f) s = .next s) ∧
    (s.boot.stage = .recoveryFetch →
      (s.fetched f.first = none → ∃ t, exec (.fwRecovered f) s = .next t ∧ t.boot = { s.boot with stage := .recoveryWait } ∧
        t.param P.fwResult = 6 ∧ t.mem = s.mem) ∧
      (∀ x, s.fetched x = x.filter (fun b => b.length == s.boot.recover.2)) ∧
      (∀ im k, s.fetched f.first = some im → fwCheck im (s.param P.fwFuseCount) = some k →
        ∃ t, exec (.fwRecovered f) s = .next t ∧ t.boot = { s.boot with stage := .recoveryWait } ∧
          t.param P.fwResult = (if k ≤ 3 then 2 else if k = 4 then 3 else 4) ∧ t.mem = s.mem) ∧
      (∀ im, s.fetched f.first = some im → fwCheck im (s.param P.fwFuseCount) = none → s.fetched f.second = none →
        ∃ t, exec (.fwRecovered f) s = .next t ∧ t.boot = { s.boot with stage := .recoveryWait } ∧ t.param P.fwResult = 6 ∧
          ∀ a, t.mem.flash.read a = if a < 4096 then 0 else s.mem.flash.read a) ∧
      (∀ im im2, s.fetched f.first = some im → fwCheck im (s.param P.fwFuseCount) = none → s.fetched f.second = some im2 →
        (let g := (s.eraseHeader.programFlash im2).flashImage
         fwCheck g (s.param P.fwFuseCount) = none →
          ∃ t, exec (.fwRecovered f) s = .next t ∧ 
            t.boot = { s.boot with stage := .dies, tripOffsets := s.blob P.tempOffsets } ∧ t.param P.fwResult = 0 ∧
            (∃ r ∈ t.log.records, r.code = Ev.fwRecovered ∧ r.detail = detail [(4, fieldLE im2 12 4)]) ∧
            t.mem.flash.readBytes 0 (min im2.length 0x1800000) = im2.take 0x1800000 ∧
            t.param P.fwVersion = fieldLE g 12 4 ∧ t.param P.fwSecurityVersion = fieldLE g 10 1 ∧
            t.blob P.fwDigest = sha384 (fwSigned g) ∧ t.flashImage = g))))

/-- Resets and start-up (R493, R495, R496, R503 to R507, R509, R514, R522). The model's readings in it: which stages a start-up shows and
when it leaves them (log entry 101), power-on (log entry 105), the pins (log entry 107), what waits for a die reset (log entry 112), the
cause of its links' fall (log entry 202), the watchdog (log entry 143) and a WRITE cut short (log entry 193). -/
def Obligations.ResetsAndStartUpFollowTheTable : Prop :=
  (let fresh := fun (s t : State) => (∀ d, t.front d = FrontEnd.reset) ∧ t.host.rings = [] ∧ t.adm = {} ∧
      (∀ n, t.keySlot n = KeySlot.free) ∧ t.mem.sram = [] ∧ t.mem.plan = [] ∧ t.mem.acc = [] ∧ t.mem.flash = s.mem.flash ∧
      t.job.desc = none ∧ t.pending = s.pending ∧ t.ten.locked = false
   let ended := fun (s t : State) => s.boot.endedIn = none →
      (s.ten.phase = .unbound → t.ten.phase = .unbound ∧ t.ten.epoch = s.ten.epoch) ∧
      (s.ten.phase = .bound ∨ s.ten.phase = .releasing → t.ten.phase = .scrubbing ∧ t.ten.epoch = s.ten.epoch + 1) ∧
      (s.ten.phase = .scrubbing → t.ten.phase = .scrubbing ∧ t.ten.epoch = s.ten.epoch)
   let lost := fun (t : State) => t.mem.hbm = [] ∧ t.mem.lpddr = [] ∧ t.ten.scrubRecorded = false ∧ t.ten.keptKey = none
   let kept := fun (s t : State) => t.mem.hbm = s.mem.hbm ∧ t.mem.lpddr = s.mem.lpddr ∧ t.rind.attrs = s.rind.attrs ∧
      (s.ten.phase = .unbound → t.ten.scrubRecorded = s.ten.scrubRecorded ∧ t.ten.keptKey = s.ten.keptKey)
   let started := fun (t : State) (cause : Nat) => t.boot.dev = .boot ∧ t.param P.resetCause = cause ∧
      t.boot.stage = .rom
   let held := fun (t : State) => t.boot.dev = .boot ∧ t.boot.stage = .resetHeld
   (∀ s : State,
    (s.running' = true →
      (∃ t, exec .resetModule s = .next t ∧ fresh s t ∧ ended s t ∧ lost t ∧ started t 4) ∧
      (∃ t, exec .resetWarm s = .next t ∧ fresh s t ∧ ended s t ∧ kept s t ∧ started t 3)) ∧
    (s.running' = false → exec .resetModule s = .next s ∧ exec .resetWarm s = .next s) ∧
    (∀ n, 1000 ≤ n → s.boot.dev ≠ .off →
      (s.boot.modResetHeld = false ∨ s.boot.stage ≠ .resetHeld ∨ s.boot.cause = 2) →
      ∃ t, exec (.modResetN n) s = .next t ∧ fresh s t ∧ ended s t ∧ lost t ∧ held t ∧ t.boot.modResetHeld = true) ∧
    (∀ n, 100 ≤ n → (n < 1000 ∨ s.boot.dev = .off ∨
        s.boot.modResetHeld = true ∧ s.boot.stage = .resetHeld ∧ s.boot.cause ≠ 2) →
      exec (.modResetN n) s = .next { s with boot := { s.boot with modResetHeld := true } }) ∧
    (∀ n, n < 100 → exec (.modResetN n) s = .next s) ∧
    (s.boot.stage = .resetHeld → s.boot.cause ≠ 2 → ∃ t, exec .modResetNRelease s = .next t ∧ started t s.boot.cause ∧
      t.boot.modResetHeld = false ∧ t.fe = s.fe ∧ t.mem = s.mem) ∧
    (s.boot.stage ≠ .resetHeld ∨ s.boot.cause = 2 →
      exec .modResetNRelease s = .next { s with boot := { s.boot with modResetHeld := false } }) ∧
    (s.boot.perstHeld = false → s.running' = true → ∃ t, exec .perstAssert s = .next t ∧ fresh s t ∧ ended s t ∧
      kept s t ∧ held t ∧ t.boot.perstHeld = true) ∧
    (s.boot.perstHeld = true ∨ s.running' = false →
      exec .perstAssert s = .next { s with boot := { s.boot with perstHeld := true } }) ∧
    (s.boot.stage = .resetHeld → s.boot.cause = 2 → ∃ t, exec .perstDeassert s = .next t ∧ started t 2 ∧
      t.boot.perstHeld = false ∧ t.fe = s.fe ∧ t.mem = s.mem) ∧
    (s.boot.stage ≠ .resetHeld ∨ s.boot.cause ≠ 2 →
      exec .perstDeassert s = .next { s with boot := { s.boot with perstHeld := false } }) ∧
    (s.boot.regulators = true → s.boot.dev = .off → ∃ t, exec .powerGood s = .next t ∧ fresh s t ∧ lost t ∧
      (s.boot.modResetHeld = false → started t 0) ∧ (s.boot.modResetHeld = true → held t) ∧
      (s.boot.cold = true → t.ten.epoch = 0) ∧ (s.boot.cold = false → ended s t)) ∧
    (s.boot.regulators = false ∨ s.boot.dev ≠ .off → exec .powerGood s = .next s))) ∧
  (∀ (ms : Nat) (s : State),
    (s.boot.dev = .boot → (s.boot.stage = .dies ∨ s.boot.stage = .memoryTraining ∨ s.boot.stage = .scrub) →
      ∃ t, exec (.bootComplete ms) s = .next t ∧ t.boot.dev = .idle ∧
      t.boot.stage = .done ∧ t.ten.scrubRecorded = true ∧ t.param P.bootTimeMs = ms ∧
      t.param P.fwFuseCount = max (s.param P.fwFuseCount) (min 64 (s.param P.fwSecurityVersion)) ∧
      (s.ten.scrubRecorded = false → t.mem.lpddr = [] ∧ (∀ k, InScales t k ∨ t.mem.hbm.read k = 0) ∧ (∀ f, t.attr f = attrWord 1 0) ∧
        t.ten.phase = .unbound ∧ t.ten.keptKey = (t.keySlot 1).keys.head?) ∧
      (∀ k, s.ten.scrubRecorded = true → s.ten.keptKey = some k → t.keySlot 1 = ⟨.active, 0, 0, [k]⟩ ∧
        t.mem.lpddr = s.mem.lpddr ∧ (∀ x, InScales t x ∨ t.mem.hbm.read x = s.mem.hbm.read x) ∧ t.mem.flash = s.mem.flash ∧
        t.ten.phase = s.ten.phase)) ∧
    (s.boot.dev = .boot → s.boot.stage = .rom →
      (fwCheck s.flashImage (s.param P.fwFuseCount) = none → ∃ t, exec (.bootComplete ms) s = .next t ∧ t.boot.dev = .idle ∧
        t.boot.stage = .done ∧ t.param P.fwVersion = fieldLE s.flashImage 12 4) ∧
      (∀ n, fwCheck s.flashImage (s.param P.fwFuseCount) = some n → ∃ t, exec (.bootComplete ms) s = .next t ∧
        t.boot.stage = .recoveryWait ∧ LastEvent t Ev.fwImageInvalid [(1, n)])) ∧
    (s.boot.stage ≠ .rom → (s.boot.dev ≠ .boot ∨ s.stagesRun = false) → exec (.bootComplete ms) s = .next s)) ∧
  (∀ (fault : Nat) (unit : Byte) (s : State),
    (s.boot.dev = .boot → s.stageRuns = true → ∃ t, exec (.bootFailed fault unit) s = .next t ∧
      t.boot.dev = .fault ∧ t.boot.stage = .fault ∧ t.param P.bootFault = fault ∧ t.param P.bootFaultUnit = unit.toNat ∧
      LastEvent t Ev.bootFailed [(1, s.boot.stage.code), (1, fault), (1, unit.toNat)] ∧ SameData s t) ∧
    (s.boot.dev ≠ .boot ∨ s.boot.stage = .resetHeld ∨ s.boot.stage = .recoveryWait ∨ s.boot.stage = .recoveryFetch →
      exec (.bootFailed fault unit) s = .next s)) ∧
  (∀ (d : DieId) (ms : Nat) (s : State), s.boot.dieWaits = [] →
    (s.dieResetAllowed = true → s.dieListsEmpty d = true → ∃ t, exec (.resetDie d) s = .next t ∧ t.front d = { FrontEnd.reset with inReset := true } ∧
      (∀ x, x ≠ d → t.front x = s.front x) ∧ t.job.planSet = none ∧ t.res.copying = none ∧ t.boot.dieWaits = [] ∧
      t.param P.deviceResult = 0 ∧ t.log.committed = s.log.nextSeq ∧ t.dict.saving = none ∧
      (s.boot.fw = .writing → t.boot.fw = .none ∧ t.param P.fwResult = 1) ∧
      (t.param P.dieResetState).testBit d.val = true ∧ (∀ k, (t.mem.plan.read (planKey d k) = 0 ∨ 2 ^ 23 ≤ k)) ∧
      t.mem.hbm = s.mem.hbm ∧ t.mem.lpddr = s.mem.lpddr ∧ t.ten = s.ten ∧
      (∀ p, p < 12 → (t.link (12 * d.val + p)).phase = .down ∨ (t.link (12 * d.val + p)).phase = .disabled)) ∧
    (s.dieResetAllowed = true → s.dieListsEmpty d = false → ∃ t, exec (.resetDie d) s = .next t ∧ t.boot.dieWaits = [d] ∧
      t.job.planSet = none ∧ t.param P.deviceResult = 0 ∧ SameData s t ∧ t.ten = s.ten) ∧
    (s.dieResetAllowed = false → exec (.resetDie d) s = .next (s.setParam P.deviceResult 1)) ∧
    ((s.front d).inReset = true → ∃ t, exec (.dieReset d ms) s = .next t ∧
      t.front d = { s.front d with inReset := false } ∧ (∀ x, x ≠ d → t.front x = s.front x) ∧
      (t.param P.dieResetState).testBit d.val = false ∧ LastEvent t Ev.dieReset [(2, min ms 65535)] ∧ t.mem = s.mem ∧
      (∀ p, p < 12 → (t.link (12 * d.val + p)).phase = .training ∨ (t.link (12 * d.val + p)).phase = .disabled)) ∧
    ((s.front d).inReset = false → exec (.dieReset d ms) s = .next s)) ∧
  (∀ (d : DieId) (f : W32) (s : State), s.boot.dieWaits = [d] → (s.keyedPage f.toNat).dieListsEmpty d = true →
    ∃ t, exec (.keyingPageDone f) s = .next t ∧ t.front d = { FrontEnd.reset with inReset := true } ∧ t.boot.dieWaits = [] ∧
      (∀ x, x ≠ d → t.front x = s.front x)) ∧
  (∀ (hung : Byte) (s : State),
    (s.running' = true → ∃ t, exec (.watchdogReset hung) s = .next t ∧
      t.param P.watchdogCount = (s.param P.watchdogCount + 1) % paramModulus P.watchdogCount ∧
      LastEvent t Ev.watchdogReset [(1, hung.toNat)] ∧ SameData s t ∧ t.job = s.job ∧ t.adm = s.adm ∧ t.beat = s.beat ∧
      t.ten = s.ten ∧ (s.fwBusy = true → t.boot.fw = .none ∧ t.param P.fwResult = 1)) ∧
    (s.running' = false → exec (.watchdogReset hung) s = .next s))

/-- The straps (R523). -/
def Obligations.StrapsAreSampledOnce : Prop :=
  (∀ (f : Byte) (k : BitVec 6) (i : Bool) (s : State),
    (s.boot.alwaysOn = false → ∃ t, exec (.alwaysOnStart f ⟨k, i⟩) s = .next t ∧ t.boot.feedId = f ∧ t.boot.slotId = k ∧
      t.boot.alwaysOn = true) ∧
    (s.boot.alwaysOn = true → exec (.alwaysOnStart f ⟨k, i⟩) s = .next s)) ∧
  (∀ (c : Instr) (s t : State), exec c s = .next t → (∀ f x, c ≠ .alwaysOnStart f x) → c ≠ .alwaysOnPowerLost →
    t.boot.feedId = s.boot.feedId ∧ t.boot.slotId = s.boot.slotId) ∧
  (∀ s t : State, exec .alwaysOnPowerLost s = .next t → t.boot.alwaysOn = false) ∧
  (∀ (doe : Bool) (s : State), s.boot.feedId = 0xFF → s.boot.slotId = 63 →
    s.readNumber doe P.feedId = 0xFF ∧ s.readNumber doe P.slotId = 63 ∧ s.readNumber doe P.plcaNodeId = 64)

/-- Input power, POWER_CMD, trips and coolant (R491, R492, R524 to R526, R528 to R530, R532). The model's readings in it: one limit
for each event and source (log entry 12), what bars POWER_CMD 1 (log entries 109 and 110) and which readings trip (log entry 111). -/
def Obligations.InputPowerAndTripsTurnTheMainRailsOff : Prop :=
  (∀ (f : Byte) (k : BitVec 6) (i : Bool) (s : State), s.boot.alwaysOn = false →
    ∃ t, exec (.alwaysOnStart f ⟨k, i⟩) s = .next t ∧ t.boot.inputOk = i ∧
    t.boot.regulators = (i && s.bootPolicy == 0) ∧ t.boot.dev = s.boot.dev ∧ t.ten.scrubRecorded = false ∧ t.ten.keptKey = none ∧
    t.ten.epoch = 0 ∧ t.mem = s.mem) ∧
  (∀ s : State, ∃ t, exec .alwaysOnPowerLost s = .next t ∧ t.boot = {} ∧ t.fe = State.reset.fe ∧
    t.mem = { flash := s.mem.flash } ∧ t.log.flash = s.log.flash ∧ t.log.records = [] ∧ t.ten.phase = .unbound ∧
    t.pending = s.pending) ∧
  (let off := fun (s t : State) (code : Nat) (fields : List (Nat × Nat)) =>
      t.boot.dev = .off ∧ t.boot.regulators = false ∧ t.mem.hbm = [] ∧ t.mem.lpddr = [] ∧ t.ten.scrubRecorded = false ∧
        t.ten.keptKey = none ∧ t.mem.flash = s.mem.flash ∧ (∀ d, t.front d = FrontEnd.reset) ∧
        (s.boot.endedIn = none → s.ten.phase = .bound → t.ten.phase = .scrubbing ∧ t.ten.epoch = s.ten.epoch + 1) ∧
        (s.ten.phase = .unbound → t.ten.phase = .unbound ∧ t.ten.epoch = s.ten.epoch) ∧
        ∃ r, t.log.retained = s.log.retained ++ [r] ∧ r.code = code ∧ r.detail = detail fields ∧ r.beat = s.beat.count
   (∀ (n : Nat) (b : Bool) (c : Instr) (code : Nat) (fields : List (Nat × Nat)) (s : State),
      (c = .inputUndervoltage n ∧ n < 350 ∧ code = Ev.inputUndervoltage ∧ fields = [(2, n)] ∨
        c = .inputOvervoltage n ∧ 450 < n ∧ code = Ev.inputOvervoltage ∧ fields = [(2, n)] ∨
        c = .powerPairLost b ∧ code = Ev.powerPairLost ∧ fields = [(1, if b then 2 else 1)]) →
      s.boot.alwaysOn = true →
      (s.boot.regulators = true → ∃ t, exec c s = .next t ∧ off s t code fields ∧ t.boot.inputOk = false) ∧
      (s.boot.regulators = false → exec c s = .next { s with boot := { s.boot with inputOk := false } })) ∧
   (∀ (i : Nat) (x : Int) (s : State), s.boot.alwaysOn = true → s.tripReached i (s.tripReading i x) = true →
      ∃ t, exec (.thermalTrip i x) s = .next t ∧
        off s t Ev.thermalTrip [(1, i), (2, rawInt 16 (roundDegrees (s.tripReading i x)))] ∧ t.boot.thermTripLow = true ∧
        t.boot.tripped = true ∧ t.boot.stayOff = true) ∧
   (∀ s : State, (s.boot.dev = .idle ∨ s.boot.dev = .fault) → ∃ t, exec .powerDown s = .next t ∧
      off s t Ev.powerDown [(1, s.boot.dev.code)] ∧ t.boot.stayOff = true ∧ t.boot.cold = true)) ∧
  (∀ (n : Nat) (b : Bool) (i : Nat) (x : Int) (s : State),
    (s.boot.alwaysOn = false ∨ 350 ≤ n → exec (.inputUndervoltage n) s = .next s) ∧
    (s.boot.alwaysOn = false ∨ n ≤ 450 → exec (.inputOvervoltage n) s = .next s) ∧
    (s.boot.alwaysOn = false → exec (.powerPairLost b) s = .next s ∧ exec .powerRestored s = .next s) ∧
    (s.boot.alwaysOn = false ∨ s.tripReached i (s.tripReading i x) = false → exec (.thermalTrip i x) s = .next s) ∧
    (i ≤ 35 → (s.tripReached i x = true ↔ 64 * (s.param P.tripTemp : Int) ≤ x)) ∧
    (38 ≤ i → i ≤ 41 → (s.tripReached i x = true ↔ 8000 ≤ x)) ∧
    (s.boot.dev ≠ .idle → s.boot.dev ≠ .fault → exec .powerDown s = .next s)) ∧
  (∀ s : State,
    (s.boot.alwaysOn = true → exec .powerRestored s = .next { s with boot := { s.boot with
      inputOk := true,
      regulators := s.boot.regulators || (s.boot.dev == .off && !s.boot.stayOff && (s.bootPolicy == 0 || s.boot.upAsked)) } }) ∧
    (s.boot.dev ≠ .off ∨ s.boot.alwaysOn = false ∨ s.tripBars = true ∧ s.coolantBad = false → exec .powerUp s = .next s) ∧
    (s.boot.dev = .off → s.boot.alwaysOn = true →
      (s.coolantBad = true → ∃ t, exec .powerUp s = .next t ∧ t.boot = s.boot ∧ t.mem = s.mem ∧
        ∃ r, t.log.retained = s.log.retained ++ [r] ∧ r.code = Ev.coolantFlowLow) ∧
      (s.coolantBad = false → s.tripBars = false → exec .powerUp s = .next { s with boot := { s.boot with
        stayOff := false, tripped := false, thermTripLow := false, upAsked := true,
        regulators := s.boot.regulators || s.boot.inputOk } }))) ∧
  (∀ (i o : Int) (s : State),
    (s.boot.regulators = false ∨ s.running' = false → exec (.coolantCheck i o) s = .next s) ∧
    (s.boot.regulators = true → s.running' = true →
      (let tin := roundDegrees (s.calibrated 36 i)
       let tout := roundDegrees (s.calibrated 37 o)
       (tout - tin ≤ 25 → tin ≤ 40 → exec (.coolantCheck i o) s = .next s) ∧
       (25 < tout - tin → tin ≤ 40 → s.host.limited.find? (limitKey Ev.coolantFlowLow 0) = none →
         ∃ t, exec (.coolantCheck i o) s = .next t ∧ SameData s t ∧ t.boot = s.boot ∧
           LastEvent t Ev.coolantFlowLow [(2, rawInt 16 tin), (2, rawInt 16 tout)]) ∧
       (40 < tin → s.host.limited.find? (limitKey Ev.coolantInletHigh 0) = none →
         ∃ t, exec (.coolantCheck i o) s = .next t ∧ SameData s t ∧ t.boot = s.boot ∧
           LastEvent t Ev.coolantInletHigh [(2, rawInt 16 tin)]))))

/-- Telemetry (R437, R481, R484, R485), the log's commits (R488), the management port (R461, R462) and the CXL link (R329, R494). How a
tie between two degrees is rounded is log entry 92, and that OFF reads the coolant sensors only is log entry 110. -/
def Obligations.TelemetryLogAndPortsAreUpdated : Prop :=
  (∀ (x : TelemetryCounts) (s : State),
    (s.running' = true → ∃ t, exec (.telemetryInterval x) s = .next t ∧ SameData s t ∧ t.job = s.job ∧ t.log = s.log ∧
      (∀ d, d < 4 → d < x.arrayBusy.length → t.param (P.arrayBusy 0 + d) =
        if x.intervalCycles = 0 then 0 else min 64 (64 * x.arrayBusy.getD d 0 / (128 * x.intervalCycles))) ∧
      (∀ d, d < 4 → d < x.hbmBytes.length → t.param (P.hbmUtil 0 + d) =
        if x.intervalCycles = 0 then 0 else min 64 (64 * x.hbmBytes.getD d 0 * 105 / (737280 * x.intervalCycles))) ∧
      (∀ d, d < 4 → d < x.fabricTx.length → t.param (P.fabricTx 0 + d) =
        if x.intervalCycles = 0 then 0 else min 64 (64 * x.fabricTx.getD d 0 * 28 / (125 * x.intervalCycles))) ∧
      (∀ d, d < 4 → d < x.lpddrBytes.length → t.param (P.lpddrUtil 0 + d) =
        if x.intervalCycles = 0 then 0 else min 64 (64 * x.lpddrBytes.getD d 0 * 105 / (30720 * x.intervalCycles))) ∧
      (∀ d, d < 4 → d < x.fabricRx.length → t.param (P.fabricRx 0 + d) =
        if x.intervalCycles = 0 then 0 else min 64 (64 * x.fabricRx.getD d 0 * 28 / (125 * x.intervalCycles))) ∧
      t.param P.beatsNormal = min 64 (64 * s.beat.beatsNormal / 1024) ∧
      t.param P.beatsIdle = min 64 (64 * s.beat.beatsIdle / 1024) ∧
      t.param P.beatsCatchUp = min 64 (64 * s.beat.beatsCatchUp / 1024) ∧
      t.param P.rowFill = (if x.slot0Boundaries = 0 then 0 else min 64 (64 * x.rowFill / (4096 * x.slot0Boundaries))) ∧
      t.param (P.rowFill + 1) = min 64 (64 * s.adm.slots.countP (fun e => e.2.phase == .filling ||
        decide (0 < s.slotPins e.1 e.2)) / 1024) ∧ t.beat.beatsNormal = 0 ∧ t.beat.beatsIdle = 0 ∧
      t.beat.beatsCatchUp = 0 ∧ t.beat.count = s.beat.count ∧
      t.param P.telemSeq = (s.param P.telemSeq + 1) % paramModulus P.telemSeq) ∧
    (s.running' = false → exec (.telemetryInterval x) s = .next s)) ∧
  (∀ (x : SecondReadings) (s : State),
    (s.boot.alwaysOn = true → s.boot.dev ≠ .off → ∃ t, exec (.telemetrySecond x) s = .next t ∧
      (let watts := fun (k n : Nat) => (((List.range n).map (fun i =>
         s.calibratedPower (k + i) (x.rails.getD (k + i) 0))).sum + 25 * 65536) / (50 * 65536) * 50
       let hot := fun (k n : Nat) (v : Nat) => ∃ i, i < n ∧ v = rawInt 16 (roundDegrees (s.calibrated (k + i) (x.sensors.getD (k + i) 0))) ∧
         ∀ j, j < n → s.calibrated (k + j) (x.sensors.getD (k + j) 0) ≤ s.calibrated (k + i) (x.sensors.getD (k + i) 0)
       t.param P.inputPower = watts 0 1 ∧ (∀ d, d < 4 → t.param (P.railPower 0 + d) = watts (1 + d) 1) ∧
       t.param (P.railPower 0 + 4) = watts 5 4 ∧ t.param (P.railPower 0 + 5) = watts 9 4 ∧
       t.param (P.railPower 0 + 6) = watts 13 4 ∧ t.param (P.railPower 0 + 7) = watts 17 1 ∧
       t.param (P.railPower 0 + 8) = watts 18 1 ∧
       t.param P.powerBusyAvg = (s.calibratedPower 0 x.busy + 25 * 65536) / (50 * 65536) * 50 ∧
       t.param P.powerIdleAvg = (s.calibratedPower 0 x.idle + 25 * 65536) / (50 * 65536) * 50 ∧
       (∀ d, d < 4 → hot (8 * d) 8 (t.param (P.temp 0 + d))) ∧ hot 32 4 (t.param (P.temp 0 + 4)) ∧
       t.param (P.temp 0 + 5) = rawInt 16 (roundDegrees x.hbm) ∧ t.param (P.temp 0 + 6) = rawInt 16 (roundDegrees x.lpddr) ∧
       hot 36 1 (t.param (P.temp 0 + 7)) ∧ hot 37 1 (t.param (P.temp 0 + 8)) ∧ hot 38 4 (t.param (P.temp 0 + 9))) ∧
      t.param P.inputVoltage = rawInt 32 x.voltage ∧
      t.boot = { s.boot with uptime := (s.boot.uptime + 1) % 2 ^ 32 } ∧ SameData s t ∧ t.job = s.job ∧ t.log = s.log) ∧
    (s.boot.alwaysOn = true → s.boot.dev = .off → ∃ t, exec (.telemetrySecond x) s = .next t ∧
      t.param P.tempCoolantIn = rawInt 16 (roundDegrees (s.calibrated 36 (x.sensors.getD 36 0))) ∧
      t.param P.tempCoolantOut = rawInt 16 (roundDegrees (s.calibrated 37 (x.sensors.getD 37 0))) ∧
      t.boot = { s.boot with offSeconds := s.boot.offSeconds + 1 } ∧ SameData s t ∧ t.job = s.job ∧ t.log = s.log) ∧
    (s.boot.alwaysOn = false → exec (.telemetrySecond x) s = .next s)) ∧
  (∀ s : State,
    (s.boot.dev ≠ .off → s.boot.stage ≠ .resetHeld → ∃ t, exec .logCommit s = .next t ∧
      t.log.committed = s.log.nextSeq ∧ t.log.flash.length ≤ max 4096 s.log.flash.length ∧
      (∀ r ∈ t.log.flash, r ∈ s.log.flash ∨ r ∈ s.log.records) ∧
      (let waits := s.log.records.filter (fun r =>
         decide ((s.log.nextSeq + 2 ^ 32 - r.seq) % 2 ^ 32 ≤ (s.log.nextSeq + 2 ^ 32 - s.log.committed) % 2 ^ 32))
       (waits.length ≤ 4096 → ∀ r ∈ waits, r ∈ t.log.flash) ∧
       (4096 ≤ waits.length → t.log.flash = waits.drop (waits.length - 4096))) ∧ t.log.records = s.log.records ∧
      t.log.nextSeq = s.log.nextSeq ∧ { t with log := s.log } = s) ∧
    (s.boot.dev = .off ∨ s.boot.stage = .resetHeld → exec .logCommit s = .next s) ∧
    (s.boot.alwaysOn = true → exec .plcaBeaconReceived s = .next (s.setParam P.plcaStatus 1) ∧
      exec .plcaBeaconLost s = .next (s.setParam P.plcaStatus 2) ∧
      ∀ n, exec (.neighborDiscovery n) s = .next { s with out := s.out ++ [.advertisement n linkLocalAddress] }) ∧
    (s.boot.alwaysOn = false → exec .plcaBeaconReceived s = .next s ∧ exec .plcaBeaconLost s = .next s ∧
      ∀ n, exec (.neighborDiscovery n) s = .next s)) ∧
  (∀ (r w : Nat) (s : State),
    (s.running' = false ∨ s.boot.perstHeld = true → exec (.cxlLinkTrained r w) s = .next s) ∧
    (s.running' = true → s.boot.perstHeld = false →
      ((r = 64 ∨ r = 32 ∨ r = 16) → 4 ≤ w → ∃ t, exec (.cxlLinkTrained r w) s = .next t ∧
        t.param P.linkRate = (if r = 64 then 3 else if r = 32 then 2 else 1) ∧ t.param P.linkWidth = w ∧
        (r = 64 → 16 ≤ w → t.log = s.log) ∧
        (r < 64 ∨ w < 16 → LastEvent t Ev.cxlLinkDegraded
          [(1, if r = 64 then 3 else if r = 32 then 2 else 1), (1, w)]) ∧ SameData s t ∧ t.job = s.job) ∧
      ((r ≠ 64 ∧ r ≠ 32 ∧ r ≠ 16 ∨ w < 4) → ∃ t, exec (.cxlLinkTrained r w) s = .next t ∧ t.param P.linkRate = 0 ∧
        t.param P.linkWidth = 0 ∧ LastEvent t Ev.cxlLinkFailed [] ∧ SameData s t ∧ t.job = s.job)))
end

