-- ==== Sys2Proof/Laws/Map.lean ====
section
/-! SUPPORT. Lemmas about sparse maps, memories of bytes and byte order: a read after a write to the same key gives the value
written, a write leaves every other key alone, and every operation keeps the canonical form. -/

namespace Sys2Proof.Machine

namespace AMap
variable {α : Type}

@[simp] theorem find?_nil (a : Nat) : find? ([] : AMap α) a = none := rfl

theorem find?_insert_self (m : AMap α) (a : Nat) (v : α) : (insert m a v).find? a = some v := by
  induction m with
  | nil => simp [insert, find?]
  | cons p m ih =>
    obtain ⟨k, w⟩ := p
    simp only [insert]
    split
    · simp [find?]
    · split
      · simp [find?]
      · rename_i h1 h2
        have : k ≠ a := fun h => h2 h.symm
        simp [find?, this, ih]

theorem find?_insert_ne (m : AMap α) {a b : Nat} (v : α) (h : b ≠ a) : (insert m a v).find? b = m.find? b := by
  induction m with
  | nil => simp [insert, find?, Ne.symm h]
  | cons p m ih =>
    obtain ⟨k, w⟩ := p
    simp only [insert]
    split
    · simp [find?, Ne.symm h]
    · split
      · rename_i h2
        simp [find?, Ne.symm h, ← h2]
      · simp [find?, ih]

theorem find?_erase_self (m : AMap α) (a : Nat) : (erase m a).find? a = none := by
  induction m with
  | nil => rfl
  | cons p m ih =>
    obtain ⟨k, w⟩ := p
    simp only [erase]
    split
    · exact ih
    · rename_i h; simp [find?, h, ih]

theorem find?_erase_ne (m : AMap α) {a b : Nat} (h : b ≠ a) : (erase m a).find? b = m.find? b := by
  induction m with
  | nil => rfl
  | cons p m ih =>
    obtain ⟨k, w⟩ := p
    simp only [erase]
    split
    · rename_i h2; simp [find?, h2, Ne.symm h, ih]
    · simp [find?, ih]

variable [DecidableEq α]

/-- Setting a key gives the value set. -/
@[simp] theorem getD_set_self (d : α) (m : AMap α) (a : Nat) (v : α) : (set d m a v).getD a d = v := by
  unfold set getD
  split
  · rename_i h; simp [find?_erase_self, h]
  · simp [find?_insert_self]

/-- Setting a key leaves every other key alone. -/
theorem getD_set_ne (d e : α) (m : AMap α) {a b : Nat} (v : α) (h : b ≠ a) : (set d m a v).getD b e = m.getD b e := by
  unfold set getD
  split
  · rw [find?_erase_ne m h]
  · rw [find?_insert_ne m v h]

/-- Setting a key leaves what every other key lists alone. -/
theorem find?_set_ne (d : α) (m : AMap α) {a b : Nat} (v : α) (h : b ≠ a) : (set d m a v).find? b = m.find? b := by
  unfold set
  split
  · exact find?_erase_ne m h
  · exact find?_insert_ne m v h

/-- Setting a key to the default unlists it. -/
theorem find?_set_default (d : α) (m : AMap α) (a : Nat) : (set d m a d).find? a = none := by
  simp [set, find?_erase_self]

/-- A lookup after a set to the same key. -/
theorem getD_find?_set_self (d : α) (m : AMap α) (a : Nat) (v : α) : ((set d m a v).find? a).getD d = v :=
  getD_set_self d m a v

/-! ### The canonical form -/

omit [DecidableEq α] in
theorem risingFrom_mono {b c : Nat} (h : b ≤ c) (m : AMap α) (hm : risingFrom c m = true) : risingFrom b m = true := by
  cases m with
  | nil => rfl
  | cons p m =>
    simp only [risingFrom, Bool.and_eq_true, decide_eq_true_eq] at *
    exact ⟨le_trans h hm.1, hm.2⟩

omit [DecidableEq α] in
theorem risingFrom_insert (m : AMap α) (b a : Nat) (v : α) (hb : b ≤ a) (hm : risingFrom b m = true) :
    risingFrom b (insert m a v) = true := by
  induction m generalizing b with
  | nil => simp [insert, risingFrom, hb]
  | cons p m ih =>
    obtain ⟨k, w⟩ := p
    simp only [risingFrom, Bool.and_eq_true, decide_eq_true_eq] at hm
    simp only [insert]
    split
    · rename_i h
      simp only [risingFrom, Bool.and_eq_true, decide_eq_true_eq]
      exact ⟨hb, by omega, hm.2⟩
    · split
      · rename_i h1 h2
        subst h2
        simp [risingFrom, hb, hm.2]
      · rename_i h1 h2
        simp only [risingFrom, Bool.and_eq_true, decide_eq_true_eq]
        exact ⟨hm.1, ih (k + 1) (by omega) hm.2⟩

omit [DecidableEq α] in
theorem risingFrom_filter (m : AMap α) (b : Nat) (p : Nat × α → Bool) (hm : risingFrom b m = true) :
    risingFrom b (m.filter p) = true := by
  induction m generalizing b with
  | nil => rfl
  | cons q m ih =>
    obtain ⟨k, w⟩ := q
    simp only [risingFrom, Bool.and_eq_true, decide_eq_true_eq] at hm
    simp only [List.filter]
    split
    · simp only [risingFrom, Bool.and_eq_true, decide_eq_true_eq]
      exact ⟨hm.1, ih (k + 1) hm.2⟩
    · exact risingFrom_mono (by omega) _ (ih (k + 1) hm.2)

omit [DecidableEq α] in
theorem erase_eq_filter (m : AMap α) (a : Nat) : erase m a = m.filter (fun p => decide (p.1 ≠ a)) := by
  induction m with
  | nil => rfl
  | cons p m ih =>
    obtain ⟨k, w⟩ := p
    by_cases h : k = a <;> simp [erase, List.filter, h, ih]

omit [DecidableEq α] in
theorem mem_insert {m : AMap α} {a : Nat} {v : α} {p : Nat × α} (h : p ∈ insert m a v) : p = (a, v) ∨ p ∈ m := by
  induction m with
  | nil => simpa [insert] using h
  | cons q m ih =>
    obtain ⟨k, w⟩ := q
    simp only [insert] at h
    split at h
    · simpa using h
    · split at h
      · rcases List.mem_cons.1 h with h | h
        · exact .inl h
        · exact .inr (List.mem_cons_of_mem _ h)
      · rcases List.mem_cons.1 h with h | h
        · exact .inr (h ▸ List.mem_cons_self)
        · rcases ih h with h | h
          · exact .inl h
          · exact .inr (List.mem_cons_of_mem _ h)

theorem wf_nil (d : α) : wf d ([] : AMap α) = true := rfl

/-- A filter keeps the canonical form. -/
theorem wf_filter (d : α) (m : AMap α) (p : Nat × α → Bool) (hm : wf d m = true) : wf d (m.filter p) = true := by
  simp only [wf, Bool.and_eq_true] at *
  refine ⟨risingFrom_filter m 0 p hm.1, ?_⟩
  rw [List.all_eq_true] at *
  intro x hx
  exact hm.2 x (List.mem_filter.1 hx).1

/-- Setting a key keeps the canonical form. -/
theorem wf_set (d : α) (m : AMap α) (a : Nat) (v : α) (hm : wf d m = true) : wf d (set d m a v) = true := by
  unfold set
  split
  · rw [erase_eq_filter]; exact wf_filter d m _ hm
  · rename_i h
    simp only [wf, Bool.and_eq_true] at *
    refine ⟨risingFrom_insert m 0 a v (Nat.zero_le _) hm.1, ?_⟩
    rw [List.all_eq_true] at *
    intro x hx
    rcases mem_insert hx with hx | hx
    · simp [hx, h]
    · exact hm.2 x hx

end AMap

namespace Memory

/-- A read after a write to the same address gives the byte written. -/
@[simp] theorem read_write_self (m : Memory) (a : Nat) (b : Byte) : (m.write a b).read a = b := AMap.getD_set_self 0 m a b

/-- A write leaves every other address alone. -/
theorem read_write_ne (m : Memory) {a c : Nat} (b : Byte) (h : c ≠ a) : (m.write a b).read c = m.read c :=
  AMap.getD_set_ne 0 0 m b h

/-- Outside the bytes written, every address reads as before. -/
theorem read_writeBytes_out (bs : List Byte) (m : Memory) (a c : Nat) (h : c < a ∨ a + bs.length ≤ c) :
    (m.writeBytes a bs).read c = m.read c := by
  induction bs generalizing m a with
  | nil => rfl
  | cons b bs ih =>
    simp only [List.length_cons] at h
    rw [writeBytes, ih _ _ (by omega), read_write_ne _ _ (by omega)]

/-- Inside the bytes written, an address reads as its byte. -/
theorem read_writeBytes_in (bs : List Byte) (m : Memory) (a i : Nat) (h : i < bs.length) :
    (m.writeBytes a bs).read (a + i) = bs[i] := by
  induction bs generalizing m a i with
  | nil => simp at h
  | cons b bs ih =>
    rw [writeBytes]
    cases i with
    | zero => rw [read_writeBytes_out _ _ _ _ (by omega)]; simp
    | succ i =>
      have := ih (m.write a b) (a + 1) i (by simpa using h)
      rw [show a + (i + 1) = a + 1 + i by omega, this]; simp

@[simp] theorem length_readBytes (m : Memory) (a n : Nat) : (m.readBytes a n).length = n := by
  induction n generalizing a with
  | zero => rfl
  | succ n ih => simp [readBytes, ih]

/-- Byte i of a read. -/
theorem getElem_readBytes (m : Memory) (a n i : Nat) (h : i < (m.readBytes a n).length) :
    (m.readBytes a n)[i] = m.read (a + i) := by
  induction n generalizing a i with
  | zero => simp at h
  | succ n ih =>
    cases i with
    | zero => simp [readBytes]
    | succ i =>
      have := ih (a + 1) i (by simpa [readBytes] using h)
      simp only [readBytes, List.getElem_cons_succ]
      rw [this, show a + 1 + i = a + (i + 1) by omega]

/-- Reading back the bytes written. -/
theorem readBytes_writeBytes (m : Memory) (a : Nat) (bs : List Byte) : (m.writeBytes a bs).readBytes a bs.length = bs := by
  apply List.ext_getElem
  · simp
  · intro i h1 h2
    rw [getElem_readBytes, read_writeBytes_in bs m a i h2]

/-- A read apart from the bytes written gives what it gave before. -/
theorem readBytes_writeBytes_out (m : Memory) (a c n : Nat) (bs : List Byte) (h : c + n ≤ a ∨ a + bs.length ≤ c) :
    (m.writeBytes a bs).readBytes c n = m.readBytes c n := by
  apply List.ext_getElem
  · simp
  · intro i h1 h2
    rw [getElem_readBytes, getElem_readBytes]
    simp only [length_readBytes] at h1
    exact read_writeBytes_out bs m a _ (by omega)

theorem find?_filter_keep (m : Memory) (p : Nat × Byte → Bool) (c : Nat) (h : ∀ v, p (c, v) = true) :
    AMap.find? (m.filter p) c = AMap.find? m c := by
  induction m with
  | nil => rfl
  | cons q m ih =>
    obtain ⟨k, w⟩ := q
    by_cases hk : k = c
    · subst hk; simp [List.filter, h, AMap.find?]
    · simp only [List.filter]
      split
      · simp [AMap.find?, hk, ih]
      · simp [AMap.find?, hk, ih]

theorem find?_filter_drop (m : Memory) (p : Nat × Byte → Bool) (c : Nat) (h : ∀ v, p (c, v) = false) :
    AMap.find? (m.filter p) c = none := by
  induction m with
  | nil => rfl
  | cons q m ih =>
    obtain ⟨k, w⟩ := q
    by_cases hk : k = c
    · subst hk; simpa [List.filter, h] using ih
    · simp only [List.filter]
      split
      · simp [AMap.find?, hk, ih]
      · exact ih

/-- A cleared byte reads as zero. -/
theorem read_clearRange_in (m : Memory) (a n c : Nat) (h1 : a ≤ c) (h2 : c < a + n) : (m.clearRange a n).read c = 0 := by
  unfold read AMap.getD clearRange
  rw [find?_filter_drop m _ c (by intro v; simp; omega)]
  rfl

/-- Outside a cleared range, every address reads as before. -/
theorem read_clearRange_out (m : Memory) (a n c : Nat) (h : c < a ∨ a + n ≤ c) : (m.clearRange a n).read c = m.read c := by
  unfold read AMap.getD clearRange
  rw [find?_filter_keep m _ c (by intro v; simpa using h)]

/-! ### The canonical form -/

theorem wf_write (m : Memory) (a : Nat) (b : Byte) (h : m.wf = true) : (m.write a b).wf = true := AMap.wf_set 0 m a b h

theorem wf_writeBytes (bs : List Byte) (m : Memory) (a : Nat) (h : m.wf = true) : (m.writeBytes a bs).wf = true := by
  induction bs generalizing m a with
  | nil => exact h
  | cons b bs ih => exact ih _ _ (wf_write m a b h)

theorem wf_writeLE (m : Memory) (a n v : Nat) (h : m.wf = true) : (m.writeLE a n v).wf = true := wf_writeBytes _ m a h

theorem wf_filter (m : Memory) (p : Nat × Byte → Bool) (h : m.wf = true) : Memory.wf (m.filter p) = true :=
  AMap.wf_filter 0 m p h

theorem wf_clearRange (m : Memory) (a n : Nat) (h : m.wf = true) : (m.clearRange a n).wf = true := wf_filter m _ h

theorem wf_nil : Memory.wf [] = true := rfl

end Memory

/-! ## Byte order -/

@[simp] theorem length_leBytes (n v : Nat) : (leBytes n v).length = n := by
  induction n generalizing v with
  | zero => rfl
  | succ n ih => simp [leBytes, ih]

/-- Little-endian bytes spell their number, modulo 256 to their count. -/
theorem leNat_leBytes (n v : Nat) : leNat (leBytes n v) = v % 256 ^ n := by
  induction n generalizing v with
  | zero => simp [leBytes, leNat, Nat.mod_one]
  | succ n ih =>
    simp only [leBytes, leNat, ih]
    rw [BitVec.toNat_ofNat, show 256 ^ (n + 1) = 256 * 256 ^ n by ring, Nat.mod_mul]

theorem leNat_lt (bs : List Byte) : leNat bs < 256 ^ bs.length := by
  induction bs with
  | nil => simp [leNat]
  | cons b bs ih =>
    simp only [leNat, List.length_cons, pow_succ]
    have := b.isLt
    omega

/-- A little-endian number reads back. -/
theorem Memory.readLE_writeLE (m : Memory) (a n v : Nat) : (m.writeLE a n v).readLE a n = v % 256 ^ n := by
  unfold Memory.readLE Memory.writeLE
  have := Memory.readBytes_writeBytes m a (leBytes n v)
  rw [length_leBytes] at this
  rw [this, leNat_leBytes]

/-! ## One value for each compute die -/

namespace Quad
variable {α : Type}

@[simp] theorem get_set_self (q : Quad α) (d : DieId) (v : α) : (q.set d v).get d = v := by
  match d with
  | 0 => rfl
  | 1 => rfl
  | 2 => rfl
  | 3 => rfl

theorem get_set_ne (q : Quad α) (d e : DieId) (v : α) (h : e ≠ d) : (q.set d v).get e = q.get e := by
  match d, e with
  | 0, 0 => exact absurd rfl h
  | 0, 1 => rfl
  | 0, 2 => rfl
  | 0, 3 => rfl
  | 1, 0 => rfl
  | 1, 1 => exact absurd rfl h
  | 1, 2 => rfl
  | 1, 3 => rfl
  | 2, 0 => rfl
  | 2, 1 => rfl
  | 2, 2 => exact absurd rfl h
  | 2, 3 => rfl
  | 3, 0 => rfl
  | 3, 1 => rfl
  | 3, 2 => rfl
  | 3, 3 => exact absurd rfl h

@[simp] theorem get_fill (v : α) (d : DieId) : (Quad.fill v).get d = v := by
  match d with
  | 0 => rfl
  | 1 => rfl
  | 2 => rfl
  | 3 => rfl

end Quad

end Sys2Proof.Machine
end

