-- ==== Sys2Proof/Laws/State.lean ====
section
/-! SUPPORT. What each elementary update of the state leaves alone, field by field, and what it gives back. -/

namespace Sys2Proof.Machine

/-! ### setParam -/

@[simp] theorem State.setParam_pending (s : State) (k v : Nat) : (s.setParam k v).pending = s.pending := rfl
@[simp] theorem State.setParam_fe (s : State) (k v : Nat) : (s.setParam k v).fe = s.fe := rfl
@[simp] theorem State.setParam_cells (s : State) (k v : Nat) : (s.setParam k v).cells = s.cells := rfl
@[simp] theorem State.setParam_mem (s : State) (k v : Nat) : (s.setParam k v).mem = s.mem := rfl
@[simp] theorem State.setParam_rind (s : State) (k v : Nat) : (s.setParam k v).rind = s.rind := rfl
@[simp] theorem State.setParam_beat (s : State) (k v : Nat) : (s.setParam k v).beat = s.beat := rfl
@[simp] theorem State.setParam_job (s : State) (k v : Nat) : (s.setParam k v).job = s.job := rfl
@[simp] theorem State.setParam_adm (s : State) (k v : Nat) : (s.setParam k v).adm = s.adm := rfl
@[simp] theorem State.setParam_kv (s : State) (k v : Nat) : (s.setParam k v).kv = s.kv := rfl
@[simp] theorem State.setParam_host (s : State) (k v : Nat) : (s.setParam k v).host = s.host := rfl
@[simp] theorem State.setParam_fab (s : State) (k v : Nat) : (s.setParam k v).fab = s.fab := rfl
@[simp] theorem State.setParam_log (s : State) (k v : Nat) : (s.setParam k v).log = s.log := rfl
@[simp] theorem State.setParam_ten (s : State) (k v : Nat) : (s.setParam k v).ten = s.ten := rfl
@[simp] theorem State.setParam_res (s : State) (k v : Nat) : (s.setParam k v).res = s.res := rfl
@[simp] theorem State.setParam_boot (s : State) (k v : Nat) : (s.setParam k v).boot = s.boot := rfl
@[simp] theorem State.setParam_out (s : State) (k v : Nat) : (s.setParam k v).out = s.out := rfl
@[simp] theorem State.setParam_free (s : State) (k v : Nat) : (s.setParam k v).free = s.free := rfl

/-! ### setBlob -/

@[simp] theorem State.setBlob_pending (s : State) (k : Nat) (v : List Byte) : (s.setBlob k v).pending = s.pending := rfl
@[simp] theorem State.setBlob_fe (s : State) (k : Nat) (v : List Byte) : (s.setBlob k v).fe = s.fe := rfl
@[simp] theorem State.setBlob_cells (s : State) (k : Nat) (v : List Byte) : (s.setBlob k v).cells = s.cells := rfl
@[simp] theorem State.setBlob_mem (s : State) (k : Nat) (v : List Byte) : (s.setBlob k v).mem = s.mem := rfl
@[simp] theorem State.setBlob_rind (s : State) (k : Nat) (v : List Byte) : (s.setBlob k v).rind = s.rind := rfl
@[simp] theorem State.setBlob_beat (s : State) (k : Nat) (v : List Byte) : (s.setBlob k v).beat = s.beat := rfl
@[simp] theorem State.setBlob_job (s : State) (k : Nat) (v : List Byte) : (s.setBlob k v).job = s.job := rfl
@[simp] theorem State.setBlob_adm (s : State) (k : Nat) (v : List Byte) : (s.setBlob k v).adm = s.adm := rfl
@[simp] theorem State.setBlob_kv (s : State) (k : Nat) (v : List Byte) : (s.setBlob k v).kv = s.kv := rfl
@[simp] theorem State.setBlob_host (s : State) (k : Nat) (v : List Byte) : (s.setBlob k v).host = s.host := rfl
@[simp] theorem State.setBlob_fab (s : State) (k : Nat) (v : List Byte) : (s.setBlob k v).fab = s.fab := rfl
@[simp] theorem State.setBlob_log (s : State) (k : Nat) (v : List Byte) : (s.setBlob k v).log = s.log := rfl
@[simp] theorem State.setBlob_ten (s : State) (k : Nat) (v : List Byte) : (s.setBlob k v).ten = s.ten := rfl
@[simp] theorem State.setBlob_res (s : State) (k : Nat) (v : List Byte) : (s.setBlob k v).res = s.res := rfl
@[simp] theorem State.setBlob_boot (s : State) (k : Nat) (v : List Byte) : (s.setBlob k v).boot = s.boot := rfl
@[simp] theorem State.setBlob_out (s : State) (k : Nat) (v : List Byte) : (s.setBlob k v).out = s.out := rfl
@[simp] theorem State.setBlob_free (s : State) (k : Nat) (v : List Byte) : (s.setBlob k v).free = s.free := rfl

/-! ### emit -/

@[simp] theorem State.emit_pending (s : State) (o : Output) : (s.emit o).pending = s.pending := rfl
@[simp] theorem State.emit_fe (s : State) (o : Output) : (s.emit o).fe = s.fe := rfl
@[simp] theorem State.emit_cells (s : State) (o : Output) : (s.emit o).cells = s.cells := rfl
@[simp] theorem State.emit_mem (s : State) (o : Output) : (s.emit o).mem = s.mem := rfl
@[simp] theorem State.emit_rind (s : State) (o : Output) : (s.emit o).rind = s.rind := rfl
@[simp] theorem State.emit_beat (s : State) (o : Output) : (s.emit o).beat = s.beat := rfl
@[simp] theorem State.emit_job (s : State) (o : Output) : (s.emit o).job = s.job := rfl
@[simp] theorem State.emit_adm (s : State) (o : Output) : (s.emit o).adm = s.adm := rfl
@[simp] theorem State.emit_kv (s : State) (o : Output) : (s.emit o).kv = s.kv := rfl
@[simp] theorem State.emit_host (s : State) (o : Output) : (s.emit o).host = s.host := rfl
@[simp] theorem State.emit_fab (s : State) (o : Output) : (s.emit o).fab = s.fab := rfl
@[simp] theorem State.emit_dict (s : State) (o : Output) : (s.emit o).dict = s.dict := rfl
@[simp] theorem State.emit_log (s : State) (o : Output) : (s.emit o).log = s.log := rfl
@[simp] theorem State.emit_ten (s : State) (o : Output) : (s.emit o).ten = s.ten := rfl
@[simp] theorem State.emit_res (s : State) (o : Output) : (s.emit o).res = s.res := rfl
@[simp] theorem State.emit_boot (s : State) (o : Output) : (s.emit o).boot = s.boot := rfl
@[simp] theorem State.emit_free (s : State) (o : Output) : (s.emit o).free = s.free := rfl

/-! ### emits -/

@[simp] theorem State.emits_pending (s : State) (os : List Output) : (s.emits os).pending = s.pending := rfl
@[simp] theorem State.emits_fe (s : State) (os : List Output) : (s.emits os).fe = s.fe := rfl
@[simp] theorem State.emits_cells (s : State) (os : List Output) : (s.emits os).cells = s.cells := rfl
@[simp] theorem State.emits_mem (s : State) (os : List Output) : (s.emits os).mem = s.mem := rfl
@[simp] theorem State.emits_rind (s : State) (os : List Output) : (s.emits os).rind = s.rind := rfl
@[simp] theorem State.emits_beat (s : State) (os : List Output) : (s.emits os).beat = s.beat := rfl
@[simp] theorem State.emits_job (s : State) (os : List Output) : (s.emits os).job = s.job := rfl
@[simp] theorem State.emits_adm (s : State) (os : List Output) : (s.emits os).adm = s.adm := rfl
@[simp] theorem State.emits_kv (s : State) (os : List Output) : (s.emits os).kv = s.kv := rfl
@[simp] theorem State.emits_host (s : State) (os : List Output) : (s.emits os).host = s.host := rfl
@[simp] theorem State.emits_fab (s : State) (os : List Output) : (s.emits os).fab = s.fab := rfl
@[simp] theorem State.emits_dict (s : State) (os : List Output) : (s.emits os).dict = s.dict := rfl
@[simp] theorem State.emits_log (s : State) (os : List Output) : (s.emits os).log = s.log := rfl
@[simp] theorem State.emits_ten (s : State) (os : List Output) : (s.emits os).ten = s.ten := rfl
@[simp] theorem State.emits_res (s : State) (os : List Output) : (s.emits os).res = s.res := rfl
@[simp] theorem State.emits_boot (s : State) (os : List Output) : (s.emits os).boot = s.boot := rfl
@[simp] theorem State.emits_free (s : State) (os : List Output) : (s.emits os).free = s.free := rfl

/-! ### drawn -/

@[simp] theorem State.drawn_pending (s : State) : (s.drawn).pending = s.pending := rfl
@[simp] theorem State.drawn_fe (s : State) : (s.drawn).fe = s.fe := rfl
@[simp] theorem State.drawn_cells (s : State) : (s.drawn).cells = s.cells := rfl
@[simp] theorem State.drawn_mem (s : State) : (s.drawn).mem = s.mem := rfl
@[simp] theorem State.drawn_rind (s : State) : (s.drawn).rind = s.rind := rfl
@[simp] theorem State.drawn_beat (s : State) : (s.drawn).beat = s.beat := rfl
@[simp] theorem State.drawn_job (s : State) : (s.drawn).job = s.job := rfl
@[simp] theorem State.drawn_adm (s : State) : (s.drawn).adm = s.adm := rfl
@[simp] theorem State.drawn_kv (s : State) : (s.drawn).kv = s.kv := rfl
@[simp] theorem State.drawn_host (s : State) : (s.drawn).host = s.host := rfl
@[simp] theorem State.drawn_fab (s : State) : (s.drawn).fab = s.fab := rfl
@[simp] theorem State.drawn_dict (s : State) : (s.drawn).dict = s.dict := rfl
@[simp] theorem State.drawn_log (s : State) : (s.drawn).log = s.log := rfl
@[simp] theorem State.drawn_ten (s : State) : (s.drawn).ten = s.ten := rfl
@[simp] theorem State.drawn_res (s : State) : (s.drawn).res = s.res := rfl
@[simp] theorem State.drawn_boot (s : State) : (s.drawn).boot = s.boot := rfl
@[simp] theorem State.drawn_out (s : State) : (s.drawn).out = s.out := rfl

/-! ### setFront -/

@[simp] theorem State.setFront_pending (s : State) (d : DieId) (f : FrontEnd) : (s.setFront d f).pending = s.pending := rfl
@[simp] theorem State.setFront_cells (s : State) (d : DieId) (f : FrontEnd) : (s.setFront d f).cells = s.cells := rfl
@[simp] theorem State.setFront_mem (s : State) (d : DieId) (f : FrontEnd) : (s.setFront d f).mem = s.mem := rfl
@[simp] theorem State.setFront_rind (s : State) (d : DieId) (f : FrontEnd) : (s.setFront d f).rind = s.rind := rfl
@[simp] theorem State.setFront_beat (s : State) (d : DieId) (f : FrontEnd) : (s.setFront d f).beat = s.beat := rfl
@[simp] theorem State.setFront_job (s : State) (d : DieId) (f : FrontEnd) : (s.setFront d f).job = s.job := rfl
@[simp] theorem State.setFront_adm (s : State) (d : DieId) (f : FrontEnd) : (s.setFront d f).adm = s.adm := rfl
@[simp] theorem State.setFront_kv (s : State) (d : DieId) (f : FrontEnd) : (s.setFront d f).kv = s.kv := rfl
@[simp] theorem State.setFront_host (s : State) (d : DieId) (f : FrontEnd) : (s.setFront d f).host = s.host := rfl
@[simp] theorem State.setFront_fab (s : State) (d : DieId) (f : FrontEnd) : (s.setFront d f).fab = s.fab := rfl
@[simp] theorem State.setFront_dict (s : State) (d : DieId) (f : FrontEnd) : (s.setFront d f).dict = s.dict := rfl
@[simp] theorem State.setFront_log (s : State) (d : DieId) (f : FrontEnd) : (s.setFront d f).log = s.log := rfl
@[simp] theorem State.setFront_ten (s : State) (d : DieId) (f : FrontEnd) : (s.setFront d f).ten = s.ten := rfl
@[simp] theorem State.setFront_res (s : State) (d : DieId) (f : FrontEnd) : (s.setFront d f).res = s.res := rfl
@[simp] theorem State.setFront_boot (s : State) (d : DieId) (f : FrontEnd) : (s.setFront d f).boot = s.boot := rfl
@[simp] theorem State.setFront_out (s : State) (d : DieId) (f : FrontEnd) : (s.setFront d f).out = s.out := rfl
@[simp] theorem State.setFront_free (s : State) (d : DieId) (f : FrontEnd) : (s.setFront d f).free = s.free := rfl

/-! ### modFront -/

@[simp] theorem State.modFront_pending (s : State) (d : DieId) (f : FrontEnd → FrontEnd) : (s.modFront d f).pending = s.pending := rfl
@[simp] theorem State.modFront_cells (s : State) (d : DieId) (f : FrontEnd → FrontEnd) : (s.modFront d f).cells = s.cells := rfl
@[simp] theorem State.modFront_mem (s : State) (d : DieId) (f : FrontEnd → FrontEnd) : (s.modFront d f).mem = s.mem := rfl
@[simp] theorem State.modFront_rind (s : State) (d : DieId) (f : FrontEnd → FrontEnd) : (s.modFront d f).rind = s.rind := rfl
@[simp] theorem State.modFront_beat (s : State) (d : DieId) (f : FrontEnd → FrontEnd) : (s.modFront d f).beat = s.beat := rfl
@[simp] theorem State.modFront_job (s : State) (d : DieId) (f : FrontEnd → FrontEnd) : (s.modFront d f).job = s.job := rfl
@[simp] theorem State.modFront_adm (s : State) (d : DieId) (f : FrontEnd → FrontEnd) : (s.modFront d f).adm = s.adm := rfl
@[simp] theorem State.modFront_kv (s : State) (d : DieId) (f : FrontEnd → FrontEnd) : (s.modFront d f).kv = s.kv := rfl
@[simp] theorem State.modFront_host (s : State) (d : DieId) (f : FrontEnd → FrontEnd) : (s.modFront d f).host = s.host := rfl
@[simp] theorem State.modFront_fab (s : State) (d : DieId) (f : FrontEnd → FrontEnd) : (s.modFront d f).fab = s.fab := rfl
@[simp] theorem State.modFront_dict (s : State) (d : DieId) (f : FrontEnd → FrontEnd) : (s.modFront d f).dict = s.dict := rfl
@[simp] theorem State.modFront_log (s : State) (d : DieId) (f : FrontEnd → FrontEnd) : (s.modFront d f).log = s.log := rfl
@[simp] theorem State.modFront_ten (s : State) (d : DieId) (f : FrontEnd → FrontEnd) : (s.modFront d f).ten = s.ten := rfl
@[simp] theorem State.modFront_res (s : State) (d : DieId) (f : FrontEnd → FrontEnd) : (s.modFront d f).res = s.res := rfl
@[simp] theorem State.modFront_boot (s : State) (d : DieId) (f : FrontEnd → FrontEnd) : (s.modFront d f).boot = s.boot := rfl
@[simp] theorem State.modFront_out (s : State) (d : DieId) (f : FrontEnd → FrontEnd) : (s.modFront d f).out = s.out := rfl
@[simp] theorem State.modFront_free (s : State) (d : DieId) (f : FrontEnd → FrontEnd) : (s.modFront d f).free = s.free := rfl

/-! ### setLink -/

@[simp] theorem State.setLink_pending (s : State) (n : Nat) (l : Link) : (s.setLink n l).pending = s.pending := rfl
@[simp] theorem State.setLink_fe (s : State) (n : Nat) (l : Link) : (s.setLink n l).fe = s.fe := rfl
@[simp] theorem State.setLink_cells (s : State) (n : Nat) (l : Link) : (s.setLink n l).cells = s.cells := rfl
@[simp] theorem State.setLink_mem (s : State) (n : Nat) (l : Link) : (s.setLink n l).mem = s.mem := rfl
@[simp] theorem State.setLink_rind (s : State) (n : Nat) (l : Link) : (s.setLink n l).rind = s.rind := rfl
@[simp] theorem State.setLink_beat (s : State) (n : Nat) (l : Link) : (s.setLink n l).beat = s.beat := rfl
@[simp] theorem State.setLink_job (s : State) (n : Nat) (l : Link) : (s.setLink n l).job = s.job := rfl
@[simp] theorem State.setLink_adm (s : State) (n : Nat) (l : Link) : (s.setLink n l).adm = s.adm := rfl
@[simp] theorem State.setLink_kv (s : State) (n : Nat) (l : Link) : (s.setLink n l).kv = s.kv := rfl
@[simp] theorem State.setLink_host (s : State) (n : Nat) (l : Link) : (s.setLink n l).host = s.host := rfl
@[simp] theorem State.setLink_dict (s : State) (n : Nat) (l : Link) : (s.setLink n l).dict = s.dict := rfl
@[simp] theorem State.setLink_log (s : State) (n : Nat) (l : Link) : (s.setLink n l).log = s.log := rfl
@[simp] theorem State.setLink_ten (s : State) (n : Nat) (l : Link) : (s.setLink n l).ten = s.ten := rfl
@[simp] theorem State.setLink_res (s : State) (n : Nat) (l : Link) : (s.setLink n l).res = s.res := rfl
@[simp] theorem State.setLink_boot (s : State) (n : Nat) (l : Link) : (s.setLink n l).boot = s.boot := rfl
@[simp] theorem State.setLink_out (s : State) (n : Nat) (l : Link) : (s.setLink n l).out = s.out := rfl
@[simp] theorem State.setLink_free (s : State) (n : Nat) (l : Link) : (s.setLink n l).free = s.free := rfl

/-! ### setRing -/

@[simp] theorem State.setRing_pending (s : State) (r : Nat) (x : Ring) : (s.setRing r x).pending = s.pending := rfl
@[simp] theorem State.setRing_fe (s : State) (r : Nat) (x : Ring) : (s.setRing r x).fe = s.fe := rfl
@[simp] theorem State.setRing_cells (s : State) (r : Nat) (x : Ring) : (s.setRing r x).cells = s.cells := rfl
@[simp] theorem State.setRing_mem (s : State) (r : Nat) (x : Ring) : (s.setRing r x).mem = s.mem := rfl
@[simp] theorem State.setRing_rind (s : State) (r : Nat) (x : Ring) : (s.setRing r x).rind = s.rind := rfl
@[simp] theorem State.setRing_beat (s : State) (r : Nat) (x : Ring) : (s.setRing r x).beat = s.beat := rfl
@[simp] theorem State.setRing_job (s : State) (r : Nat) (x : Ring) : (s.setRing r x).job = s.job := rfl
@[simp] theorem State.setRing_adm (s : State) (r : Nat) (x : Ring) : (s.setRing r x).adm = s.adm := rfl
@[simp] theorem State.setRing_kv (s : State) (r : Nat) (x : Ring) : (s.setRing r x).kv = s.kv := rfl
@[simp] theorem State.setRing_fab (s : State) (r : Nat) (x : Ring) : (s.setRing r x).fab = s.fab := rfl
@[simp] theorem State.setRing_dict (s : State) (r : Nat) (x : Ring) : (s.setRing r x).dict = s.dict := rfl
@[simp] theorem State.setRing_log (s : State) (r : Nat) (x : Ring) : (s.setRing r x).log = s.log := rfl
@[simp] theorem State.setRing_ten (s : State) (r : Nat) (x : Ring) : (s.setRing r x).ten = s.ten := rfl
@[simp] theorem State.setRing_res (s : State) (r : Nat) (x : Ring) : (s.setRing r x).res = s.res := rfl
@[simp] theorem State.setRing_boot (s : State) (r : Nat) (x : Ring) : (s.setRing r x).boot = s.boot := rfl
@[simp] theorem State.setRing_out (s : State) (r : Nat) (x : Ring) : (s.setRing r x).out = s.out := rfl
@[simp] theorem State.setRing_free (s : State) (r : Nat) (x : Ring) : (s.setRing r x).free = s.free := rfl

/-! ### bump -/

@[simp] theorem State.bump_pending (s : State) (k n : Nat) : (s.bump k n).pending = s.pending := rfl
@[simp] theorem State.bump_fe (s : State) (k n : Nat) : (s.bump k n).fe = s.fe := rfl
@[simp] theorem State.bump_cells (s : State) (k n : Nat) : (s.bump k n).cells = s.cells := rfl
@[simp] theorem State.bump_mem (s : State) (k n : Nat) : (s.bump k n).mem = s.mem := rfl
@[simp] theorem State.bump_rind (s : State) (k n : Nat) : (s.bump k n).rind = s.rind := rfl
@[simp] theorem State.bump_beat (s : State) (k n : Nat) : (s.bump k n).beat = s.beat := rfl
@[simp] theorem State.bump_job (s : State) (k n : Nat) : (s.bump k n).job = s.job := rfl
@[simp] theorem State.bump_adm (s : State) (k n : Nat) : (s.bump k n).adm = s.adm := rfl
@[simp] theorem State.bump_kv (s : State) (k n : Nat) : (s.bump k n).kv = s.kv := rfl
@[simp] theorem State.bump_host (s : State) (k n : Nat) : (s.bump k n).host = s.host := rfl
@[simp] theorem State.bump_fab (s : State) (k n : Nat) : (s.bump k n).fab = s.fab := rfl
@[simp] theorem State.bump_log (s : State) (k n : Nat) : (s.bump k n).log = s.log := rfl
@[simp] theorem State.bump_ten (s : State) (k n : Nat) : (s.bump k n).ten = s.ten := rfl
@[simp] theorem State.bump_res (s : State) (k n : Nat) : (s.bump k n).res = s.res := rfl
@[simp] theorem State.bump_boot (s : State) (k n : Nat) : (s.bump k n).boot = s.boot := rfl
@[simp] theorem State.bump_out (s : State) (k n : Nat) : (s.bump k n).out = s.out := rfl
@[simp] theorem State.bump_free (s : State) (k n : Nat) : (s.bump k n).free = s.free := rfl

/-! ### withPending -/

@[simp] theorem State.withPending_fe (s : State) (q : List Instr) : (s.withPending q).fe = s.fe := rfl
@[simp] theorem State.withPending_cells (s : State) (q : List Instr) : (s.withPending q).cells = s.cells := rfl
@[simp] theorem State.withPending_mem (s : State) (q : List Instr) : (s.withPending q).mem = s.mem := rfl
@[simp] theorem State.withPending_rind (s : State) (q : List Instr) : (s.withPending q).rind = s.rind := rfl
@[simp] theorem State.withPending_beat (s : State) (q : List Instr) : (s.withPending q).beat = s.beat := rfl
@[simp] theorem State.withPending_job (s : State) (q : List Instr) : (s.withPending q).job = s.job := rfl
@[simp] theorem State.withPending_adm (s : State) (q : List Instr) : (s.withPending q).adm = s.adm := rfl
@[simp] theorem State.withPending_kv (s : State) (q : List Instr) : (s.withPending q).kv = s.kv := rfl
@[simp] theorem State.withPending_host (s : State) (q : List Instr) : (s.withPending q).host = s.host := rfl
@[simp] theorem State.withPending_fab (s : State) (q : List Instr) : (s.withPending q).fab = s.fab := rfl
@[simp] theorem State.withPending_dict (s : State) (q : List Instr) : (s.withPending q).dict = s.dict := rfl
@[simp] theorem State.withPending_log (s : State) (q : List Instr) : (s.withPending q).log = s.log := rfl
@[simp] theorem State.withPending_ten (s : State) (q : List Instr) : (s.withPending q).ten = s.ten := rfl
@[simp] theorem State.withPending_res (s : State) (q : List Instr) : (s.withPending q).res = s.res := rfl
@[simp] theorem State.withPending_boot (s : State) (q : List Instr) : (s.withPending q).boot = s.boot := rfl
@[simp] theorem State.withPending_out (s : State) (q : List Instr) : (s.withPending q).out = s.out := rfl
@[simp] theorem State.withPending_free (s : State) (q : List Instr) : (s.withPending q).free = s.free := rfl

/-! ### What an update gives back -/

@[simp] theorem State.withPending_pending (s : State) (q : List Instr) : (s.withPending q).pending = q := rfl
@[simp] theorem State.emit_out (s : State) (o : Output) : (s.emit o).out = s.out ++ [o] := rfl
@[simp] theorem State.emits_out (s : State) (os : List Output) : (s.emits os).out = s.out ++ os := rfl
@[simp] theorem State.drawn_free (s : State) : s.drawn.free = s.free + 1 := rfl

@[simp] theorem State.param_setParam_self (s : State) (k v : Nat) : (s.setParam k v).param k = v :=
  AMap.getD_find?_set_self (defaultParam k) s.dict.params k v

theorem State.param_setParam_ne (s : State) {j k : Nat} (v : Nat) (h : j ≠ k) : (s.setParam k v).param j = s.param j := by
  simp only [State.param, State.setParam]
  rw [AMap.find?_set_ne _ _ _ h]

@[simp] theorem State.blob_setBlob_self (s : State) (k : Nat) (v : List Byte) : (s.setBlob k v).blob k = v :=
  AMap.getD_find?_set_self (defaultBlob k) s.dict.blobs k v

theorem State.blob_setBlob_ne (s : State) {j k : Nat} (v : List Byte) (h : j ≠ k) :
    (s.setBlob k v).blob j = s.blob j := by
  simp only [State.blob, State.setBlob]
  rw [AMap.find?_set_ne _ _ _ h]

@[simp] theorem State.blob_setParam (s : State) (k v j : Nat) : (s.setParam k v).blob j = s.blob j := rfl
@[simp] theorem State.param_setBlob (s : State) (k j : Nat) (v : List Byte) : (s.setBlob k v).param j = s.param j := rfl

/-- A counter takes the sum modulo its width. -/
@[simp] theorem State.param_bump_self (s : State) (k n : Nat) :
    (s.bump k n).param k = (s.param k + n) % paramModulus k := State.param_setParam_self s k _

theorem State.param_bump_ne (s : State) {j k : Nat} (n : Nat) (h : j ≠ k) : (s.bump k n).param j = s.param j :=
  State.param_setParam_ne s _ h

@[simp] theorem State.front_setFront_self (s : State) (d : DieId) (f : FrontEnd) : (s.setFront d f).front d = f :=
  Quad.get_set_self s.fe d f

theorem State.front_setFront_ne (s : State) (d e : DieId) (f : FrontEnd) (h : e ≠ d) :
    (s.setFront d f).front e = s.front e := Quad.get_set_ne s.fe d e f h

@[simp] theorem State.front_modFront_self (s : State) (d : DieId) (f : FrontEnd → FrontEnd) :
    (s.modFront d f).front d = f (s.front d) := Quad.get_set_self s.fe d _

theorem State.front_modFront_ne (s : State) (d e : DieId) (f : FrontEnd → FrontEnd) (h : e ≠ d) :
    (s.modFront d f).front e = s.front e := Quad.get_set_ne s.fe d e _ h

@[simp] theorem State.link_setLink_self (s : State) (n : Nat) (l : Link) : (s.setLink n l).link n = l :=
  AMap.getD_set_self ({} : Link) s.fab.links n l

theorem State.link_setLink_ne (s : State) {m n : Nat} (l : Link) (h : m ≠ n) : (s.setLink n l).link m = s.link m :=
  AMap.getD_set_ne ({} : Link) ({} : Link) s.fab.links l h

@[simp] theorem State.ring_setRing_self (s : State) (r : Nat) (x : Ring) : (s.setRing r x).ring r = x :=
  AMap.getD_set_self ({} : Ring) s.host.rings r x

theorem State.ring_setRing_ne (s : State) {q r : Nat} (x : Ring) (h : q ≠ r) : (s.setRing r x).ring q = s.ring q :=
  AMap.getD_set_ne ({} : Ring) ({} : Ring) s.host.rings x h

end Sys2Proof.Machine
end

