-- ==== Sys2Proof/Laws/Ops.lean ====
section
/-! SUPPORT. What each shared operation can do: what it leaves alone, field by field, and what it changes. -/

namespace Sys2Proof.Machine

/-! ### signal: an MSI-X vector is sent or its pending bit set (R356) -/

@[simp] theorem State.signal_pending (s : State) (v : Nat) : (s.signal v).pending = s.pending := by
  unfold State.signal; split <;> rfl
@[simp] theorem State.signal_fe (s : State) (v : Nat) : (s.signal v).fe = s.fe := by
  unfold State.signal; split <;> rfl
@[simp] theorem State.signal_cells (s : State) (v : Nat) : (s.signal v).cells = s.cells := by
  unfold State.signal; split <;> rfl
@[simp] theorem State.signal_mem (s : State) (v : Nat) : (s.signal v).mem = s.mem := by
  unfold State.signal; split <;> rfl
@[simp] theorem State.signal_rind (s : State) (v : Nat) : (s.signal v).rind = s.rind := by
  unfold State.signal; split <;> rfl
@[simp] theorem State.signal_beat (s : State) (v : Nat) : (s.signal v).beat = s.beat := by
  unfold State.signal; split <;> rfl
@[simp] theorem State.signal_job (s : State) (v : Nat) : (s.signal v).job = s.job := by
  unfold State.signal; split <;> rfl
@[simp] theorem State.signal_adm (s : State) (v : Nat) : (s.signal v).adm = s.adm := by
  unfold State.signal; split <;> rfl
@[simp] theorem State.signal_kv (s : State) (v : Nat) : (s.signal v).kv = s.kv := by
  unfold State.signal; split <;> rfl
@[simp] theorem State.signal_fab (s : State) (v : Nat) : (s.signal v).fab = s.fab := by
  unfold State.signal; split <;> rfl
@[simp] theorem State.signal_dict (s : State) (v : Nat) : (s.signal v).dict = s.dict := by
  unfold State.signal; split <;> rfl
@[simp] theorem State.signal_log (s : State) (v : Nat) : (s.signal v).log = s.log := by
  unfold State.signal; split <;> rfl
@[simp] theorem State.signal_ten (s : State) (v : Nat) : (s.signal v).ten = s.ten := by
  unfold State.signal; split <;> rfl
@[simp] theorem State.signal_res (s : State) (v : Nat) : (s.signal v).res = s.res := by
  unfold State.signal; split <;> rfl
@[simp] theorem State.signal_boot (s : State) (v : Nat) : (s.signal v).boot = s.boot := by
  unfold State.signal; split <;> rfl
@[simp] theorem State.signal_free (s : State) (v : Nat) : (s.signal v).free = s.free := by
  unfold State.signal; split <;> rfl

/-! ### signalEvent: EVENT_VECTOR -/

@[simp] theorem State.signalEvent_pending (s : State) : (s.signalEvent).pending = s.pending := by
  unfold State.signalEvent; split <;> simp
@[simp] theorem State.signalEvent_fe (s : State) : (s.signalEvent).fe = s.fe := by
  unfold State.signalEvent; split <;> simp
@[simp] theorem State.signalEvent_cells (s : State) : (s.signalEvent).cells = s.cells := by
  unfold State.signalEvent; split <;> simp
@[simp] theorem State.signalEvent_mem (s : State) : (s.signalEvent).mem = s.mem := by
  unfold State.signalEvent; split <;> simp
@[simp] theorem State.signalEvent_rind (s : State) : (s.signalEvent).rind = s.rind := by
  unfold State.signalEvent; split <;> simp
@[simp] theorem State.signalEvent_beat (s : State) : (s.signalEvent).beat = s.beat := by
  unfold State.signalEvent; split <;> simp
@[simp] theorem State.signalEvent_job (s : State) : (s.signalEvent).job = s.job := by
  unfold State.signalEvent; split <;> simp
@[simp] theorem State.signalEvent_adm (s : State) : (s.signalEvent).adm = s.adm := by
  unfold State.signalEvent; split <;> simp
@[simp] theorem State.signalEvent_kv (s : State) : (s.signalEvent).kv = s.kv := by
  unfold State.signalEvent; split <;> simp
@[simp] theorem State.signalEvent_fab (s : State) : (s.signalEvent).fab = s.fab := by
  unfold State.signalEvent; split <;> simp
@[simp] theorem State.signalEvent_dict (s : State) : (s.signalEvent).dict = s.dict := by
  unfold State.signalEvent; split <;> simp
@[simp] theorem State.signalEvent_log (s : State) : (s.signalEvent).log = s.log := by
  unfold State.signalEvent; split <;> simp
@[simp] theorem State.signalEvent_ten (s : State) : (s.signalEvent).ten = s.ten := by
  unfold State.signalEvent; split <;> simp
@[simp] theorem State.signalEvent_res (s : State) : (s.signalEvent).res = s.res := by
  unfold State.signalEvent; split <;> simp
@[simp] theorem State.signalEvent_boot (s : State) : (s.signalEvent).boot = s.boot := by
  unfold State.signalEvent; split <;> simp
@[simp] theorem State.signalEvent_free (s : State) : (s.signalEvent).free = s.free := by
  unfold State.signalEvent; split <;> simp

/-! ### setDev: a device state is entered (R474) -/

@[simp] theorem State.setDev_pending (s : State) (d : DevState) : (s.setDev d).pending = s.pending := by
  unfold State.setDev; split <;> simp
@[simp] theorem State.setDev_fe (s : State) (d : DevState) : (s.setDev d).fe = s.fe := by
  unfold State.setDev; split <;> simp
@[simp] theorem State.setDev_cells (s : State) (d : DevState) : (s.setDev d).cells = s.cells := by
  unfold State.setDev; split <;> simp
@[simp] theorem State.setDev_mem (s : State) (d : DevState) : (s.setDev d).mem = s.mem := by
  unfold State.setDev; split <;> simp
@[simp] theorem State.setDev_rind (s : State) (d : DevState) : (s.setDev d).rind = s.rind := by
  unfold State.setDev; split <;> simp
@[simp] theorem State.setDev_beat (s : State) (d : DevState) : (s.setDev d).beat = s.beat := by
  unfold State.setDev; split <;> simp
@[simp] theorem State.setDev_job (s : State) (d : DevState) : (s.setDev d).job = s.job := by
  unfold State.setDev; split <;> simp
@[simp] theorem State.setDev_adm (s : State) (d : DevState) : (s.setDev d).adm = s.adm := by
  unfold State.setDev; split <;> simp
@[simp] theorem State.setDev_kv (s : State) (d : DevState) : (s.setDev d).kv = s.kv := by
  unfold State.setDev; split <;> simp
@[simp] theorem State.setDev_fab (s : State) (d : DevState) : (s.setDev d).fab = s.fab := by
  unfold State.setDev; split <;> simp
@[simp] theorem State.setDev_dict (s : State) (d : DevState) : (s.setDev d).dict = s.dict := by
  unfold State.setDev; split <;> simp
@[simp] theorem State.setDev_log (s : State) (d : DevState) : (s.setDev d).log = s.log := by
  unfold State.setDev; split <;> simp
@[simp] theorem State.setDev_ten (s : State) (d : DevState) : (s.setDev d).ten = s.ten := by
  unfold State.setDev; split <;> simp
@[simp] theorem State.setDev_res (s : State) (d : DevState) : (s.setDev d).res = s.res := by
  unfold State.setDev; split <;> simp
@[simp] theorem State.setDev_free (s : State) (d : DevState) : (s.setDev d).free = s.free := by
  unfold State.setDev; split <;> simp

/-! ### logRecord: a record enters the log (R488) -/

@[simp] theorem State.logRecord_pending (s : State) (x : EventRec) : (s.logRecord x).pending = s.pending := by
  unfold State.logRecord; simp only []; split
  · rw [State.signalEvent_pending]; split <;> rfl
  · split <;> rfl
@[simp] theorem State.logRecord_fe (s : State) (x : EventRec) : (s.logRecord x).fe = s.fe := by
  unfold State.logRecord; simp only []; split
  · rw [State.signalEvent_fe]; split <;> rfl
  · split <;> rfl
@[simp] theorem State.logRecord_cells (s : State) (x : EventRec) : (s.logRecord x).cells = s.cells := by
  unfold State.logRecord; simp only []; split
  · rw [State.signalEvent_cells]; split <;> rfl
  · split <;> rfl
@[simp] theorem State.logRecord_mem (s : State) (x : EventRec) : (s.logRecord x).mem = s.mem := by
  unfold State.logRecord; simp only []; split
  · rw [State.signalEvent_mem]; split <;> rfl
  · split <;> rfl
@[simp] theorem State.logRecord_rind (s : State) (x : EventRec) : (s.logRecord x).rind = s.rind := by
  unfold State.logRecord; simp only []; split
  · rw [State.signalEvent_rind]; split <;> rfl
  · split <;> rfl
@[simp] theorem State.logRecord_beat (s : State) (x : EventRec) : (s.logRecord x).beat = s.beat := by
  unfold State.logRecord; simp only []; split
  · rw [State.signalEvent_beat]; split <;> rfl
  · split <;> rfl
@[simp] theorem State.logRecord_job (s : State) (x : EventRec) : (s.logRecord x).job = s.job := by
  unfold State.logRecord; simp only []; split
  · rw [State.signalEvent_job]; split <;> rfl
  · split <;> rfl
@[simp] theorem State.logRecord_adm (s : State) (x : EventRec) : (s.logRecord x).adm = s.adm := by
  unfold State.logRecord; simp only []; split
  · rw [State.signalEvent_adm]; split <;> rfl
  · split <;> rfl
@[simp] theorem State.logRecord_kv (s : State) (x : EventRec) : (s.logRecord x).kv = s.kv := by
  unfold State.logRecord; simp only []; split
  · rw [State.signalEvent_kv]; split <;> rfl
  · split <;> rfl
@[simp] theorem State.logRecord_fab (s : State) (x : EventRec) : (s.logRecord x).fab = s.fab := by
  unfold State.logRecord; simp only []; split
  · rw [State.signalEvent_fab]; split <;> rfl
  · split <;> rfl
@[simp] theorem State.logRecord_ten (s : State) (x : EventRec) : (s.logRecord x).ten = s.ten := by
  unfold State.logRecord; simp only []; split
  · rw [State.signalEvent_ten]; split <;> rfl
  · split <;> rfl
@[simp] theorem State.logRecord_res (s : State) (x : EventRec) : (s.logRecord x).res = s.res := by
  unfold State.logRecord; simp only []; split
  · rw [State.signalEvent_res]; split <;> rfl
  · split <;> rfl
@[simp] theorem State.logRecord_boot (s : State) (x : EventRec) : (s.logRecord x).boot = s.boot := by
  unfold State.logRecord; simp only []; split
  · rw [State.signalEvent_boot]; split <;> rfl
  · split <;> rfl

/-! ### log': an event is logged -/

@[simp] theorem State.log'_pending (s : State) (c r : Nat) (d : List Byte) : (s.log' c r d).pending = s.pending := by
  simp [State.log']
@[simp] theorem State.log'_fe (s : State) (c r : Nat) (d : List Byte) : (s.log' c r d).fe = s.fe := by
  simp [State.log']
@[simp] theorem State.log'_cells (s : State) (c r : Nat) (d : List Byte) : (s.log' c r d).cells = s.cells := by
  simp [State.log']
@[simp] theorem State.log'_mem (s : State) (c r : Nat) (d : List Byte) : (s.log' c r d).mem = s.mem := by
  simp [State.log']
@[simp] theorem State.log'_rind (s : State) (c r : Nat) (d : List Byte) : (s.log' c r d).rind = s.rind := by
  simp [State.log']
@[simp] theorem State.log'_beat (s : State) (c r : Nat) (d : List Byte) : (s.log' c r d).beat = s.beat := by
  simp [State.log']
@[simp] theorem State.log'_job (s : State) (c r : Nat) (d : List Byte) : (s.log' c r d).job = s.job := by
  simp [State.log']
@[simp] theorem State.log'_adm (s : State) (c r : Nat) (d : List Byte) : (s.log' c r d).adm = s.adm := by
  simp [State.log']
@[simp] theorem State.log'_kv (s : State) (c r : Nat) (d : List Byte) : (s.log' c r d).kv = s.kv := by
  simp [State.log']
@[simp] theorem State.log'_fab (s : State) (c r : Nat) (d : List Byte) : (s.log' c r d).fab = s.fab := by
  simp [State.log']
@[simp] theorem State.log'_ten (s : State) (c r : Nat) (d : List Byte) : (s.log' c r d).ten = s.ten := by
  simp [State.log']
@[simp] theorem State.log'_res (s : State) (c r : Nat) (d : List Byte) : (s.log' c r d).res = s.res := by
  simp [State.log']
@[simp] theorem State.log'_boot (s : State) (c r : Nat) (d : List Byte) : (s.log' c r d).boot = s.boot := by
  simp [State.log']

/-! ### event: an event of the hub -/

@[simp] theorem State.event_pending (s : State) (c : Nat) (l : List (Nat × Nat)) : (s.event c l).pending = s.pending := by
  simp [State.event]
@[simp] theorem State.event_fe (s : State) (c : Nat) (l : List (Nat × Nat)) : (s.event c l).fe = s.fe := by
  simp [State.event]
@[simp] theorem State.event_cells (s : State) (c : Nat) (l : List (Nat × Nat)) : (s.event c l).cells = s.cells := by
  simp [State.event]
@[simp] theorem State.event_mem (s : State) (c : Nat) (l : List (Nat × Nat)) : (s.event c l).mem = s.mem := by
  simp [State.event]
@[simp] theorem State.event_rind (s : State) (c : Nat) (l : List (Nat × Nat)) : (s.event c l).rind = s.rind := by
  simp [State.event]
@[simp] theorem State.event_beat (s : State) (c : Nat) (l : List (Nat × Nat)) : (s.event c l).beat = s.beat := by
  simp [State.event]
@[simp] theorem State.event_job (s : State) (c : Nat) (l : List (Nat × Nat)) : (s.event c l).job = s.job := by
  simp [State.event]
@[simp] theorem State.event_adm (s : State) (c : Nat) (l : List (Nat × Nat)) : (s.event c l).adm = s.adm := by
  simp [State.event]
@[simp] theorem State.event_kv (s : State) (c : Nat) (l : List (Nat × Nat)) : (s.event c l).kv = s.kv := by
  simp [State.event]
@[simp] theorem State.event_fab (s : State) (c : Nat) (l : List (Nat × Nat)) : (s.event c l).fab = s.fab := by
  simp [State.event]
@[simp] theorem State.event_ten (s : State) (c : Nat) (l : List (Nat × Nat)) : (s.event c l).ten = s.ten := by
  simp [State.event]
@[simp] theorem State.event_res (s : State) (c : Nat) (l : List (Nat × Nat)) : (s.event c l).res = s.res := by
  simp [State.event]
@[simp] theorem State.event_boot (s : State) (c : Nat) (l : List (Nat × Nat)) : (s.event c l).boot = s.boot := by
  simp [State.event]

/-! ### dieEvent: an event of a die -/

@[simp] theorem State.dieEvent_pending (s : State) (d : DieId) (c : Nat) (l : List (Nat × Nat)) : (s.dieEvent d c l).pending = s.pending := by
  simp [State.dieEvent]
@[simp] theorem State.dieEvent_fe (s : State) (d : DieId) (c : Nat) (l : List (Nat × Nat)) : (s.dieEvent d c l).fe = s.fe := by
  simp [State.dieEvent]
@[simp] theorem State.dieEvent_cells (s : State) (d : DieId) (c : Nat) (l : List (Nat × Nat)) : (s.dieEvent d c l).cells = s.cells := by
  simp [State.dieEvent]
@[simp] theorem State.dieEvent_mem (s : State) (d : DieId) (c : Nat) (l : List (Nat × Nat)) : (s.dieEvent d c l).mem = s.mem := by
  simp [State.dieEvent]
@[simp] theorem State.dieEvent_rind (s : State) (d : DieId) (c : Nat) (l : List (Nat × Nat)) : (s.dieEvent d c l).rind = s.rind := by
  simp [State.dieEvent]
@[simp] theorem State.dieEvent_beat (s : State) (d : DieId) (c : Nat) (l : List (Nat × Nat)) : (s.dieEvent d c l).beat = s.beat := by
  simp [State.dieEvent]
@[simp] theorem State.dieEvent_job (s : State) (d : DieId) (c : Nat) (l : List (Nat × Nat)) : (s.dieEvent d c l).job = s.job := by
  simp [State.dieEvent]
@[simp] theorem State.dieEvent_adm (s : State) (d : DieId) (c : Nat) (l : List (Nat × Nat)) : (s.dieEvent d c l).adm = s.adm := by
  simp [State.dieEvent]
@[simp] theorem State.dieEvent_kv (s : State) (d : DieId) (c : Nat) (l : List (Nat × Nat)) : (s.dieEvent d c l).kv = s.kv := by
  simp [State.dieEvent]
@[simp] theorem State.dieEvent_fab (s : State) (d : DieId) (c : Nat) (l : List (Nat × Nat)) : (s.dieEvent d c l).fab = s.fab := by
  simp [State.dieEvent]
@[simp] theorem State.dieEvent_ten (s : State) (d : DieId) (c : Nat) (l : List (Nat × Nat)) : (s.dieEvent d c l).ten = s.ten := by
  simp [State.dieEvent]
@[simp] theorem State.dieEvent_res (s : State) (d : DieId) (c : Nat) (l : List (Nat × Nat)) : (s.dieEvent d c l).res = s.res := by
  simp [State.dieEvent]
@[simp] theorem State.dieEvent_boot (s : State) (d : DieId) (c : Nat) (l : List (Nat × Nat)) : (s.dieEvent d c l).boot = s.boot := by
  simp [State.dieEvent]

/-! ### limited: an event that is limited in rate -/

@[simp] theorem State.limited_pending (s : State) (c r k n : Nat) (g : Nat → List (Nat × Nat)) : (s.limited c r k n g).pending = s.pending := by
  unfold State.limited; simp only []; repeat' split
  all_goals simp
@[simp] theorem State.limited_fe (s : State) (c r k n : Nat) (g : Nat → List (Nat × Nat)) : (s.limited c r k n g).fe = s.fe := by
  unfold State.limited; simp only []; repeat' split
  all_goals simp
@[simp] theorem State.limited_cells (s : State) (c r k n : Nat) (g : Nat → List (Nat × Nat)) : (s.limited c r k n g).cells = s.cells := by
  unfold State.limited; simp only []; repeat' split
  all_goals simp
@[simp] theorem State.limited_mem (s : State) (c r k n : Nat) (g : Nat → List (Nat × Nat)) : (s.limited c r k n g).mem = s.mem := by
  unfold State.limited; simp only []; repeat' split
  all_goals simp
@[simp] theorem State.limited_rind (s : State) (c r k n : Nat) (g : Nat → List (Nat × Nat)) : (s.limited c r k n g).rind = s.rind := by
  unfold State.limited; simp only []; repeat' split
  all_goals simp
@[simp] theorem State.limited_beat (s : State) (c r k n : Nat) (g : Nat → List (Nat × Nat)) : (s.limited c r k n g).beat = s.beat := by
  unfold State.limited; simp only []; repeat' split
  all_goals simp
@[simp] theorem State.limited_job (s : State) (c r k n : Nat) (g : Nat → List (Nat × Nat)) : (s.limited c r k n g).job = s.job := by
  unfold State.limited; simp only []; repeat' split
  all_goals simp
@[simp] theorem State.limited_adm (s : State) (c r k n : Nat) (g : Nat → List (Nat × Nat)) : (s.limited c r k n g).adm = s.adm := by
  unfold State.limited; simp only []; repeat' split
  all_goals simp
@[simp] theorem State.limited_kv (s : State) (c r k n : Nat) (g : Nat → List (Nat × Nat)) : (s.limited c r k n g).kv = s.kv := by
  unfold State.limited; simp only []; repeat' split
  all_goals simp
@[simp] theorem State.limited_fab (s : State) (c r k n : Nat) (g : Nat → List (Nat × Nat)) : (s.limited c r k n g).fab = s.fab := by
  unfold State.limited; simp only []; repeat' split
  all_goals simp
@[simp] theorem State.limited_ten (s : State) (c r k n : Nat) (g : Nat → List (Nat × Nat)) : (s.limited c r k n g).ten = s.ten := by
  unfold State.limited; simp only []; repeat' split
  all_goals simp
@[simp] theorem State.limited_res (s : State) (c r k n : Nat) (g : Nat → List (Nat × Nat)) : (s.limited c r k n g).res = s.res := by
  unfold State.limited; simp only []; repeat' split
  all_goals simp
@[simp] theorem State.limited_boot (s : State) (c r k n : Nat) (g : Nat → List (Nat × Nat)) : (s.limited c r k n g).boot = s.boot := by
  unfold State.limited; simp only []; repeat' split
  all_goals simp

/-! ### requestHalt: a die holds a halt request (R536) -/

@[simp] theorem State.requestHalt_pending (s : State) (d : DieId) : (s.requestHalt d).pending = s.pending := by
  unfold State.requestHalt; split <;> simp
@[simp] theorem State.requestHalt_cells (s : State) (d : DieId) : (s.requestHalt d).cells = s.cells := by
  unfold State.requestHalt; split <;> simp
@[simp] theorem State.requestHalt_mem (s : State) (d : DieId) : (s.requestHalt d).mem = s.mem := by
  unfold State.requestHalt; split <;> simp
@[simp] theorem State.requestHalt_rind (s : State) (d : DieId) : (s.requestHalt d).rind = s.rind := by
  unfold State.requestHalt; split <;> simp
@[simp] theorem State.requestHalt_beat (s : State) (d : DieId) : (s.requestHalt d).beat = s.beat := by
  unfold State.requestHalt; split <;> simp
@[simp] theorem State.requestHalt_job (s : State) (d : DieId) : (s.requestHalt d).job = s.job := by
  unfold State.requestHalt; split <;> simp
@[simp] theorem State.requestHalt_adm (s : State) (d : DieId) : (s.requestHalt d).adm = s.adm := by
  unfold State.requestHalt; split <;> simp
@[simp] theorem State.requestHalt_kv (s : State) (d : DieId) : (s.requestHalt d).kv = s.kv := by
  unfold State.requestHalt; split <;> simp
@[simp] theorem State.requestHalt_host (s : State) (d : DieId) : (s.requestHalt d).host = s.host := by
  unfold State.requestHalt; split <;> simp
@[simp] theorem State.requestHalt_fab (s : State) (d : DieId) : (s.requestHalt d).fab = s.fab := by
  unfold State.requestHalt; split <;> simp
@[simp] theorem State.requestHalt_dict (s : State) (d : DieId) : (s.requestHalt d).dict = s.dict := by
  unfold State.requestHalt; split <;> simp
@[simp] theorem State.requestHalt_log (s : State) (d : DieId) : (s.requestHalt d).log = s.log := by
  unfold State.requestHalt; split <;> simp
@[simp] theorem State.requestHalt_ten (s : State) (d : DieId) : (s.requestHalt d).ten = s.ten := by
  unfold State.requestHalt; split <;> simp
@[simp] theorem State.requestHalt_res (s : State) (d : DieId) : (s.requestHalt d).res = s.res := by
  unfold State.requestHalt; split <;> simp
@[simp] theorem State.requestHalt_boot (s : State) (d : DieId) : (s.requestHalt d).boot = s.boot := by
  unfold State.requestHalt; split <;> simp
@[simp] theorem State.requestHalt_out (s : State) (d : DieId) : (s.requestHalt d).out = s.out := by
  unfold State.requestHalt; split <;> simp
@[simp] theorem State.requestHalt_free (s : State) (d : DieId) : (s.requestHalt d).free = s.free := by
  unfold State.requestHalt; split <;> simp

/-! ### requestHaltAll: every die holds a halt request -/

@[simp] theorem State.requestHaltAll_pending (s : State) : (s.requestHaltAll).pending = s.pending := by
  simp [State.requestHaltAll, allDies]
@[simp] theorem State.requestHaltAll_cells (s : State) : (s.requestHaltAll).cells = s.cells := by
  simp [State.requestHaltAll, allDies]
@[simp] theorem State.requestHaltAll_mem (s : State) : (s.requestHaltAll).mem = s.mem := by
  simp [State.requestHaltAll, allDies]
@[simp] theorem State.requestHaltAll_rind (s : State) : (s.requestHaltAll).rind = s.rind := by
  simp [State.requestHaltAll, allDies]
@[simp] theorem State.requestHaltAll_beat (s : State) : (s.requestHaltAll).beat = s.beat := by
  simp [State.requestHaltAll, allDies]
@[simp] theorem State.requestHaltAll_job (s : State) : (s.requestHaltAll).job = s.job := by
  simp [State.requestHaltAll, allDies]
@[simp] theorem State.requestHaltAll_adm (s : State) : (s.requestHaltAll).adm = s.adm := by
  simp [State.requestHaltAll, allDies]
@[simp] theorem State.requestHaltAll_kv (s : State) : (s.requestHaltAll).kv = s.kv := by
  simp [State.requestHaltAll, allDies]
@[simp] theorem State.requestHaltAll_host (s : State) : (s.requestHaltAll).host = s.host := by
  simp [State.requestHaltAll, allDies]
@[simp] theorem State.requestHaltAll_fab (s : State) : (s.requestHaltAll).fab = s.fab := by
  simp [State.requestHaltAll, allDies]
@[simp] theorem State.requestHaltAll_dict (s : State) : (s.requestHaltAll).dict = s.dict := by
  simp [State.requestHaltAll, allDies]
@[simp] theorem State.requestHaltAll_log (s : State) : (s.requestHaltAll).log = s.log := by
  simp [State.requestHaltAll, allDies]
@[simp] theorem State.requestHaltAll_ten (s : State) : (s.requestHaltAll).ten = s.ten := by
  simp [State.requestHaltAll, allDies]
@[simp] theorem State.requestHaltAll_res (s : State) : (s.requestHaltAll).res = s.res := by
  simp [State.requestHaltAll, allDies]
@[simp] theorem State.requestHaltAll_boot (s : State) : (s.requestHaltAll).boot = s.boot := by
  simp [State.requestHaltAll, allDies]
@[simp] theorem State.requestHaltAll_out (s : State) : (s.requestHaltAll).out = s.out := by
  simp [State.requestHaltAll, allDies]
@[simp] theorem State.requestHaltAll_free (s : State) : (s.requestHaltAll).free = s.free := by
  simp [State.requestHaltAll, allDies]

/-! ### Entering a device state -/

@[simp] theorem State.setDev_dev (s : State) (d : DevState) : (s.setDev d).boot.dev = d := by
  unfold State.setDev
  split
  · assumption
  · simp

/-- A die holds a halt request after it asked for one, when a job is running. -/
theorem State.requestHalt_held (s : State) (d : DieId) (h : s.jobActive = true) :
    ((s.requestHalt d).front d).haltReq = true := by
  simp [State.requestHalt, h]

/-- Without a running job a halt request is not held. -/
theorem State.requestHalt_inactive (s : State) (d : DieId) (h : s.jobActive = false) : s.requestHalt d = s := by
  simp [State.requestHalt, h]

end Sys2Proof.Machine
end

