-- ==== Sys2Proof/Laws/Window.lean ====
section
/-! SUPPORT. What a copy of the hub reads: where every block passes its check, it reads the bytes that stand there (R215). -/

namespace Sys2Proof.Machine

theorem State.windowRead_append (s : State) (o m n : Nat) :
    s.windowRead o (m + n) = s.windowRead o m ++ s.windowRead (o + m) n := by
  induction m generalizing o with
  | zero => simp [State.windowRead]
  | succ m ih => rw [Nat.succ_add, State.windowRead, State.windowRead, ih, List.cons_append, Nat.add_right_comm]; rfl

/-- The parts of a range within its first m blocks make up the range as far as those blocks go. -/
theorem windowRead_parts (s : State) (o n m : Nat) (h : m ≤ ceilDiv (o % 256 + n) 256) :
    (List.range m).flatMap (fun k => s.windowRead (max o ((o / 256 + k) * 256))
      (min (o + n) ((o / 256 + k + 1) * 256) - max o ((o / 256 + k) * 256))) =
    s.windowRead o (min (o + n) ((o / 256 + m) * 256) - o) := by
  induction m with
  | zero =>
    have : min (o + n) ((o / 256 + 0) * 256) - o = 0 := by omega
    rw [this]; rfl
  | succ m ih =>
    unfold ceilDiv at h ih
    rw [List.range_succ, List.flatMap_append, ih (by omega)]
    have e : max o ((o / 256 + m) * 256) = o + (min (o + n) ((o / 256 + m) * 256) - o) := by omega
    have l : min (o + n) ((o / 256 + (m + 1)) * 256) - o = (min (o + n) ((o / 256 + m) * 256) - o) +
        (min (o + n) ((o / 256 + m + 1) * 256) - max o ((o / 256 + m) * 256)) := by omega
    rw [l, State.windowRead_append, ← e]
    simp

/-- Where every block passes its check, the hub reads what stands in the window. -/
theorem State.windowGet_eq (s : State) (o n : Nat)
    (h : ∀ x ∈ blockParts o n, s.blockTrip true (windowDie x.1) (windowBlock x.1) = none) :
    s.windowGet o n = s.windowRead o n := by
  have e : s.windowGet o n = (blockParts o n).flatMap (fun x => s.windowRead x.1 x.2) := by
    unfold State.windowGet
    refine congrArg List.flatten (List.map_congr_left (fun x hx => ?_))
    rw [h x hx]; rfl
  rw [e]
  unfold blockParts
  rw [List.flatMap_map]
  refine (windowRead_parts s o n _ (Nat.le_refl _)).trans (congrArg _ ?_)
  unfold ceilDiv
  omega

end Sys2Proof.Machine
end

