-- ==== Sys2Proof/Tests/Slice0.lean ====
section
/-! SUPPORT. Tests: ill-formed commands that WellFormed refuses, small examples of the spec, and for every statement a state and
operands that meet its hypotheses. -/

namespace Sys2Proof.Tests

open Sys2Proof
open Sys2Proof.Machine

set_option Elab.async false

/-! ## Helpers -/

/-- A device that has started up. -/
def up : State := { State.reset with boot := { State.reset.boot with dev := .idle, stage := .done, alwaysOn := true, regulators := true } }

/-- A job description with nothing in it but a tag. -/
def job0 : JobDesc := ⟨0, 7, 0, 1, 0, 0, 0, 0, 0, 1, 1, 0, 0, 0, 0, 0, [], []⟩

/-- A device whose tenant runs a job. -/
def run : State := { up with
  boot := { up.boot with dev := .running }
  ten := { up.ten with phase := .bound }
  job := { up.job with phase := .running, desc := some job0 } }

/-- Slots 0 and 1 active with their keys. -/
def keys01 : AMap KeySlot := [(0, ⟨.active, 0, 0, [⟨0, 1, 2, 3⟩]⟩), (1, ⟨.active, 0, 0, [⟨0, 1, 2, 3⟩]⟩)]

/-- A device whose tenant has no job. -/
def own : State := { up with
  boot := { up.boot with dev := .admitted }
  ten := { up.ten with phase := .bound }
  rind := { up.rind with slots := keys01 } }

/-- An issue for cell 0. -/
def iss : Issue := ⟨1, false, 0, 0, false⟩

/-- A pointer to 0. -/
def ptr0 : Ptr := ⟨0, 0⟩

/-- A vector operation between registers. -/
def varith : VArithF := ⟨.reg 1, .reg 2, .reg 3, .reg 4, .f32, 0⟩

/-- A message header of epoch 0. -/
def hdr0 : FlitHeader := ⟨3, 0, 0, 0, 0, 0, 0, 0, 0, 0⟩

/-- A descriptor with nothing in it but an HBM address of this device. -/
def desc0 : Descriptor := ⟨0, 0, 0x4000000000000, 0, 0, none, 0, 0, 0, 0⟩

/-- A message. -/
def msg0 : Message := ⟨hdr0, desc0, []⟩

/-- A link that is UP. -/
def linkUp (s : State) (n : Nat) (p : LinkPhase) : State := s.setLink n { s.link n with phase := p }

/-- A dictionary request over GPP from a link-local address to this device. -/
def gpp0 : GppMsg := ⟨false, 0x3FA * 2 ^ 134 + 9, linkLocalAddress, gppPort, 1, 1, 0, 0, 0, 0x1000, 4, 0, 0, 0, 0, 0, 0, []⟩

/-- An entry of ring 0. -/
def entry0 : EntryId := ⟨0, 0, 5⟩

/-! ## Ill-formed commands -/

theorem test_wf_marker : (Instr.beatMarker 0 ⟨16, 0, 0, 0, 0, 0, 0, 0, 0, 0, 0⟩ 0 0).wf = false := by decide
theorem test_wf_marker_depth : (Instr.beatMarker 0 ⟨0, 0, 0, 64, 0, 0, 0, 0, 0, 0, 0⟩ 0 0).wf = false := by decide
theorem test_wf_echo : (Instr.beatEcho 0 ⟨0, false, false, 16, 0, 0, 0, 0, 0⟩).wf = false := by decide
theorem test_wf_sensors : (Instr.powerEval ⟨0, 0, [0]⟩).wf = false := by decide
theorem test_wf_message : (Instr.write { msg0 with data := [0] }).wf = false := by decide
theorem test_wf_flit : (Instr.routedFlitForward 0 .local ⟨hdr0, []⟩).wf = false := by decide
theorem test_wf_hello : (Instr.hello 0 ⟨1, 0, 0, none, 0, 0, 0, []⟩).wf = false := by decide
theorem test_wf_entry : (Instr.entryFetchComplete 0 0 []).wf = false := by decide
theorem test_wf_submit : (Instr.submit entry0 ⟨0, false, false, false, 2 ^ 32, 0, 0, 0, 0, 0⟩).wf = false := by decide
theorem test_wf_register : (Instr.adapterRegister entry0 (2 ^ 64) 0).wf = false := by decide
theorem test_wf_evict : (Instr.adapterEvictCache entry0 65536).wf = false := by decide
theorem test_wf_bundle : (Instr.bundleDefine entry0 ⟨65536, false, 0, none⟩).wf = false := by decide
theorem test_wf_bundle_release : (Instr.bundleRelease entry0 65536).wf = false := by decide
theorem test_wf_page_edit : (Instr.pageEditKeep entry0 (2 ^ 32) true).wf = false := by decide
theorem test_wf_truncate : (Instr.pageEditTruncate entry0 0 (2 ^ 32)).wf = false := by decide
theorem test_wf_prefill : (Instr.contextPrefill entry0 (2 ^ 32) 0 0).wf = false := by decide
theorem test_wf_checkpoint : (Instr.checkpoint entry0 65536 0 0).wf = false := by decide
theorem test_wf_host_read : (Instr.hostMemRead 32).wf = false := by decide
theorem test_wf_host_write : (Instr.hostMemWrite 0 [0]).wf = false := by decide
theorem test_wf_doe : (Instr.doeObject 65536 0 0 []).wf = false := by decide
theorem test_wf_nonce : (Instr.getMeasurements [] []).wf = false := by decide
theorem test_wf_release : (Instr.tenantRelease .gpp .orderly (2 ^ 64)).wf = false := by decide
theorem test_wf_offset : (Instr.load (2 ^ 64)).wf = false := by decide
theorem test_wf_segment : (Instr.segment 0 65536).wf = false := by decide
theorem test_wf_resume : (Instr.resume 0 (2 ^ 64)).wf = false := by decide
theorem test_wf_partner : (Instr.copyPartnerWrite 65536).wf = false := by decide
theorem test_wf_register_write : (Instr.registerWrite 0 256 0).wf = false := by decide
theorem test_wf_calibration : (Instr.calWritten 256 0 []).wf = false := by decide
theorem test_wf_rotate : (Instr.rotate 4096).wf = false := by decide
theorem test_wf_revoke : (Instr.revokeForced 8192).wf = false := by decide
theorem test_wf_interval : (Instr.telemetryInterval ⟨[], [], [], [], [], 0, 0, 0⟩).wf = false := by decide
theorem test_wf_second : (Instr.telemetrySecond ⟨0, [], [], 0, 0, 0, 0⟩).wf = false := by decide
theorem test_wf_boot_fault : (Instr.bootFailed 256 0).wf = false := by decide
theorem test_wf_trip : (Instr.thermalTrip 42 0).wf = false := by decide
theorem test_wf_good : (Instr.write msg0).wf = true := by decide

/-! ## States that meet the hypotheses: the step -/

theorem witness_StepRunsFront : ({ up with pending := [.stop] } : State).pending = Instr.stop :: [] := rfl
theorem witness_EmptyQueueIdles : up.pending = [] := rfl
theorem witness_MemoriesStayCanonical :
    MemoryWf { up with pending := [.stop] } ∧ ∃ t, step { up with pending := [.stop] } = .next t :=
  ⟨⟨rfl, rfl, rfl, rfl, rfl, rfl⟩, _, rfl⟩

/-! ## Operations -/

theorem witness_PlanEnds : (up.front 0).queuesEmpty = true ∧ (up.front 0).running = [] := ⟨rfl, rfl⟩

theorem witness_VectorResults : iss.hollow = false ∧ vopDefined .add varith = true ∧
    up.touchesTrip 0 ((maskCells iss.mask).flatMap (vopTouches .add varith)) = none := by decide

theorem witness_VectorEncodingsRefused : iss.hollow = false ∧ vopDefined .add { varith with dst := .none } = false := by decide

/-- A conversion that stores register 0 as FP16 with no scales. -/
def cvt0 : CvtF := ⟨.sram ptr0 0, .reg 0, .none, .fp16, .fit, .rne, .sat, .b32, false⟩

theorem witness_ConversionsWriteTheirCodes : cvtDefined cvt0 = true ∧ fmtBlocked cvt0.fmt = false ∧
    up.touchesTrip 0 ((maskCells iss.mask).flatMap (cvtTouches cvt0)) = none := by decide

/-- A conversion to INT8 blocks of 32, scales at 4,096 bytes. -/
def cvt8 : CvtF := ⟨.sram ptr0 0, .reg 0, .sram ⟨4096, 0⟩ 0, .int8, .fit, .rne, .sat, .b32, false⟩

theorem witness_ConversionsWithScales : cvtDefined cvt8 = true ∧ fmtBlocked cvt8.fmt = true ∧
    up.touchesTrip 0 ((maskCells iss.mask).flatMap (cvtTouches cvt8)) = none ∧
    ∀ c, c < 64 → opndAddr cvt8.scale c + cvtScales cvt8 ≤ opndAddr cvt8.dst c / 128 * 128 ∨
      (opndAddr cvt8.dst c + cvtRows cvt8 * rowBytes cvt8.fmt + 127) / 128 * 128 ≤ opndAddr cvt8.scale c / 128 * 128 := by
  decide

/-- A state in which the first line of SRAM of cell 0 of die 0 has been written. -/
def lines : State := { up with mem := { up.mem with sramValid := (List.range 40).map (fun k => (k, true)) } }

theorem witness_Unpack : unpDefined ⟨.reg 0, .sram ptr0 0, .none, .fp16, .fit, .rne, .sat, .b32, false⟩ = true ∧
    lines.touchesTrip 0 ((maskCells iss.mask).flatMap
      (unpTouches ⟨.reg 0, .sram ptr0 0, .none, .fp16, .fit, .rne, .sat, .b32, false⟩)) = none := by decide

theorem witness_FunctionResults : fnDefined ⟨.exp, .reg 0, .reg 1, .f32, .f32, .rne, .sat⟩ = true ∧
    up.touchesTrip 0 ((maskCells iss.mask).flatMap (fun c => opndReads (.reg 1) .f32 c)) = none := by decide

theorem witness_DropOut : (1 : Byte) ≠ 0 ∧
    up.touchesTrip 0 ((maskCells iss.mask).flatMap (fun c => opndReads (.reg 1) .f32 c)) = none := by decide

theorem witness_TileLoadFillsShadow : lines.touchesTrip 0 ((maskCells 0).flatMap
    (tloadTouches ⟨0, .fp16, ptr0, 0, ptr0, 0, .b32⟩)) = none ∧ Fmt.fp16 ≠ .u16l ∧ Fmt.fp16 ≠ .f32 := by decide

/-- A whole tile of E2M1 and its scales lie in written lines. -/
theorem witness_TileLoadOfCell : lines.touchesTrip 0 (tloadTouches ⟨0, .e2m1, ptr0, 0, ⟨4096, 0⟩, 0, .b128⟩ 0) = none := by decide

theorem witness_MmaPromotesIntoTotals :
    mmaDefined ⟨.a0, false, .fp16, .fp16, ptr0, 0, ptr0, 0, .b32, 0, 0, 0, .s64x64, 0, false, true, false, 16⟩ = true ∧
    lines.touchesTrip 0 ((maskCells iss.mask).flatMap (mmaTouches
      ⟨.a0, false, .fp16, .fp16, ptr0, 0, ptr0, 0, .b32, 0, 0, 0, .s64x64, 0, false, true, false, 16⟩)) = none := by decide

/-- An MMA of one row, 16 products, A32 with RNE. -/
def mma0 : MmaF := ⟨.a0, false, .fp16, .fp16, ptr0, 0, ptr0, 0, .b32, 0, 0, 0, .s64x64, 0, false, true, false, 16⟩

theorem witness_MmaFits : lines.mmaFits 0 iss mma0 = true ∧ (lines.mmaRow 0 mma0 0 0 0).mode = .a32 ∧
    (lines.totalRow 0 0 0 0 0 0).mode = .closed := by decide

/-- Row 0 of tile 0 is open in A16. -/
def rowOpen : State := { up with cells := { up.cells with totalRows := [(rowKey 0 0 0 0 0 0, ⟨.a16, 1⟩)] } }

/-- The row's format stands in its record and not in the operation. -/
theorem test_mma_keeps_format : (rowOpen.mmaRow 0 { mma0 with acc := true } 0 0 0).mode = .a16 := by decide

theorem witness_DrainWidensTotals : drainDefined true ⟨0, 0, .s64x64, 0, 0, 3, 8⟩ = true ∧
    up.drainFits 0 iss ⟨0, 0, .s64x64, 0, 0, 3, 8⟩ = true ∧ (rowOpen.totalRow 0 0 0 0 0 0).mode = .a16 := by decide

/-- A copy of one block from HBM to LPDDR of the die, beyond the window. -/
def copy0 : CopyF := ⟨0, .hbm, ptr0, .lpddr, ⟨16777216, 0⟩, 0, 0, 0, false, 1, none⟩

/-- A device whose tenant has a key in slot 0, with every page keyed with it. -/
abbrev keyed : State := own

theorem witness_OpsFresh : OpsFresh keyed :=
  ⟨fun d r h => by fin_cases d <;> simp [State.front, keyed, own, up, State.reset, FrontEnd.reset, Quad.get, Quad.fill] at h,
    by simp [keyed, own, up, State.reset], by simp [keyed, own, up, State.reset], by simp [keyed, own, up, State.reset],
    by simp [keyed, own, up, State.reset]⟩

theorem witness_NoOpenWrites : NoOpenWrites keyed := by simp [NoOpenWrites, keyed, own, up, State.reset]

theorem witness_CopyMovesBlocks : copy0.expand = false ∧ (spaceNear copy0.srcSpace || spaceNear copy0.dstSpace) = true ∧
    keyed.devTrip 0 copy0.srcSpace copy0.dev = none ∧ keyed.devTrip 0 copy0.dstSpace copy0.dev = none ∧
    keyed.copyPasses 0 iss copy0 = [(0, .ext false 0 0, .ext true 0 16777216)] ∧
    keyed.passesTrip 1 [(0, .ext false 0 0, .ext true 0 16777216)] = none ∧
    overlaps 1 (.ext false 0 0) (.ext true 0 16777216) = false ∧ keyed.touchesRegion .hdm true 16777216 1 = false := by decide

/-- The same device as device 5, with a route from die 0 to device 6. -/
def dev5 : State := (keyed.setParam P.deviceId 5).setBlob (P.routeActive 0) (List.replicate 48 0 ++ leBytes 8 (2 ^ 63))

/-- A copy of one block from HBM to device 6. -/
def copyR : CopyF := ⟨0, .hbm, ptr0, .devHbm, ptr0, 0, 6, 0, false, 1, none⟩

theorem witness_CopyToAnotherDevice : OpsFresh dev5 ∧ dev5.devTrip 0 copyR.srcSpace copyR.dev = none ∧
    dev5.devTrip 0 copyR.dstSpace copyR.dev = none ∧
    dev5.copyPasses 0 iss copyR = [(0, .ext false 0 0, .remote 6 0 1 0 0)] ∧
    dev5.passesTrip 1 [(0, .ext false 0 0, .remote 6 0 1 0 0)] = none :=
  ⟨⟨fun d r h => by fin_cases d <;> simp [State.front, dev5, keyed, own, up, State.reset, FrontEnd.reset, Quad.get, Quad.fill,
      State.setParam, State.setBlob] at h,
    by simp [dev5, keyed, own, up, State.reset, State.setParam, State.setBlob],
    by simp [dev5, keyed, own, up, State.reset, State.setParam, State.setBlob],
    by simp [dev5, keyed, own, up, State.reset, State.setParam, State.setBlob],
    by simp [dev5, keyed, own, up, State.reset, State.setParam, State.setBlob]⟩, by decide, by decide +kernel, by decide, by decide +kernel⟩

/-- A keyed device with the first lines of SRAM written. -/
def both : State := { keyed with mem := { keyed.mem with sramValid := (List.range 40).map (fun k => (k, true)) } }

/-- A gather of two rows of one block. -/
def gath0 : GatherF := ⟨0, .hbm, ptr0, ⟨64, 0⟩, .sram, ⟨4096, 0⟩, 0, 1, false, 1, none⟩

theorem witness_GatherCollectsRows :
    both.touchesTrip 0 [⟨(gatherList gath0 0).1, (gatherList gath0 0).2.1, 4 * (gath0.count.toNat + 1), false, false⟩] = none ∧
    both.passesTrip (gath0.rowBlocks.toNat + 1) (both.gatherRows 0 gath0 0) = none ∧
    (both.gatherIndices 0 gath0 0).getD 1 0 ≠ 0xFFFFFFFF := by decide

/-- A list whose second index is skipped. -/
def skips : State := { both with mem := { both.mem with sram := (List.range 4).map (fun k => (68 + k, 0xFF)) } }

theorem witness_GatherSkipsRows :
    skips.touchesTrip 0 [⟨(gatherList gath0 0).1, (gatherList gath0 0).2.1, 4 * (gath0.count.toNat + 1), false, false⟩] = none ∧
    skips.passesTrip (gath0.rowBlocks.toNat + 1) (skips.gatherRows 0 gath0 0) = none ∧
    (skips.gatherIndices 0 gath0 0).getD 1 0 = 0xFFFFFFFF := by decide

/-- A sequence 0 of FP16 whose first page has one row, with one row staged for its next page. -/
def kvs : State :=
  let q : SeqRec := ⟨.opened, 0, 1, 0, 0, false, 0, 1, none, 4, 0, 0, 0, 0, 0, 0, 0, false, false, [], false⟩
  let e : Pte := ⟨frameOf false 0 keyed.kvFirstFrame, true, false, 1, 0, 1, 0⟩
  let ts : KvTables := { seqs := [(0, q)], ptes := ⟨[(0, e)], [], [], []⟩ }
  { keyed with
    kv := { keyed.kv with live := ts, next := ts }
    cells := { keyed.cells with staging := [⟨0, 0, 0, 0, 0, 0, [⟨1, [], []⟩]⟩] } }

def stage0 : StageF := ⟨ptr0, ptr0, 0, ⟨2, 0⟩, 0, .fp16, .rne, .sat⟩

theorem witness_StageAddsOneRow : stageDefined stage0 = true ∧
    (∀ c, c < 64 → iss.mask.getLsbD c = true → kvs.stageTrip 0 stage0 c = none) ∧
    kvs.appendFault 0 (kvs.seq? 0 0) (kvs.pte 0 0) = none ∧ keyed.appendFault 0 (keyed.seq? 0 0) (keyed.pte 0 0) ≠ none := by
  decide +kernel

theorem witness_WalkDeliversPages :
    (∀ c, c < 64 → iss.mask.getLsbD c = true → kvs.walkTrip 0 ⟨ptr0, ptr0, 0, ptr0, 0, ptr0, 0, .k, 1⟩ c = none) ∧
    kvs.touchesTrip 0 ((maskCells iss.mask).map (fun c => ⟨c, ptrSram ptr0 0 c, partBytes .k, true, true⟩)) = none ∧
    (kvs.walkList 0 ⟨ptr0, ptr0, 0, ptr0, 0, ptr0, 0, .k, 1⟩ 0).length = 1 := by
  decide +kernel

theorem witness_TailFlushClosesSlots :
    (∀ c, c < 64 → iss.mask.getLsbD c = true → ∀ x ∈ kvs.openSlots 0 c 0 0 0, kvs.mergeTrip x = none) ∧
    (kvs.openSlots 0 0 0 0 0).length = 1 := by decide +kernel

/-- A Press operation on one row of SRAM, to LPDDR beyond the window. -/
def pf0 : PressF := ⟨.sram, ptr0, ptr0, .lpddr, ⟨25200000, 0⟩, 0, 0, 0, false, 1, none⟩

theorem witness_PressAppliesBlocks : pressDstOk .qaddFp16 pf0.dstSpace = true ∧ both.fab.pressQueues = [] ∧
    both.devTrip 0 pf0.dstSpace pf0.dev = none ∧ both.spacePlace 0 pf0.dstSpace pf0.targetDie pf0.dev = .here 0 ∧
    both.pressPasses 0 iss pf0 = [⟨0, .sram 0 0 0, .sram 0 0 0, 25200000⟩] ∧
    both.pressTrip .qaddFp16 pf0 1 true ⟨0, .sram 0 0 0, .sram 0 0 0, 25200000⟩ = none ∧
    (∀ k, k < 2 → both.keyingOf (frameOf true 0 ((25200000 + k) / 252)) = none ∧
      both.blockTrip true 0 (pressBlockAt (25200000 + k)) = none ∧
      both.blockTrip true 0 (pressCountAt (25200000 + k) / 256) = none) := by
  decide +kernel

theorem witness_PressFinishDivides :
    both.finishTrip 0 ⟨.hbm, ptr0, ptr0, .sram, ⟨4096, 0⟩, 0, 0, 1, false, 1, none⟩ 2 0 = none ∧
    finishLane 0 0 0 = some (.fin false 0 0) ∧ finishLane 1 65536 0 ≠ none ∧ finishLane 1 65537 0 = some .nan := by
  decide +kernel

theorem witness_TallyOperations : ((1 : W16) ≠ 0) ∧ dev5.param P.deviceId < 1024 ∧ (6 : W32).toNat < 1024 ∧
    (6 : W32).toNat ≠ dev5.param P.deviceId ∧ dev5.routed 0 (6 : W32).toNat = true := by decide +kernel

theorem witness_TallyToItself : (run.setParam P.deviceId 5).jobActive = true ∧ (run.setParam P.deviceId 5).param P.deviceId < 1024 ∧
    (5 : W32).toNat = (run.setParam P.deviceId 5).param P.deviceId := by decide +kernel

/-- A device whose start-up stands at a stage, with or without the record of a scrub. -/
def starts (st : BootStage) (r : Bool) : State :=
  { up with boot := { up.boot with dev := .boot, stage := st }, ten := { up.ten with scrubRecorded := r } }

theorem witness_StartUpStages : (starts .rom false).pending = [] ∧ (starts .rom false).boot.dev = .boot ∧
    (starts .dies false).boot.stage = .dies ∧ (starts .memoryTraining true).ten.scrubRecorded = true ∧
    (starts .memoryTraining false).ten.scrubRecorded = false ∧ (starts .scrub false).boot.stage = .scrub := by decide

theorem witness_FunctionIntoSram : fnDefined ⟨.exp, .sram ptr0 0, .reg 1, .f32, .fp16, .rne, .sat⟩ = true ∧
    up.touchesTrip 0 ((maskCells iss.mask).flatMap (fun c => opndReads (.reg 1) .f32 c ++ opndWrites (.sram ptr0 0) .fp16 c)) = none ∧
    up.touchesTrip 0 ((maskCells iss.mask).flatMap (fun c => opndReads (.reg 1) .f32 c ++ opndWrites (.sram ptr0 0) .f32 c)) = none := by
  decide

/-- Cells 0 and 1. -/
def iss3 : Issue := { iss with mask := 3 }

/-- A copy from HBM into SRAM for each enabled cell, one block each. -/
def copyX : CopyF := ⟨0, .hbm, ⟨0, 1⟩, .sram, ⟨4096, 2 ^ 22⟩, 0, 0, 0, true, 1, some 6⟩

theorem witness_CopyForEachCell : copyDefined copy0 = true ∧ copyDefined copyX = true ∧ keyed.copyPasses 0 iss3 copyX =
      [(0, .ext false 0 0, .sram 0 0 4096), (1, .ext false 0 1, .sram 0 1 4096)] ∧
    keyed.spacePlace 0 copyX.srcSpace copyX.targetDie copyX.dev = .here 0 ∧
    keyed.passesTrip 1 (keyed.copyPasses 0 iss3 copyX) = none ∧
    overlaps 1 (.ext false 0 0) (.sram 0 1 4096) = false ∧ overlaps 1 (.sram 0 0 4096) (.sram 0 1 4096) = false := by decide +kernel

theorem witness_CopyToAnotherDeviceForEachCell : copyDefined copyR = true ∧
    dev5.copyPasses 0 iss3 { copyR with expand := true } ≠ [] ∧
    dev5.passesTrip 1 (dev5.copyPasses 0 iss3 { copyR with expand := true }) = none := by decide +kernel

/-- A gather for each enabled cell. -/
def gathX : GatherF := { gath0 with expand := true, dst := ⟨4096, 2 ^ 22⟩, idx := ⟨64, 2 ^ 22⟩ }

/-- A keyed device with the first lines of SRAM of cells 0 and 1 written. -/
def two : State := { both with mem := { both.mem with sramValid := both.mem.sramValid ++ (List.range 40).map (fun k => (32768 + k, true)) } }

theorem witness_GatherForEachCell : gatherDefined gathX = true ∧
    two.touchesTrip 0 ((passCells gathX.expand iss3.mask).map (fun c =>
      ⟨(gatherList gathX c).1, (gatherList gathX c).2.1, 4 * (gathX.count.toNat + 1), false, false⟩)) = none ∧
    (passCells gathX.expand iss3.mask).flatMap (two.gatherRows 0 gathX) =
      [(0, .ext false 0 0, .sram 0 0 4096), (0, .ext false 0 0, .sram 0 0 4352),
       (1, .ext false 0 0, .sram 0 1 4096), (1, .ext false 0 0, .sram 0 1 4352)] ∧
    two.passesTrip 1 ((passCells gathX.expand iss3.mask).flatMap (two.gatherRows 0 gathX)) = none ∧
    overlaps 1 (.sram 0 0 4096) (.sram 0 0 4352) = false ∧ overlaps 1 (.sram 0 0 4352) (.sram 0 1 4352) = false := by decide +kernel

/-- An ADD to accumulators in LPDDR for each enabled cell, 252 data blocks apart. -/
def pfX : PressF := { pf0 with expand := true, src := ⟨0, 2 ^ 22⟩, dst := ⟨25200000, 252⟩ }

theorem witness_PressForEachCell : pressDefined .qaddFp16 pf0 = true ∧ pressDefined .addI32 pfX = true ∧
    two.devTrip 0 pfX.dstSpace pfX.dev = none ∧
    two.pressPasses 0 iss3 pfX = [⟨0, .sram 0 0 0, .sram 0 0 0, 25200000⟩, ⟨1, .sram 0 1 0, .sram 0 1 0, 25200252⟩] ∧
    (∀ p ∈ two.pressPasses 0 iss3 pfX, two.pressTrip .addI32 pfX 1 true p = none) ∧ pressPer .addI32 = 1 := by decide +kernel

theorem witness_FinishForEachCell :
    pressDefined .finishFp16 ⟨.hbm, ⟨0, 2⟩, ptr0, .sram, ⟨4096, 2 ^ 22⟩, 0, 0, 1, true, 1, none⟩ = true ∧
    (∀ c ∈ passCells true iss3.mask, both.finishTrip 0 ⟨.hbm, ⟨0, 2⟩, ptr0, .sram, ⟨4096, 2 ^ 22⟩, 0, 0, 1, true, 1, none⟩ 2 c = none) ∧
    pressDefined .finishFp16 ⟨.hbm, ptr0, ptr0, .hbm, ⟨332800000, 0⟩, 0, 0, 1, false, 1, none⟩ = true ∧
    both.finishTrip 0 ⟨.hbm, ptr0, ptr0, .hbm, ⟨332800000, 0⟩, 0, 0, 1, false, 1, none⟩ 2 0 = none ∧
    both.touchesRegion .hdm false 332800000 1 = false := by
  decide +kernel

/-! ## The Cerot stream -/

/-- ISSUE_DELTA 1 and TALLY.ADD of 2 to tally 5 in slot T (R137, R139, R140, R201). -/
def word1 : Nat := 2 ^ 1008 + 2 ^ 768 * (2 ^ 120 + 5 * 2 ^ 59 + 2 * 2 ^ 43)

/-- A word whose slot V has OP 0x7F, which no table defines (R185). -/
def wordBad : Nat := 2 ^ 128 * (0x7F * 2 ^ 120)

/-- The first bytes of die 0's plan store. -/
def planOf (w : Nat) : Memory := ((leBytes 128 w).zipIdx.filter (fun x => x.1 != 0)).map (fun x => (x.2, x.1))

/-- Die 0 has a plan open whose next word is w. -/
def opened (w : Nat) : State :=
  { run with
    mem := { run.mem with plan := planOf w }
    fe := run.fe.set 0 { run.front 0 with planOpen := true } }

/-- What slot T of the first word says. -/
def entryT : QEntry := ⟨.tallyAdd ⟨5, 2⟩, ⟨BitVec.allOnes 64, false, 0, 0, false⟩, none, none⟩

theorem test_word_tally : FrontEnd.reset.decodeSlots ⟨BitVec.allOnes 64, false, 0, 0, false⟩ word1 opSlots = some [(.t, entryT)] := by
  decide +kernel

/-- VADD of registers 2 and 3 into register 1, waiting for tally 7 at 9 and signalling tally 8 once (R140, R173, R185, R186). -/
theorem test_word_vadd : FrontEnd.reset.decodeSlots ⟨BitVec.allOnes 64, false, 0, 0, false⟩
    (2 ^ 128 * (2 * 2 ^ 120 + 2 ^ 119 + 7 * 2 ^ 106 + 9 * 2 ^ 90 + 2 ^ 89 + 8 * 2 ^ 76 + 1 * 2 ^ 56 + 2 * 2 ^ 40 + 3 * 2 ^ 24 +
      3 * 2 ^ 22 + 0xA * 2 ^ 4)) opSlots =
    some [(.v, ⟨.varith .add ⟨.reg 1, .reg 2, .reg 3, .none, .f32, 0⟩, ⟨BitVec.allOnes 64, false, 0, 0, false⟩, some (7, 9), some (8, 1)⟩)] := by
  decide +kernel

/-- PTR.SET P3 STEP1 to the immediate 128 (R202). -/
theorem test_word_ptr : FrontEnd.reset.decodeCtrl (2 ^ 896 * (2 * 2 ^ 104 + 3 * 2 ^ 100 + 3 * 2 ^ 97 + 128 * 2 ^ 64)) =
    some (some (.ptrSet ⟨3, .step1, 128⟩)) := by decide +kernel

theorem witness_WordDispatch : (up.front 0).mayDispatch = false ∧ ((opened word1).front 0).mayDispatch = true ∧
    State.planLineBad (opened word1).mem.planDouble 0 0 = 0 ∧ (opened word1).planWord 0 0 = word1 ∧
    ((opened word1).front 0).decodeWord ⟨BitVec.allOnes 64, false, 0, 0, false⟩ word1 = some ([(.t, entryT)], none) ∧
    ((opened word1).front 0).roomFor [(.t, entryT)] = true := by
  decide +kernel

theorem witness_WordDispatchFullQueue : { FrontEnd.reset with queues := { FrontEnd.reset.queues with t := List.replicate 16 entryT } }.roomFor
    [(.t, entryT)] = false := by decide +kernel

theorem witness_WordDispatchUndefined : ((opened wordBad).front 0).mayDispatch = true ∧
    State.planLineBad (opened wordBad).mem.planDouble 0 0 = 0 ∧ (opened wordBad).planWord 0 0 = wordBad ∧
    ((opened wordBad).front 0).decodeWord ⟨BitVec.allOnes 64, false, 0, 0, false⟩ wordBad = none := by decide +kernel

theorem witness_WordDispatchBadLine :
    State.planLineBad ({ opened word1 with mem := { (opened word1).mem with planDouble := [(3, true)] } } : State).mem.planDouble 0 0 ≠ 0 ∧
    ({ opened word1 with mem := { (opened word1).mem with planDouble := [(3, true)] } } : State).jobActive = true := by decide +kernel

/-- A hollow ADD that signals tally 6. -/
def hollowV : QEntry := ⟨.varith .add varith, ⟨1, true, 0, 0, false⟩, none, some (6, 1)⟩

/-- Die 0 with entries waiting in slots T and V. -/
def queued : State := { run with fe := run.fe.set 0 { run.front 0 with
  queues := { (run.front 0).queues with t := [entryT], v := [hollowV] } } }

theorem witness_OperationsStart : (queued.front 0).queues.get .t = [entryT] ∧ queued.mayStart 0 .t entryT 10 = true ∧
    (queued.front 0).queues.get .a = [] ∧ queued.mayStart 0 .v hollowV 10 = true ∧ hollowV.issue.hollow = true ∧
    queued.waitMet 0 (some (5, 1)) = false := by decide +kernel

theorem witness_OperationStartHasEffect : ∃ u,
    effOp ((queued.setFront 0 { queued.front 0 with queues := (queued.front 0).queues.set .t [] }).beginOp 0 .t entryT 10) 0
      queued.fab.nextOp entryT.issue entryT.op = .ok u := ⟨_, rfl⟩

/-- An ADD in progress in slot V. -/
def running0 : Running := ⟨0, .v, { hollowV with issue := iss }, 5, 0, 0⟩

/-- Die 0 with that operation in progress. -/
def working : State := { run with
  fe := run.fe.set 0 { run.front 0 with running := [running0] }
  fab := { run.fab with nextOp := 1 } }

theorem witness_OperationsComplete : ((working.front 0).running.filter (fun x => x.slot == .v))[0]? = some running0 ∧
    working.running? 0 0 = some running0 ∧ running0.awaiting = 0 ∧ (∀ b ∈ working.host.snoops, b.owner ≠ .op 0 0) ∧
    running0.entry.issue.hollow = false := by decide +kernel

theorem witness_OperationNumbersStayFresh : OpsFresh keyed ∧ ∃ t, step keyed = .next t := ⟨witness_OpsFresh, _, rfl⟩

/-- Die 0 with one entry at the head of a slot. -/
def heads (s : State) (sl : Slot) (e : QEntry) : State :=
  s.setFront 0 { s.front 0 with queues := (s.front 0).queues.set sl [e] }

/-- An issue of a hollow operation. -/
def issH : Issue := { iss with hollow := true }

/-- A device 5 with a job and a route to device 6. -/
def dev5run : State := { dev5 with job := run.job, boot := run.boot }

theorem heads_fresh (sl : Slot) (e : QEntry) : OpsFresh (heads dev5run sl e) := by
  refine ⟨fun d r h => ?_, ?_, ?_, ?_, ?_⟩
  · fin_cases d <;> simp [heads, State.front, State.setFront, Quad.get, Quad.set, dev5run, dev5, keyed, own, up, State.reset, FrontEnd.reset, Quad.fill,
      State.setParam, State.setBlob] at h
  all_goals simp [heads, State.setFront, dev5run, dev5, keyed, own, up, State.reset, State.setParam, State.setBlob]

/-- A hollow copy that signals tally 6 at its destination, here or on device 6, and a hollow RADD of 1 to a device. -/
def hollowCopy (f : CopyF) : QEntry := ⟨.copy { f with dsig := some 6 }, issH, none, none⟩
def hollowRadd (dev : W32) : QEntry := ⟨.tallyRadd ⟨5, 1, 0, dev⟩, issH, none, none⟩

theorem witness_HollowHere : (heads dev5run .m0 (hollowCopy copy0)).mayStart 0 .m0 (hollowCopy copy0) 10 = true ∧
    dev5run.hollowTrip 0 (hollowCopy copy0).op = none ∧ dev5run.opSignal 0 (hollowCopy copy0).op = some (6, .here 0) ∧
    (heads dev5run .t (hollowRadd 5)).mayStart 0 .t (hollowRadd 5) 10 = true ∧ dev5run.jobActive = true ∧
    dev5run.param P.deviceId < 1024 ∧ (5 : W32).toNat = dev5run.param P.deviceId := by decide +kernel

theorem witness_HollowTiles : ∀ (e : QEntry), e ∈ [(⟨.tload false ⟨0, .fp16, ptr0, 0, ptr0, 0, .b32⟩, issH, none, none⟩ : QEntry),
      ⟨.mma { mma0 with swap := true }, issH, none, none⟩] →
    (heads dev5run .a e).mayStart 0 .a e 10 = true ∧ dev5run.hollowTrip 0 e.op = none ∧ dev5run.opSignal 0 e.op = none := by
  decide +kernel

theorem witness_HollowAway : (heads dev5run .m0 (hollowCopy copyR)).mayStart 0 .m0 (hollowCopy copyR) 10 = true ∧
    dev5run.hollowTrip 0 (hollowCopy copyR).op = none ∧ dev5run.opSignal 0 (hollowCopy copyR).op = some (6, .away 6 0) ∧
    (6 : W32).toNat ≠ dev5run.param P.deviceId ∧ dev5run.routed 0 (6 : W32).toNat = true ∧
    (heads dev5run .t (hollowRadd 6)).mayStart 0 .t (hollowRadd 6) 10 = true := by decide +kernel

theorem witness_HollowFaults : startTrip dev5run 0 issH (hollowRadd 7).op = some (.tallyUnroutable 7) ∧
    opDefined (hollowRadd 7).op = true ∧
    startTrip dev5run 0 issH (hollowCopy { copyR with dev := 7 }).op = some (.unroutable 7) ∧
    (heads dev5run .m0 (hollowCopy { copyR with dev := 7 })).mayStart 0 .m0 (hollowCopy { copyR with dev := 7 }) 10 = true ∧
    (heads dev5run .t (hollowRadd 7)).mayStart 0 .t (hollowRadd 7) 10 = true := by decide +kernel

/-- A device whose first line of SRAM of cell 0 holds a double-bit error. -/
def badLine : State := { both with mem := { both.mem with sramDouble := [(0, true)] } }

/-- A device whose first block of HBM of die 0 holds a double-bit error, or carries a tag that does not verify. -/
def badBlock : State := { keyed with mem := { keyed.mem with memDouble := [(frameOf false 0 0 * 256, true)] } }
def badTag : State := { keyed with mem := { keyed.mem with tagBad := [(frameOf false 0 0 * 256, true)] } }

/-- A vector addition with one source in SRAM. -/
def addFrom (p : Ptr) : Op := .varith .add ⟨.reg 0, .sram p 0, .reg 3, .none, .f32, 0⟩

theorem witness_RunTimeFaults : opDefined (addFrom ptr0) = true ∧ opDefined (.copy copy0) = true ∧
    opDefined (.copy { copy0 with dstSpace := .hbm, dst := ⟨256, 0⟩ }) = true ∧ opDefined (.copy { copyR with dev := 7 }) = true ∧
    opTrip keyed 0 iss (addFrom ⟨64, 0⟩) = some (.range 0) ∧ opTrip keyed 0 iss (addFrom ptr0) = some (.unwritten 0 0 0) ∧
    opTrip badLine 0 iss (addFrom ptr0) = some (.sramDouble 0 0 0) ∧ opTrip badBlock 0 iss (.copy copy0) = some (.memDouble 0 0) ∧
    opTrip badTag 0 iss (.copy copy0) = some (.tag 0 0 1) ∧
    opTrip keyed 0 iss (.copy { copy0 with dstSpace := .hbm, dst := ⟨256, 0⟩ }) = some .baseWrite ∧
    opTrip keyed 0 iss (.copy { copyR with dev := 7 }) = some (.unroutable 7) ∧ keyed.fab.pressQueues = [] := by decide +kernel

theorem witness_FaultsAtStart : startTrip (heads dev5run .v ⟨addFrom ptr0, iss, none, none⟩) 0 iss (addFrom ptr0) = some (.unwritten 0 0 0) ∧
    (heads dev5run .v ⟨addFrom ptr0, iss, none, none⟩).mayStart 0 .v ⟨addFrom ptr0, iss, none, none⟩ 10 = true := by decide +kernel

theorem witness_TouchFaults : (⟨0, 64, 256, true, true⟩ : Touch).line = true ∧ (⟨0, 64, 256, true, true⟩ : Touch).addr % 128 ≠ 0 ∧
    sramEnd < (⟨0, sramEnd - 4, 8, false, false⟩ : Touch).addr + 8 ∧ (0 + 4 ≤ sramEnd) ∧
    keyed.mem.sramValid.getD (lineKey 0 0 (3 / 128)) false = false := by decide +kernel

/-! ## Messages -/

theorem witness_EpochInForce : msg0.hdr.epoch = run.ten.epoch ∧ run.jobActive = true ∧
    (7 : W32).toNat = run.runningTag := by decide +kernel

/-- A WRITE of one block to HBM behind the base region. -/
def wmsg : Message := ⟨hdr0, { desc0 with address := 0x4000000000000 + 1300000 * 65536 }, List.replicate 256 1⟩

theorem witness_WriteStores : wmsg.hdr.epoch = run.ten.epoch ∧ msgInRange wmsg = true ∧ run.messageIn wmsg .base = false ∧
    run.messageIn wmsg .hdm = false ∧ run.messageIn wmsg .partner = false ∧ wmsg.data.length = 256 * msgCount wmsg ∧
    (∀ b ∈ run.host.snoops, b.owner ≠ .message (bareMessage wmsg)) := by decide +kernel

theorem witness_MessageOutOfRange : msgInRange { msg0 with desc := { desc0 with address := 0xC000000000000 } } = false := by
  decide +kernel

theorem witness_ReadReads : msgInRange wmsg = true ∧ keyed.messageIn wmsg .partner = false ∧
    (match msgPlace wmsg with
      | .sram d c a => keyed.touchTrip d ⟨c, a, 256 * msgCount wmsg, false, false⟩
      | .ext lp d b => keyed.blocksTrip lp d b (msgCount wmsg)
      | .remote .. => none) = none ∧ NoCorrected keyed := ⟨by decide +kernel, by decide +kernel, by decide +kernel, rfl, rfl, rfl⟩

/-- An operation that awaits one answer, of a block for SRAM. -/
def awaits (n : Nat) : State := { working with
  fe := working.fe.set 0 { working.front 0 with running := [{ running0 with awaiting := n }] }
  fab := { working.fab with pendings := [⟨0, 0, 0x21, 0, 0, some (.sram 0 0 0), 0, 0⟩] } }

theorem witness_ResponsesSettle : msg0.desc.status = 0 ∧ msg0.hdr.epoch = (awaits 1).ten.epoch ∧
    (awaits 1).pendingOf { msg0 with desc := { msg0.desc with type := 0x31 } } = some ⟨0, 0, 0x21, 0, 0, some (.sram 0 0 0), 0, 0⟩ ∧
    (awaits 1).pendingOf { msg0 with desc := { msg0.desc with type := 0x30 } } = none ∧
    (awaits 1).running? 0 0 = some { running0 with awaiting := 1 } ∧ (awaits 2).running? 0 0 = some { running0 with awaiting := 2 } ∧
    (awaits 1).fab.backlog = [] ∧ (awaits 1).host.snoops = [] := by decide +kernel

theorem witness_PressMessages : popOp (0x03 : Byte).toNat = some .addI32 ∧ popOp (0x0F : Byte).toNat = none ∧
    bits wmsg.desc.address.toNat 50 2 ≠ 0 ∧ wmsg.desc.address.toNat % 2 ^ 38 / 256 % 256 + msgCount wmsg ≤ 252 := by decide +kernel

/-- A block that waits at the first Press unit of die 0. -/
def pblock : PressBlock := ⟨0, false, 252 * 1300000, .addI32, List.replicate 256 1, 0, none, none, true⟩

theorem witness_PressApplication :
    let s : State := { keyed with fab := { keyed.fab with pressQueues := [(0, [pblock])] } }
    s.fab.pressQueues.getD 0 [] = [pblock] ∧ pblock.epoch = s.ten.epoch ∧ s.heldTrip pblock = none ∧ pblock.op ≠ .clear ∧
      pblock.data.length = 256 ∧ pblock.op' = none ∧ pblock.answer = none ∧ s.fab.redWaiting = [] ∧
      s.fab.pressQueues.getD 1 [] = [] := by decide +kernel

theorem witness_EarlierEpochs : msg0.hdr.epoch ≠ ({ run with ten := { run.ten with epoch := 1 } } : State).ten.epoch := by decide

/-! ## Links -/

theorem witness_LinkStateChanges : ((linkUp up 3 .training).link 3).phase = .training ∧ (up.link 3).phase = .down ∧
    ((linkUp up 3 .disabled).link 3).phase = .disabled ∧ ((linkUp up 3 .quarantined).link 3).phase = .quarantined ∧
    ((up.setLink 3 { up.link 3 with phase := .up, replays := 16 }).link 3).carriesLocal = true ∧
    16 ≤ ((up.setLink 3 { up.link 3 with phase := .up, replays := 16 }).link 3).replays := by decide +kernel

/-- A link that is UP with two flits unacknowledged. -/
def sent : State := up.setLink 3 { up.link 3 with phase := .up, txSeq := 2, retry := [⟨hdr0, List.replicate 240 0⟩, ⟨hdr0, List.replicate 240 0⟩] }

theorem witness_LinkLayerControl : (up.link 3).carriesLocal = false ∧ (sent.link 3).carriesLocal = true ∧
    (sent.link 3).queue = [] ∧ ((sent.link 3).txSeq - 1 - (0 : BitVec 12)).toNat = 1 ∧
    0 < ((sent.link 3).txSeq - (1 : BitVec 12)).toNat ∧ ((sent.link 3).txSeq - (1 : BitVec 12)).toNat ≤ 1 := by decide +kernel

/-- A HELLO of a partner with another serial number. -/
def hello0 : HelloF := ⟨1, 3, 7, none, 1, 9, 0, [moduleSerialBytes.getD 0 0 + 1]⟩

/-- A link in DISCOVERY whose latency is measured or not. -/
def disc (known : Bool) : State := up.setLink 3 { up.link 3 with phase := .discovery, latencyKnown := known }

theorem byte_succ_ne (b : Byte) : b + 1 ≠ b := by bv_omega

theorem witness_Discovery : ((disc true).link 3).phase = .discovery ∧ ((disc true).link 3).latencyKnown = true ∧
    (disc true).helloFault 3 { hello0 with routeGen := 9 } ≠ none ∧ ((linkUp up 3 .quarantined).link 3).queue = [] ∧ ((disc false).link 3).latencyKnown = false ∧
    (0 : BitVec 6) ≠ 63 ∧ 0 < ((disc true).link 3).credits.getD 6 0 ∧ ((disc true).link 3).retry.length < 512 ∧
    ((disc true).link 3).queue = [] := by
  decide +kernel

theorem witness_DiscoveryAgrees : (disc true).helloFault 3 { hello0 with order0 := BitVec.ofNat 12 ((disc true).param (P.order0Active 3)),
                                                                         order1 := BitVec.ofNat 12 ((disc true).param (P.order1Active 3)) } = none := by
  have h : (([moduleSerialBytes.getD 0 0 + 1] : List Byte) ++ List.replicate 32 0).take 32 ≠
      (moduleSerialBytes ++ List.replicate 32 0).take 32 := by
    intro e
    have := congrArg (fun l => l.getD 0 0) e
    cases hm : moduleSerialBytes with
    | nil => rw [hm] at this; revert this; decide
    | cons b bs => rw [hm] at this; exact byte_succ_ne b (by simp at this)
  unfold State.helloFault hello0
  simp only [h, if_false]
  decide +kernel

theorem leNat_zeros (n : Nat) : leNat (List.replicate n 0#8) = 0 := by
  induction n with
  | zero => rfl
  | succ n ih => simp [List.replicate_succ, leNat, ih]

theorem tableFaultAt_zeros (s : State) (d : DieId) (k n dev : Nat) : s.tableFaultAt d (List.replicate k 0#8) dev n = none := by
  induction n generalizing dev with
  | zero => rfl
  | succ n ih =>
    simp [State.tableFaultAt, fieldLE, leNat_zeros, State.entryFault, ih]

/-- Die 0's pending table has an entry with port 14, which is no port. -/
def badRoute : State := (up.setParam P.routeGenPending 1).setBlob (P.routePending 0) (leBytes 8 (2 ^ 63 + 14 * 2 ^ 59))

theorem witness_RouteSealRefuses : (badRoute.setParam P.routeGenPending 1).routeFault ≠ none := by decide +kernel

theorem witness_RouteSealAccepts : (up.setParam P.routeGenPending 1).routeFault = none := by
  have h : ∀ d : DieId, (up.setParam P.routeGenPending 1).blob (P.routePending d.val) = List.replicate 8192 0#8 := by
    intro d; fin_cases d <;> rfl
  simp only [State.routeFault, h, tableFaultAt_zeros]
  rfl

theorem witness_RouteCommit : (up.setParam P.routeCommitBeat 5).param P.routeCommitBeat ≠ up.beat.count ∧
    (up.setParam P.routeCommitBeat 0).param P.routeCommitBeat = up.beat.count ∧ up.fab.sealed = false ∧
    ({ up with fab := { up.fab with sealed := true } } : State).fab.sealed = true ∧ up.beat.kind = .free := by decide +kernel

/-- Device 5 with die 0's route to device 6 over port 1, for flits that enter on link 0 at level 0; links 0 and 1 are UP. -/
def router : State :=
  linkUp (linkUp ((up.setParam P.deviceId 5).setBlob (P.routeActive 0)
    (List.replicate 48 0 ++ leBytes 8 (2 ^ 63 + 2 ^ 59 + 2 ^ (29 + inputBit (.link 0 0))))) 0 .up) 1 .up

/-- A HEAD flit of a tally message for device 6. -/
def flit6 : Flit := ⟨{ hdr0 with cls := 3, dstDev := 6 }, List.replicate 31 0 ++ [0x10] ++ List.replicate 208 0⟩

theorem witness_RoutedFlit : (router.link 0).phase = .up ∧ router.headerFault (some (0, flitChannel flit6)) flit6 = none ∧
    router.param P.deviceId ≠ flit6.hdr.dstDev.toNat ∧ (router.routeEntry 0 6).testBit 63 = true ∧
    (router.routeEntry 0 6).testBit (29 + inputBit (.link 0 0)) = true ∧ entryPort (router.routeEntry 0 6) = 1 ∧
    (router.link 1).phase = .up ∧ (router.link 1).queue = [] ∧ (router.link 1).retry.length < 512 ∧
    (router.front 0).inReset = false ∧ 0 < (router.link 1).credits.getD (2 * flit6.hdr.cls.toNat + entryLevel (router.routeEntry 0 6)) 0 := by decide +kernel

/-! ## Rings and interrupts -/

/-- Ring 0 with its parameters in order. -/
def ring0 : State := ([(P.sqBase 0, 4096), (P.cqBase 0, 8192), (P.sqSize 0, 16), (P.cqSize 0, 16), (P.piLine 0, 0x10000),
  (P.cqCiLine 0, 0x10040), (P.statusLine 0, 0x10080)] : List (Nat × Nat)).foldl (fun (s : State) x => s.setParam x.1 x.2) own

/-- Ring 0 in a phase, with counters at 2^32 − 1 for the wrap. -/
def ringIn (p : RingPhase) : State := ring0.setRing 0 { phase := p, pi := 0xFFFFFFFF, sqCi := 0xFFFFFFFF, cpl := 0xFFFFFFFF, cqCi := 0xFFFFFFFF }

theorem witness_RingEnable : ring0.hubUp = true ∧ (ring0.ring 0).phase = .disabled ∧ ring0.ringParamsOk 0 = true ∧
    (ringIn .enabled).ringParamsOk 0 = true ∧ ((ringIn .enabled).ring 0).phase ≠ .disabled ∧
    (ring0.setParam (P.sqSize 0) 15).ringParamsOk 0 = false ∧ ((ringIn .draining).ring 0).phase = .draining ∧
    ((ringIn .draining).ring 0).outstanding = [] := by decide +kernel

/-- The producer counter passes 2^32, and moves back; the consumer counter stays, and runs ahead of the completions. -/
theorem witness_IndexLines : ((ringIn .enabled).ring 0).phase = .enabled ∧
    ((3 : W32) - ((ringIn .enabled).ring 0).pi).toNat < 2 ^ 31 ∧
    ((3 : W32) - ((ringIn .enabled).ring 0).sqCi).toNat ≤ (ringIn .enabled).param (P.sqSize 0) ∧
    2 ^ 31 ≤ ((0x7FFFFFFF : W32) - ((ringIn .enabled).ring 0).pi).toNat ∧
    (ringIn .enabled).param (P.sqSize 0) < ((16 : W32) - ((ringIn .enabled).ring 0).sqCi).toNat ∧
    ¬ (ringIn .enabled).param (P.sqSize 0) < ((15 : W32) - ((ringIn .enabled).ring 0).sqCi).toNat ∧
    ((0xFFFFFFFF : W32) - ((ringIn .enabled).ring 0).cpl).toNat = 0 ∧
    1 ≤ ((0 : W32) - ((ringIn .enabled).ring 0).cpl).toNat ∧ ((0 : W32) - ((ringIn .enabled).ring 0).cpl).toNat < 2 ^ 31 := by
  decide +kernel

theorem witness_EntryFetch :
    let s := ring0.setRing 0 { phase := .enabled, pi := 1, sqCi := 0xFFFFFFFF, cpl := 0xFFFFFFFF, cqCi := 0xFFFFFFFF }
    (s.ring 0).phase = .enabled ∧ ((0 : W32) - (s.ring 0).sqCi).toNat < ((s.ring 0).pi - (s.ring 0).sqCi).toNat ∧
      (∀ x ∈ (s.ring 0).fetched, x.1 ≠ 0) ∧ (ring0.ring 0).phase ≠ .enabled := by decide +kernel

/-- Ring 0 enabled and empty. -/
def ready : State := ring0.setRing 0 { phase := .enabled, pi := 1 }

theorem witness_RingCommands : ready.beat.snapTaken = false ∧ (ready.ring 0).phase = .enabled ∧ ready.mayConsume entry0.ring.val = true ∧ needsIndex (.submit entry0 ⟨0, false, false, false, 1, 1, 0, 0, 0, 0⟩) = true ∧
    ready.hasIndex = true ∧ ring0.mayConsume 0 = false := by decide +kernel

/-- A request with the base model alone, of a span at the limit. -/
def sub0 : SubmitF := ⟨0xFFFF, false, false, false, 262143, 1, 0, 0, 0, 0⟩

theorem witness_Submit : firstBad (submitChecks sub0) = none ∧
    (ready.consume entry0).asOfStepTwo.submitCheck sub0 = .ok (⟨none, none, 0, 0, 1⟩, 262144) ∧
    firstGap 65536 0 ready.adm.requests = some 0 := by decide +kernel

/-- An adapter record of rank 1 with no tensors, for matter 9 in key slot 2, with its CRC-32C worked out by hand. -/
def record0 : List Byte := [0x42, 0x4E, 0x58, 0x41, 0x44, 0x41, 0x50, 0x54, 1, 0, 1, 0, 9, 0, 0, 0, 2, 0, 0, 0, 0, 0, 1, 0] ++
  List.replicate 64 0 ++ [1, 0, 0, 0, 0, 1, 0, 0, 0, 1, 0, 0, 0, 16, 0, 0, 0, 0, 0, 0, 0, 0, 0, 0, 0, 0, 0, 0, 0, 0, 0, 0, 0, 16] ++
  List.replicate 130 0 ++ [66, 8, 199, 236]

/-- Bytes at the start of the window. -/
def windowOf (b : List Byte) : Memory := (b.zipIdx.filter (fun x => x.1 != 0)).map (fun x => (windowKey x.2, x.1))

/-- A valid base, matter 9 in key slot 2, and a record in the window. -/
def recorded : State := { ready with
  mem := { ready.mem with lpddr := windowOf record0 }
  adm := { ready.adm with base := .valid, fingerprint := List.replicate 48 0 }
  rind := { ready.rind with slots := keys01 ++ [(2, ⟨.active, 9, 0, [⟨0, 1, 2, 3⟩]⟩)] } }

theorem recorded_window : recorded.windowGet 0 4096 = recorded.windowRead 0 4096 := recorded.windowGet_eq 0 4096 (by decide +kernel)

set_option maxRecDepth 100000 in
theorem witness_AdapterRegister : recorded.mayConsume 0 = true ∧ recorded.inWindow 0 4096 = true ∧
    recordOk (recorded.windowGet 0 4096) 4096 = true := by rw [recorded_window]; decide +kernel

theorem witness_AdapterRegisterAccepts : recorded.registerFault (recorded.windowGet 0 4096) = none ∧
    (recorded.storeRun (storePagesOf (fieldLE (recorded.windowGet 0 4096) 100 4) (fieldLE (recorded.windowGet 0 4096) 128 4)
      (fieldLE (recorded.windowGet 0 4096) 112 8) (recorded.param P.fillChunkBlocks))).isSome = true ∧
    firstGap 8192 0 recorded.adm.adapters = some 0 := by rw [recorded_window]; decide +kernel

theorem witness_ContextPrefill : firstBad (prefillChecks 1 4) = none ∧ recorded.inWindow 4 4 = true ∧
    (recorded.liveMatterSlot 9).isSome = true ∧
    contextRows 1 (recorded.param P.kvFormat) * recorded.rowEntries ≤ recorded.kvFrameCount := by decide +kernel

/-- A registered adapter that has been copied. -/
def adapter0 : Adapter := ⟨0, 9, 2, 1, false, 0, 1, 0, List.replicate 48 0, 0, 4096, 0, 0, 4096, 0, 0, 1, false, false, 0, [], true⟩

/-- A device with that adapter under handle 0. -/
def adapted : State := { recorded with adm := { recorded.adm with adapters := [(0, adapter0)], nextSerial := 1 } }

theorem witness_Checkpoint : adapted.mayConsume 0 = true ∧ (adapted.adapter? 0).isSome = true := by decide +kernel

/-- A sequence 0 in a phase, of two tokens in one row. -/
def seqIn (p : SeqPhase) : State :=
  let ts : KvTables := { seqs := [(0, ⟨p, 0, 1, 0, 2, false, 9, 2, none, 1, 0, 0, 0, 0, 0, 0, 0, false, false, [], false⟩)],
                         ptes := Quad.fill ((List.range 4).map (fun k => (k, (⟨k, true, false, 2, 2, 1, 0⟩ : Pte)))) }
  { ready with kv := { ready.kv with live := ts, next := ts } }

theorem witness_PageEdits : ready.nextSeq 0 = none ∧
    (∃ r, (seqIn .kept).nextSeq 0 = some r ∧ editAllowed (.keep true) r.phase r.filling = true ∧ r.phase ≠ .opened ∧
      2 ≤ r.length ∧ 1 < r.length) ∧
    (∃ r, (seqIn .opened).nextSeq 0 = some r ∧ editAllowed .release r.phase r.filling = false) ∧
    (seqIn .kept).moving 0 = false ∧ (seqIn .kept).contextHeld 0 = false ∧ (seqIn .kept).mayConsume 0 = true ∧
    (seqIn .contextHbm).rateInForce ≠ 0 :=
  ⟨by decide, ⟨_, rfl, by decide, by decide, by decide, by decide⟩, ⟨_, rfl, by decide⟩, by decide, by decide, by decide, by decide⟩

theorem witness_PageEditMoves : (∃ r, (seqIn .contextHbm).nextSeq 0 = some r ∧ r.phase = .contextHbm) ∧
    (∃ r, (seqIn .contextParked).nextSeq 0 = some r ∧ r.phase = .contextParked) := ⟨⟨_, rfl, rfl⟩, ⟨_, rfl, rfl⟩⟩

/-- No edit of the sequence waits, or one does; the commands of a beat after its snapshot are held. -/
theorem witness_PageEditWaits : (seqIn .kept).editWaits 0 = false ∧
    ({ seqIn .kept with kv := { (seqIn .kept).kv with deferred := [(entry0, 0, .release)] } } : State).editWaits 0 = true ∧
    ({ ready with beat := { ready.beat with snapTaken := true } } : State).beat.snapTaken = true := by decide

/-! ## The window -/

theorem witness_Window : keyed.hubUp = true ∧ keyed.inWindow 0 64 = true ∧ keyed.ten.phase ≠ .scrubbing ∧
    keyed.blockTrip true (windowDie 0) (windowBlock 0) = none ∧
    ({ keyed with mem := { keyed.mem with tagBad := [(frameOf true 0 0 * 256, true)] } } : State).blockTrip true 0 0 ≠ none ∧
    keyed.inWindow (keyed.windowBytes - 64) 64 = true ∧ keyed.inWindow (keyed.windowBytes - 63) 64 = false ∧
    ({ keyed with ten := { keyed.ten with phase := .scrubbing } } : State).inWindow 0 1 = true := by decide +kernel

/-- A block of the window that waits for the host's answer on its first line, or on two lines. -/
def snooped (lines : List Nat) : State :=
  { keyed with host := { keyed.host with snoops := [⟨.checkpoint entry0, 0, lines, List.replicate 256 1⟩] } }

theorem witness_Snoops : (∃ b, (snooped [0]).host.snoops.find? (fun x => x.lines.contains 0) = some b ∧ ∀ l ∈ b.lines, l = 0) ∧
    (∃ b, (snooped [0, 64]).host.snoops.find? (fun x => x.lines.contains 0) = some b ∧ ∃ l ∈ b.lines, l ≠ 0) ∧
    keyed.host.snoops.find? (fun x => x.lines.contains 0) = none := ⟨⟨_, rfl, by decide⟩, ⟨_, rfl, by decide⟩, rfl⟩

/-- A block of an operation, or of a RESTORE that has failed at entry 1 and waits for its last answer. -/
def snoopedBy (o : Owner) : State :=
  { keyed with host := { keyed.host with snoops := [⟨o, 0, [0], List.replicate 256 1⟩] }
               res := { keyed.res with restored := some (.failed 1 0x12) } }

theorem witness_SnoopOwners : (∃ b, (snoopedBy (.op 1 2)).host.snoops.find? (fun x => x.lines.contains 0) = some b ∧
      b.owner = .op 1 2 ∧ ∀ l ∈ b.lines, l = 0) ∧
    (∃ b, (snoopedBy .restore).host.snoops.find? (fun x => x.lines.contains 0) = some b ∧ b.owner = .restore ∧
      (∀ l ∈ b.lines, l = 0) ∧ ∀ y ∈ (snoopedBy .restore).host.snoops.erase b, y.owner ≠ .restore) ∧
    (snoopedBy .restore).res.restored = some (.failed 1 0x12) :=
  ⟨⟨_, rfl, rfl, by decide⟩, ⟨_, rfl, rfl, by decide, by decide +kernel⟩, rfl⟩

/-! ## Tenants and the dictionary -/

/-- A device that may bind a tenant. -/
def admitReady : State := { up with ten := { up.ten with scrubRecorded := true } }

/-- The same with TENANT_MODE 1 and both IDE streams. -/
def lockable : State := ({ admitReady with
  ten := { admitReady.ten with ideIo := true, ideMem := true }
  host := { admitReady.host with spdmSession := true } }).setParam P.tenantMode 1

theorem witness_Admit : admitReady.boot.dev = .idle ∧ admitReady.ten.scrubRecorded = true ∧
    1 ≤ (BitVec.ofNat 16 (admitReady.param P.tenantEpochNext) - admitReady.ten.epoch).toNat ∧
    (BitVec.ofNat 16 (admitReady.param P.tenantEpochNext) - admitReady.ten.epoch).toNat ≤ 32767 ∧
    admitReady.param P.tenantMode ≠ 1 ∧ lockable.param P.tenantMode = 1 ∧ lockable.ten.ideIo = true ∧ lockable.ten.ideMem = true ∧
    lockable.host.spdmSession = true ∧ lockable.admitFault true = none := by decide +kernel

/-- Each refusal of ADMIT, with the epoch at the ends of its range. -/
theorem witness_AdmitRefused : own.admitFault false = some 1 ∧ up.admitFault false = some 2 ∧
    (admitReady.setParam P.tenantEpochNext 0).admitFault false = some 3 ∧
    (admitReady.setParam P.tenantEpochNext 32767).admitFault false = none ∧
    (admitReady.setParam P.tenantEpochNext 32768).admitFault false = some 3 ∧ lockable.admitFault false = some 4 ∧
    admitReady.admitFault true = some 1 := by decide +kernel

/-- A locked tenant. -/
def locked : State := { own with ten := { own.ten with locked := true, ideIo := true, ideMem := true } }

theorem witness_Sessions : own.hubUp = true ∧ own.ten.locked = false ∧ lockable.hubUp = true ∧ lockable.host.spdmSession = true ∧
    own.host.spdmSession = false ∧ locked.ten.locked = true ∧ locked.ten.release = none ∧ own.ten.lmsNext < 2 ^ 20 ∧
    own.ten.lmsNext ≤ own.ten.lmsLimit ∧ 2 ^ 20 ≤ ({ own with ten := { own.ten with lmsNext := 2 ^ 20 } } : State).ten.lmsNext ∧
    own.running' = true := by decide +kernel

/-- A READ and a WRITE of POWER_CAP. -/
def readCap : GppMsg := { gpp0 with index := 0x1300 }

theorem witness_Reads : up.boot.alwaysOn = true ∧ up.keptFor readCap = none ∧ up.stillRuns readCap = false ∧ messageOk readCap = true ∧
    (entryOf readCap).isSome = true ∧ (entryOf readCap).all (fun p => (up.readFault readCap p).isNone && p.type != .blob) = true ∧
    ({ up with dict := { up.dict with kept := [⟨readCap.source, readCap.seq, []⟩] } } : State).keptFor readCap = some ⟨readCap.source, readCap.seq, []⟩ := by
  decide +kernel

/-- A WRITE of a value to a subindex of the power range. -/
def writePower (sub : Nat) (v : List Byte) : GppMsg :=
  { gpp0 with op := 2, index := 0x1300, sub := sub, type := 3, length := v.length, value := v }

/-- The four refusals: POWER_CAP with a value of one byte, below its range (499) and outside the states that allow it, and a read-only value. -/
theorem witness_Writes : messageOk (writePower 1 [0xF3, 1]) = true ∧
    (entryOf (writePower 1 [0xF3, 1])).all (fun p => p.acc == .rw && p.type.code == 3 && p.type.size == 2 &&
      up.writeAllowed false p 499 && !up.inRange p 499 && up.inRange p 500 && up.inRange p 2500 && !up.inRange p 2501 &&
      !State.reset.writeAllowed false p 500) = true ∧
    messageOk (writePower 1 [0]) = true ∧ (entryOf (writePower 9 [0])).all (fun p => p.acc == .ro) = true := by decide +kernel

theorem witness_RegisterWrite : (lookupParam P.powerCap).all (fun p => p.acc == .rw && p.type != .blob && p.type != .str32 &&
    up.writeAllowed true p 600 && up.inRange p 600 && !State.reset.writeAllowed true p 600) = true := by decide +kernel

/-- A SAVE. -/
def saveMsg : GppMsg := { gpp0 with op := 4, index := 0, sub := 0 }

theorem witness_Save : messageOk saveMsg = true ∧ up.ten.locked = false ∧ up.boot.dev ≠ .off ∧ up.boot.dev ≠ .fault ∧
    up.dict.saving = none ∧ up.keptFor saveMsg = none ∧
    (∀ c, up.newestCopy = some c → c.generation + 1 < 2 ^ 32) := by decide +kernel

theorem witness_Saved : ({ up with dict := { up.dict with saving := some (saveMsg, [], []) } } : State).dict.saving =
    some (saveMsg, [], []) := rfl

theorem witness_Addressed : addressed gpp0 = true ∧ addressed readCap = true ∧ addressed saveMsg = true := by
  simp [addressed, gpp0, readCap, saveMsg, gppPort]

/-- A halted device with its tenant and its job. -/
def halted : State := { run with boot := { run.boot with dev := .halted }, job := { run.job with phase := .halted } }

theorem witness_DeviceCommands : halted.boot.dev = .halted ∧ halted.ten.phase = .bound ∧ halted.job.desc ≠ none ∧
    up.boot.dev = .idle ∧ run.boot.dev ≠ .idle ∧ run.boot.dev ≠ .halted ∧ up.hubUp = true ∧ up.log.acked < 2 ^ 32 ∧
    ((0 : W32) - BitVec.ofNat 32 up.log.acked).toNat ≤ (BitVec.ofNat 32 up.log.nextSeq - BitVec.ofNat 32 up.log.acked).toNat ∧
    up.ten.locked = false := by decide +kernel

/-- Slopes at both ends of their range, and the byte past the end of the entry. -/
theorem witness_Calibration :
    let b := (List.replicate 19 [0, 128, 0, 0]).flatten
    0 + b.length ≤ (calElements 2).1 * (calElements 2).2.1 ∧
    calInRange 2 (spliced (fitted ((calElements 2).1 * (calElements 2).2.1) (up.blob (0x110000 + 2))) 0 b) = true ∧
    ¬ 1 + b.length ≤ (calElements 2).1 * (calElements 2).2.1 := by decide +kernel

theorem witness_CopyPartner : own.copyPartnerFault 0xFFFF = none ∧ own.copyPartnerFault 1024 = some 8 ∧ run.copyPartnerFault 0xFFFF = some 6 ∧
    (own.setParam P.deviceId 5).copyPartnerFault 5 ≠ none := by decide +kernel

theorem witness_NoOpenWritesRun : NoOpenWrites run ∧ NoOpenWrites { keyed with fab := { keyed.fab with pressQueues := [(0, [pblock])] } } := by
  constructor <;> simp [NoOpenWrites, keyed, own, run, up, State.reset]

/-- The last message of a copy, with the destination signal, waits for the answers to the others. -/
def lastWaits : State := { awaits 2 with fab := { (awaits 2).fab with lastMsgs := [(⟨1, 0, 0x21, 0, 0, none, 0, 0⟩, wmsg)] } }

theorem witness_LastMessage : lastWaits.fab.backlog = [] ∧ lastWaits.running? 0 0 = some { running0 with awaiting := 2 } ∧
    lastWaits.pendingOf { msg0 with desc := { msg0.desc with type := 0x31 } } = some ⟨0, 0, 0x21, 0, 0, some (.sram 0 0 0), 0, 0⟩ ∧
    lastWaits.fab.lastMsgs.find? (fun y => y.1.die == 0 && y.1.op == 0) = some (⟨1, 0, 0x21, 0, 0, none, 0, 0⟩, wmsg) ∧
    ({ lastWaits with fab := { lastWaits.fab with pendings := [⟨0, 0, 0x21, 0, 0, none, 0, 0⟩] } } : State).pendingOf
      { msg0 with desc := { msg0.desc with type := 0x31 } } = some ⟨0, 0, 0x21, 0, 0, none, 0, 0⟩ ∧
    (∀ x ∈ (awaits 2).fab.lastMsgs, ¬ (x.1.die = 0 ∧ x.1.op = 0)) := by decide +kernel

theorem witness_Quarantined : ((up.setLink 3 { up.link 3 with phase := .quarantined, replays := 16 }).link 3).phase = .quarantined ∧
    16 ≤ ((up.setLink 3 { up.link 3 with phase := .quarantined, replays := 16 }).link 3).replays := by decide +kernel

theorem witness_PassesOn : (router.passOn 0 flit6).isSome = true := by decide +kernel

theorem blocks_readable (s : State) (h1 : s.mem.memDouble = []) (h2 : s.mem.tagBad = []) (h3 : s.rind.keying = [])
    (h4 : s.rind.attrs = []) (h5 : s.hasKey (attrSlot s.rind.attrDefault) (attrGen s.rind.attrDefault) = true) (lp : Bool) (d : DieId)
    (b : Nat) : s.blockTrip lp d b = none := by
  simp [State.blockTrip, State.blockFail, State.keyingOf, State.attr, h1, h2, h3, h4, h5, AMap.getD]

theorem witness_CheckpointReads : NoCorrected adapted ∧ ∀ d b, adapted.blockTrip true d b = none :=
  ⟨⟨rfl, rfl, rfl⟩, fun d b => blocks_readable adapted rfl rfl rfl rfl (by decide) true d b⟩

theorem witness_ResetDefaults : ({ up with rind := { up.rind with slots := keys01 } } : State).rind.keying = [] ∧
    ∀ d b, ({ up with rind := { up.rind with slots := keys01 } } : State).blockTrip false d b = none :=
  ⟨rfl, fun d b => blocks_readable _ rfl rfl rfl rfl (by decide) false d b⟩

/-- The device with one edit in the set, where the limit is one. -/
def editFull : State := ((({ seqIn .kept with kv := { (seqIn .kept).kv with editCount := 1 } } : State).setParam P.kvEditsPerBeat 1).setParam
  P.kvLayers 1).setParam P.kvHeads 4

theorem witness_EditWaits : ((seqIn .kept).kv.editCount = 0) ∧ editFull.kv.editCount ≠ 0 ∧
    editAllowed .release .kept false = true ∧ editInRange .release 2 = true ∧ (seqIn .kept).contextHeld 0 = false ∧
    editFull.kv.editCount < (State.applyEdit (editFull.consume entry0).markStepTwo entry0 0
      ((editFull.nextSeq 0).getD ⟨.kept, 0, 1, 0, 2, false, 9, 2, none, 1, 0, 0, 0, 0, 0, 0, 0, false, false, [], false⟩) .release).1.kv.editCount ∧
    (State.applyEdit (editFull.consume entry0).markStepTwo entry0 0
      ((editFull.nextSeq 0).getD ⟨.kept, 0, 1, 0, 2, false, 9, 2, none, 1, 0, 0, 0, 0, 0, 0, 0, false, false, [], false⟩) .release).1.editRoom 0 = false := by
  decide +kernel

/-- A device whose memory over CXL is active. -/
def active : State := { keyed with host := { keyed.host with memActive := true } }

theorem witness_HostMemory : active.hubUp = true ∧ active.host.memActive = true ∧ active.inWindow 0 64 = true ∧
    active.ten.phase ≠ .scrubbing ∧ (0 % 64 + 64 ≤ 64) ∧ keyed.host.memActive = false ∧ keyed.boot.dev ≠ .off ∧
    keyed.boot.stage ≠ .resetHeld ∧ ({ active with ten := { active.ten with phase := .scrubbing } } : State).hubUp = true ∧
    active.inWindow active.windowBytes 64 = false ∧ (starts .scrub false).admitFault false = some 2 := by decide +kernel

/-! ## Matters -/

theorem witness_Create : ({ own with adm := { own.adm with matterDue := some (.create 9) } } : State).adm.matterDue = some (.create 9) ∧
    own.matterSlot 9 = none ∧ (own.keySlot 2).state = .free ∧ recorded.matterSlot 9 ≠ none := by decide +kernel

/-- A device with every slot from 2 on in use. -/
def slotsFull : State := { own with rind := { own.rind with slots := (List.range 4094).map (fun k => (k + 2, ⟨.active, k + 100, 0, []⟩)) } }

theorem witness_CreateWithNoSlot : (slotsFull.keySlot 2).state ≠ .free ∧ (slotsFull.keySlot 4095).state ≠ .free ∧
    (slotsFull.keySlot 4096).state = .free := by decide +kernel

theorem witness_MatterCommands : own.ten.phase = .bound ∧ own.adm.matterWritten = none ∧ own.adm.matterTaken = none ∧
    own.adm.matterDue = none ∧ (9 : W32) ≠ 0 ∧ (9 : W32) ≠ 0xFFFF_FFFF ∧ up.ten.phase ≠ .bound := by decide +kernel

/-- Slot 2 at generation 1, with a sweep of generation 0 and one page left in it; or none. -/
def sweeping (left : Bool) : State := { own with rind := { own.rind with
  slots := [(2, ⟨.rotating, 9, 1, [⟨1, 4, 5, 6⟩, ⟨0, 1, 2, 3⟩]⟩), (3, ⟨.removing, 10, 0, []⟩)]
  sweeps := [⟨2, 0, 0⟩]
  attrs := if left then [(7, attrWord 2 0)] else []
  keying := if left then [⟨7, 0, some 0⟩] else [] } }

theorem witness_Sweeps : (sweeping true).keyingOf 7 = some ⟨7, 0, some 0⟩ ∧
    attrWord (attrSlot ((sweeping true).attr 7)) ((sweeping true).genOf (attrSlot ((sweeping true).attr 7))) ≠
      attrWord (attrSlot ((sweeping true).attr 7)) 0 ∧ (sweeping true).keyingOf 8 = none ∧
    (sweeping false).sweepOf 2 = some ⟨2, 0, 0⟩ ∧ (sweeping false).pagesLeft 2 0 = 0 ∧ (sweeping false).sweepOf 3 = none ∧
    ((sweeping false).keySlot 3).state = .removing ∧ (sweeping false).matterEmpty 10 = true ∧
    ((sweeping false).keySlot 2).state ≠ .removing := by decide +kernel

/-! ## Release and the base -/

/-- A tenant with a release. -/
def releasing (p : TenantPhase) (m : ReleaseMode) (taken : Bool) : State :=
  { own with ten := { own.ten with phase := p, release := some ⟨m, .command, 0, taken⟩ } }

theorem witness_Release : up.ten.phase = .unbound ∧ own.ten.phase ≠ .unbound ∧ own.ten.release = none ∧
    (releasing .bound .orderly true).ten.phase = .bound ∧ (releasing .releasing .immediate true).releaseStopDue = true ∧
    (releasing .bound .orderly false).releaseStopDue = false ∧ (releasing .scrubbing .orderly true).ten.phase = .scrubbing := by
  decide +kernel

/-- A manifest of one page for each die, at the start of the window. -/
def manifested : State := { own with mem := { own.mem with lpddr := ([(0, 66), (1, 78), (2, 88), (3, 66), (4, 65), (5, 83), (6, 69), (7, 77), (8, 1), (10, 4), (12, 1), (74, 1), (128, 1), (138, 1), (192, 2), (202, 1), (256, 3), (266, 1)] : List (Nat × Byte)).map (fun x => (windowKey x.1, x.2)) } }

theorem witness_BaseBegin : manifested.beginAllowed = true ∧ manifested.inWindow 0 64 = true ∧ manifested.segmentBusy = false ∧
    manifested.inWindow 0 (64 + 64 * fieldLE (manifested.windowGet 0 64) 10 2) = true ∧
    manifested.manifestOk (manifested.readManifest 0) (fieldLE (manifested.windowGet 0 64) 10 2) = true ∧
    run.beginAllowed = false ∧ run.segmentBusy = false ∧
    own.manifestOk (own.readManifest 0) (fieldLE (own.windowGet 0 64) 10 2) = false ∧
    own.inWindow (own.windowBytes - 63) 64 = false ∧
    ({ own with boot := { own.boot with hub := [.segment 0 0] } } : State).segmentBusy = true := by decide +kernel

/-- An adapter on the base of before an END, one on the new base, and what an END makes of them. -/
theorem test_rebase : (Adapter.rebase { adapter0 with invalid := true } true (List.replicate 48 0)).invalid = false ∧
    (Adapter.rebase { adapter0 with invalid := true } false (List.replicate 48 0)).invalid = true ∧
    (Adapter.rebase adapter0 false (List.replicate 48 1)).invalid = true := by decide

/-- An install of two segments, some of them done. -/
def installing (done : List Nat) : State := { own with adm := { own.adm with
  base := .installing, install := some ⟨List.replicate 48 0, [⟨0, 0, 65536, []⟩, ⟨1, 0, 65536, []⟩], done⟩ } }

theorem witness_BaseSegments : (installing []).segmentBusy = false ∧ (installing []).inWindow 0 65536 = true ∧
    (installing [0, 1]).adm.install = some ⟨List.replicate 48 0, [⟨0, 0, 65536, []⟩, ⟨1, 0, 65536, []⟩], [0, 1]⟩ ∧
    own.adm.install = none := by decide +kernel

/-! ## Jobs -/

/-- The plan set that the job description below names. -/
def set0 : PlanSet := ⟨4, 16, false, false, false, false, 4, 1, 1, 0, List.replicate 48 0, [], [], 0⟩

/-- A loaded device with a job description at the start of the window: tag 7, start at beat 2^40. -/
def loaded : State := { own with
  mem := { own.mem with lpddr := ([(0, 66), (1, 78), (2, 88), (3, 74), (4, 79), (5, 66), (6, 68), (7, 83), (8, 1), (16, 7), (22, 1), (37, 1), (65, 64), (68, 2), (74, 1), (124, 2), (125, 4), (126, 38), (127, 88)] : List (Nat × Byte)).map (fun x => (windowKey x.1, x.2)) }
  adm := { own.adm with base := .valid, fingerprint := List.replicate 48 0 }
  job := { own.job with phase := .loaded, planSet := some set0 } }

theorem witness_Load : own.boot.dev = .admitted ∧ own.jobPresent = false ∧ own.loading = false ∧ run.boot.dev ≠ .admitted ∧ run.loading = false ∧
    ({ own with boot := { own.boot with hub := [.load 0] } } : State).loading = true := by
  decide +kernel

set_option maxRecDepth 100000 in
theorem test_job_description : loaded.descOk 0 4 = true := by decide +kernel

theorem defaultBlob_route : defaultBlob (P.routeActive 0) = List.replicate 8192 (0 : Byte) := by
  unfold defaultBlob
  rw [if_neg (by decide), if_neg (by decide), if_pos (by decide)]

theorem orchardCount_zeros (s : State) (k : Nat) (h : s.blob (P.routeActive 0) = List.replicate k (0 : Byte)) :
    s.orchardCount = 1 := by
  have e : ∀ n, (List.replicate k (0 : Byte)).getD n 0 = 0 := by
    intro n; rw [List.getD_eq_getElem?_getD, List.getElem?_replicate]; split <;> rfl
  unfold State.orchardCount
  rw [h, List.countP_eq_zero.mpr]
  intro n _
  rw [e, show decide ((0 : Byte) ≥ 0x80#8) = false from rfl, Bool.and_false]
  exact Bool.false_ne_true

theorem loaded_blobs : loaded.dict.blobs.find? (P.routeActive 0) = none := by decide +kernel

theorem defaultBlob_routes (d : DieId) : defaultBlob (P.routeActive d.val) = List.replicate 8192 (0 : Byte) := by
  have h : d.val < 4 := d.isLt
  unfold defaultBlob
  rw [if_neg (by simp only [P.routeActive, P.gppNotifyAddr]; omega), if_neg (by simp only [P.routeActive, P.tempOffsets, P.lpddrTrainSeeds]; omega),
    if_pos (by simp only [P.routeActive, P.routePending]; omega)]

theorem routedLinks_zeros (s : State) (d : DieId) (k : Nat) (h : s.blob (P.routeActive d.val) = List.replicate k (0 : Byte)) :
    s.routedLinks d = [] := by
  have z : ∀ n, leNat (List.replicate n (0 : Byte)) = 0 := by
    intro n; induction n with
    | zero => rfl
    | succ n ih => rw [List.replicate_succ, leNat, ih]; rfl
  have e : ∀ dev, s.routeEntry d dev = 0 := by
    intro dev; rw [State.routeEntry, h, fieldLE, List.drop_replicate, List.take_replicate, z]
  unfold State.routedLinks
  rw [List.filterMap_eq_nil_iff]
  intro dev _
  simp [e]

theorem routedDown_none (s : State) (h : ∀ d : DieId, s.routedLinks d = []) : s.routedDown = none := by
  unfold State.routedDown
  simp [h]

theorem routeRefusal_none (s : State) (h : ∀ d : DieId, s.dict.blobs.find? (P.routeActive d.val) = none)
    (g : s.otherRouteGen = none) : s.routeRefusal = none := by
  have q : s.routedDown = none := routedDown_none s (fun d => routedLinks_zeros s d 8192
    (Eq.trans (congrArg (fun o => Option.getD o (defaultBlob (P.routeActive d.val))) (h d)) (defaultBlob_routes d)))
  unfold State.routeRefusal
  rw [q, g]

theorem loaded_routes : loaded.routeRefusal = none := routeRefusal_none loaded (by decide +kernel) (by decide +kernel)

/-- Device 5 with its route to device 6 cannot start a job while link 0 is DOWN (R383). -/
theorem witness_RouteLinkDown : (dev5.routeEntry 0 6).testBit 63 = true ∧ entryPort (dev5.routeEntry 0 6) = 0 ∧
    (dev5.link 0).phase = .down := by decide +kernel

theorem test_route_link_down : dev5.routeRefusal = some (Ev.routeLinkDown, [(1, 0), (1, 1)]) := by decide +kernel

/-- Link 3 is UP and its neighbour has reported route generation 2 (R383). -/
def otherGen : State := own.setLink 3 { own.link 3 with phase := .up, hello := some { hello0 with routeGen := 2 } }

theorem witness_OtherRouteGen : (otherGen.link 3).phase = .up ∧ otherGen.loading = false ∧
    (∃ h, (otherGen.link 3).hello = some h ∧ h.routeGen.toNat ≠ otherGen.param P.routeGenActive) :=
  ⟨by decide, by decide, _, rfl, by decide +kernel⟩

theorem test_other_route_gen : otherGen.otherRouteGen = some 3 := by decide +kernel

theorem loaded_orchard : loaded.orchardCount = 1 :=
  orchardCount_zeros loaded 8192
    (Eq.trans (congrArg (fun o => Option.getD o (defaultBlob (P.routeActive 0))) loaded_blobs) defaultBlob_route)

theorem startFault_none (s : State) (set : PlanSet) (o : Nat) (r : Bool) (hp : s.job.planSet = some set)
    (h1 : ¬(s.boot.dev ≠ .admitted ∨ s.jobPresent = true ∨ s.ten.release.isSome = true))
    (h2 : s.descOk o set.scheduleLength = true) (hr : r = true)
    (h3 : ¬((s.jobDescAt o).planSetId ≠ set.planSetId ∨ set.orchardSize ≠ s.orchardCount ∨
      set.training = (s.jobDescAt o).trains.isEmpty))
    (h4 : ¬(s.adm.base ≠ .valid ∨ set.baseFingerprint ≠ s.adm.fingerprint))
    (h5 : s.untrainable (s.jobDescAt o) = none) (h6 : s.slotless (s.jobDescAt o) = none)
    (h7 : ¬(s.jobDescAt o).startBeat < s.beat.count + s.prepBeats (s.jobDescAt o) + 2)
    (h8 : ¬(s.beatRefusal.isSome = true ∨ s.routeRefusal.isSome = true)) : s.startFault o r = none := by
  have h2' : ¬(!s.descOk o set.scheduleLength || !r) = true := by rw [h2, hr]; decide
  unfold State.startFault
  rw [hp]
  dsimp only
  rw [if_neg h1, if_neg h2', if_neg h3, if_neg h4, h5]
  dsimp only
  rw [h6]
  dsimp only
  rw [if_neg h7, if_neg h8]

theorem witness_StartHasNoFault : loaded.startFault 0 true = none :=
  startFault_none loaded set0 0 true rfl (by decide +kernel) test_job_description rfl
    (by rw [loaded_orchard]; decide +kernel) (by decide) (by decide +kernel) (by decide +kernel) (by decide +kernel)
    (by rw [loaded_routes]; decide +kernel)

theorem witness_StartRefused : own.startFault 0 true = some (3, none) ∧ loaded.startFault 64 true = some (1, none) := by decide +kernel

/-- The description with a train entry whose handle names no adapter is refused with that entry: the check itself. -/
theorem witness_StartNamesEntry : loaded.untrainable { job0 with trains := [⟨0, 0, 1, .adamw, 0, 0, 0, 0, 0, 0, 0⟩] } = some 0 := by decide +kernel

theorem witness_JobCommands : run.job.phase = .running ∧ own.job.phase ≠ .running ∧ own.job.phase ≠ .starting := by decide +kernel

/-- A job that starts at beat 0. -/
def starting : State := { run with job := { run.job with phase := .starting }, boot := { run.boot with dev := .admitted } }

theorem witness_JobStarted : starting.job.phase = .starting ∧ starting.beat.count = job0.startBeat ∧ starting.job.abortGiven = false ∧
    starting.boot.hub.contains .prepare = false ∧
    ({ starting with beat := { starting.beat with count := 1 } } : State).beat.count ≠ job0.startBeat := by decide +kernel

/-- A job that has been aborted after step 3. -/
def aborted : State := { run with job := { run.job with abortGiven := true, lastStepUpdated := some 3, planSet := some set0 } }

theorem witness_JobEnded : aborted.jobActive = true ∧ aborted.job.inUpdate = false ∧ aborted.job.lastStepUpdated = some 3 ∧
    own.jobActive = false ∧ own.job.phase ≠ .starting ∧ run.endCause run.nextJobBeat = none := by decide +kernel

/-- A job that trains. -/
def job1 : JobDesc := { job0 with trains := [⟨0, 0, 1, .adamw, 0, 0, 0, 0, 0, 0, 0⟩], microBatches := 1 }

/-- A device that trains. -/
def training : State := { run with job := { run.job with desc := some job1, planSet := some set0 } }

theorem witness_UpdateDecision : training.jobActive = true ∧ job1.trains ≠ [] ∧
    training.closedBelow (training.updateBeat job1 training.nextUpdateStep) = true ∧ job0.trains = [] := by decide +kernel

/-! ## The beat and the orchard -/

/-- A job of four beats a step in progress. -/
def beating : State := { run with job := { run.job with planSet := some set0 }, beat := { run.beat with kind := .normal, nextKind := .normal } }

theorem witness_Boundaries : own.jobActive = false ∧ own.job.phase ≠ .starting ∧ own.job.desc = none ∧ own.ten.release = none ∧
    (∀ d, (own.front d).planOpen = false) ∧ beating.jobActive = true ∧ beating.job.desc = some job0 ∧ job0.trains = [] ∧
    beating.job.trains = [] ∧ beating.job.inUpdate = false ∧ beating.job.abortGiven = false ∧ beating.ten.release = none ∧
    beating.adm.matterDue = none ∧ beating.endCause beating.nextJobBeat = none ∧
    beating.beat.announced.contains ((beating.beat.count + 1) % 2 ^ 64, BeatKind.halt) = false ∧ beating.haltHeld = false ∧
    beating.beat.afterCatchUp = false ∧ (beating.front 0).closed = true ∧ ∀ x, (beating.front x).owed = [] := by decide +kernel

theorem witness_BoundaryKinds :
    ({ beating with beat := { beating.beat with announced := [(1, .halt)] } } : State).beat.announced.contains ((0 + 1) % 2 ^ 64, BeatKind.halt) = true ∧
    ({ beating with beat := { beating.beat with nextKind := .catchUp } } : State).endCause 1 = none ∧
    ({ beating with beat := { beating.beat with nextKind := .idle } } : State).endCause 1 = none ∧
    ((opened word1).front 0).closed = false ∧ own.adm.plan = none := by decide +kernel

/-- A release for a beat, not yet taken; one for the coming boundary is taken at the snapshot, a later one is not. -/
theorem witness_Snapshot : (releasing .bound .orderly false).ten.release = some ⟨.orderly, .command, 0, false⟩ ∧
    (0 : Nat) ≤ (releasing .bound .orderly false).beat.count + 1 ∧ (1 : Nat) ≤ own.beat.count + 1 ∧ own.beat.count + 1 < 2 ∧
    ({ run with job := { run.job with stopWritten := true } } : State).job.phase = .running ∧ own.job.stopWritten = false ∧
    own.adm.matterDue = none ∧ own.beat.snapTaken = false ∧
    ({ own with beat := { own.beat with snapTaken := true } } : State).beat.snapTaken = true := by decide +kernel

/-- Die 0 is late on a plan that it has closed; it owes one more plan, or none. -/
def late (owed : List (Nat × Nat × Nat × List W32)) : State := { beating with
  fe := beating.fe.set 0 { beating.front 0 with planOpen := true, ended := true, lateSince := some 0, owed := owed } }

theorem witness_LateClose : ((late []).front 0).planOpen = true ∧ ((late []).front 0).lateSince = some 0 ∧
    ((late []).front 0).closed = true ∧ ((late [(0, 1, 0, [])]).front 0).closed = true ∧ (late [(0, 1, 0, [])]).haltHeld = false ∧
    (late [(0, 1, 0, [])]).jobActive = true ∧ (beating.front 0).planOpen = false := by decide +kernel

/-- The boundary at which it closes is a CATCH_UP. -/
theorem witness_LateAtBoundary :
    let s : State := { late [(0, 1, 0, [])] with beat := { beating.beat with nextKind := .catchUp } }
    s.jobActive = true ∧ s.job.desc = some job0 ∧ s.job.inUpdate = false ∧ s.job.abortGiven = false ∧ s.ten.release = none ∧
      s.adm.matterDue = none ∧ s.haltHeld = false ∧ (s.front 0).closed = true ∧ (s.front 0).owed = [(0, 1, 0, [])] ∧
      ∀ y, y ≠ 0 → (s.front y).owed = [] := by decide +kernel

/-- A device with a child on link 3. -/
def parent (missed : Nat) : State := { linkUp beating 3 .up with
  beat := { beating.beat with children := [3], missing := [(3, missed)], closureKnown := true,
                              lastEcho := [(3, ⟨6, false, false, 0, 2, 0, 0, 5, 7⟩)] } }

theorem witness_Echoes : (parent 0).beat.echoSent = false ∧ (parent 0).isSource = true ∧ beating.echoDue = false ∧
    ({ beating with beat := { beating.beat with closureKnown := true } } : State).echoDue = true ∧
    ({ beating with beat := { beating.beat with echoSent := true } } : State).beat.echoSent = true ∧
    ((parent 0).link 3).carriesLocal = true ∧ (up.link 3).carriesLocal = false ∧ (0 : Nat) = (parent 0).beat.count := by
  decide +kernel

/-- A marker of this device's period and guard. -/
def marker0 : MarkerF := ⟨0, 0, 9, 1, 200, 16, 4, 100, 0, 7, 10⟩

/-- A follower on link 3, with and without a job. -/
def follower (s : State) : State := ((linkUp s 3 .up).setParam P.beatRole 2).setParam P.beatParentLink 3

theorem witness_Markers : marker0.thisKind ≤ 4 ∧ kindOf marker0.nextKind = some .normal ∧
    2 ^ marker0.beatLog2 = beating.beat.cycles ∧ 256 * marker0.guardDiv256 = beating.beat.guard ∧
    2 ^ ({ marker0 with beatLog2 := 17 }).beatLog2 ≠ beating.beat.cycles ∧ kindOf 4 ≠ none ∧ kindOf 5 = none ∧
    (follower beating).param P.beatRole = 2 ∧ (follower beating).param P.beatParentLink = 3 ∧
    (follower beating).jobActive = true ∧ (follower own).jobActive = false ∧ beating.beat.guard / 4 = 256 ∧
    (256 : Int).natAbs ≤ beating.beat.guard / 4 ∧ beating.beat.guard / 4 < (-257 : Int).natAbs := by
  decide +kernel

/-- A follower that reaches the source of `marker0` over link 3, so that the election keeps link 3 as its parent link. -/
def routed (s : State) : State :=
  (follower (s.setBlob (P.routeActive 0) (List.replicate 72 0 ++ leBytes 8 (2 ^ 63 + 3 * 2 ^ 59)))).setParam P.deviceId 5

theorem witness_ParentMarker : ∀ b ∈ [true, false],
    let s := routed (if b then beating else own)
    let t := (s.hearSource 3 marker0).takeClaim 3 { marker0 with sourcePriority := 100 }
    s.jobActive = b ∧ (s.link 3).carriesLocal = true ∧ t.param P.beatRole = 2 ∧ t.param P.beatParentLink = 3 := by decide +kernel

theorem witness_MarkerLost : ({ follower own with beat := { own.beat with markersMissed := 4 } } : State).beat.markersMissed = 4 ∧
    ({ follower own with beat := { own.beat with markersMissed := 4 } } : State).param P.beatRole = 2 ∧
    own.param P.beatRole ≠ 2 := by decide +kernel

/-- A device whose temperature offsets are written as zero. -/
def level : State := { up with dict := { up.dict with blobs := [(P.tempOffsets, List.replicate 84 0)] } }

/-- A limit of 2,500 W, a die at the throttle temperature, and a sensor 5 °C below it. -/
theorem witness_PowerLimit : level.beat.thermalLimit = 2500 ∧ 64 * (level.param P.throttleTemp : Int) ≤ level.calibrated 0 (64 * 95) ∧
    level.calibrated 0 (64 * 90) ≤ 64 * ((level.param P.throttleTemp : Int) - 5) := by decide +kernel

/-- The worked example of the idle positions (R51): at a cap of 2,000 W with 2,480 W busy and 700 W idle, k is 5. -/
theorem test_idle_positions : (16 - 5) * 2480 + 5 * 700 ≤ 16 * 2000 ∧ ¬(16 - 4) * 2480 + 4 * 700 ≤ 16 * 2000 := by decide

theorem witness_Losses : 3 ∈ (parent 4).beat.children ∧ 4 ≤ (parent 4).beat.missing.getD 3 0 ∧ 3 ∉ (parent 4).beat.lostChildren ∧
    ¬ 4 ≤ (parent 3).beat.missing.getD 3 0 ∧ (parent 4).beat.lastEcho.find? 3 = some ⟨6, false, false, 0, 2, 0, 0, 5, 7⟩ ∧
    beating.beat.holdBeats < (beating.setParam P.lossHoldBeats 1).param P.lossHoldBeats := by decide +kernel

/-! ## Resilience -/

/-- A device that trains with partner 6 and has updated step 3. -/
def copier : State := (({ training with
  job := { training.job with lastStepUpdated := some 3, trains := [⟨0, 0, 0, 0, [], 0, 0, false, 0, 0, 0, 0, .apply, false⟩] } } : State).setParam P.copyPartner 6).setParam P.partnerInterval 1

/-- A partner copy in progress. -/
def copying (inUpdate : Bool) (moved : Nat) (head : List Nat) (sent : Bool) : State := { copier with
  res := { copier.res with copying := some ⟨0, 4, moved, head, sent, 0⟩ }, job := { copier.job with inUpdate := inUpdate } }

theorem witness_PartnerCopies : copier.copyDue = true ∧ own.copyDue = false ∧
    (copying true 0 [] true).res.copying = some ⟨0, 4, 0, [], true, 0⟩ ∧ (copying true 0 [] true).job.inUpdate = true ∧
    (copying false 0 [] true).nextStepNow = 4 ∧
    ({ copying false 0 [] true with job := { (copying false 0 [] true).job with lastStepUpdated := some 4 } } : State).nextStepNow ≠ 4 ∧
    (copying false 0 [3] true).res.copying = some ⟨0, 4, 0, [3], true, 0⟩ ∧ own.res.copying = none ∧
    ({ copier with res := { copier.res with lastImage := some 1 } } : State).copyImage = 0 := by decide +kernel

/-- Every block has been named, the first headers are answered and the loops have ended: the final header may go. -/
theorem witness_CopySealed :
    let s : State := { copying false 0 [] false with res := { (copying false 0 [] false).res with
                         copying := some ⟨0, 4, copier.imageBlocks, [], false, 0⟩ }
                                                     beat := { copier.beat with firstNormal := false } }
    s.imageBlocks ≤ copier.imageBlocks ∧ s.job.inUpdate = false ∧ s.nextStepNow = 4 ∧ s.closedBelow 0 = true := by decide +kernel

/-- A table of one row at the start of the window, with its SHA-384 worked out outside. -/
def standing : State := { loaded with
  mem := { loaded.mem with lpddr := ([(0, 66), (1, 78), (2, 88), (3, 83), (4, 84), (5, 65), (6, 78), (7, 68), (8, 1), (10, 255), (11, 255), (12, 1), (24, 239), (25, 206), (26, 177), (27, 202), (28, 121), (29, 56), (30, 132), (31, 167), (32, 57), (33, 64), (34, 189), (35, 184), (36, 193), (37, 217), (38, 17), (39, 177), (40, 88), (41, 25), (42, 111), (43, 16), (44, 185), (45, 174), (46, 65), (47, 38), (48, 176), (49, 11), (50, 151), (51, 198), (52, 22), (53, 236), (54, 89), (55, 25), (56, 181), (57, 119), (58, 112), (59, 115), (60, 104), (61, 153), (62, 117), (63, 219), (64, 32), (65, 249), (66, 135), (67, 41), (68, 94), (69, 192), (70, 213), (71, 91)] : List (Nat × Byte)).map (fun x => (windowKey x.1, x.2)) } }

theorem witness_StandIn : standing.standinOk 0 = true ∧ own.standinOk 0 = false := by decide +kernel

theorem witness_Restore : own.boot.dev = .admitted ∧ own.jobPresent = false ∧ own.restoring = false ∧ run.jobPresent = true := by
  decide +kernel

/-- The first 4,092 bytes of a schedule-state record that fits the description of `loaded`: NEXT_STEP 3, JOB_BEAT 12. -/
def schedBody : List Byte := [66, 78, 88, 83, 67, 72, 69, 68, 1, 0, 0, 0, 7, 0, 0, 0, 0, 0, 0, 0, 0, 0, 0, 0, 0, 0, 0, 0, 0, 0, 0, 0, 0, 0, 0, 0, 0, 0, 0, 0, 3, 0, 0, 0, 0, 0, 0, 0, 12, 0, 0, 0, 0, 0, 0, 0, 0, 0, 0, 0, 0, 0, 0, 0, 255, 255, 1, 0, 4] ++ List.replicate 4023 0

/-- The window's bytes for that record with four bytes after it. -/
def schedBytes (c : List Byte) : Memory :=
  let m : List (Nat × Byte) := [(4096, 66), (4097, 78), (4098, 88), (4099, 83), (4100, 67), (4101, 72), (4102, 69), (4103, 68), (4104, 1), (4108, 7), (4136, 3), (4144, 12), (4160, 255), (4161, 255), (4162, 1), (4164, 4)]
  m.map (fun x => (windowKey x.1, x.2)) ++ (List.range 4).map (fun k => (windowKey (8188 + k), c.getD k 0))

/-- The description of `loaded` at 0 and that record at 4,096 with four bytes after it. -/
def resumableWith (c : List Byte) : State := { loaded with mem := { loaded.mem with lpddr := loaded.mem.lpddr ++ schedBytes c } }

/-- The record with its CRC-32C. -/
def resumable : State := resumableWith (leBytes 4 (crc32c schedBody))

theorem read_absent (m : Memory) (a : Nat) (h : ∀ p ∈ m, p.1 ≠ a) : m.read a = 0 := by
  induction m with
  | nil => rfl
  | cons p m ih =>
    have h1 : p.1 ≠ a := h p List.mem_cons_self
    have h2 := ih (fun q hq => h q (List.mem_cons_of_mem _ hq))
    unfold Memory.read AMap.getD at h2 ⊢
    rw [AMap.find?, if_neg h1]
    exact h2

theorem windowRead_zeros (s : State) (o n : Nat) (h : ∀ k, k < n → s.mem.lpddr.read (windowKey (o + k)) = 0) :
    s.windowRead o n = List.replicate n 0 := by
  induction n generalizing o with
  | zero => rfl
  | succ n ih =>
    rw [State.windowRead, List.replicate_succ, ih (o + 1) (fun k hk => by
      have := h (k + 1) (by omega)
      rwa [show o + (k + 1) = o + 1 + k by omega] at this)]
    exact congrArg (· :: _) (h 0 (by omega))

theorem windowKey_low (o : Nat) (h : o < 65536) : windowKey o = o := by
  unfold windowKey windowDie windowByte dieOf extKey
  show o / 2 ^ 16 % 4 * 2 ^ 38 + (o / 2 ^ 18 * 65536 + o % 65536) = o
  omega

theorem resumable_keys : ∀ p ∈ resumable.mem.lpddr, p.1 < 4165 ∨ 8188 ≤ p.1 := by decide +kernel

theorem resumable_body : resumable.windowRead 4096 4092 = schedBody := by
  refine (State.windowRead_append resumable 4096 69 4023).trans (congrArg₂ (· ++ ·) ?_ ?_)
  · decide +kernel
  · refine windowRead_zeros _ _ _ (fun k hk => read_absent _ _ (fun p hp => ?_))
    rw [windowKey_low _ (by omega)]
    have := resumable_keys p hp
    omega

set_option maxRecDepth 100000 in
theorem resumable_tail (a b c d : Byte) : (resumableWith [a, b, c, d]).windowRead 8188 4 = [a, b, c, d] := by rfl

theorem resumable_window : resumable.windowGet 4096 4096 = resumable.windowRead 4096 4096 :=
  resumable.windowGet_eq 4096 4096 (by decide +kernel)

theorem resumable_crc : resumable.windowRead 8188 4 = leBytes 4 (crc32c schedBody) := by
  unfold resumable
  generalize crc32c schedBody = n
  exact resumable_tail _ _ _ _

set_option maxRecDepth 100000 in
theorem schedBody_length : schedBody.length = 4092 := by decide +kernel

theorem crc_fields (b : List Byte) (hl : b.length = 4092) :
    (b ++ leBytes 4 (crc32c b)).take 4092 = b ∧ fieldLE (b ++ leBytes 4 (crc32c b)) 4092 4 = crc32c b ∧
    ∀ o n, o + n ≤ 4092 → fieldLE (b ++ leBytes 4 (crc32c b)) o n = fieldLE b o n := by
  refine ⟨?_, ?_, ?_⟩
  · rw [← hl]; exact List.take_left
  · unfold fieldLE
    rw [← hl, List.drop_left, List.take_of_length_le (by rw [length_leBytes]), leNat_leBytes, Nat.mod_eq_of_lt]
    unfold crc32c
    exact BitVec.isLt _
  · intro o n h
    unfold fieldLE
    rw [List.drop_append_of_le_length (by omega), List.take_append_of_le_length (by rw [List.length_drop]; omega)]

set_option maxRecDepth 100000 in
theorem test_schedule_record : resumable.recordFits 0 4096 = true := by
  have hb : resumable.windowGet 4096 4096 = schedBody ++ leBytes 4 (crc32c schedBody) := by
    rw [resumable_window]
    exact (State.windowRead_append resumable 4096 4092 4).trans (congrArg₂ (· ++ ·) resumable_body resumable_crc)
  obtain ⟨h1, hc, h3⟩ := crc_fields schedBody schedBody_length
  have hm : magicIs (schedBody ++ leBytes 4 (crc32c schedBody)) "BNXSCHED" = magicIs schedBody "BNXSCHED" := by
    unfold magicIs
    rw [List.take_append_of_le_length (by rw [schedBody_length]; decide)]
  unfold State.recordFits
  simp only [hb, hc, h1, hm, beq_self_eq_true, h3 8 2 (by omega), h3 12 4 (by omega), h3 16 8 (by omega), h3 24 8 (by omega), h3 32 8 (by omega),
    h3 64 2 (by omega), h3 66 2 (by omega), h3 68 2 (by omega)]
  decide +kernel

theorem resumable_routes : resumable.routeRefusal = none :=
  routeRefusal_none resumable (fun d => (show ∀ d : DieId, loaded.dict.blobs.find? (P.routeActive d.val) = none by decide +kernel) d)
    (by decide +kernel)

theorem resumable_orchard : resumable.orchardCount = 1 :=
  orchardCount_zeros resumable 8192
    (Eq.trans (congrArg (fun o => Option.getD o (defaultBlob (P.routeActive 0))) loaded_blobs) defaultBlob_route)

set_option maxRecDepth 100000 in
theorem resumable_description : resumable.descOk 0 4 = true := by decide +kernel

theorem witness_Resume : resumable.startFault 0 (resumable.recordFits 0 4096) = none :=
  startFault_none resumable set0 0 _ rfl (by decide +kernel) resumable_description test_schedule_record
    (by rw [resumable_orchard]; decide +kernel) (by decide) (by decide +kernel) (by decide +kernel) (by decide +kernel)
    (by rw [resumable_routes]; decide +kernel)

/-- An adapter that is being revoked since beat 0, with a halted job, and one that is not. -/
def revoking (x : Bool) : State := { halted with adm := { halted.adm with adapters := [(0, { adapter0 with revoking := x })] } }

theorem witness_RevokeForced : (revoking true).adm.adapters.find? 0 = some { adapter0 with revoking := true } ∧
    (revoking true).job.phase = .halted ∧ (revoking false).adm.adapters.find? 0 = some { adapter0 with revoking := false } ∧
    own.adm.adapters.find? 0 = none ∧ run.beat.count < 0 + run.param P.admitRevokeMaxBeats ∧ run.job.phase ≠ .halted := by decide +kernel

/-- A device whose hub copies for a LOAD, with die 1 in reset or not. -/
def copies (r : Bool) : State := { own with
  boot := { own.boot with hub := [.load 0] }
  fe := own.fe.set 1 { own.front 1 with inReset := r } }

theorem witness_HubCopy : (∃ d, ((copies true).front d).inReset = true) ∧ (∀ d, ((copies false).front d).inReset = false) ∧
    takeFirst (copies false).hubReady (copies false).boot.hub = some (.load 0, []) ∧
    takeFirst own.hubReady ({ own with boot := { own.boot with hub := [.restore 0] } } : State).boot.hub = some (.restore 0, []) ∧
    takeFirst own.hubReady own.boot.hub = none ∧ (copies false).plansRun = false ∧
    (opened word1).plansRun = true ∧
    (copies false).boot.dieWaits = [] ∧
    ({ own with boot := { own.boot with dieWaits := [1] } } : State).boot.dieWaits ≠ [] := by
  decide +kernel

theorem check1_outside (s : State) (o : Nat) (h : s.imageInside o = false) : s.check1 o = some (0, 0, 0) := by
  unfold State.check1
  rw [h, Bool.false_and, Bool.false_and, Bool.false_and]
  exact if_pos rfl

theorem loadCheck_one (s : State) (o n : Nat) (hn : n = 1) : s.loadCheck o n = s.check1 o := by
  unfold State.loadCheck
  dsimp only
  split
  · rfl
  all_goals contradiction

theorem loadFault_outside (s : State) (o : Nat) (h : s.imageInside o = false) : s.loadFault o ≠ none := by
  intro e
  unfold State.loadFault at e
  have h1 := (List.findSome?_eq_none_iff.mp e) 0 (List.mem_range.mpr (by decide))
  rw [Nat.zero_add, loadCheck_one s o 1 rfl, check1_outside s o h] at h1
  exact Option.some_ne_none _ h1

theorem witness_LoadRefused : own.loadFault own.windowBytes ≠ none := by
  refine loadFault_outside own own.windowBytes ?_
  unfold State.imageInside
  rw [show own.inWindow own.windowBytes 256 = false by decide +kernel, Bool.false_and, Bool.false_and]

/-- A segment of one page of zeros, with another digest than its own. -/
theorem witness_Segment : ((installing []).adm.install.map (fun x => x.segments[0]?)) = some (some ⟨0, 0, 65536, []⟩) ∧
    sha384 [] ≠ ([] : List Byte) := by decide +kernel

/-! ## Firmware -/

/-- A firmware image with no body, whose digest is worked out outside; its signatures are zeros. -/
def image0 : List Byte := [66, 78, 88, 70, 87, 73, 77, 71, 1, 0, 0, 0, 0, 0, 0, 0, 0, 0, 0, 0, 56, 176, 96, 167, 81, 172, 150, 56, 76, 217, 50, 126, 177, 177, 227, 106, 33, 253, 183, 17, 20, 190, 7, 67, 76, 12, 199, 191, 99, 246, 225, 218, 39, 78, 222, 191, 231, 111, 101, 251, 213, 26, 210, 241, 72, 152, 185, 91] ++ List.replicate 2056 0

theorem test_sha384 : sha384 [97, 98, 99] = [203, 0, 117, 63, 69, 163, 94, 139, 181, 160, 61, 105, 154, 198, 80, 7, 39, 44, 50, 171, 14, 222, 209, 99, 26, 139, 96, 90, 67, 255, 91, 237, 128, 134, 7, 43, 161, 231, 204, 35, 88, 186, 236, 161, 52, 200, 37, 167] := by decide +kernel

set_option maxRecDepth 100000 in
/-- Checks 1 to 3 of R499 accept the image: whether its signatures verify is a free value. -/
theorem test_image : fwCheck image0 0 = none ∨ fwCheck image0 0 = some 4 := by
  have h1 : ¬(!(magicIs image0 "BNXFWIMG" && fieldLE image0 8 2 == 1 && zeroFrom image0 11 12 && zeroFrom image0 68 256)) = true := by
    decide +kernel
  have h2 : ¬(fwBodyMax < fwBodyBytes image0 ∨ image0.length < fwOverhead + fwBodyBytes image0) := by decide +kernel
  have h3 : ¬ sha384 ((image0.drop 256).take (fwBodyBytes image0)) ≠ (image0.drop 20).take 48 := by decide +kernel
  have h4 : ¬ fieldLE image0 10 1 < 0 := Nat.not_lt_zero _
  unfold fwCheck
  rw [if_neg h1, if_neg h2, if_neg h3, if_neg h4]
  split
  · exact Or.inr rfl
  · exact Or.inl rfl

set_option maxRecDepth 100000 in
theorem witness_ImageRefused : fwCheck [] 0 = some 1 ∧ fwCheck (image0.take 2123) 0 = some 2 := by decide +kernel

theorem witness_FirmwareCommands : up.fwBusy = false ∧ up.boot.dev = .idle ∧ own.boot.dev ≠ .idle ∧
    ({ up with boot := { up.boot with fw := .staging } } : State).fwBusy = true ∧
    ({ up with boot := { up.boot with fw := .staged } } : State).boot.fw = .staged ∧
    ({ up with boot := { up.boot with stage := .recoveryWait } } : State).boot.stage = .recoveryWait ∧
    up.inWindow 0 2124 = true ∧ up.boot.stage ≠ .recoveryFetch ∧
    ({ up with boot := { up.boot with fw := .writing } } : State).extGet true 0 up.stagePlace 0 = [] := by decide +kernel

/-! ## Resets, power, telemetry -/

/-- The unpowered machine with its always-on domain and its regulators. -/
def powered : State := { State.reset with boot := { State.reset.boot with alwaysOn := true, regulators := true } }

/-- A device held in reset for a cause. -/
def heldFor (c : Nat) : State := { up with boot := { up.boot with dev := .boot, stage := .resetHeld, cause := c } }

theorem witness_Resets : up.running' = true ∧ State.reset.running' = false ∧ up.boot.modResetHeld = false ∧ up.boot.dev ≠ .off ∧
    State.reset.boot.dev = .off ∧ (heldFor 1).boot.stage = .resetHeld ∧ (heldFor 1).boot.cause ≠ 2 ∧ (heldFor 2).boot.cause = 2 ∧
    up.boot.perstHeld = false ∧ powered.boot.regulators = true ∧ powered.boot.dev = .off ∧ powered.boot.modResetHeld = false ∧
    up.boot.endedIn = none ∧ own.ten.phase = .bound := by decide +kernel

theorem witness_StartUp :
    (let s : State := { up with boot := { up.boot with dev := .boot, stage := .dies } }
     s.boot.dev = .boot ∧ s.boot.stage = .dies ∧ s.stageRuns = true) ∧
    up.dieResetAllowed = true ∧ run.dieResetAllowed = false ∧
    ((copies true).front 1).inReset = true ∧ (copies true).dieListsEmpty 1 = true ∧ up.running' = true ∧ up.boot.dieWaits = [] ∧ up.dieListsEmpty 0 = true ∧
    (sweeping true).dieListsEmpty (frameDie 7) = false := by decide +kernel

/-- Die 1 waits for a page in its keying list, which is its last. -/
theorem witness_DieWaits :
    let s : State := { own with boot := { own.boot with dieWaits := [1] }
                                rind := { own.rind with keying := [⟨frameOf false 1 0, 0, none⟩] } }
    s.boot.dieWaits = [1] ∧ s.dieListsEmpty 1 = false ∧ (s.keyedPage (BitVec.ofNat 32 (frameOf false 1 0)).toNat).dieListsEmpty 1 = true := by
  decide +kernel

theorem witness_Straps : State.reset.boot.alwaysOn = false ∧ up.boot.alwaysOn = true ∧ State.reset.boot.feedId = 0xFF ∧
    State.reset.boot.slotId = 63 ∧ ∃ t, exec .alwaysOnPowerLost up = .next t :=
  ⟨rfl, rfl, rfl, rfl, _, rfl⟩

/-- The input at the ends of its range, and a sensor at its trip temperature. -/
theorem witness_InputAndTrips : ¬ (350 : Nat) < 350 ∧ ¬ 450 < (450 : Nat) ∧ up.boot.alwaysOn = true ∧ up.boot.regulators = true ∧
    up.tripReached 0 (up.param P.tripTemp * 64) = true ∧ up.tripReached 0 (up.param P.tripTemp * 64 - 1) = false ∧
    up.tripReached 36 100000 = false ∧ up.tripReached 38 8000 = true ∧ up.boot.dev = .idle := by decide +kernel

/-- An unpowered device whose coolant is at 20 °C. -/
def cooled : State := ({ powered with boot := { powered.boot with regulators := false } }.setParam P.tempCoolantIn 20).setParam P.tempCoolantOut 20

theorem witness_PowerUp : cooled.boot.dev = .off ∧ cooled.boot.alwaysOn = true ∧ cooled.tripBars = false ∧ cooled.coolantBad = false ∧
    (cooled.setParam P.tempCoolantOut 0).coolantBad = true ∧
    ({ cooled with boot := { cooled.boot with tripped := true } } : State).tripBars = true := by decide +kernel

/-- With offsets of 0, an inlet at 40 °C is not high, at 41 °C it is; an outlet 26 °C above it is a low flow, 25 °C is not. -/
theorem witness_Coolant : level.boot.regulators = true ∧ level.running' = true ∧ roundDegrees (level.calibrated 36 (40 * 64)) = 40 ∧
    roundDegrees (level.calibrated 36 (41 * 64)) = 41 ∧
    roundDegrees (level.calibrated 37 (66 * 64)) - roundDegrees (level.calibrated 36 (40 * 64)) = 26 ∧
    roundDegrees (level.calibrated 37 (65 * 64)) - roundDegrees (level.calibrated 36 (40 * 64)) = 25 ∧
    level.host.limited.find? (limitKey Ev.coolantFlowLow 0) = none := by decide +kernel

theorem witness_Telemetry : up.running' = true ∧ up.boot.alwaysOn = true ∧ up.boot.dev ≠ .off ∧ powered.boot.dev = .off ∧
    up.boot.stage ≠ .resetHeld ∧ State.reset.boot.alwaysOn = false ∧ up.boot.perstHeld = false := by decide +kernel

/-- The words of a READ of POWER_CAP (R465). -/
def doeRead : List W32 := [0x101, 1, 0x11300, 0, 0, 0]

theorem witness_DoeRead : doeRead.length = 6 ∧ messageOk (parseGpp 7 (doeRead.flatMap (fun w => leBytes 4 w.toNat))) = true ∧
    (parseGpp 7 (doeRead.flatMap (fun w => leBytes 4 w.toNat))).op = 1 ∧
    (parseGpp 7 (doeRead.flatMap (fun w => leBytes 4 w.toNat))).index = 0x1300 ∧
    (entryOf (parseGpp 7 (doeRead.flatMap (fun w => leBytes 4 w.toNat)))).all (fun p => p.type != .blob &&
      (own.readFault (parseGpp 7 (doeRead.flatMap (fun w => leBytes 4 w.toNat))) p).isNone) = true ∧
    (entryOf (parseGpp 7 (doeRead.flatMap (fun w => leBytes 4 w.toNat)))).isSome = true ∧
    own.savesByDoe = false ∧ own.running' = true ∧ own.boot.alwaysOn = true := by decide +kernel

/-- A WRITE of 600 W to POWER_CAP. -/
theorem witness_WriteTakesEffect : messageOk (writePower 1 [0x58, 2]) = true ∧ up.keptFor (writePower 1 [0x58, 2]) = none ∧
    up.stillRuns (writePower 1 [0x58, 2]) = false ∧ leNat ([0x58, 2] : List Byte) = 600 ∧ answersFirst P.powerCap 600 = false ∧
    (entryOf (writePower 1 [0x58, 2])).any (fun p => p.acc == .rw && p.type.code == 3 && p.type.size == 2 && p.type != .blob &&
      up.writeAllowed false p 600 && up.inRange p 600) = true := by decide +kernel

/-- A WRITE of RESET_CMD 1, which is answered first. -/
theorem witness_WriteAnswersFirst : answersFirst P.resetCmd 1 = true ∧
    (lookupParam P.resetCmd).any (fun p => up.writeAllowed false p 1 && up.inRange p 1) = true := by decide +kernel

/-- A WRITE of a notify address whole, and of the first half of one. -/
def writeAddr (flags : Byte) (n : Nat) : GppMsg :=
  { gpp0 with op := 2, flags := flags, index := 0x1000, sub := 0x0B, type := 10, total := 16, length := n, value := List.replicate n 1 }

theorem witness_WriteBlob : messageOk (writeAddr 1 16) = true ∧ messageOk (writeAddr 0 8) = true ∧ up.dict.staged = none ∧
    up.stillRuns (writeAddr 1 16) = false ∧
    (entryOf (writeAddr 1 16)).any (fun p => p.acc != .ro && p.acc != .const && p.type.code == 10 && p.type == .blob &&
      up.writeAllowed false p 0 && up.blobSizeOk p 16 && blobInRange p.key (List.replicate 16 1)) = true := by decide +kernel

/-- Every command key of the dictionary is set apart from the numbers that a WRITE only stores. -/
theorem witness_PlainNumber : P.powerCap ∉ [P.deviceCmd, P.powerCmd, P.resetCmd, P.fwCmd, P.tenantCmd, P.matterCmd, P.baseCmd, P.jobCmd,
      P.standinCmd, P.restoreCmd, P.resumeCmd, P.numClear, P.alertAck, P.copyPartner, P.lossApplyBeat, P.kvLayers, P.kvHeads,
      P.routeGenPending] ∧ ¬ (0x2010 ≤ P.powerCap / 256) := by decide

/-- A matter command that is due. -/
def due (m : MatterCmd) : State := { recorded with adm := { recorded.adm with matterDue := some m } }

/-- Matter 9 has an adapter that trains. -/
def dueTrained : State := { due (.remove 9) with
  adm := { (due (.remove 9)).adm with adapters := [(0, adapter0)], bundles := [] }
  boot := run.boot
  job := { run.job with desc := some job1, trains := [⟨0, 0, 0, 0, [], 0, 0, false, 0, 0, 0, 0, .none, false⟩] } }

theorem witness_RemoveDue : (due (.remove 9)).adm.matterDue = some (.remove 9) ∧ (due (.remove 9)).matterSlot 9 = some 2 ∧
    ((due (.remove 9)).keySlot 2).state ≠ .removing ∧ (due (.remove 9)).matterTrained 9 = false ∧ own.matterSlot 9 = none ∧
    dueTrained.matterTrained 9 = true ∧ (due (.remove 9)).ten.release = none := by decide +kernel

theorem witness_RotateDue : (due (.rotate 2)).adm.matterDue = some (.rotate 2) ∧ ((due (.rotate 2)).keySlot 2).state = .active ∧
    (due (.rotate 2)).sweepOf 2 = none ∧ ((sweeping false).keySlot 2).state = .rotating ∧ ((sweeping false).keySlot 3).state = .removing ∧
    ((due (.rotate 3)).keySlot 3).state = .free := by decide +kernel

theorem witness_CreateDue : (due (.create 10)).matterSlot 10 = none ∧ ((due (.create 10)).keySlot 3).state = .free ∧
    ((due (.create 10)).keySlot 2).state ≠ .free ∧ (due (.create 10)).ten.release = none := by decide +kernel

theorem witness_ScrubComplete : ({ releasing .scrubbing .orderly true with boot := { own.boot with dev := .halted } } : State).boot.dev = .halted ∧
    own.boot.dev ≠ .halted := by decide

/-- A checked boundary, in front of which die 1 has closed and die 0 has not. -/
def checked (k : BeatKind) : State := { beating with
  beat := { beating.beat with nextKind := k, afterCatchUp := true }
  fe := beating.fe.set 0 { beating.front 0 with planOpen := true } }

theorem witness_Checked : ∀ k ∈ [BeatKind.normal, .idle], (checked k).jobActive = true ∧ (checked k).job.desc = some job0 ∧
    (checked k).endCause (checked k).nextJobBeat = none ∧ (checked k).beat.afterCatchUp = true ∧ ((checked k).front 0).closed = false ∧
    ((checked k).front 1).closed = true ∧ (∀ x, ((checked k).front x).closed = true → ((checked k).front x).owed = []) := by decide +kernel

theorem witness_HaltLearned : (follower { beating with beat := { beating.beat with nextKind := .halt } }).beat.nextKind = .halt := by decide

/-- A job that trains adapter 0 over four slots: update phase in slot 1, stash released in slot 3. -/
def job2 : JobDesc := { job1 with updateSlot := 1, updateBeats := 1, releaseSlot := 3 }

/-- That job before the boundary behind JOB_BEAT jb. -/
def trainAt (jb : Nat) (k : BeatKind) (upd : Bool) (closed : Nat) (held : Bool) : State := { beating with
  job := { beating.job with desc := some job2, inUpdate := upd, phasesClosed := closed,
                            trains := [⟨0, 0, 0, 0, [], 0, 0, held, 0, 0, 0, 0, .none, false⟩] }
  beat := { beating.beat with nextKind := k, jobBeat := jb, firstNormal := false } }

theorem witness_TrainingBoundaries : job2.trains ≠ [] ∧ ∀ held ∈ [true, false],
    let s := trainAt 0 .normal false 0 held
    s.jobActive = true ∧ s.job.desc = some job2 ∧ s.endCause s.nextJobBeat = none ∧ s.haltHeld = false ∧
      s.beat.announced.contains ((s.beat.count + 1) % 2 ^ 64, BeatKind.halt) = false ∧
      (∀ x, (s.front x).closed = true ∧ (s.front x).owed = []) ∧ s.slotOfBeat s.nextJobBeat = job2.updateSlot ∧
      (s.job.trains.all (fun u => u.stashHeld) = held) := by decide +kernel

theorem witness_PhaseCloses :
    (let s := trainAt 1 .catchUp true 0 false
     s.updateBeat job2 s.phaseStep + job2.updateBeats ≤ s.beat.jobBeat + 1 ∧
       s.beat.jobBeat < (s.phaseStep - job2.firstStep) * s.schedLen + job2.releaseSlot) ∧
    (let s := trainAt 3 .idle false 1 true
     s.job.phasesClosed ≠ 0 ∧ s.releaseBeat job2 ≤ s.beat.jobBeat) ∧
    (trainAt 0 .normal false 0 true).job.phasesClosed = 0 ∧
    (let s := trainAt 0 .normal false 1 true
     s.nextJobBeat ≤ s.releaseBeat job2 ∧ s.beat.jobBeat < s.releaseBeat job2) := by decide +kernel

/-- A follower whose echo is due, with its parent's link ready. -/
def echoing (b : Bool) : State := follower { beating with beat := { beating.beat with closureKnown := b } }

theorem witness_EchoFlit : (echoing true).echoDue = true ∧ (echoing false).beat.echoSent = false ∧ (echoing true).isSource = false ∧
    (echoing true).param P.beatParentLink = 3 ∧ ((echoing true).link 3).carriesLocal = true ∧ ((echoing true).link 3).queue = [] ∧
    0 < ((echoing true).link 3).credits.getD 6 0 ∧ ((echoing true).link 3).retry.length < 512 ∧ (echoing true).jobActive = true ∧
    (follower own).jobActive = false := by decide +kernel

/-- A source at a CATCH_UP boundary that its hold announced, with a loss to apply at beat b. -/
def losing (b : Nat) : State := { beating with
  beat := { beating.beat with kind := .catchUp, holdTicks := [0], holdBeats := 1 }
  res := { beating.res with lossPending := some b } }

theorem witness_LossPending : (losing 0).res.lossPending = some (losing 0).beat.count ∧ (losing 0).lossDue = true ∧ (losing 0).isSource = true ∧
    (losing 0).res.lossApplied = none ∧ (losing 0).jobActive = true ∧ (losing 0).beat.count ∈ (losing 0).beat.holdTicks ∧
    (losing 1).beat.count < 1 ∧ beating.res.lossPending = none ∧
    (let s : State := { losing 0 with beat := { (losing 0).beat with kind := .normal } }
     0 ≤ s.beat.count ∧ s.beat.kind ≠ .catchUp ∧ s.res.lossPending = some 0) ∧
    ((losing 0).setParam P.lossHoldBeats 1).beat.holdBeats ≠ 0 ∧
    ((losing 0).setParam P.lossHoldBeats 1).param P.lossHoldBeats ≤ (losing 0).beat.holdBeats ∧
    (losing 0).beat.holdExpired = false ∧ beating.beat.holdBeats = 0 := by decide +kernel

/-- A restore list at offset 0 that names the partner for entry 0, and one outside the window. -/
theorem witness_RestoreFromPartner : (own.setParam P.copyPartner 6).partnerEntries 0 0 512 = [0] ∧
    (own.setParam P.copyPartner 6).param P.copyPartner ≠ 0xFFFF ∧ own.partnerEntries own.windowBytes 0 512 = [] ∧
    own.restoring = false ∧ ({ own with boot := { own.boot with hub := [.restore 0] } } : State).restoring = true := by decide +kernel

/-- A complete image header of NEXT_STEP 4 in front of its CRC-32C (R443). -/
def headBody : List Byte := [66, 78, 88, 80, 65, 82, 84, 78, 1, 0, 0, 0, 0, 1, 1, 0, 4] ++ List.replicate 4075 0

/-- The header. -/
def head0 : List Byte := headBody ++ leBytes 4 (crc32c headBody)

/-- Both headers of the holder have been read, and image 0 is complete on every die. -/
def heads0 : State :=
  let s := own.setParam P.copyPartner 6
  { s with boot := { s.boot with hub := [.restore 0] }
           res := { s.res with fetched := allDies.map (fun d => (s.holderAddress d 0 0, head0)) } }

set_option maxRecDepth 100000 in
theorem headBody_length : headBody.length = 4092 := by decide +kernel

set_option maxRecDepth 100000 in
theorem head0_ok : headOk head0 = true := by
  obtain ⟨h1, h2, h3⟩ := crc_fields headBody headBody_length
  have hm : magicIs head0 "BNXPARTN" = magicIs headBody "BNXPARTN" := by
    unfold magicIs head0
    rw [List.take_append_of_le_length (by rw [headBody_length]; decide)]
  unfold headOk
  rw [hm]
  unfold head0
  rw [h1, h2, h3 8 2 (by omega), h3 13 1 (by omega)]
  simp only [beq_self_eq_true, Bool.and_true]
  decide +kernel

theorem head0_step : fieldLE head0 16 8 = 4 := by
  unfold head0
  rw [(crc_fields headBody headBody_length).2.2 16 8 (by omega)]
  decide +kernel

theorem heads0_head (d : DieId) : heads0.holderHead d 0 = head0 := by fin_cases d <;> rfl

theorem heads0_other (d : DieId) : heads0.holderHead d 1 = [] := by fin_cases d <;> rfl

theorem heads0_first : heads0.imageStep 0 = some 4 := by
  unfold State.imageStep
  simp only [heads0_head, head0_ok, head0_step, beq_self_eq_true, Bool.and_self, List.all_eq_true, implies_true, if_true]

theorem heads0_second : heads0.imageStep 1 = none := by
  unfold State.imageStep
  simp only [heads0_other]
  rfl

theorem newestImage_first (s : State) (a : Nat) (h0 : s.imageStep 0 = some a) (h1 : s.imageStep 1 = none) :
    s.newestImage = some 0 := by
  unfold State.newestImage
  rw [h0, h1]

theorem witness_NewestImage : heads0.newestImage = some 0 := newestImage_first heads0 4 heads0_first heads0_second

theorem witness_ImageRead : heads0.res.image = none ∧ heads0.partnerEntries 0 0 512 ≠ [] ∧
    takeFirst heads0.hubReady heads0.boot.hub = some (.restore 0, []) := by decide +kernel

/-- A forced revocation in the guard of a running job, which waits. -/
theorem witness_RevokeWaits :
    ({ run with beat := { run.beat with snapTaken := true } } : State).jobActive = true ∧ run.beat.snapTaken = false := by decide +kernel

theorem witness_Rom : (let s : State := { up with boot := { up.boot with dev := .boot, stage := .rom } }
    s.fwBusy = false ∧ s.boot.stage = .rom) ∧ ({ up with boot := { up.boot with recover := (0, 2) } } : State).fetched (some [1, 2]) = some [1, 2] ∧
    ({ up with boot := { up.boot with recover := (0, 2) } } : State).fetched (some [1]) = none := by decide +kernel

/-- The pin while it is held low, for a second pulse. -/
theorem witness_ModResetPulses :
    (let s : State := { up with boot := { up.boot with modResetHeld := true, stage := .resetHeld, cause := 1 } }
     s.boot.modResetHeld = true ∧ s.boot.stage = .resetHeld ∧ s.boot.cause ≠ 2) ∧
    (let s : State := { up with boot := { up.boot with dev := .boot, stage := .memoryTraining } }
     s.stagesRun = true ∧ s.boot.stage = .memoryTraining) ∧ up.stagesRun = false ∧
    ({ up with boot := { up.boot with fw := .writing } } : State).boot.fw = .writing ∧ (100 : Nat) ≤ 999 ∧ (999 : Nat) < 1000 := by decide +kernel

/-- With trip offsets of zeros a reading is as it stands. -/
theorem witness_TripReading : (let s : State := { up with boot := { up.boot with tripOffsets := List.replicate 84 0 } }
    s.tripReading 0 (105 * 64) = 105 * 64 ∧ s.tripReached 0 (s.tripReading 0 (s.param P.tripTemp * 64)) = true) := by decide +kernel

/-- The records of a log wait for their commit. -/
theorem witness_LogWaits :
    let s := up.event Ev.deviceLost [(2, 6)]
    (s.log.records.filter (fun r =>
      decide ((s.log.nextSeq + 2 ^ 32 - r.seq) % 2 ^ 32 ≤ (s.log.nextSeq + 2 ^ 32 - s.log.committed) % 2 ^ 32))).length = 1 := by decide +kernel

/-! ## A plan set that passes every check of R166 -/

/-- A die's part of the image below: a directory entry, and a plan whose one word is PLAN.END. -/
def partCells (b : Nat) : AMap Byte := [(b, 1), (b + 4, 3), (b + 7, 1), (b + 32776, 1), (b + 33149, 15), (b + 33150, 1)]

/-- The bytes of a plan-set image that are not zero, but for its digest (R161 to R164). -/
def plainCells : AMap Byte :=
  [(0, 67), (1, 69), (2, 82), (3, 79), (4, 84), (5, 83), (6, 69), (7, 84), (8, 1), (10, 1), (12, 16), (14, 4), (16, 1), (18, 1), (20, 1)]
    ++ (partCells 264 ++ (partCells 33416 ++ (partCells 66568 ++ partCells 99720)))

/-- The image around a digest. -/
def imageCells (c : List Byte) : AMap Byte := plainCells ++ ((List.range 48).map (fun i => (80 + i, c.getD i 0)) ++ [])

/-- A tenant's device with that image at the start of its window. -/
def planned (c : List Byte) : State :=
  { own with mem := { own.mem with lpddr := (imageCells c).map (fun x => (windowKey x.1, x.2)) } }

/-- The keys of the image. -/
def imageKeys : List Nat := (imageCells []).map (·.1)

theorem imageCells_keys (c : List Byte) : ∀ p ∈ imageCells c, p.1 ∈ imageKeys := by
  intro p hp
  have e : (imageCells c).map (·.1) = imageKeys := by
    unfold imageKeys imageCells
    simp only [List.map_append, List.map_map]
    rfl
  rw [← e]
  exact List.mem_map_of_mem hp

theorem windowKey_injective {a b : Nat} (ha : a < 2 ^ 18) (hb : b < 2 ^ 18) (h : windowKey a = windowKey b) : a = b := by
  unfold windowKey windowDie windowByte dieOf extKey at h
  change a / 2 ^ 16 % 4 * 2 ^ 38 + (a / 2 ^ 18 * 65536 + a % 65536) = b / 2 ^ 16 % 4 * 2 ^ 38 + (b / 2 ^ 18 * 65536 + b % 65536) at h
  omega

theorem cells_read (m : AMap Byte) (k : Nat) (hk : k < 2 ^ 18) (h : ∀ p ∈ m, p.1 < 2 ^ 18) :
    Memory.read (m.map (fun x => (windowKey x.1, x.2))) (windowKey k) = m.getD k 0 := by
  induction m with
  | nil => unfold Memory.read AMap.getD; rw [List.map_nil, AMap.find?_nil, AMap.find?_nil]
  | cons p m ih =>
    have h1 := ih (fun q hq => h q (List.mem_cons_of_mem _ hq))
    unfold Memory.read AMap.getD at h1 ⊢
    rw [List.map_cons, AMap.find?]
    obtain ⟨a, v⟩ := p
    rw [AMap.find?]
    by_cases e : a = k
    · rw [if_pos (congrArg windowKey e), if_pos e]
    · rw [if_neg (fun x => e (windowKey_injective (h _ List.mem_cons_self) hk x)), if_neg e]
      exact h1

theorem planned_get (c : List Byte) (o n : Nat) : (planned c).windowGet o n = (planned c).windowRead o n :=
  (planned c).windowGet_eq o n (fun _ _ => blocks_readable _ rfl rfl rfl rfl (show own.hasKey (attrSlot own.rind.attrDefault) (attrGen own.rind.attrDefault) = true by decide) true _ _)

theorem planned_read (c : List Byte) (k : Nat) (hk : k < 2 ^ 18) :
    (planned c).mem.lpddr.read (windowKey k) = (imageCells c).getD k 0 :=
  cells_read _ k hk (fun p hp => (show ∀ k ∈ imageKeys, k < 2 ^ 18 by decide +kernel) _ (imageCells_keys c p hp))

theorem planned_range (c : List Byte) (n : Nat) : ∀ o, o + n ≤ 2 ^ 18 →
    (planned c).windowGet o n = (List.range n).map (fun i => (imageCells c).getD (o + i) 0) := by
  intro o h
  rw [planned_get]
  induction n generalizing o with
  | zero => rfl
  | succ n ih =>
    rw [State.windowRead, planned_read c o (by omega), ih (o + 1) (by omega), List.range_succ_eq_map, List.map_cons, List.map_map]
    congr 2
    funext i
    show _ = (imageCells c).getD (o + (i + 1)) 0
    rw [show o + (i + 1) = o + 1 + i by omega]

theorem getD_absent (m : AMap Byte) (k : Nat) (h : ∀ p ∈ m, p.1 ≠ k) : m.getD k 0 = 0 := read_absent m k h

theorem planned_zeros (c : List Byte) (o n : Nat) (h : o + n ≤ 2 ^ 18) (hk : ∀ k ∈ imageKeys, k < o ∨ o + n ≤ k) :
    (planned c).windowGet o n = List.replicate n 0 := by
  rw [planned_range c n o h]
  refine List.eq_replicate_iff.mpr ⟨by simp, fun b hb => ?_⟩
  obtain ⟨i, hi, rfl⟩ := List.mem_map.mp hb
  refine getD_absent _ _ (fun p hp e => ?_)
  have := hk _ (imageCells_keys c p hp)
  rw [List.mem_range] at hi
  omega

/-- Where the dies' parts lie. -/
def baseOf (d : DieId) : Nat := 264 + 33152 * d.val

theorem getD_append (a b : AMap Byte) (k : Nat) (h : ∀ p ∈ b, p.1 ≠ k) (c : AMap Byte) :
    AMap.getD (a ++ (b ++ c)) k 0 = AMap.getD (a ++ c) k 0 := by
  have hb : AMap.getD (b ++ c) k 0 = AMap.getD c k 0 := by
    induction b with
    | nil => rfl
    | cons p b ih =>
      obtain ⟨x, v⟩ := p
      have := ih (fun q hq => h q (List.mem_cons_of_mem _ hq))
      unfold AMap.getD at this ⊢
      rw [List.cons_append, AMap.find?, if_neg (h _ List.mem_cons_self), this]
  induction a with
  | nil => exact hb
  | cons p a ih =>
    obtain ⟨x, v⟩ := p
    unfold AMap.getD at ih ⊢
    rw [List.cons_append, List.cons_append, AMap.find?, AMap.find?]
    by_cases e : x = k
    · rw [if_pos e, if_pos e]
    · rw [if_neg e, if_neg e, ih]

/-- Bytes of the image outside its digest. -/
def field (o n : Nat) : List Byte := (List.range n).map (fun i => plainCells.getD (o + i) 0)

theorem planned_other (c : List Byte) (o n : Nat) (h : o + n ≤ 2 ^ 18) (hd : o + n ≤ 80 ∨ 128 ≤ o) :
    (planned c).windowGet o n = field o n := by
  rw [planned_range c n o h]
  refine List.map_congr_left (fun i hi => ?_)
  rw [List.mem_range] at hi
  have hk : ∀ p ∈ (List.range 48).map (fun i => (80 + i, c.getD i 0)), p.1 ≠ o + i := by
    intro p hp
    obtain ⟨j, hj, rfl⟩ := List.mem_map.mp hp
    rw [List.mem_range] at hj
    show 80 + j ≠ o + i
    omega
  unfold imageCells
  rw [getD_append _ _ _ hk, List.append_nil]

theorem baseOf_le (d : DieId) : 264 ≤ baseOf d ∧ baseOf d ≤ 99720 := by unfold baseOf; omega

theorem planned_first (c : List Byte) (d : DieId) : (planned c).dirLine (baseOf d) 0 = ⟨256, 3, 0, true⟩ := by
  have := baseOf_le d
  unfold State.dirLine State.windowLE
  rw [planned_other c _ 8 (by omega) (by omega)]
  exact (show ∀ d : DieId, dirLineOf (leNat (field (baseOf d + 8 * 0) 8)) = ⟨256, 3, 0, true⟩ by decide +kernel) d

theorem planned_later (c : List Byte) (d : DieId) (i : Nat) (h0 : 0 < i) (h1 : i < 4096) :
    (planned c).dirLine (baseOf d) i = ⟨0, 0, 0, false⟩ := by
  unfold State.dirLine State.windowLE
  have hk : ∀ k ∈ imageKeys, k < baseOf d + 8 * i ∨ baseOf d + 8 * i + 8 ≤ k := by
    intro k hk
    have := (show ∀ d : DieId, ∀ k ∈ imageKeys, k < baseOf d + 8 ∨ baseOf d + 32768 ≤ k by decide +kernel) d k hk
    omega
  have hd : baseOf d ≤ 99720 := by unfold baseOf; omega
  rw [planned_zeros c _ 8 (by omega) hk]
  rfl

theorem planned_indices (c : List Byte) (d : DieId) : (planned c).planIndices (baseOf d) = [0] := by
  have e : List.range 4096 = 0 :: (List.range 4095).map Nat.succ := List.range_succ_eq_map
  unfold State.planIndices
  rw [e, List.filter_cons, planned_first]
  simp only [if_true]
  refine congrArg (0 :: ·) (List.filter_eq_nil_iff.mpr (fun i hi => ?_))
  obtain ⟨j, hj, rfl⟩ := List.mem_map.mp hi
  rw [List.mem_range] at hj
  rw [planned_later c d _ (Nat.succ_pos j) (by omega)]
  exact Bool.false_ne_true

theorem planned_lines (c : List Byte) (d : DieId) : (planned c).partLines (baseOf d) = 259 := by
  unfold State.partLines
  rw [planned_indices]
  simp [planned_first]

theorem planned_entries (c : List Byte) : (planned c).tableEntries 0 = 1 := by
  unfold State.tableEntries State.windowLE
  rw [planned_other c _ 4 (by decide) (by decide)]
  decide +kernel

theorem planned_base (c : List Byte) (d : DieId) : (planned c).partBase 0 d.val = baseOf d := by
  have h0 : (planned c).partBase 0 0 = baseOf 0 := by rw [State.partBase, planned_entries]; rfl
  have h1 : (planned c).partBase 0 1 = baseOf 1 := by rw [State.partBase, h0, planned_lines]; rfl
  have h2 : (planned c).partBase 0 2 = baseOf 2 := by rw [State.partBase, h1, planned_lines]; rfl
  have h3 : (planned c).partBase 0 3 = baseOf 3 := by rw [State.partBase, h2, planned_lines]; rfl
  fin_cases d
  exacts [h0, h1, h2, h3]

theorem planned_end (c : List Byte) : (planned c).imageEnd 0 = 132872 := by
  unfold State.imageEnd
  rw [State.partBase, show (planned c).partBase 0 3 = baseOf 3 from planned_base c 3, planned_lines]
  rfl

/-- The plan of a die. -/
def planP (d : DieId) : PPlan := ⟨d, 0, baseOf d + 32768, 3, 0, 0, 0, 1, 0, List.replicate 48 0, [], baseOf d + 33024⟩

theorem planned_plan (c : List Byte) (d : DieId) : (planned c).planOf d (baseOf d) 0 = planP d := by
  have hb := baseOf_le d
  have hw : ∀ o n, 128 ≤ o → o + n ≤ 2 ^ 18 → (planned c).windowGet o n = field o n :=
    fun o n h1 h2 => planned_other c o n h2 (Or.inr h1)
  have h0 := (show ∀ d : DieId, leNat (field (baseOf d + 128 * 256 + 16) 2) = 0 by decide +kernel) d
  unfold State.planOf
  rw [planned_first]
  simp only [State.windowLE, Nat.zero_min, List.range_zero, List.map_nil, hw (baseOf d + 128 * 256) 2 (by omega) (by omega), hw (baseOf d + 128 * 256 + 2) 2 (by omega) (by omega),
    hw (baseOf d + 128 * 256 + 4) 4 (by omega) (by omega), hw (baseOf d + 128 * 256 + 8) 4 (by omega) (by omega),
    hw (baseOf d + 128 * 256 + 16) 2 (by omega) (by omega), hw (baseOf d + 128 * 256 + 20) 48 (by omega) (by omega), h0]
  clear h0 hw hb
  revert d
  decide +kernel

/-- The word of PLAN.END with ISSUE_DELTA 1. -/
def endWord : Nat := 2 ^ 1008 + 15 * 2 ^ 1000

theorem planned_word (c : List Byte) (d : DieId) : (planned c).planWordAt (planP d) 0 = endWord := by
  have hb := baseOf_le d
  unfold State.planWordAt State.windowLE
  rw [planned_other c _ 128 (by show baseOf d + 33024 + 128 * 0 + 128 ≤ _; omega) (by right; show 128 ≤ baseOf d + 33024 + 128 * 0; omega)]
  clear hb
  revert d
  decide +kernel

theorem decode_end : decodeWord 0 endWord = some ⟨0, 1, [], some .planEnd⟩ := by decide +kernel

theorem wordsOf_one (s : State) (p : PPlan) (w : Nat) (x : PWord) (h1 : p.wordCount = 1) (h2 : s.planWordAt p 0 = w)
    (h3 : decodeWord 0 w = some x) : s.wordsOf p = [x] := by
  unfold State.wordsOf
  rw [h1, show List.range 1 = [0] from rfl, List.filterMap_cons, h2, h3, List.filterMap_nil]

theorem planned_words (c : List Byte) (d : DieId) : (planned c).wordsOf (planP d) = [⟨0, 1, [], some .planEnd⟩] :=
  wordsOf_one _ _ _ _ rfl (planned_word c d) decode_end

theorem planned_plans (c : List Byte) : (planned c).plansOf 0 = allDies.map planP := by
  unfold State.plansOf
  simp only [planned_base, planned_indices, List.map_cons, List.map_nil, planned_plan]
  rfl

theorem planned_orchard (c : List Byte) : ((planned c).planSetOf 0).orchardSize = 1 := by
  show leNat ((planned c).windowGet (0 + 16) 2) = 1
  rw [planned_other c _ 2 (by decide) (by decide)]
  decide +kernel

theorem planned_flags (c : List Byte) : ((planned c).windowLE (0 + 13) 1) = 0 := by
  unfold State.windowLE
  rw [planned_other c _ 1 (by decide) (by decide)]
  decide +kernel

theorem planned_length (c : List Byte) : ((planned c).planSetOf 0).scheduleLength = 1 := by
  show leNat ((planned c).windowGet (0 + 10) 2) = 1
  rw [planned_other c _ 2 (by decide) (by decide)]
  decide +kernel

theorem scan_empty (s : State) (d : DieId) (h1 : (s.planSetOf 0).orchardSize = 1) (h2 : s.planWordAt (planP d) 0 = endWord) :
    s.scan 0 (planP d) = [] := by
  unfold State.scan
  rw [h1, show (planP d).wordCount = 1 from rfl, show List.range 1 = [0] from rfl, List.map_cons, List.map_nil, h2]
  clear h1 h2
  revert d
  decide +kernel

theorem planned_scan (c : List Byte) (d : DieId) : (planned c).scan 0 (planP d) = [] :=
  scan_empty _ d (planned_orchard c) (planned_word c d)

theorem planned_table (c : List Byte) : (planned c).planTable 0 = [(0, 0, 0)] ∧ ((planned c).tableEntry 0 0).2.2.2 = 0 := by
  unfold State.planTable State.tableEntry State.windowLE
  rw [planned_entries]
  simp only [show List.range 1 = [0] from rfl, List.map_cons, List.map_nil]
  rw [planned_other c _ 8 (by decide) (by decide)]
  decide +kernel

/-- The digest of the image. -/
def imageDigest : List Byte :=
  sha384 (field 0 80 ++ List.replicate 48 0 ++ field 128 132744)

theorem length_beBytes (n v : Nat) : (beBytes n v).length = n := by simp [beBytes]

theorem imageDigest_length : imageDigest.length = 48 := by
  unfold imageDigest sha384
  simp only [List.flatMap_cons, List.flatMap_nil, List.length_append, length_beBytes, List.length_nil]

theorem find_part (f : Nat → Byte) (n : Nat) (r : AMap Byte) : ∀ a i, i < n →
    AMap.find? ((List.range' a n).map (fun j => (80 + j, f j)) ++ r) (80 + (a + i)) = some (f (a + i)) := by
  induction n with
  | zero => intro a i h; omega
  | succ n ih =>
    intro a i h
    rw [List.range'_succ, List.map_cons, List.cons_append, AMap.find?]
    by_cases e : i = 0
    · subst e
      rw [Nat.add_zero, if_pos rfl]
    · rw [if_neg (by omega), show a + i = a + 1 + (i - 1) by omega]
      exact ih (a + 1) (i - 1) (by omega)

theorem planned_digest_field (c : List Byte) (h : c.length = 48) : (planned c).windowGet 80 48 = c := by
  rw [planned_range c 48 80 (by decide)]
  have e : ∀ i, i < 48 → (imageCells c).getD (80 + i) 0 = c.getD i 0 := by
    intro i hi
    have := find_part (fun i => c.getD i 0) 48 [] 0 i hi
    rw [Nat.zero_add, ← List.range_eq_range'] at this
    have hn : ∀ p ∈ plainCells, p.1 ≠ 80 + i := by
      intro p hp he
      have := (show ∀ p ∈ plainCells, p.1 < 80 ∨ 128 ≤ p.1 by decide +kernel) p hp
      omega
    have h2 := getD_append [] _ (80 + i) hn ((List.range 48).map (fun i => (80 + i, c.getD i 0)) ++ [])
    unfold imageCells
    refine h2.trans ?_
    unfold AMap.getD
    rw [List.nil_append, this]
    rfl
  refine List.ext_getElem (by simp [h]) (fun i h1 h2 => ?_)
  rw [List.getElem_map, List.getElem_range, e i (by omega)]
  exact List.getD_eq_getElem _ _ h2

theorem planned_digest : (planned imageDigest).digestOk 0 = true := by
  have hb : (planned imageDigest).imageBytes 0 = field 0 80 ++ (imageDigest ++ field 128 132744) := by
    unfold State.imageBytes
    rw [planned_end, planned_get, show 132872 - 0 = 80 + (48 + 132744) from rfl, State.windowRead_append, State.windowRead_append,
      ← planned_get, ← planned_get, ← planned_get, planned_other _ 0 80 (by decide) (by decide),
      show 0 + 80 = 80 from rfl, planned_digest_field _ imageDigest_length, planned_other _ (80 + 48) 132744 (by decide) (by decide)]
  have h0 : (field 0 80).length = 80 := by simp [field]
  have t80 : ∀ r : List Byte, (field 0 80 ++ r).take 80 = field 0 80 := fun r => by
    conv => lhs; rw [← h0]
    exact List.take_left
  have d80 : ∀ r : List Byte, (field 0 80 ++ r).drop 80 = r := fun r => by
    conv => lhs; rw [← h0]
    exact List.drop_left
  have t48 : ∀ r : List Byte, (imageDigest ++ r).take 48 = imageDigest := fun r => by
    conv => lhs; rw [← imageDigest_length]
    exact List.take_left
  have d48 : ∀ r : List Byte, (imageDigest ++ r).drop 48 = r := fun r => by
    conv => lhs; rw [← imageDigest_length]
    exact List.drop_left
  unfold State.digestOk
  rw [hb]
  simp only [t80, d80, t48, show (128 : Nat) = 80 + 48 from rfl, ← List.drop_drop, d48]
  unfold imageDigest
  exact beq_self_eq_true _

theorem planned_inside (c : List Byte) : (planned c).imageInside 0 = true := by
  have h0 : (planned c).partBase 0 0 = baseOf 0 := planned_base c 0
  have h1 : (planned c).partBase 0 1 = baseOf 1 := planned_base c 1
  have h2 : (planned c).partBase 0 2 = baseOf 2 := planned_base c 2
  have h3 : (planned c).partBase 0 3 = baseOf 3 := planned_base c 3
  have e : (planned c).windowBytes = own.windowBytes := rfl
  unfold State.imageInside State.inWindow
  simp only [planned_entries, show List.range 4 = [0, 1, 2, 3] from rfl, List.all_cons, List.all_nil, h0, h1, h2, h3, planned_lines, e]
  decide +kernel

theorem planned_zero (c : List Byte) (o n : Nat) (h : o + n ≤ 2 ^ 18) (hk : ∀ k ∈ imageKeys, k < o ∨ o + n ≤ k) :
    (planned c).windowZero o n = true := by
  unfold State.windowZero
  rw [planned_zeros c o n h hk]
  simp

theorem planned_marks (c : List Byte) : (planned c).headerMarks 0 = true := by
  unfold State.headerMarks State.windowLE
  rw [planned_entries, planned_other c 0 8 (by decide) (by decide), planned_other c (0 + 8) 2 (by decide) (by decide),
    planned_other c (0 + 13) 1 (by decide) (by decide), planned_zero c (0 + 128) 128 (by decide) (by decide +kernel),
    planned_other c (0 + 10) 2 (by decide) (by decide), planned_other c (0 + 16) 2 (by decide) (by decide)]
  decide +kernel

theorem planned_reserved (c : List Byte) (d : DieId) : (planned c).planReserved (planP d) = true := by
  have hb := baseOf_le d
  have hk := (show ∀ d : DieId, ∀ k ∈ imageKeys, (k < baseOf d + 32786 ∨ baseOf d + 32788 ≤ k) ∧ (k < baseOf d + 32836 ∨ baseOf d + 33024 ≤ k)
    by decide +kernel) d
  have e : List.range (min (planP d).declCount 1024) = [] := rfl
  unfold State.planReserved
  rw [e, show (planP d).at' = baseOf d + 32768 from rfl, planned_zero c (baseOf d + 32768 + 18) 2 (by omega) (fun k h => (hk k h).1),
    planned_zero c (baseOf d + 32768 + 68) 188 (by omega) (fun k h => (hk k h).2)]
  rfl

theorem badWord_none (s : State) (p : PPlan) (w : Nat) (h1 : p.wordCount = 1) (h2 : s.planWordAt p 0 = w)
    (h3 : wordDefined 0 w = true) : s.badWord p = none := by
  unfold State.badWord
  rw [h1, show List.range (min 1 65536) = [0] from rfl, List.find?_cons, h2, h3]
  rfl

theorem planned_bad_word (c : List Byte) (d : DieId) : (planned c).badWord (planP d) = none :=
  badWord_none _ _ _ rfl (planned_word c d) (by unfold wordDefined; rw [decode_end]; rfl)

theorem planned_dirs (c : List Byte) (d : DieId) :
    (List.range 4096).find? (fun i => ((planned c).dirLine (baseOf d) i).reserved != 0) = none := by
  rw [List.find?_eq_none]
  intro i hi
  rw [List.mem_range] at hi
  by_cases h0 : i = 0
  · subst h0
    rw [planned_first]
    decide
  · rw [planned_later _ d i (Nat.pos_of_ne_zero h0) hi]
    decide

theorem planned_entry (c : List Byte) : (List.range 1).all (fun i => ((planned c).tableEntry 0 i).2.2.2 == 0) = true := by
  show (((planned c).tableEntry 0 0).2.2.2 == 0 && true) = true
  rw [(planned_table c).2]
  rfl

theorem check1_none (s : State) (o : Nat) (h1 : s.imageInside o = true) (h2 : s.headerMarks o = true) (h3 : s.digestOk o = true)
    (h4 : (List.range (s.tableEntries o)).all (fun i => (s.tableEntry o i).2.2.2 == 0) = true)
    (h5 : ∀ d ∈ allDies, (List.range 4096).find? (fun i => (s.dirLine (s.partBase o d.val) i).reserved != 0) = none)
    (h6 : ∀ p ∈ s.plansOf o, s.planReserved p = true ∧ s.badWord p = none) : s.check1 o = none := by
  have e5 : allDies.findSome? (fun d =>
      ((List.range 4096).find? (fun i => (s.dirLine (s.partBase o d.val) i).reserved != 0)).map (fun i => (d.val, i, 0))) = none := by
    rw [List.findSome?_eq_none_iff]
    intro d hd
    rw [h5 d hd]
    rfl
  have e6 : firstPlan (s.plansOf o) (fun p => if s.planReserved p then s.badWord p else some 0) = none := by
    unfold firstPlan
    rw [List.findSome?_eq_none_iff]
    intro p hp
    simp only [(h6 p hp).1, (h6 p hp).2, if_true, Option.map_none]
  unfold State.check1
  rw [h1, h2, h3, h4, if_neg (by decide), e5, e6]

theorem planned_check1 : (planned imageDigest).check1 0 = none := by
  refine check1_none _ _ (planned_inside _) (planned_marks _) planned_digest ?_ (fun d _ => ?_) (fun p hp => ?_)
  · rw [planned_entries]
    exact planned_entry _
  · rw [planned_base]
    exact planned_dirs _ d
  · rw [planned_plans] at hp
    obtain ⟨d, _, rfl⟩ := List.mem_map.mp hp
    exact ⟨planned_reserved _ d, planned_bad_word _ d⟩

theorem planned_check2 (c : List Byte) : (planned c).check2 0 = none := by
  unfold State.check2 State.windowLE
  rw [planned_other c (0 + 12) 1 (by decide) (by decide), planned_other c (0 + 14) 2 (by decide) (by decide),
    show (planned c).beat = own.beat from rfl]
  exact if_pos (by decide +kernel)

theorem planP_die (d : DieId) : (planP d).die = d := rfl
theorem planP_index (d : DieId) : (planP d).index = 0 := rfl
theorem planP_slot (d : DieId) : (planP d).slot = 0 := rfl

theorem firstPlan_none (f : PPlan → Option Nat) (h : ∀ d, f (planP d) = none) : firstPlan (allDies.map planP) f = none := by
  simp only [firstPlan, allDies, List.map_cons, List.map_nil, List.findSome?_cons, List.findSome?_nil, h, Option.map_none]

theorem check3_none (s : State) (o : Nat) (x : Nat × Nat × Nat) (h2 : s.planTable o = [x])
    (h1 : ∀ p ∈ s.plansOf o, (planFits p (s.dirLine (s.partBase o p.die.val) p.index) && s.planApart (s.partBase o p.die.val) p.index
      && decide (p.slot < s.windowLE (o + 10) 2)) = true)
    (h3 : s.entryNames o x = true) (h4 : ∀ d : DieId, s.planIndices (s.partBase o d.val) = [0])
    (h5 : s.windowLE (o + 18) 2 = 1) : s.check3 o = none := by
  have e1 : firstPlan (s.plansOf o) (fun p => wholePlan (planFits p (s.dirLine (s.partBase o p.die.val) p.index)
      && s.planApart (s.partBase o p.die.val) p.index && decide (p.slot < s.windowLE (o + 10) 2))) = none := by
    unfold firstPlan
    rw [List.findSome?_eq_none_iff]
    intro p hp
    simp only [h1 p hp, wholePlan, if_true, Option.map_none]
  have e4 := h4 0
  change s.planIndices (s.partBase o 0) = [0] at e4
  have ef : [x].find? (fun y => !s.entryNames o y) = none := by simp [h3]
  have eg : allDies.find? (fun d => s.planIndices (s.partBase o d.val) != [0]) = none := by
    rw [List.find?_eq_none]
    intro d _
    simp [h4 d]
  unfold State.check3
  simp only [e1, h2, e4, h5, ef, eg]
  simp

theorem planned_check3 (c : List Byte) : (planned c).check3 0 = none := by
  have hl : (planned c).windowLE (0 + 10) 2 = 1 := planned_length c
  have hn : (planned c).windowLE (0 + 18) 2 = 1 := by
    unfold State.windowLE
    rw [planned_other c _ 2 (by decide) (by decide)]
    decide +kernel
  have hf : ∀ d : DieId, planFits (planP d) ⟨256, 3, 0, true⟩ = true := by decide +kernel
  refine check3_none _ 0 (0, 0, 0) (planned_table c).1 (fun p hp => ?_) ?_ (fun d => ?_) hn
  · rw [planned_plans] at hp
    obtain ⟨d, _, rfl⟩ := List.mem_map.mp hp
    have ha : (planned c).planApart (baseOf d) 0 = true := by
      unfold State.planApart
      rw [planned_indices]
      rfl
    simp only [planP_die, planP_index, planP_slot, planned_base, planned_first, ha, hf, hl, Bool.and_self, Nat.zero_lt_one, decide_true]
  · unfold State.entryNames
    simp only [planned_base, planned_first, planned_plan]
    decide +kernel
  · rw [planned_base, planned_indices]

theorem planned_check4 (c : List Byte) : (planned c).check4 0 = none := by
  have hl : (planned c).windowLE (0 + 10) 2 = 1 := planned_length c
  unfold State.check4
  rw [(planned_table c).1, hl]
  decide +kernel

/-- What the checks say of a plan whose one word is PLAN.END. -/
theorem end_checks (s : State) (d : DieId) (a : Bool) (h : s.wordsOf (planP d) = [⟨0, 1, [], some .planEnd⟩])
    (hl : s.lastWork = own.lastWork) : (∀ f, s.wordWith (planP d) f = none) ∧ s.check7 (planP d) = none ∧
    s.check8 a (planP d) = none ∧ s.check9 a (planP d) = none ∧ s.check10 a (planP d) = none := by
  refine ⟨fun f => by unfold State.wordWith; rw [h]; rfl, ?_⟩
  unfold State.check7 State.check8 State.check9 State.check10 State.schedule
  rw [h, hl]
  clear h hl
  revert d a
  decide +kernel

theorem planned_checks (c : List Byte) (d : DieId) (a : Bool) : (∀ f, (planned c).wordWith (planP d) f = none) ∧
    (planned c).check7 (planP d) = none ∧ (planned c).check8 a (planP d) = none ∧ (planned c).check9 a (planP d) = none ∧
    (planned c).check10 a (planP d) = none := end_checks _ d a (planned_words c d) rfl

theorem empty_verdicts (s : State) (d : DieId) (h : s.scan 0 (planP d) = []) : s.check11 0 (planP d) = .holds ∧
    s.check12 1 (allDies.map planP) 0 (planP d) = .holds ∧ stageFault (s.scan 0 (planP d)) = none := by
  refine ⟨?_, ?_, ?_⟩
  · unfold State.check11
    rw [h]
    rfl
  · have hw : s.wideScan 0 (planP d) = ⟨[], []⟩ := by unfold State.wideScan; rw [h]; rfl
    unfold State.check12
    rw [hw]
    rfl
  · rw [h]
    rfl

theorem planned_verdicts (c : List Byte) (d : DieId) : (planned c).check11 0 (planP d) = .holds ∧
    (planned c).check12 1 (allDies.map planP) 0 (planP d) = .holds ∧ stageFault ((planned c).scan 0 (planP d)) = none :=
  empty_verdicts _ d (planned_scan c d)

theorem ruled_none (s : State) (o n : Nat) (f : Nat → PPlan → Verdict) (h : ∀ d, f o (planP d) = .holds) :
    s.ruled o n (allDies.map planP) f = none := by
  unfold State.ruled
  rw [firstPlan_none _ (fun d => by rw [h d])]
  simp only [allDies, List.map_cons, List.map_nil, List.any_cons, List.any_nil, h]
  rfl

theorem loadCheck_cases (s : State) (o : Nat) (ps : List PPlan) (hp : s.plansOf o = ps) (hs : (s.planSetOf o).scheduleLength = 1)
    (hf : s.windowLE (o + 13) 1 = 0) (h1 : s.check1 o = none) (h2 : s.check2 o = none) (h3 : s.check3 o = none) (h4 : s.check4 o = none)
    (h5 : check5 ps = none) (h6 : check6 ps = none) (h7 : firstPlan ps s.check7 = none) (h8 : firstPlan ps (s.check8 false) = none)
    (h9 : firstPlan ps (s.check9 false) = none) (h10 : firstPlan ps (s.check10 false) = none)
    (h11 : s.ruled o 11 ps s.check11 = none) (h12 : s.ruled o 12 ps (s.check12 1 ps) = none)
    (hw : ∀ f : Op → Bool, firstPlan ps (fun p => s.wordWith p f) = none) (h17 : firstPlan ps (fun p => stageFault (s.scan o p)) = none) :
    ∀ i, i < 18 → s.loadCheck o (i + 1) = none := by
  have hr : (s.planSetOf o).rowInvariant = false := by unfold State.planSetOf; rw [hf]; rfl
  have ha : (s.planSetOf o).audit = false := by unfold State.planSetOf; rw [hf]; rfl
  have ht : (s.planSetOf o).training = false := by unfold State.planSetOf; rw [hf]; rfl
  have hn : (s.planSetOf o).nondeterministic = false := by unfold State.planSetOf; rw [hf]; rfl
  intro i hi
  unfold State.loadCheck
  simp only [hp, hr, ha, ht, hs, hn]
  interval_cases i
  · simp only [Nat.zero_add]
    exact h1
  exacts [h2, h3, h4, h5, h6, h7, h8, h9, h10, h11, h12, hw _, rfl, rfl, hw _, h17, rfl]

/-- The plan set passes every check: a LOAD of it is accepted. -/
theorem witness_LoadAccepted : (planned imageDigest).loadFault 0 = none := by
  have h := loadCheck_cases (planned imageDigest) 0 (allDies.map planP) (planned_plans _) (planned_length _) (planned_flags _)
    planned_check1 (planned_check2 _) (planned_check3 _) (planned_check4 _) (by decide +kernel) (by decide +kernel)
    (firstPlan_none _ (fun d => (planned_checks _ d true).2.1)) (firstPlan_none _ (fun d => (planned_checks _ d _).2.2.1))
    (firstPlan_none _ (fun d => (planned_checks _ d _).2.2.2.1)) (firstPlan_none _ (fun d => (planned_checks _ d _).2.2.2.2))
    (ruled_none _ _ _ _ (fun d => (planned_verdicts _ d).1)) (ruled_none _ _ _ _ (fun d => (planned_verdicts _ d).2.1))
    (fun f => firstPlan_none _ (fun d => (planned_checks _ d true).1 f)) (firstPlan_none _ (fun d => (planned_verdicts _ d).2.2))
  unfold State.loadFault
  rw [List.findSome?_eq_none_iff]
  intro i hi
  rw [h i (List.mem_range.mp hi)]
  rfl

/-! ## Worked examples of the spec -/

/-- The block of "A block written two ways": 15.0, 1.2, −5.0 and 0.3, then zeros; 1.2 and 0.3 as the binary32 numbers next to them. -/
def exampleBlock : List Machine.Num := [.fin false 15 0, decodeElem .f32 0x3F99999A, .fin true 5 0, decodeElem .f32 0x3E99999A]
  ++ List.replicate 60 (.fin false 0 0)

/-- An E2M1 conversion by a scale rule, RNE and SAT. -/
def exampleCvt (r : Rule) : CvtF := ⟨.none, .none, .none, .e2m1, r, .rne, .sat, .b64, false⟩

theorem test_block_floor : (convertBlocks false (exampleCvt .floor) [] (List.replicate 64 0) exampleBlock).1 = [0x80] ∧
    (convertBlocks false (exampleCvt .floor) [] (List.replicate 64 0) exampleBlock).2.1.take 4 = [7, 1, 12, 0] := by decide +kernel

theorem test_block_fit : (convertBlocks false (exampleCvt .fit) [] (List.replicate 64 0) exampleBlock).1 = [0x81] ∧
    (convertBlocks false (exampleCvt .fit) [] (List.replicate 64 0) exampleBlock).2.1.take 4 = [6, 1, 10, 0] := by decide +kernel

/-- The 32 bytes of the worked record (R486). -/
theorem test_event_record : (⟨1234567, 40000, 17, 0x6201, .note, 1, detail [(4, 812), (1, 30), (1, 5), (2, 108), (1, 2)]⟩ : EventRec).bytes =
    [0x87, 0xD6, 0x12, 0, 0, 0, 0, 0, 0x40, 0x9C, 0, 0, 0x11, 0, 0x01, 0x62, 1, 1, 0x2C, 3, 0, 0, 0x1E, 5, 0x6C, 0, 2, 0, 0, 0, 0, 0] ∧
    recordOffset 40000 = 0x138800 := by decide +kernel

/-- The frames of the default KV region (R309). -/
theorem test_kv_frames : up.kvFrameCount = 1262827 := by decide +kernel

/-- The chunk of four products 12, −3.25, 5 × 2^−29 and 3 × 2^−29 (R90). -/
theorem test_chunk : chunkSum [.fin false 3 2, .fin true 13 (-2), .fin false 5 (-29), .fin false 3 (-29)] = .val 1174405121 3 := by
  decide +kernel

/-- That chunk promoted into a total of +0 (R92): in A32 by RNE and by SR with draws 1 and 2, and in A16. -/
theorem test_promotion : (promote false false false 0 0 (.val 1174405121 3)).1 = 0x410C0000 ∧
    (promote false false true 1 0 (.val 1174405121 3)).1 = 0x410C0001 ∧
    (promote false false true 2 0 (.val 1174405121 3)).1 = 0x410C0000 ∧
    (promote false true false 0 0 (.val 1174405121 3)).1 = 0x410C := by decide +kernel

/-- A total of 1,024 and a chunk of 2^−15: RNE loses it; SR adds 2^−13 at a draw of 63 and not at 64. -/
theorem test_promotion_small : (promote false false false 0 0x44800000 (.val (2 ^ 30) (-15))).1 = 0x44800000 ∧
    (promote false false true 63 0x44800000 (.val (2 ^ 30) (-15))).1 = 0x44800001 ∧
    (promote false false true 64 0x44800000 (.val (2 ^ 30) (-15))).1 = 0x44800000 := by decide +kernel

/-- CRC-32C of the nine digits. -/
theorem test_crc : crc32c ((List.range 9).map (fun k => BitVec.ofNat 8 (0x31 + k))) = 0xE3069283 := by decide +kernel

/-- No row of the table has bits, so no word spells a command (log entry 2). -/
theorem test_no_words : decodeTableWord 32 5 = none ∧ up.withFetchWord 32 5 = up := ⟨rfl, rfl⟩

end Sys2Proof.Tests
end

section
/-! SUPPORT. What the log and the dictionary hold after an event. -/

namespace Sys2Proof.Machine

open Sys2Proof

/-! ### Parameters under an event -/

/-- A parameter is read from the dictionary alone. -/
theorem State.param_congr {s t : State} (h : t.dict = s.dict) (k : Nat) : t.param k = s.param k := by
  unfold State.param; rw [h]

/-- Logging a record changes the dictionary by the count of its class alone (R488). -/
theorem State.logRecord_dict (s : State) (x : EventRec) :
    (s.logRecord x).dict = (s.bump (P.eventCountInfo x.cls.code) 1).dict := by
  unfold State.logRecord
  simp only []
  split
  · rw [State.signalEvent_dict]
    split <;> simp [State.bump, State.setParam, State.param]
  · split <;> simp [State.bump, State.setParam, State.param]

/-- An event leaves every parameter alone but the four counts of events. -/
theorem State.param_event (s : State) (c : Nat) (l : List (Nat × Nat)) {k : Nat}
    (h : ∀ x : EvClass, k ≠ P.eventCountInfo x.code) : (s.event c l).param k = s.param k :=
  (State.param_congr (s.logRecord_dict _) k).trans (State.param_bump_ne s 1 (h _))

/-- A parameter that does not lie among the counts of events is none of them. -/
theorem notEventCount {k : Nat} (h : k < P.eventCountInfo 0 ∨ P.eventCountInfo 3 < k) (x : EvClass) :
    k ≠ P.eventCountInfo x.code := by
  cases x <;> simp only [EvClass.code, P.eventCountInfo] at * <;> omega

/-! ### The newest record -/

/-- A record that is logged is the newest one, under its code and detail (R488). -/
theorem logRecord_newest (s : State) (x : EventRec) :
    ∃ r, (s.logRecord x).log.records.getLast? = some r ∧ r.code = x.code ∧ r.detail = x.detail := by
  have hl : (s.logRecord x).log.records = keepRecords s.log.records { x with seq := s.log.nextSeq } := by
    unfold State.logRecord
    simp only []
    split
    · rw [State.signalEvent_log]
      split <;> simp
    · split <;> simp
  refine ⟨{ x with seq := s.log.nextSeq }, ?_, rfl, rfl⟩
  rw [hl, keepRecords, List.getLast?_drop, if_neg (by simp), List.getLast?_concat]

/-- The newest record is read from the log alone. -/
theorem lastEvent_congr {s t : State} (h : t.log = s.log) {c : Nat} {l : List (Nat × Nat)} (hs : LastEvent s c l) :
    LastEvent t c l := by
  unfold LastEvent; rw [h]; exact hs

/-- An event of the hub is the newest record. -/
theorem lastEvent_event (s : State) (c : Nat) (l : List (Nat × Nat)) : LastEvent (s.event c l) c l :=
  logRecord_newest s _

end Sys2Proof.Machine
end

section
/-! SUPPORT. The power manager's evaluation and the loss of a device (R51, R446 to R450, R483). -/

namespace Sys2Proof.Machine

open Sys2Proof

/-! ### The power manager (R51, R483) -/

/-- What an evaluation of the limit leaves alone: everything but the limit, the log and the dictionary's own counts. -/
theorem setLimit_frame (s : State) (ts : List Int) :
    (s.setLimit ts).beat = { s.beat with thermalLimit := s.nextLimit ts } ∧ SameData s (s.setLimit ts) ∧
      (s.setLimit ts).job = s.job ∧ (s.setLimit ts).adm = s.adm := by
  unfold State.setLimit SameData
  simp only []
  split
  · simp
  · split <;> simp

/-- The limit of an evaluation shows in THERMAL_STATE, and POWER_CAP stands. -/
theorem setLimit_params (s : State) (ts : List Int) :
    (s.setLimit ts).param P.thermalState = (if s.nextLimit ts < 2500 then 1 else 0) ∧
      (s.setLimit ts).param P.powerCap = s.param P.powerCap := by
  have h1 := notEventCount (k := P.thermalState) (by decide)
  have h2 := notEventCount (k := P.powerCap) (by decide)
  have h3 : ∀ b v, (State.setParam { s with beat := b } P.thermalState v).param P.powerCap = s.param P.powerCap :=
    fun b v => State.param_setParam_ne _ v (by decide)
  unfold State.setLimit
  simp only []
  split
  · rw [State.param_event _ _ _ h1, State.param_event _ _ _ h2, State.param_bump_ne _ _ (by decide),
      State.param_bump_ne _ _ (by decide), h3]
    simp
  · split
    · rw [State.param_event _ _ _ h1, State.param_event _ _ _ h2, h3]
      simp
    · rw [h3]
      simp

/-- Throttling that begins and throttling that ends are logged. -/
theorem setLimit_events (s : State) (ts : List Int) :
    (s.beat.thermalLimit = 2500 → s.nextLimit ts < 2500 → ∃ fs, LastEvent (s.setLimit ts) Ev.thermalThrottle fs) ∧
      (s.beat.thermalLimit < 2500 → s.nextLimit ts = 2500 → LastEvent (s.setLimit ts) Ev.thermalClear []) := by
  unfold State.setLimit
  simp only []
  constructor
  · intro ho hn
    rw [if_pos ⟨ho, hn⟩]
    exact ⟨_, lastEvent_event _ _ _⟩
  · intro ho hn
    rw [if_neg (by omega), if_pos ⟨ho, hn⟩]
    exact lastEvent_event _ _ _

/-- The request that an evaluation aims at is the smallest that keeps the mean power within the cap. -/
theorem idleFor_eq {busy idle cap k : Nat} (hk : k ≤ 15) (h : (16 - k) * busy + k * idle ≤ 16 * cap)
    (hmin : ∀ j, j < k → ¬(16 - j) * busy + j * idle ≤ 16 * cap) : idleFor busy idle cap = k := by
  unfold idleFor
  have hf : (List.range 16).find? (fun j => decide ((16 - j) * busy + j * idle ≤ 16 * cap)) = some k := by
    rw [List.find?_range_eq_some]
    refine ⟨by simpa using h, by simp; omega, fun j hj => ?_⟩
    simpa using hmin j hj
  rw [hf]
  rfl

/-! ### A loss is applied (R449) -/

/-- Only tallies of the front ends differ. -/
def OnlyTallies (s t : State) : Prop :=
  t = { s with fe := t.fe } ∧ ∀ d, { t.front d with tallies := (s.front d).tallies } = s.front d

theorem OnlyTallies.refl (s : State) : OnlyTallies s s := ⟨rfl, fun _ => rfl⟩

theorem OnlyTallies.trans {s t u : State} (h : OnlyTallies s t) (h' : OnlyTallies t u) : OnlyTallies s u := by
  obtain ⟨e, f⟩ := h
  obtain ⟨e', f'⟩ := h'
  refine ⟨by rw [e', e], fun d => ?_⟩
  rw [← f d, ← f' d]

theorem OnlyTallies.jobActive {s t : State} (h : OnlyTallies s t) : t.jobActive = s.jobActive := by
  rw [h.1]; rfl

/-- A count added to a tally. -/
theorem onlyTallies_addTally (s : State) (d : DieId) (t n : Nat) : OnlyTallies s (s.addTally d t n) := by
  refine ⟨rfl, fun e => ?_⟩
  unfold State.addTally
  by_cases h : e = d
  · subst h; rw [State.front_modFront_self]
  · rw [State.front_modFront_ne _ _ _ _ h]

/-- While a job runs, the stand-in counts for the plan that a die holds change its tallies alone. -/
theorem onlyTallies_standinNow (s : State) (src : Nat) (d : DieId) (ha : s.jobActive = true) :
    OnlyTallies s (s.standinNow src d) := by
  unfold State.standinNow
  split
  · refine List.foldlRecOn _ _ (motive := OnlyTallies s) (OnlyTallies.refl s) (fun t ht x _ => ?_)
    split
    · unfold State.receiveTally
      rw [ht.jobActive, ha]
      simpa using ht.trans (onlyTallies_addTally t d _ _)
    · exact ht
  · exact OnlyTallies.refl s

/-- The same on all four dies. -/
theorem onlyTallies_standinAll (s : State) (src : Nat) (ha : s.jobActive = true) :
    OnlyTallies s (allDies.foldl (fun (t : State) d => t.standinNow src d) s) :=
  List.foldlRecOn _ _ (motive := OnlyTallies s) (OnlyTallies.refl s) (fun t ht d _ =>
    ht.trans (onlyTallies_standinNow t src d (ht.jobActive.trans ha)))

/-- What an announcement has put among the kinds decided stands there. -/
theorem mem_announce (s : State) (n : Nat) (k : BeatKind) : (n, k) ∈ (s.announce n k).beat.announced := by
  unfold State.announce
  split
  · next h => exact List.contains_iff_mem.mp h
  · simp

/-- An announcement takes nothing away. -/
theorem mem_announce_of_mem {s : State} {x : Nat × BeatKind} (n : Nat) (k : BeatKind) (h : x ∈ s.beat.announced) :
    x ∈ (s.announce n k).beat.announced := by
  unfold State.announce
  split
  · exact h
  · simp [h]

/-- LOSS_STATE is shown without a change of the beat. -/
@[simp] theorem State.showHold_beat (s : State) (v : Nat) : (s.showHold v).beat = s.beat := by
  unfold State.showHold; split <;> rfl

/-- What the source has announced outlasts the hold's own bookkeeping. -/
theorem mem_hold {s : State} {x : Nat × BeatKind}
    (h : x ∈ (if s.isSource && s.lossDue then s.announceLoss else s).beat.announced) : x ∈ s.hold.beat.announced := by
  unfold State.hold
  simp only []
  generalize (if s.isSource && s.lossDue then s.announceLoss else s) = s0 at h ⊢
  split
  · exact mem_announce_of_mem _ _ h
  · split <;> exact h

/-! ### The statement -/

/-- Every clause about POWER_EVAL. -/
theorem powerEval_settles (p : PowerSample) (s : State) : ∃ t, exec (.powerEval p) s = .next t ∧
    (let temps := p.sensors.zipIdx.map (fun x => s.calibrated x.2 x.1)
     t.beat.thermalLimit = s.nextLimit temps) ∧
    t.param P.powerCapEffective = min (s.param P.powerCap) t.beat.thermalLimit ∧
    t.param P.thermalState = (if t.beat.thermalLimit < 2500 then 1 else 0) ∧
    t.param P.idleRequest = stepTowards (s.param P.idleRequest) (idleFor (s.calibratedPower 0 p.busy)
      (s.calibratedPower 0 p.idle) (65536 * t.param P.powerCapEffective)) ∧
    (s.beat.thermalLimit = 2500 → t.beat.thermalLimit < 2500 → ∃ fs, LastEvent t Ev.thermalThrottle fs) ∧
    (s.beat.thermalLimit < 2500 → t.beat.thermalLimit = 2500 → LastEvent t Ev.thermalClear []) ∧
    t.beat.count = s.beat.count ∧ t.beat.kind = s.beat.kind ∧ SameData s t ∧ t.job = s.job ∧ t.adm = s.adm := by
  obtain ⟨hb, hd, hj, ha⟩ := setLimit_frame s (p.sensors.zipIdx.map (fun x => s.calibrated x.2 x.1))
  obtain ⟨hs, hc⟩ := setLimit_params s (p.sensors.zipIdx.map (fun x => s.calibrated x.2 x.1))
  obtain ⟨he, hf⟩ := setLimit_events s (p.sensors.zipIdx.map (fun x => s.calibrated x.2 x.1))
  refine ⟨_, rfl, ?_⟩
  generalize p.sensors.zipIdx.map (fun x => s.calibrated x.2 x.1) = ts at *
  have hl : (s.setLimit ts).beat.thermalLimit = s.nextLimit ts := by rw [hb]
  have hcap : (s.setLimit ts).effectiveCap = min (s.param P.powerCap) (s.nextLimit ts) := by
    unfold State.effectiveCap; rw [hc, hl]
  refine ⟨hl, ?_, ?_, ?_, ?_, ?_, by simp [hb], by simp [hb], hd, hj, ha⟩
  · rw [State.param_setParam_ne _ _ (by decide), State.param_setParam_self, hcap]
    simp [hb]
  · rw [State.param_setParam_ne _ _ (by decide), State.param_setParam_ne _ _ (by decide), hs]
    simp [hb]
  · rw [State.param_setParam_self, State.param_setParam_ne _ _ (by decide), State.param_setParam_self]
  · exact fun h h' => he h (by simpa [hb] using h')
  · exact fun h h' => hf h (by simpa [hb] using h')


/-- The model's next limit is the one of R483. -/
theorem nextLimit_eq (s : State) (ts : List Int) : s.nextLimit ts =
    (if ∃ x ∈ ts, 64 * (s.param P.throttleTemp : Int) ≤ x then max 500 (s.beat.thermalLimit - 100)
     else if ∀ x ∈ ts, x ≤ 64 * ((s.param P.throttleTemp : Int) - 5) then min 2500 (s.beat.thermalLimit + 100)
     else s.beat.thermalLimit) := by
  unfold State.nextLimit
  simp only [List.any_eq_true, List.all_eq_true, decide_eq_true_eq]

/-- A child missing at four boundaries is declared lost, once (R446). -/
theorem deviceLost_settles (l : LinkId) (s : State) :
    (l.val ∈ s.beat.children → 4 ≤ s.beat.missing.getD l.val 0 → l.val ∉ s.beat.lostChildren →
      ∃ t, exec (.deviceLost l) s = .next t ∧ t.beat = { s.beat with lostChildren := s.beat.lostChildren ++ [l.val] } ∧
        (∀ e, s.beat.lastEcho.find? l.val = some e →
          LastEvent t Ev.deviceLost [(2, s.param (P.partnerId l.val)), (8, e.jobBeat), (2, e.subtreeCount)]) ∧
        SameData s t ∧ t.job = s.job) ∧
    (l.val ∉ s.beat.children ∨ s.beat.missing.getD l.val 0 < 4 ∨ l.val ∈ s.beat.lostChildren →
      exec (.deviceLost l) s = .next s) := by
  have hx : exec (.deviceLost l) s = execDeviceLost l s := rfl
  rw [hx]
  unfold execDeviceLost
  constructor
  · intro hc hm hl
    rw [if_pos ⟨by simpa using hc, hm, by simpa using hl⟩]
    refine ⟨_, rfl, by simp, fun e he => ?_, by simp [SameData], by simp⟩
    rw [he]
    exact lastEvent_event _ _ _
  · intro h
    rw [if_neg]
    simp only [List.contains_eq_mem, decide_eq_true_eq, Bool.not_eq_true', decide_eq_false_iff_not, not_and, not_not]
    intro hc hm
    rcases h with h | h | h
    · exact absurd hc h
    · omega
    · exact h

/-- A hold that has had its beats expires (R447). -/
theorem lossHoldExpired_settles (s : State) :
    (s.beat.holdBeats ≠ 0 → s.param P.lossHoldBeats ≤ s.beat.holdBeats → s.beat.holdExpired = false →
      s.res.lossApplied = none →
      ∃ t, exec .lossHoldExpired s = .next t ∧ t.beat = { s.beat with holdExpired := true } ∧
        t.param P.lossState = (if s.param P.lossState = 3 then 3 else 0) ∧
        LastEvent t Ev.lossHoldExpired [] ∧ SameData s t ∧ t.job = s.job) ∧
    (s.beat.holdBeats = 0 ∨ s.beat.holdBeats < s.param P.lossHoldBeats ∨ s.beat.holdExpired = true ∨
        s.res.lossApplied ≠ none →
      exec .lossHoldExpired s = .next s) := by
  have hx : exec .lossHoldExpired s = execLossHoldExpired s := rfl
  rw [hx]
  unfold execLossHoldExpired
  constructor
  · intro hh hm he hl
    rw [if_pos ⟨hh, hm, by simp [he], by simp [hl]⟩]
    have hp : ∀ (r : State) b, (State.event { r with beat := b } Ev.lossHoldExpired []).param P.lossState =
        r.param P.lossState := fun r b => State.param_event _ _ _ (notEventCount (by decide))
    refine ⟨_, rfl, ?_, ?_, lastEvent_event _ _ _, ?_, ?_⟩
    · split <;> simp
    · rw [hp]
      split
      · assumption
      · simp
    · split <;> simp [SameData]
    · split <;> simp
  · intro h
    rw [if_neg]
    rintro ⟨hh, hm, he, hl⟩
    rcases h with h | h | h | h
    · exact hh h
    · omega
    · simp [h] at he
    · exact h (by simpa using hl)

/-- Where a loss is due, the two boundaries after it are announced as CATCH_UP (R449). -/
theorem hold_announces (s : State) (hs : s.isSource = true) (hd : s.lossDue = true) :
    (s.beat.count + 1, BeatKind.catchUp) ∈ s.hold.beat.announced ∧
      (s.beat.count + 2, BeatKind.catchUp) ∈ s.hold.beat.announced := by
  have hc : (s.announce (s.beat.count + 1) .catchUp).beat.count = s.beat.count := by
    unfold State.announce; split <;> rfl
  constructor <;> refine mem_hold ?_ <;> rw [if_pos (by simp [hs, hd])] <;> unfold State.announceLoss
  · exact mem_announce_of_mem _ _ (mem_announce s _ _)
  · exact mem_announce _ _ _

/-- A write of LOSS_APPLY_BEAT with a boundary that has passed is refused (R449). -/
theorem writeLossApply_settles (doe : Bool) (b : Nat) (s : State) :
    (b ≤ s.beat.count → (s.applyNumber doe P.lossApplyBeat b).param P.lossState = 3 ∧
      LastEvent (s.applyNumber doe P.lossApplyBeat b) Ev.lossRefused [(8, b)] ∧
      (s.applyNumber doe P.lossApplyBeat b).res.lossPending = none) ∧
    (s.beat.count < b → s.applyNumber doe P.lossApplyBeat b =
      { s.setParam P.lossApplyBeat b with res := { s.res with lossPending := some b } }) := by
  have hx : s.applyNumber doe P.lossApplyBeat b = s.writeLossApply b := rfl
  rw [hx]
  unfold State.writeLossApply
  constructor
  · intro h
    simp only [if_pos h]
    refine ⟨?_, lastEvent_event _ _ _, by simp [State.refuseLoss]⟩
    unfold State.refuseLoss
    rw [State.param_event _ _ _ (notEventCount (by decide)), State.param_setParam_self]
  · intro h
    simp only [if_neg (Nat.not_le.mpr h)]
    rfl

/-- A refused loss-apply beat shows in LOSS_STATE and the log, and changes nothing else. -/
theorem refuseLoss_frame (s : State) (b : Nat) : (s.refuseLoss b).param P.lossState = 3 ∧
    LastEvent (s.refuseLoss b) Ev.lossRefused [(8, b)] ∧ SameData s (s.refuseLoss b) ∧ (s.refuseLoss b).job = s.job ∧
    (s.refuseLoss b).beat = s.beat ∧ (s.refuseLoss b).res = s.res := by
  unfold State.refuseLoss
  refine ⟨?_, lastEvent_event _ _ _, by simp [SameData], by simp, by simp, by simp⟩
  rw [State.param_event _ _ _ (notEventCount (by decide)), State.param_setParam_self]

/-- A loss that is due is applied: the stand-in counts reach the tallies and the job ends after the step in progress (R449, R450). -/
theorem applyLoss_frame (s : State) (ha : s.jobActive = true) :
    s.applyLoss.res.lossApplied = some (s.param P.lossDevice) ∧ s.applyLoss.res.lossPending = none ∧
      s.applyLoss.param P.lossState = 2 ∧
      s.applyLoss.job = { s.job with lossEndStep := some (s.stepOf s.beat.jobBeat + 1) } ∧ s.applyLoss.beat = s.beat ∧
      LastEvent s.applyLoss Ev.lossApplied [(2, s.param P.lossDevice), (8, s.beat.count)] ∧ s.applyLoss.mem = s.mem ∧
      s.applyLoss.cells = s.cells ∧ ∀ d, { s.applyLoss.front d with tallies := (s.front d).tallies } = s.front d := by
  obtain ⟨he, hf⟩ := onlyTallies_standinAll s (s.param P.lossDevice) ha
  unfold State.applyLoss
  simp only []
  generalize allDies.foldl (fun (t : State) d => t.standinNow (s.param P.lossDevice) d) s = s1 at he hf ⊢
  refine ⟨by simp, by simp, ?_, ?_, ?_, lastEvent_event _ _ _, ?_, ?_, fun d => ?_⟩
  · rw [State.param_event _ _ _ (notEventCount (by decide)), State.param_setParam_self]
  · rw [State.event_job, State.setParam_job]; rw [he]
  · rw [State.event_beat, State.setParam_beat]; rw [he]
  · rw [State.event_mem, State.setParam_mem]; rw [he]
  · rw [State.event_cells, State.setParam_cells]; rw [he]
  · simpa [State.front] using hf d

/-- LOSS_APPLY applies a loss that is due, refuses one that is not, and waits for a boundary that is still to come (R449). -/
theorem lossApply_settles (s : State) :
    (s.res.lossPending = none → exec .lossApply s = .next s) ∧
    (∀ b, s.res.lossPending = some b → s.beat.count < b → exec .lossApply s = .next s) ∧
    (∀ b, s.res.lossPending = some b → b ≤ s.beat.count → s.lossDue = true → exec .lossApply s = .next s.applyLoss) ∧
    (∀ b, s.res.lossPending = some b → b ≤ s.beat.count → s.lossDue = false →
      exec .lossApply s = .next (State.refuseLoss { s with res := { s.res with lossPending := none } } b)) := by
  have hx : exec .lossApply s = execLossApply s := rfl
  rw [hx]
  unfold execLossApply
  refine ⟨fun h => by rw [h], fun b h hb => ?_, fun b h hb hd => ?_, fun b h hb hd => ?_⟩
  · rw [h]; simp only [if_pos hb]
  · rw [h]; simp only [if_neg (Nat.not_lt.mpr hb), if_pos hd]
  · rw [h]; simp only [if_neg (Nat.not_lt.mpr hb), hd, Bool.false_eq_true, if_false]

/-- When a loss is due. -/
theorem lossDue_iff (s : State) : s.lossDue = true ↔ s.res.lossPending = some s.beat.count ∧ s.jobActive = true ∧
    s.res.lossApplied = none ∧ s.beat.kind = .catchUp ∧ (s.isSource = true → s.beat.count ∈ s.beat.holdTicks) := by
  unfold State.lossDue State.holdBoundary
  cases s.isSource <;> simp [and_assoc]

/-- Settles O54: each command's clause by the lemma about that command. -/
theorem powerIsCappedAndLossesAreApplied : Obligations.PowerIsCappedAndLossesAreApplied := by
  unfold Obligations.PowerIsCappedAndLossesAreApplied
  refine ⟨fun p s => ?_, fun l s => deviceLost_settles l s, fun s => lossHoldExpired_settles s, hold_announces,
    fun doe b s => writeLossApply_settles doe b s, fun s => ?_⟩
  · obtain ⟨t, hx, hl, hcap, hst, hreq, hthr, hclr, hrest⟩ := powerEval_settles p s
    refine ⟨t, hx, hl.trans (nextLimit_eq s _), hcap, hst, fun k hk hfit hmin => ?_, hthr, hclr, hrest⟩
    rw [hreq, idleFor_eq hk hfit hmin]
    rfl
  · obtain ⟨hnone, hwait, hdue, hnot⟩ := lossApply_settles s
    refine ⟨hnone, hwait, fun hl ha hp hk hh => ?_, fun b hp hb hc => ?_⟩
    · have hd : s.lossDue = true := (lossDue_iff s).mpr ⟨hp, ha, hl, hk, hh⟩
      exact ⟨_, hdue _ hp le_rfl hd, applyLoss_frame s ha⟩
    · have hd : s.lossDue = false := by
        rw [← Bool.not_eq_true, lossDue_iff, hp]
        rintro ⟨h1, h2, h3, h4, h5⟩
        rcases hc with h | h | ⟨h, h'⟩ | h | h
        · exact h (Option.some.inj h1).symm
        · exact h h4
        · exact h' (h5 h)
        · simp [h] at h2
        · exact h h3
      exact ⟨_, hnot b hp hb hd, refuseLoss_frame _ b⟩

end Sys2Proof.Machine
end

section
/-! SUPPORT. What the transmitters and receivers of the links leave alone, and the flit that a free link sends (R365 to R369). -/

namespace Sys2Proof.Machine

/-! ### Only the links -/

/-- Only the records of the links, what has been sent and the count of free values differ. -/
def OnlyLinks (s t : State) : Prop :=
  ∃ ls o f, t = { s with fab := { s.fab with links := ls }, out := o, free := f }

theorem OnlyLinks.refl (s : State) : OnlyLinks s s := ⟨_, _, _, rfl⟩

theorem OnlyLinks.trans {s t u : State} (h : OnlyLinks s t) (h' : OnlyLinks t u) : OnlyLinks s u := by
  obtain ⟨ls, o, f, rfl⟩ := h
  obtain ⟨ls', o', f', rfl⟩ := h'
  exact ⟨ls', o', f', rfl⟩

theorem OnlyLinks.param {s t : State} (h : OnlyLinks s t) (k : Nat) : t.param k = s.param k := by
  obtain ⟨ls, o, f, rfl⟩ := h
  rfl

theorem onlyLinks_setLink (s : State) (n : Nat) (l : Link) : OnlyLinks s (s.setLink n l) := ⟨_, _, _, rfl⟩
theorem onlyLinks_emit (s : State) (o : Output) : OnlyLinks s (s.emit o) := ⟨_, _, _, rfl⟩
theorem onlyLinks_drawn (s : State) : OnlyLinks s s.drawn := ⟨_, _, _, rfl⟩

theorem onlyLinks_transmit (s : State) (n : Nat) (f : Flit) : OnlyLinks s (s.transmit n f) :=
  (onlyLinks_setLink s n _).trans (onlyLinks_emit _ _)

theorem onlyLinks_returnCredit (s : State) (x : Option (Nat × Nat)) : OnlyLinks s (s.returnCredit x) := by
  cases x with
  | none => exact OnlyLinks.refl s
  | some x => exact onlyLinks_setLink s x.1 _

theorem onlyLinks_drainQueue (fuel : Nat) (s : State) (n ctl : Nat) : OnlyLinks s (s.drainQueue n fuel ctl) := by
  induction fuel generalizing s ctl with
  | zero => exact OnlyLinks.refl s
  | succ fuel ih =>
    unfold State.drainQueue
    simp only []
    split
    · exact OnlyLinks.refl s
    · next w l1 _ =>
      have h1 : OnlyLinks s (if (s.link n).inputsMeet then s.drawn else s) := by
        split
        · exact onlyLinks_drawn s
        · exact OnlyLinks.refl s
      exact (((h1.trans (onlyLinks_setLink _ n l1)).trans (onlyLinks_transmit _ n w.flit)).trans
        (onlyLinks_returnCredit _ w.src)).trans (ih _ _)

theorem onlyLinks_push (s : State) (n : Nat) (w : Waiting) : OnlyLinks s (s.push n w) :=
  (onlyLinks_setLink s n _).trans (onlyLinks_drainQueue _ _ n 0)

/-- Sending a link-local flit. -/
theorem onlyLinks_sendLocal (s : State) (n : Nat) (launch : BitVec 6) (p : List Byte) : OnlyLinks s (s.sendLocal n launch p) := by
  unfold State.sendLocal
  split
  · exact onlyLinks_push s n _
  · exact OnlyLinks.refl s

/-- Consuming one. -/
theorem onlyLinks_rxLocal (s : State) (n : Nat) : OnlyLinks s (s.rxLocal n) := by
  refine OnlyLinks.trans ?_ (onlyLinks_returnCredit _ _)
  unfold State.rxGood
  simp only []
  split
  · exact ((onlyLinks_setLink s n _).trans (onlyLinks_setLink _ n _)).trans (onlyLinks_emit _ _)
  · exact onlyLinks_setLink s n _

/-! ### A free link sends at once (R369) -/

/-- Round the circle, the only number that waits is found. -/
theorem nextAfter_single {n v : Nat} (last : Nat) (h : v < n) : nextAfter n last [v] = some v := by
  have hm : v ∈ (List.range n).map (fun k => (last + 1 + k) % n) := by
    rw [List.mem_map]
    refine ⟨(v + n - (last + 1) % n) % n, List.mem_range.mpr (Nat.mod_lt _ (by omega)), ?_⟩
    have hlt : (last + 1) % n < n := Nat.mod_lt _ (by omega)
    rw [Nat.add_mod, Nat.mod_mod, Nat.add_mod_mod,
      show (last + 1) % n + (v + n - (last + 1) % n) = v + n by omega, Nat.add_mod_right, Nat.mod_eq_of_lt h]
  unfold nextAfter
  cases hf : ((List.range n).map (fun k => (last + 1 + k) % n)).find? (fun u => [v].contains u) with
  | none => exact absurd (List.find?_eq_none.mp hf v hm) (by simp)
  | some u => simpa using List.find?_some hf

/-- A link with one CTL flit of its own in its queue, with credit and with room in the retry buffer, sends that flit next. -/
theorem pick_single (l : Link) (w : Waiting) (aged : Bool) (hq : l.queue = [w]) (hc : flitChannel w.flit = 6) (hi : w.input = 0)
    (hs : l.canSend 6 = true) : ∃ l1, l.pick 0 aged = some (w, l1) ∧ l1.txSeq = l.txSeq := by
  have hr : l.readyChannels = [6] := by
    unfold Link.readyChannels
    simp [hq, hc, hs, List.range_succ]
  have hn : l.nextChannel 0 = some 6 := by
    unfold Link.nextChannel
    simp [hr, nextAfter_single]
  have hin : l.nextInput 6 aged = 0 := by
    unfold Link.nextInput
    simp [hq, hc, hi, nextAfter_single]
  unfold Link.pick
  rw [hn]
  simp only [hin, hq, List.find?_singleton, hc, hi]
  by_cases ht : timingFlit w.flit = true
  · simp [ht, hs]
  · simp [ht]

/-- One slot of a link whose pick is known sends that flit under the link's next number. -/
theorem drainQueue_one_out (s : State) (n : Nat) (w : Waiting) (hn : w.src = none)
    (hp : ∀ aged, ∃ l1, (s.link n).pick 0 aged = some (w, l1) ∧ l1.txSeq = (s.link n).txSeq) :
    Output.flit n (flitBytes (s.link n).txSeq w.flit) ∈ (s.drainQueue n 1 0).out := by
  obtain ⟨l1, h1, h2⟩ := hp ((s.link n).inputsMeet && s.freeWord.getLsbD 0)
  unfold State.drainQueue
  simp only [h1, hn, State.returnCredit, State.drainQueue, State.transmit, State.link_setLink_self, h2]
  simp

/-- A link-local flit of CTL goes out at once on a link that carries it, is free, and has credit and room (R368, R369). -/
theorem sendLocal_out (s : State) (n : Nat) (launch : BitVec 6) (p : List Byte) (hl : (s.link n).carriesLocal = true)
    (hq : (s.link n).queue = []) (hc : 0 < (s.link n).credits.getD 6 0) (hr : (s.link n).retry.length < 512) :
    Output.flit n (flitBytes (s.link n).txSeq (s.localFlit n launch p)) ∈ (s.sendLocal n launch p).out := by
  unfold State.sendLocal State.push State.pump
  rw [if_pos hl]
  simp only [hq, List.nil_append, State.link_setLink_self, List.length_singleton]
  refine cast (by rw [State.link_setLink_self]) (drainQueue_one_out (s.setLink n { s.link n with queue := [_] }) n
    ⟨none, 0, s.localFlit n launch p⟩ rfl (fun aged => ?_))
  rw [State.link_setLink_self]
  exact pick_single _ _ aged rfl rfl rfl (by simp [Link.canSend] at hc ⊢; exact ⟨hc, hr⟩)

end Sys2Proof.Machine
end

section
/-! SUPPORT. Markers and echoes: the election, the echo of a beat, and what a marker and an echo received do (R42 to R50). -/

namespace Sys2Proof.Machine

open Sys2Proof

/-! ### Only parameters -/

/-- Only numeric parameters differ. -/
def OnlyParams (s t : State) : Prop := ∃ ps, t = { s with dict := { s.dict with params := ps } }

theorem OnlyParams.trans {s t u : State} (h : OnlyParams s t) (h' : OnlyParams t u) : OnlyParams s u := by
  obtain ⟨ps, rfl⟩ := h
  obtain ⟨ps', rfl⟩ := h'
  exact ⟨ps', rfl⟩

theorem onlyParams_setParam (s : State) (k v : Nat) : OnlyParams s (s.setParam k v) := ⟨_, rfl⟩

theorem onlyParams_setRole (s : State) (src role link depth latency : Nat) :
    OnlyParams s (s.setRole src role link depth latency) :=
  ((((onlyParams_setParam s _ src).trans (onlyParams_setParam _ _ role)).trans (onlyParams_setParam _ _ link)).trans
    (onlyParams_setParam _ _ _)).trans (onlyParams_setParam _ _ latency)

/-- An election posts its result in parameters (R43). -/
theorem onlyParams_elect (s : State) : OnlyParams s s.elect := by
  unfold State.elect
  split
  · exact onlyParams_setRole s _ _ _ _ _
  · split
    · exact onlyParams_setRole s _ _ _ _ _
    · split
      · exact onlyParams_setRole s _ _ _ _ _
      · split <;> exact onlyParams_setRole s _ _ _ _ _

@[simp] theorem State.elect_beat (s : State) : s.elect.beat = s.beat := by
  obtain ⟨ps, h⟩ := onlyParams_elect s; rw [h]
@[simp] theorem State.elect_fe (s : State) : s.elect.fe = s.fe := by
  obtain ⟨ps, h⟩ := onlyParams_elect s; rw [h]
@[simp] theorem State.elect_mem (s : State) : s.elect.mem = s.mem := by
  obtain ⟨ps, h⟩ := onlyParams_elect s; rw [h]
@[simp] theorem State.elect_job (s : State) : s.elect.job = s.job := by
  obtain ⟨ps, h⟩ := onlyParams_elect s; rw [h]
@[simp] theorem State.elect_log (s : State) : s.elect.log = s.log := by
  obtain ⟨ps, h⟩ := onlyParams_elect s; rw [h]

/-! ### The echo of a beat (R47, R50) -/

/-- An echo changes the links, parameters, and of the beat that it has been sent and, at the source, the aggregate. -/
theorem sendEcho_frame (s : State) : ∃ ls o f ps a i, s.sendEcho =
    { s with fab := { s.fab with links := ls }, out := o, free := f, dict := { s.dict with params := ps },
             beat := { s.beat with echoSent := true, aggMissing := a, aggIdle := i } } := by
  unfold State.sendEcho
  simp only []
  split
  · exact ⟨_, _, _, _, _, _, rfl⟩
  · split
    · obtain ⟨ls, o, f, h⟩ := onlyLinks_sendLocal (State.drawn (State.setParam { s with beat := { s.beat with echoSent := true } }
        P.idleGranted (s.freeWord.toNat % 16))) (s.param P.beatParentLink) 0 (leBytes 32 (echoWord s.echoNow) ++ List.replicate 208 0)
      exact ⟨ls, o, f, _, _, _, h⟩
    · exact ⟨_, _, _, _, _, _, rfl⟩

/-- At the source the echo becomes the aggregate, and the largest request up to IDLE_MAX is granted. -/
theorem sendEcho_source (s : State) (h : s.isSource = true) :
    s.sendEcho.beat.aggMissing = s.echoNow.missingCount ∧
      s.sendEcho.param P.idleGranted = min s.echoNow.idleReq s.beat.idleMax := by
  unfold State.sendEcho
  simp only [h, if_true]
  exact ⟨rfl, State.param_setParam_self _ _ _⟩

/-- Elsewhere a free parent link carries it. -/
theorem sendEcho_out (s : State) (p : Nat) (hs : s.isSource = false) (hp : p = s.param P.beatParentLink) (h48 : p < 48)
    (hl : (s.link p).carriesLocal = true) (hq : (s.link p).queue = []) (hc : 0 < (s.link p).credits.getD 6 0)
    (hr : (s.link p).retry.length < 512) :
    ∃ h, Output.flit p (flitBytes (s.link p).txSeq ⟨h, leBytes 32 (echoWord s.echoNow) ++ List.replicate 208 0⟩) ∈
      s.sendEcho.out := by
  subst hp
  unfold State.sendEcho
  simp only [hs, Bool.false_eq_true, if_false, if_pos h48]
  exact ⟨_, sendLocal_out (State.drawn (State.setParam { s with beat := { s.beat with echoSent := true } } P.idleGranted
    (s.freeWord.toNat % 16))) _ 0 _ hl hq hc hr⟩

/-- Children counted as missing, one after the other. -/
def countMissing (m : AMap Nat) (ls : List Nat) : AMap Nat := ls.foldl (fun m l => AMap.set 0 m l (m.getD l 0 + 1)) m

theorem countMissing_getD (ls : List Nat) (m : AMap Nat) (l : Nat) :
    (countMissing m ls).getD l 0 = m.getD l 0 + ls.count l := by
  induction ls generalizing m with
  | nil => rfl
  | cons a ls ih =>
    have hc : countMissing m (a :: ls) = countMissing (AMap.set 0 m a (m.getD a 0 + 1)) ls := rfl
    rw [hc, ih, List.count_cons]
    by_cases h : l = a
    · subst h
      rw [AMap.getD_set_self, beq_self_eq_true, if_pos rfl]
      omega
    · rw [AMap.getD_set_ne _ _ _ _ h, if_neg (by simpa using Ne.symm h), Nat.add_zero]

/-- At the deadline the fold over the missing children counts each of them. -/
theorem deadline_fold (ls : List Nat) (s : State) :
    ls.foldl (fun (t : State) l =>
      { t with beat := { t.beat with missing := AMap.set 0 t.beat.missing l (t.beat.missing.getD l 0 + 1) } }) s =
    { s with beat := { s.beat with missing := countMissing s.beat.missing ls } } := by
  induction ls generalizing s with
  | nil => rfl
  | cons a ls ih => rw [List.foldl_cons, ih]; rfl

/-- An echo that is due goes out once, and at the deadline the missing children are counted first. -/
theorem exec_echo (c : Instr) (s : State)
    (h : c = .echoDeadline ∧ s.beat.echoSent = false ∨ c = .echoSend ∧ s.echoDue = true) :
    ∃ m, exec c s = .next (State.sendEcho { s with beat := { s.beat with missing := m } }) ∧
      ∀ l, m.getD l 0 = s.beat.missing.getD l 0 + (if c = .echoDeadline then s.missingChildren.count l else 0) := by
  rcases h with ⟨rfl, h⟩ | ⟨rfl, h⟩
  · refine ⟨countMissing s.beat.missing s.missingChildren, ?_, fun l => ?_⟩
    · have hx : exec .echoDeadline s = execEchoDeadline s := rfl
      rw [hx, execEchoDeadline, if_neg (by simp [h]), deadline_fold]
    · rw [countMissing_getD, if_pos rfl]
  · refine ⟨s.beat.missing, ?_, fun l => rfl⟩
    have hx : exec .echoSend s = .next s.tryEcho := rfl
    rw [hx, State.tryEcho, if_pos h]

/-- Without anything due, the two commands change nothing. -/
theorem exec_echo_none (s : State) : (s.beat.echoSent = true → exec .echoDeadline s = .next s) ∧
    (s.echoDue = false → exec .echoSend s = .next s) := by
  constructor
  · intro h
    have hx : exec .echoDeadline s = execEchoDeadline s := rfl
    rw [hx, execEchoDeadline, if_pos h]
  · intro h
    have hx : exec .echoSend s = .next s.tryEcho := rfl
    rw [hx, State.tryEcho, if_neg (by simp [h])]

/-- The first clause: what an echo leaves, and what it does at the source. -/
theorem echo_settles (c : Instr) (s : State)
    (h : c = .echoDeadline ∧ s.beat.echoSent = false ∨ c = .echoSend ∧ s.echoDue = true) :
    ∃ t, exec c s = .next t ∧ t.beat.echoSent = true ∧
      (s.isSource = true → t.beat.aggMissing = s.missingChildren.length + (s.beat.echoes.map (·.2.missingCount)).sum ∧
        t.param P.idleGranted = min ((s.beat.echoes.map (·.2.idleReq)).foldl max (s.param P.idleRequest)) s.beat.idleMax) ∧
      (∀ l, t.beat.missing.getD l 0 =
        s.beat.missing.getD l 0 + (if c = .echoDeadline then s.missingChildren.count l else 0)) ∧
      t.beat.count = s.beat.count ∧ t.beat.kind = s.beat.kind ∧ t.fe = s.fe ∧ t.mem = s.mem ∧ t.job = s.job ∧ t.log = s.log := by
  obtain ⟨m, hx, hm⟩ := exec_echo c s h
  obtain ⟨ls, o, f, ps, a, i, he⟩ := sendEcho_frame { s with beat := { s.beat with missing := m } }
  refine ⟨_, hx, ?_, fun hs => ?_, ?_⟩
  · rw [he]
  · obtain ⟨h1, h2⟩ := sendEcho_source { s with beat := { s.beat with missing := m } } hs
    rw [h1, h2]
    simp only [State.echoNow, List.map_map]
    exact ⟨rfl, rfl⟩
  · rw [he]
    exact ⟨hm, rfl, rfl, rfl, rfl, rfl, rfl⟩

/-- The second clause: the echo flit of a device that is not the source. -/
theorem echoFlit_settles (c : Instr) (p : Nat) (s : State)
    (h : c = .echoDeadline ∧ s.beat.echoSent = false ∨ c = .echoSend ∧ s.echoDue = true) (hs : s.isSource = false)
    (hp : p = s.param P.beatParentLink) (h48 : p < 48) (hl : (s.link p).carriesLocal = true) (hq : (s.link p).queue = [])
    (hc : 0 < (s.link p).credits.getD 6 0) (hr : (s.link p).retry.length < 512) :
    ∃ t h e, exec c s = .next t ∧
      Output.flit p (flitBytes (s.link p).txSeq ⟨h, leBytes 32 (echoWord e) ++ List.replicate 208 0⟩) ∈ t.out ∧
      e.senderId = s.param P.deviceId ∧ e.overrun = (s.beat.overrun || s.beat.echoes.any (·.2.overrun)) ∧
      e.haltReq = (s.haltHeld || s.beat.echoes.any (·.2.haltReq)) ∧
      e.idleReq = (s.beat.echoes.map (·.2.idleReq)).foldl max (s.param P.idleRequest) ∧
      e.subtreeCount = 1 + (s.beat.echoes.map (·.2.subtreeCount)).sum ∧
      e.missingCount = s.missingChildren.length + (s.beat.echoes.map (·.2.missingCount)).sum ∧
      e.beatCount = s.beat.count ∧ (s.jobActive = true → e.jobBeat = s.beat.jobBeat ∧ e.jobTag = s.runningTag) ∧
      (s.jobActive = false → e.jobBeat = 0 ∧ e.jobTag = 0) := by
  obtain ⟨m, hx, -⟩ := exec_echo c s h
  obtain ⟨hd, ho⟩ := sendEcho_out { s with beat := { s.beat with missing := m } } p hs hp h48 hl hq hc hr
  refine ⟨_, hd, s.echoNow, hx, ho, rfl, ?_, ?_, ?_, ?_, ?_, rfl, fun ha => ?_, fun ha => ?_⟩
  · simp [State.echoNow, List.any_map, Function.comp_def]
  · simp [State.echoNow, List.any_map, Function.comp_def]
  · simp [State.echoNow, Function.comp_def]
  · simp [State.echoNow, Function.comp_def]
  · simp [State.echoNow, Function.comp_def]
  · simp [State.echoNow, State.shownBeat, State.shownTag, ha]
  · simp [State.echoNow, State.shownBeat, State.shownTag, ha]

end Sys2Proof.Machine
end

section
/-! SUPPORT. Changes of all four front ends at once, and violations of a link. -/

namespace Sys2Proof.Machine

open Sys2Proof

/-! ### All four front ends -/

@[simp] theorem Quad.get_map {α β : Type} (f : α → β) (q : Quad α) (d : DieId) : (q.map f).get d = f (q.get d) := by
  match d with
  | 0 => rfl
  | 1 => rfl
  | 2 => rfl
  | 3 => rfl

/-- One change of every front end, die after die. -/
theorem foldl_modFront (s : State) (g : FrontEnd → FrontEnd) :
    allDies.foldl (fun (t : State) d => t.modFront d g) s = { s with fe := s.fe.map g } := rfl

@[simp] theorem State.modFront_jobActive (s : State) (d : DieId) (g : FrontEnd → FrontEnd) :
    (s.modFront d g).jobActive = s.jobActive := rfl

/-- Whether a job runs is read from the job alone. -/
theorem State.jobActive_congr {s t : State} (h : t.job = s.job) : t.jobActive = s.jobActive := by
  unfold State.jobActive; rw [h]

/-- While a job runs, a request of the device as a whole is held by every die (R536). -/
theorem requestHaltAll_active (s : State) (h : s.jobActive = true) :
    s.requestHaltAll = { s with fe := s.fe.map (fun f => { f with haltReq := true }) } := by
  unfold State.requestHaltAll
  simp only [allDies, List.foldl_cons, List.foldl_nil, State.requestHalt, State.modFront_jobActive, h, if_true]
  rfl

/-- With no job running nothing is held. -/
theorem requestHaltAll_inactive (s : State) (h : s.jobActive = false) : s.requestHaltAll = s := by
  simp [State.requestHaltAll, allDies, State.requestHalt_inactive _ _ h]

/-- A halt request of the device with its event: it is logged, every die holds it while a job runs, and only the log's own
parameters change. -/
theorem haltEvent_frame (s : State) (c : Nat) : LastEvent (s.event c []).requestHaltAll c [] ∧
    (s.event c []).requestHaltAll.beat = s.beat ∧ (s.event c []).requestHaltAll.mem = s.mem ∧
    (s.event c []).requestHaltAll.job = s.job ∧
    (s.jobActive = true → ∀ x, ((s.event c []).requestHaltAll.front x).haltReq = true) ∧
    (s.jobActive = false → (s.event c []).requestHaltAll.fe = s.fe) ∧
    ∀ k, (∀ x : EvClass, k ≠ P.eventCountInfo x.code) → (s.event c []).requestHaltAll.param k = s.param k := by
  have hj : (s.event c []).jobActive = s.jobActive := State.jobActive_congr (State.event_job s c [])
  refine ⟨lastEvent_congr (State.requestHaltAll_log _) (lastEvent_event s c []), by simp, by simp, by simp, fun ha x => ?_,
    fun ha => ?_, fun k hk => ?_⟩
  · rw [requestHaltAll_active _ (hj.trans ha)]
    simp [State.front]
  · rw [requestHaltAll_inactive _ (hj.trans ha), State.event_fe]
  · rw [State.param_congr (State.requestHaltAll_dict _), State.param_event _ _ _ hk]

/-! ### Violations -/

/-- An event that is limited in rate leaves every parameter alone but the counts of events. -/
theorem State.param_limited (s : State) (c r k n : Nat) (g : Nat → List (Nat × Nat)) {j : Nat}
    (h : ∀ x : EvClass, j ≠ P.eventCountInfo x.code) : (s.limited c r k n g).param j = s.param j := by
  have hl : ∀ (hs : HostState) (d : List Byte), (State.log' { s with host := hs } c r d).param j = s.param j := fun hs d =>
    (State.param_congr (State.logRecord_dict _ _) j).trans (State.param_bump_ne { s with host := hs } 1 (h _))
  unfold State.limited
  simp only []
  split
  · split
    · exact hl _ _
    · rfl
  · exact hl _ _

theorem onlyLinks_purgeRouted (s : State) (n : Nat) : OnlyLinks s (s.purgeRouted n false) := by
  unfold State.purgeRouted
  refine List.foldlRecOn _ _ (motive := OnlyLinks s) (onlyLinks_setLink s n _) (fun t ht w _ => ?_)
  exact ht.trans (onlyLinks_returnCredit t _)

/-- A violation of a link is counted and its code posted; beat, front ends, memories and job stand. -/
theorem violate_frame (s : State) (n code : Nat) (hdr : W64) (hn : n < 48) :
    (s.violate n code hdr).param (P.lastViolation n) = code ∧
      (s.violate n code hdr).param (P.linkViolations n) = (s.param (P.linkViolations n) + 1) % paramModulus (P.linkViolations n) ∧
      (s.violate n code hdr).beat = s.beat ∧ (s.violate n code hdr).fe = s.fe ∧ (s.violate n code hdr).mem = s.mem ∧
      (s.violate n code hdr).job = s.job := by
  have h1 : ∀ x : EvClass, P.lastViolation n ≠ P.eventCountInfo x.code :=
    notEventCount (.inl (by simp only [P.lastViolation, P.eventCountInfo]; omega))
  have h2 : ∀ x : EvClass, P.linkViolations n ≠ P.eventCountInfo x.code :=
    notEventCount (.inl (by simp only [P.linkViolations, P.eventCountInfo]; omega))
  have h3 : P.linkViolations n ≠ P.lastViolation n := by simp only [P.linkViolations, P.lastViolation]; omega
  have hu1 : ∀ x : State, ∀ v, (((x.bump (P.linkViolations n) 1).setParam (P.lastViolation n) code).limited Ev.linkViolation
      hubSource n 1 v).param (P.lastViolation n) = code := fun x v => by
    rw [State.param_limited _ _ _ _ _ _ h1, State.param_setParam_self]
  have hu2 : ∀ (l : Link) v, ((((s.setLink n l).bump (P.linkViolations n) 1).setParam (P.lastViolation n) code).limited
      Ev.linkViolation hubSource n 1 v).param (P.linkViolations n) =
        (s.param (P.linkViolations n) + 1) % paramModulus (P.linkViolations n) := fun l v => by
    rw [State.param_limited _ _ _ _ _ _ h2, State.param_setParam_ne _ _ h3, State.param_bump_self]
    rfl
  unfold State.violate
  simp only []
  split
  · have hv := fun u : State => (onlyLinks_purgeRouted u n).trans (onlyLinks_setLink _ n
      { (u.purgeRouted n false).link n with phase := .quarantined })
    refine ⟨?_, ?_, ?_⟩
    · rw [State.param_event _ _ _ h1, (hv _).param]
      exact hu1 _ _
    · rw [State.param_event _ _ _ h2, (hv _).param]
      exact hu2 _ _
    · obtain ⟨ls, o, f, h⟩ := hv _
      rw [h]
      simp
  · exact ⟨hu1 _ _, hu2 _ _, by simp, by simp, by simp, by simp⟩

end Sys2Proof.Machine
end

section
/-! SUPPORT. Markers received, and echoes received (R24, R38, R44, R45, R47, R49, R272). -/

namespace Sys2Proof.Machine

open Sys2Proof

/-! ### Kinds by their codes (R25) -/

theorem kindOf_reserved {n : Nat} (h : 4 < n) : kindOf n = none := by
  match n, h with
  | n + 5, _ => rfl

theorem kindOf_defined {n : Nat} (h : n ≤ 4) : ∃ k, kindOf n = some k := by
  interval_cases n <;> exact ⟨_, rfl⟩

/-! ### The claim of a marker -/

/-- The claims after a marker's has been taken in: one of priority 0 is none. -/
def claimsWith (cs : AMap Claim) (n : Nat) (m : MarkerF) : AMap Claim :=
  if m.sourcePriority = 0 then cs.erase n else cs.insert n ⟨m.sourceId, m.sourcePriority, m.depth, m.pathLatency⟩

theorem claimsWith_find? (cs : AMap Claim) (n : Nat) (m : MarkerF) : (claimsWith cs n m).find? n =
    (if m.sourcePriority = 0 then none else some ⟨m.sourceId, m.sourcePriority, m.depth, m.pathLatency⟩) := by
  unfold claimsWith
  split
  · exact AMap.find?_erase_self _ _
  · exact AMap.find?_insert_self _ _ _

/-- A claim changes parameters, and of the beat what is known of neighbours. -/
theorem takeClaim_frame (s : State) (n : Nat) (m : MarkerF) : ∃ ps mi ch, s.takeClaim n m =
    { s with dict := { s.dict with params := ps },
             beat := { s.beat with claims := claimsWith s.beat.claims n m, mismatched := mi, children := ch } } := by
  have hc : (if m.sourcePriority = 0 then s.beat.claims.erase n
      else s.beat.claims.insert n ⟨m.sourceId, m.sourcePriority, m.depth, m.pathLatency⟩) = claimsWith s.beat.claims n m := rfl
  unfold State.takeClaim
  simp only [hc]
  generalize claimsWith s.beat.claims n m = cs
  obtain ⟨ps, h⟩ := onlyParams_elect { s with beat := { s.beat with
    claims := cs, mismatched := s.beat.mismatched.filter (· != n) } }
  rw [h]
  split
  · exact ⟨ps, _, _, rfl⟩
  · exact ⟨ps, _, _, rfl⟩

/-! ### The parent's marker -/

/-- A correction changes two parameters and the correction itself (R45). -/
theorem correctPhase_frame (s : State) (c : Int) :
    s.correctPhase c = { s with beat := { s.beat with correction := c }, dict := (s.correctPhase c).dict, free := s.free + 1 } ∧
      (-32768 ≤ c → c ≤ 32767 → (s.correctPhase c).param P.beatLastCorrection = rawInt 16 c) ∧
      ∀ k, k ≠ P.beatLastCorrection → k ≠ P.beatMaxCorrection → (s.correctPhase c).param k = s.param k := by
  unfold State.correctPhase
  simp only []
  refine ⟨rfl, fun h1 h2 => ?_, fun k h1 h2 => ?_⟩
  · rw [State.param_congr (State.drawn_dict _), State.param_setParam_ne _ _ (by decide), State.param_setParam_self,
      if_pos ⟨h1, h2⟩]
  · rw [State.param_congr (State.drawn_dict _), State.param_setParam_ne _ _ h2, State.param_setParam_ne _ _ h1]
    rfl

/-- The parameters by which a device finds its parent. -/
def IsRoleParam (k : Nat) : Prop := k = P.beatRole ∨ k = P.beatParentLink

theorem IsRoleParam.notCount {k : Nat} (h : IsRoleParam k) (x : EvClass) : k ≠ P.eventCountInfo x.code := by
  rcases h with rfl | rfl
  · exact notEventCount (by decide) x
  · exact notEventCount (by decide) x

/-- A correction within a quarter of the guard, or with no job, is applied; a larger one halts the job (R45). -/
theorem align_cases (s : State) (c : Int) :
    (c.natAbs ≤ s.beat.guard / 4 ∨ s.jobActive = false → s.align c = s.correctPhase c) ∧
      (s.beat.guard / 4 < c.natAbs → s.jobActive = true → s.align c = (s.event Ev.beatSkew []).requestHaltAll) := by
  unfold State.align
  constructor
  · intro h
    rw [if_pos (by simpa using h)]
  · intro h ha
    rw [if_neg (by simp [ha]; omega)]

/-- Another tag in the marker of START_BEAT halts the job; any other marker passes (R272). -/
theorem tagCheck_cases (s : State) (m : MarkerF) :
    (s.jobActive = false → s.tagCheck m = s) ∧
      (∀ d, s.job.desc = some d → (m.beatCount = d.startBeat → m.jobTag = d.jobTag) → s.tagCheck m = s) ∧
      ∀ d, s.job.desc = some d → s.jobActive = true → m.beatCount = d.startBeat → m.jobTag ≠ d.jobTag →
        s.tagCheck m = (s.event Ev.jobTagMismatch []).requestHaltAll := by
  unfold State.tagCheck
  refine ⟨fun ha => ?_, fun d hd h => ?_, fun d hd ha h1 h2 => ?_⟩
  · split <;> simp [ha]
  · rw [hd]
    simp only [Bool.and_eq_true, beq_iff_eq, bne_iff_ne]
    rw [if_neg]
    rintro ⟨⟨-, h1⟩, h2⟩
    exact h2 (h h1)
  · rw [hd]
    simp [ha, h1, h2]

/-- What the phase and the tag of a parent's marker can change at most. -/
def ParentKeeps (s t : State) : Prop := t.mem = s.mem ∧ t.job = s.job ∧
  t.beat = { s.beat with correction := t.beat.correction } ∧ ∀ k, IsRoleParam k → t.param k = s.param k

theorem ParentKeeps.refl (s : State) : ParentKeeps s s := ⟨rfl, rfl, rfl, fun _ _ => rfl⟩

theorem ParentKeeps.trans {s t u : State} (h : ParentKeeps s t) (h' : ParentKeeps t u) : ParentKeeps s u := by
  obtain ⟨hm, hj, hb, hp⟩ := h
  obtain ⟨hm', hj', hb', hp'⟩ := h'
  refine ⟨hm'.trans hm, hj'.trans hj, ?_, fun k hk => (hp' k hk).trans (hp k hk)⟩
  rw [hb', hb]

theorem parentKeeps_haltEvent (s : State) (c : Nat) : ParentKeeps s (s.event c []).requestHaltAll := by
  obtain ⟨-, hb, hm, hj, -, -, hp⟩ := haltEvent_frame s c
  exact ⟨hm, hj, by rw [hb], fun k hk => hp k hk.notCount⟩

theorem parentKeeps_align (s : State) (c : Int) : ParentKeeps s (s.align c) := by
  unfold State.align
  split
  · obtain ⟨he, -, hp⟩ := correctPhase_frame s c
    refine ⟨by rw [he], by rw [he], by rw [he], fun k hk => ?_⟩
    rcases hk with rfl | rfl <;> exact hp _ (by decide) (by decide)
  · exact parentKeeps_haltEvent s _

theorem parentKeeps_tagCheck (s : State) (m : MarkerF) : ParentKeeps s (s.tagCheck m) := by
  unfold State.tagCheck
  split
  · split
    · exact parentKeeps_haltEvent s _
    · exact ParentKeeps.refl s
  · exact ParentKeeps.refl s

/-- The beat as a parent's marker sets it: with no job its count, with one the kind of the next boundary. -/
def State.heedParent (s : State) (m : MarkerF) (next : BeatKind) : State :=
  { s with beat := { s.beat with markersMissed := 0, count := if s.jobActive then s.beat.count else m.beatCount,
                                 nextKind := if s.jobActive then next else s.beat.nextKind } }

theorem takeParent_eq (s : State) (m : MarkerF) (next : BeatKind) (launch : BitVec 6) (c : Int) :
    s.takeParent m next launch c =
      (if launch = 63 then s.heedParent m next else (s.heedParent m next).align c).tagCheck m := rfl

theorem parentKeeps_takeParent (s : State) (m : MarkerF) (next : BeatKind) (launch : BitVec 6) (c : Int) :
    ParentKeeps (s.heedParent m next) (s.takeParent m next launch c) := by
  rw [takeParent_eq]
  refine ParentKeeps.trans ?_ (parentKeeps_tagCheck _ m)
  split
  · exact ParentKeeps.refl _
  · exact parentKeeps_align _ c

/-- With no job the phase follows the parent whatever the error, and no halt is asked for. -/
theorem takeParent_inactive (s : State) (m : MarkerF) (next : BeatKind) (launch : BitVec 6) (c : Int) (ha : s.jobActive = false) :
    (s.takeParent m next launch c).fe = s.fe ∧
      (launch ≠ 63 → (s.takeParent m next launch c).beat.correction = c ∧
        (-32768 ≤ c → c ≤ 32767 → (s.takeParent m next launch c).param P.beatLastCorrection = rawInt 16 c)) := by
  have hs : (s.heedParent m next).jobActive = false := ha
  have hal := (align_cases (s.heedParent m next) c).1 (.inr hs)
  obtain ⟨he, hl, -⟩ := correctPhase_frame (s.heedParent m next) c
  have hj : ((s.heedParent m next).correctPhase c).jobActive = false := by rw [he]; exact hs
  rw [takeParent_eq, hal]
  by_cases h63 : launch = 63
  · rw [if_pos h63, (tagCheck_cases _ m).1 hs]
    exact ⟨rfl, fun h => absurd h63 h⟩
  · rw [if_neg h63, (tagCheck_cases _ m).1 hj]
    exact ⟨by rw [he]; rfl, fun _ => ⟨by rw [he], hl⟩⟩

/-- In a running job another tag at START_BEAT halts it. -/
theorem takeParent_mistagged (s : State) (m : MarkerF) (next : BeatKind) (launch : BitVec 6) (c : Int) (d : JobDesc)
    (ha : s.jobActive = true) (hd : s.job.desc = some d) (hb : m.beatCount = d.startBeat) (ht : m.jobTag ≠ d.jobTag) :
    LastEvent (s.takeParent m next launch c) Ev.jobTagMismatch [] ∧
      ∀ x, ((s.takeParent m next launch c).front x).haltReq = true := by
  have hk : ParentKeeps (s.heedParent m next)
      (if launch = 63 then s.heedParent m next else (s.heedParent m next).align c) := by
    split
    · exact ParentKeeps.refl _
    · exact parentKeeps_align _ c
  rw [takeParent_eq]
  generalize (if launch = 63 then s.heedParent m next else (s.heedParent m next).align c) = u at hk
  have hj : u.job = s.job := hk.2.1
  have hau : u.jobActive = true := (State.jobActive_congr hj).trans ha
  rw [(tagCheck_cases u m).2.2 d (by rw [hj, hd]) hau hb ht]
  obtain ⟨hl, -, -, -, hh, -, -⟩ := haltEvent_frame u Ev.jobTagMismatch
  exact ⟨hl, hh hau⟩

/-- In a running job an error within a quarter of the guard is corrected, and a larger one halts the job. -/
theorem takeParent_aligned (s : State) (m : MarkerF) (next : BeatKind) (launch : BitVec 6) (c : Int) (d : JobDesc)
    (ha : s.jobActive = true) (hd : s.job.desc = some d) (ht : m.beatCount = d.startBeat → m.jobTag = d.jobTag)
    (h63 : launch ≠ 63) :
    (c.natAbs ≤ s.beat.guard / 4 → (s.takeParent m next launch c).beat.correction = c ∧
      (s.takeParent m next launch c).fe = s.fe) ∧
    (s.beat.guard / 4 < c.natAbs → (s.takeParent m next launch c).beat.correction = s.beat.correction ∧
      LastEvent (s.takeParent m next launch c) Ev.beatSkew [] ∧
      ∀ x, ((s.takeParent m next launch c).front x).haltReq = true) := by
  have hk := parentKeeps_align (s.heedParent m next) c
  obtain ⟨h1, h2⟩ := align_cases (s.heedParent m next) c
  rw [takeParent_eq, if_neg h63, (tagCheck_cases _ m).2.1 d (by rw [hk.2.1]; exact hd) ht]
  constructor
  · intro hc
    obtain ⟨he, -, -⟩ := correctPhase_frame (s.heedParent m next) c
    rw [h1 (.inl hc), he]
    exact ⟨rfl, rfl⟩
  · intro hc
    obtain ⟨hl, hb, -, -, hh, -, -⟩ := haltEvent_frame (s.heedParent m next) Ev.beatSkew
    rw [h2 hc ha]
    exact ⟨by rw [hb]; rfl, hl, hh ha⟩

end Sys2Proof.Machine
end

section
/-! SUPPORT. The commands of markers and echoes, case by case (R24, R38, R44, R45, R47, R49, R50, R272). -/

namespace Sys2Proof.Machine

open Sys2Proof

/-! ### BEAT_MARKER -/

/-- Which of its four ways a marker goes: dropped, a violation, not followed, or taken. -/
theorem exec_beatMarker (l : LinkId) (m : MarkerF) (launch : BitVec 6) (c : Int) (s : State) :
    ((s.link l.val).carriesLocal = false → exec (.beatMarker l m launch c) s = .next s) ∧
    ((s.link l.val).carriesLocal = true → (4 < m.thisKind ∨ 4 < m.nextKind) → exec (.beatMarker l m launch c) s =
      .next (((s.rxLocal l.val).violate l.val 5 ((s.rxLocal l.val).receivedHeader launch)).drawn)) ∧
    (∀ k, (s.link l.val).carriesLocal = true → m.thisKind ≤ 4 → kindOf m.nextKind = some k →
      (2 ^ m.beatLog2 ≠ s.beat.cycles ∨ 256 * m.guardDiv256 ≠ s.beat.guard) → exec (.beatMarker l m launch c) s =
      .next (((s.rxLocal l.val).hearSource l.val m).configMismatch l.val)) ∧
    (∀ k t, (s.link l.val).carriesLocal = true → m.thisKind ≤ 4 → kindOf m.nextKind = some k →
      2 ^ m.beatLog2 = s.beat.cycles → 256 * m.guardDiv256 = s.beat.guard →
      t = ((s.rxLocal l.val).hearSource l.val m).takeClaim l.val m → exec (.beatMarker l m launch c) s =
      .next (if t.param P.beatRole = 2 ∧ t.param P.beatParentLink = l.val then t.takeParent m k launch c else t)) := by
  have hx : exec (.beatMarker l m launch c) s = execBeatMarker l m launch c s := rfl
  rw [hx]
  unfold execBeatMarker
  simp only []
  refine ⟨fun hl => ?_, fun hl hk => ?_, fun k hl ht hk hc => ?_, fun k t hl ht hk h1 h2 e => ?_⟩
  · rw [hl, if_pos (by rfl)]
  · rw [hl, if_neg (by decide)]
    rcases hk with hk | hk
    · rw [kindOf_reserved hk]
    · rw [kindOf_reserved hk]
      split <;> simp_all
  · obtain ⟨k', hk'⟩ := kindOf_defined ht
    rw [hl, if_neg (by decide), hk, hk']
    simp only [if_pos hc]
  · obtain ⟨k', hk'⟩ := kindOf_defined ht
    rw [hl, if_neg (by decide), hk, hk', e]
    simp only [h1, h2, ne_eq, not_true_eq_false, or_self, if_false]
    split <;> rfl

/-- A marker of a reserved kind is a violation of code 5 and leaves the beat alone. -/
theorem reservedMarker_settles (l : LinkId) (m : MarkerF) (launch : BitVec 6) (c : Int) (s : State)
    (hl : (s.link l.val).carriesLocal = true) (hk : 4 < m.thisKind ∨ 4 < m.nextKind) :
    ∃ t, exec (.beatMarker l m launch c) s = .next t ∧ t.param (P.lastViolation l.val) = 5 ∧
      t.param (P.linkViolations l.val) = (s.param (P.linkViolations l.val) + 1) % paramModulus (P.linkViolations l.val) ∧
      t.beat = s.beat ∧ t.fe = s.fe ∧ t.mem = s.mem ∧ t.job = s.job := by
  obtain ⟨-, hv, -, -⟩ := exec_beatMarker l m launch c s
  refine ⟨_, hv hl hk, ?_⟩
  have hr := onlyLinks_rxLocal s l.val
  obtain ⟨h1, h2, hb, hf, hm, hj⟩ := violate_frame (s.rxLocal l.val) l.val 5 ((s.rxLocal l.val).receivedHeader launch) l.isLt
  rw [hr.param] at h2
  refine ⟨(State.param_congr (State.drawn_dict _) _).trans h1, (State.param_congr (State.drawn_dict _) _).trans h2, ?_⟩
  obtain ⟨ls, o, f, e⟩ := hr
  rw [State.drawn_beat, State.drawn_fe, State.drawn_mem, State.drawn_job, hb, hf, hm, hj, e]
  exact ⟨rfl, rfl, rfl, rfl⟩

/-- A source whose period or guard is another's has no claim, and is logged unless it has been already (R24). -/
theorem configMismatch_frame (s : State) (n : Nat) : (s.configMismatch n).beat.claims.find? n = none ∧
    (s.configMismatch n).beat = { s.beat with claims := s.beat.claims.erase n, mismatched := (s.configMismatch n).beat.mismatched } ∧
    (s.configMismatch n).fe = s.fe ∧ (s.configMismatch n).mem = s.mem ∧
    (n ∉ s.beat.mismatched → LastEvent (s.configMismatch n) Ev.beatConfigMismatch []) ∧
    (n ∈ s.beat.mismatched → (s.configMismatch n).log = s.log) := by
  unfold State.configMismatch
  simp only []
  split
  · next h =>
    have h' : n ∈ s.beat.mismatched := List.contains_iff_mem.mp h
    simp [AMap.find?_erase_self, h']
  · next h =>
    have h' : n ∉ s.beat.mismatched := fun h' => h (List.contains_iff_mem.mpr h')
    refine ⟨by simp [AMap.find?_erase_self], by simp, by simp, by simp, fun _ => ?_, fun h => absurd h h'⟩
    exact lastEvent_congr (State.elect_log _) (lastEvent_event _ _ _)

/-- A marker of another period or guard is not followed, and is logged the first time (R24). -/
theorem mismatch_settles (l : LinkId) (m : MarkerF) (launch : BitVec 6) (c : Int) (s : State)
    (hl : (s.link l.val).carriesLocal = true) (ht : m.thisKind ≤ 4) (hn : m.nextKind ≤ 4)
    (hc : 2 ^ m.beatLog2 ≠ s.beat.cycles ∨ 256 * m.guardDiv256 ≠ s.beat.guard) :
    ∃ t, exec (.beatMarker l m launch c) s = .next t ∧ t.beat.claims.find? l.val = none ∧ t.beat.count = s.beat.count ∧
      t.beat.nextKind = s.beat.nextKind ∧ t.fe = s.fe ∧ t.mem = s.mem ∧
      (l.val ∉ s.beat.mismatched → LastEvent t Ev.beatConfigMismatch []) ∧ (l.val ∈ s.beat.mismatched → t.log = s.log) := by
  obtain ⟨k, hk⟩ := kindOf_defined hn
  obtain ⟨-, -, hv, -⟩ := exec_beatMarker l m launch c s
  refine ⟨_, hv k hl ht hk hc, ?_⟩
  obtain ⟨hf, hb, hfe, hm, h1, h2⟩ := configMismatch_frame ((s.rxLocal l.val).hearSource l.val m) l.val
  obtain ⟨ls, o, f, e⟩ := onlyLinks_rxLocal s l.val
  rw [e] at hf hb hfe hm h1 h2 ⊢
  exact ⟨hf, by rw [hb]; rfl, by rw [hb]; rfl, hfe, hm, h1, h2⟩

/-- A marker that agrees is known as its sender's claim, and on the parent link the device follows it (R44, R45, R272). -/
theorem takenMarker_settles (l : LinkId) (m : MarkerF) (launch : BitVec 6) (c : Int) (s : State) (k : BeatKind)
    (hl : (s.link l.val).carriesLocal = true) (ht : m.thisKind ≤ 4) (hk : kindOf m.nextKind = some k)
    (h1 : 2 ^ m.beatLog2 = s.beat.cycles) (h2 : 256 * m.guardDiv256 = s.beat.guard) :
    ∃ t, exec (.beatMarker l m launch c) s = .next t ∧ t.mem = s.mem ∧
      t.beat.claims.find? l.val = (if m.sourcePriority = 0 then none
        else some ⟨m.sourceId, m.sourcePriority, m.depth, m.pathLatency⟩) ∧
      (t.param P.beatRole ≠ 2 ∨ t.param P.beatParentLink ≠ l.val →
        t.beat.count = s.beat.count ∧ t.beat.nextKind = s.beat.nextKind ∧ t.fe = s.fe ∧ t.log = s.log) ∧
      (t.param P.beatRole = 2 → t.param P.beatParentLink = l.val → t.beat.markersMissed = 0 ∧
        (s.jobActive = false → t.beat.count = m.beatCount ∧ t.fe = s.fe ∧
          (launch ≠ 63 → t.beat.correction = c ∧
            (-32768 ≤ c → c ≤ 32767 → t.param P.beatLastCorrection = rawInt 16 c))) ∧
        (s.jobActive = true → t.beat.count = s.beat.count ∧ t.beat.nextKind = k ∧
          (∀ d, s.job.desc = some d → m.beatCount = d.startBeat → m.jobTag ≠ d.jobTag →
            LastEvent t Ev.jobTagMismatch [] ∧ ∀ x, (t.front x).haltReq = true) ∧
          (∀ d, s.job.desc = some d → (m.beatCount = d.startBeat → m.jobTag = d.jobTag) → launch ≠ 63 →
            (c.natAbs ≤ s.beat.guard / 4 → t.beat.correction = c ∧ t.fe = s.fe) ∧
            (s.beat.guard / 4 < c.natAbs → t.beat.correction = s.beat.correction ∧
              LastEvent t Ev.beatSkew [] ∧ ∀ x, (t.front x).haltReq = true)))) := by
  obtain ⟨ls, o, f, er⟩ := onlyLinks_rxLocal s l.val
  obtain ⟨ps, mi, ch, eu⟩ := takeClaim_frame ((s.rxLocal l.val).hearSource l.val m) l.val m
  have hx := (exec_beatMarker l m launch c s).2.2.2 k _ hl ht hk h1 h2 rfl
  generalize hu : ((s.rxLocal l.val).hearSource l.val m).takeClaim l.val m = u at hx eu
  rw [er] at eu
  have hc : u.beat.claims.find? l.val = (if m.sourcePriority = 0 then none
      else some ⟨m.sourceId, m.sourcePriority, m.depth, m.pathLatency⟩) := by
    rw [eu]; exact claimsWith_find? s.beat.claims l.val m
  have hb : u.beat.count = s.beat.count ∧ u.beat.nextKind = s.beat.nextKind ∧ u.beat.guard = s.beat.guard ∧
      u.beat.correction = s.beat.correction := by rw [eu]; exact ⟨rfl, rfl, rfl, rfl⟩
  have hf : u.fe = s.fe ∧ u.log = s.log ∧ u.mem = s.mem ∧ u.job = s.job := by rw [eu]; exact ⟨rfl, rfl, rfl, rfl⟩
  clear hu er eu
  obtain ⟨hbc, hbk, hbg, hbx⟩ := hb
  obtain ⟨hfe, hlog, hmem, hjob⟩ := hf
  have hj : u.jobActive = s.jobActive := State.jobActive_congr hjob
  refine ⟨_, hx, ?_⟩
  by_cases hp : u.param P.beatRole = 2 ∧ u.param P.beatParentLink = l.val
  · rw [if_pos hp]
    obtain ⟨hm, -, hbt, hpar⟩ := parentKeeps_takeParent u m k launch c
    refine ⟨hm.trans hmem, by rw [hbt]; exact hc, fun h => ?_, fun _ _ => ⟨by rw [hbt]; rfl, fun ha => ?_, fun ha => ?_⟩⟩
    · rcases h with h | h
      · exact absurd ((hpar _ (.inl rfl)).trans hp.1) h
      · exact absurd ((hpar _ (.inr rfl)).trans hp.2) h
    · obtain ⟨h3, h4⟩ := takeParent_inactive u m k launch c (hj.trans ha)
      exact ⟨by rw [hbt]; simp [State.heedParent, hj.trans ha], h3.trans hfe, h4⟩
    · refine ⟨?_, ?_, fun d hd => ?_, fun d hd htag h63 => ?_⟩
      · rw [hbt]; simp [State.heedParent, hj.trans ha, hbc]
      · rw [hbt]; simp [State.heedParent, hj.trans ha]
      · exact takeParent_mistagged u m k launch c d (hj.trans ha) (by rw [hjob, hd])
      · have h := takeParent_aligned u m k launch c d (hj.trans ha) (by rw [hjob, hd]) htag h63
        rwa [hbg, hbx, hfe] at h
  · rw [if_neg hp]
    exact ⟨hmem, hc, fun _ => ⟨hbc, hbk, hfe, hlog⟩, fun h h' => absurd ⟨h, h'⟩ hp⟩

/-! ### BEAT_MARKER_LOST -/

/-- Four boundaries without a parent's marker are logged and halt a running job (R49). -/
theorem markerLost_settles (s : State) :
    (s.param P.beatRole = 2 → 4 ≤ s.beat.markersMissed →
      ∃ t, exec .beatMarkerLost s = .next t ∧ t.beat.markersMissed = 0 ∧ LastEvent t Ev.beatMarkerLost [] ∧
        t.beat.claims.find? (s.param P.beatParentLink) = none ∧ t.beat.count = s.beat.count ∧
        (s.jobActive = true → ∀ x, (t.front x).haltReq = true) ∧ (s.jobActive = false → t.fe = s.fe) ∧ t.mem = s.mem ∧
        t.job = s.job) ∧
    (s.param P.beatRole ≠ 2 ∨ s.beat.markersMissed < 4 → exec .beatMarkerLost s = .next s) := by
  have hx : exec .beatMarkerLost s = execBeatMarkerLost s := rfl
  rw [hx]
  unfold execBeatMarkerLost
  constructor
  · intro hr hm
    rw [if_pos ⟨hr, hm⟩]
    obtain ⟨hl, hb, hmem, hjob, hact, hin, -⟩ := haltEvent_frame s Ev.beatMarkerLost
    generalize (s.event Ev.beatMarkerLost []).requestHaltAll = u at hl hb hmem hjob hact hin ⊢
    refine ⟨_, rfl, by simp, lastEvent_congr (t := State.elect _) (by rw [State.elect_log]) hl,
      by simp [AMap.find?_erase_self], by simp [hb], fun ha x => ?_, fun ha => ?_, by simp [hmem], by simp [hjob]⟩
    · have h := hact ha x
      unfold State.front at h ⊢
      rwa [State.elect_fe]
    · rw [State.elect_fe]
      exact hin ha
  · intro h
    rw [if_neg (by omega)]

/-! ### BEAT_ECHO -/

/-- An announcement changes what has been announced alone. -/
theorem announce_frame (s : State) (n : Nat) (k : BeatKind) :
    ∃ a, s.announce n k = { s with beat := { s.beat with announced := a } } := by
  unfold State.announce
  split
  · exact ⟨s.beat.announced, rfl⟩
  · exact ⟨_, rfl⟩

/-- The announcement of a CATCH_UP, and at the source of a running job that it stands for one of the next two boundaries (R38). -/
theorem announceCatchUp_frame (s : State) : (∃ a, s.announceCatchUp = { s with beat := { s.beat with announced := a } }) ∧
    (s.isSource = true → s.jobActive = true → (s.beat.count + 1, BeatKind.catchUp) ∈ s.announceCatchUp.beat.announced ∨
      (s.beat.count + 2, BeatKind.catchUp) ∈ s.announceCatchUp.beat.announced) := by
  unfold State.announceCatchUp
  split
  · next h =>
    refine ⟨⟨s.beat.announced, rfl⟩, fun hs ha => .inl ?_⟩
    simpa [hs, ha] using h
  · exact ⟨announce_frame s _ _, fun _ _ => .inr (mem_announce s _ _)⟩

/-- The announcement of a HALT for the boundary after the next (R41); it takes nothing away. -/
theorem announceHalt_frame (s : State) : (∃ a, s.announceHalt = { s with beat := { s.beat with announced := a } }) ∧
    (s.isSource = true → s.jobActive = true → (s.beat.count + 2, BeatKind.halt) ∈ s.announceHalt.beat.announced) ∧
    ∀ x ∈ s.beat.announced, x ∈ s.announceHalt.beat.announced := by
  unfold State.announceHalt
  split
  · exact ⟨announce_frame s _ _, fun _ _ => mem_announce s _ _, fun x hx => mem_announce_of_mem _ _ hx⟩
  · next h =>
    exact ⟨⟨s.beat.announced, rfl⟩, fun hs ha => absurd (by simp [hs, ha]) h, fun x hx => hx⟩

/-- The echo that may follow changes the links, parameters, and of the beat that it was sent and the aggregate. -/
theorem tryEcho_frame (s : State) : ∃ ls o f ps e a i, s.tryEcho =
    { s with fab := { s.fab with links := ls }, out := o, free := f, dict := { s.dict with params := ps },
             beat := { s.beat with echoSent := e, aggMissing := a, aggIdle := i } } := by
  unfold State.tryEcho
  split
  · obtain ⟨ls, o, f, ps, a, i, h⟩ := sendEcho_frame s
    exact ⟨ls, o, f, ps, true, a, i, h⟩
  · exact ⟨s.fab.links, s.out, s.free, s.dict.params, s.beat.echoSent, s.beat.aggMissing, s.beat.aggIdle, rfl⟩

/-- What an echo of the current boundary makes the source announce (R38, R41). -/
def State.heedEcho (s : State) (e : EchoF) : State :=
  let s1 := if e.overrun then s.announceCatchUp else s
  if e.haltReq then s1.announceHalt else s1

theorem heedEcho_frame (s : State) (e : EchoF) : (∃ a, s.heedEcho e = { s with beat := { s.beat with announced := a } }) ∧
    (s.isSource = true → s.jobActive = true →
      (e.overrun = true → (s.beat.count + 1, BeatKind.catchUp) ∈ (s.heedEcho e).beat.announced ∨
        (s.beat.count + 2, BeatKind.catchUp) ∈ (s.heedEcho e).beat.announced) ∧
      (e.haltReq = true → (s.beat.count + 2, BeatKind.halt) ∈ (s.heedEcho e).beat.announced)) := by
  obtain ⟨⟨a, hu⟩, hcu⟩ : (∃ a, (if e.overrun then s.announceCatchUp else s) = { s with beat := { s.beat with announced := a } }) ∧
      (s.isSource = true → s.jobActive = true → e.overrun = true →
        (s.beat.count + 1, BeatKind.catchUp) ∈ (if e.overrun then s.announceCatchUp else s).beat.announced ∨
        (s.beat.count + 2, BeatKind.catchUp) ∈ (if e.overrun then s.announceCatchUp else s).beat.announced) := by
    split
    · exact ⟨(announceCatchUp_frame s).1, fun hs ha _ => (announceCatchUp_frame s).2 hs ha⟩
    · next h => exact ⟨⟨s.beat.announced, rfl⟩, fun _ _ h' => absurd h' h⟩
  unfold State.heedEcho
  simp only []
  generalize (if e.overrun then s.announceCatchUp else s) = u at hu hcu
  split
  · obtain ⟨⟨b, hb⟩, hh, hk⟩ := announceHalt_frame u
    refine ⟨⟨b, by rw [hb, hu]⟩, fun hs ha => ⟨fun ho => ?_, fun _ => ?_⟩⟩
    · exact (hcu hs ha ho).imp (hk _) (hk _)
    · rw [hu] at hh ⊢
      exact hh hs ha
  · next h => exact ⟨⟨a, hu⟩, fun hs ha => ⟨hcu hs ha, fun h' => absurd h' h⟩⟩

/-- An echo of another boundary is consumed only; one of the current boundary is kept (R47), and heeded at the source. -/
theorem exec_beatEcho (l : LinkId) (e : EchoF) (s : State) :
    ((s.link l.val).carriesLocal = false → exec (.beatEcho l e) s = .next s) ∧
    ((s.link l.val).carriesLocal = true → e.beatCount ≠ s.beat.count → exec (.beatEcho l e) s = .next (s.rxLocal l.val)) ∧
    ((s.link l.val).carriesLocal = true → e.beatCount = s.beat.count → exec (.beatEcho l e) s =
      .next ((((s.rxLocal l.val).noteEcho l.val e).heedEcho e).tryEcho)) := by
  have hx : exec (.beatEcho l e) s = execBeatEcho l e s := rfl
  rw [hx]
  unfold execBeatEcho
  simp only []
  refine ⟨fun hl => ?_, fun hl he => ?_, fun hl he => ?_⟩
  · rw [hl, if_pos (by rfl)]
  · rw [hl, if_neg (by decide), if_pos he]
  · rw [hl, if_neg (by decide), if_neg (by simpa using he)]
    rfl

theorem beatEcho_settles (l : LinkId) (e : EchoF) (s : State) (hl : (s.link l.val).carriesLocal = true) :
    ∃ t, exec (.beatEcho l e) s = .next t ∧ t.fe = s.fe ∧ t.mem = s.mem ∧
      t.job = s.job ∧ t.log = s.log ∧ t.beat.count = s.beat.count ∧
      (e.beatCount ≠ s.beat.count → t.beat = s.beat) ∧
      (e.beatCount = s.beat.count → t.beat.echoes.find? l.val = some e ∧ t.beat.lastEcho.find? l.val = some e ∧
        t.beat.missing.getD l.val 0 = 0 ∧ l.val ∈ t.beat.children ∧ l.val ∉ t.beat.lostChildren ∧
        (s.isSource = true → s.jobActive = true →
          (e.overrun = true → (s.beat.count + 1, BeatKind.catchUp) ∈ t.beat.announced ∨
            (s.beat.count + 2, BeatKind.catchUp) ∈ t.beat.announced) ∧
          (e.haltReq = true → (s.beat.count + 2, BeatKind.halt) ∈ t.beat.announced))) := by
  obtain ⟨-, hother, hnow⟩ := exec_beatEcho l e s
  obtain ⟨ls, o, f, er⟩ := onlyLinks_rxLocal s l.val
  by_cases he : e.beatCount = s.beat.count
  · refine ⟨_, hnow hl he, ?_⟩
    obtain ⟨⟨a, hh⟩, hann⟩ := heedEcho_frame ((s.rxLocal l.val).noteEcho l.val e) e
    obtain ⟨ls', o', f', ps, es, am, ai, ht⟩ := tryEcho_frame (((s.rxLocal l.val).noteEcho l.val e).heedEcho e)
    rw [ht]
    rw [hh] at hann ⊢
    rw [er] at hann ⊢
    refine ⟨rfl, rfl, rfl, rfl, rfl, fun h => absurd he h, fun _ => ⟨AMap.find?_insert_self _ _ _, AMap.find?_insert_self _ _ _, ?_, ?_,
      ?_, hann⟩⟩
    · simp [State.noteEcho, AMap.getD, AMap.find?_erase_self]
    · simp only [State.noteEcho]
      split
      · next h => exact List.contains_iff_mem.mp h
      · simp
    · simp [State.noteEcho]
  · refine ⟨_, hother hl he, ?_⟩
    rw [er]
    exact ⟨rfl, rfl, rfl, rfl, rfl, fun _ => rfl, fun h => absurd h he⟩

/-- Settles O53: echoes that go out, markers by the way they go, the loss of the parent's markers, and echoes received. -/
theorem markersAndEchoesKeepTheOrchard : Obligations.MarkersAndEchoesKeepTheOrchard := by
  unfold Obligations.MarkersAndEchoesKeepTheOrchard
  refine ⟨echo_settles, echoFlit_settles, exec_echo_none, fun l m launch c s => ⟨?_, ?_, ?_, ?_⟩, markerLost_settles,
    fun l e s => ⟨(exec_beatEcho l e s).1, beatEcho_settles l e s⟩⟩
  · exact (exec_beatMarker l m launch c s).1
  · exact reservedMarker_settles l m launch c s
  · exact mismatch_settles l m launch c s
  · exact fun k hl ht hk h1 h2 => takenMarker_settles l m launch c s k hl ht hk h1 h2

end Sys2Proof.Machine
end


section
/-! SUPPORT. What the hub's own work on requests, sequences, pages and external blocks leaves unchanged: one projection of the state,
and one equation per operation of the hub. -/

namespace Sys2Proof.Machine
open Sys2Proof

/-! ## The projection -/

/-- The counters that the hub's work on requests, pages and external blocks may advance. -/
def hubCounters : List Nat :=
  [P.kvReprefillTokens, P.kvPagesDropped, P.rowsDeferred, P.badEntryCount, P.memCorrectedCount, P.memUncorrectableCount,
   P.rindTagFails, P.sramUnwrittenReads] ++ (List.range 4).map P.eventCountInfo

/-- Every parameter but the hub's counters. -/
def DictState.beyondHub (d : DictState) (k : Nat) : Nat :=
  if k ∈ hubCounters then 0 else (d.params.find? k).getD (defaultParam k)

/-- What the hub's work on requests, sequences, pages and external blocks leaves unchanged. -/
structure HubFrame where
  pending : List Instr
  fe : Quad FrontEnd
  cells : CellState
  sram : Memory
  planStore : Memory
  flash : Memory
  beat : BeatState
  job : JobState
  plan : Option Nat
  matterWritten : Option MatterCmd
  matterTaken : Option MatterCmd
  matterDue : Option MatterCmd
  fab : FabState
  param : Nat → Nat
  ten : TenantState
  res : ResState
  dev : DevState
  feedId : Byte

/-- The part of a state that the hub's work leaves unchanged. -/
def State.hubFrame (s : State) : HubFrame :=
  ⟨s.pending, s.fe, s.cells, s.mem.sram, s.mem.plan, s.mem.flash, s.beat, s.job, s.adm.plan, s.adm.matterWritten,
   s.adm.matterTaken, s.adm.matterDue, s.fab, s.dict.beyondHub, s.ten, s.res, s.boot.dev, s.boot.feedId⟩

/-- The projection of a state written out by its fields. -/
@[simp] theorem hubFrame_mk (pending : List Instr) (fe : Quad FrontEnd) (cells : CellState) (mem : MemState) (rind : RindState)
    (beat : BeatState) (job : JobState) (adm : AdmState) (kv : KvState) (host : HostState) (fab : FabState) (dict : DictState)
    (log : LogState) (ten : TenantState) (res : ResState) (boot : BootState) (out : List Output) (free : Nat) :
    State.hubFrame ⟨pending, fe, cells, mem, rind, beat, job, adm, kv, host, fab, dict, log, ten, res, boot, out, free⟩ =
      ⟨pending, fe, cells, mem.sram, mem.plan, mem.flash, beat, job, adm.plan, adm.matterWritten, adm.matterTaken,
        adm.matterDue, fab, dict.beyondHub, ten, res, boot.dev, boot.feedId⟩ := rfl

/-- Fields read off one state make up its projection. -/
@[simp] theorem hubFrame_eta (s : State) :
    (⟨s.pending, s.fe, s.cells, s.mem.sram, s.mem.plan, s.mem.flash, s.beat, s.job, s.adm.plan, s.adm.matterWritten,
      s.adm.matterTaken, s.adm.matterDue, s.fab, s.dict.beyondHub, s.ten, s.res, s.boot.dev, s.boot.feedId⟩ : HubFrame) =
      s.hubFrame := rfl

/-- A fold of steps that each leave the frame unchanged leaves it unchanged. -/
theorem hubFrame_foldl {α : Type} (f : State → α → State) (l : List α) (s : State)
    (h : ∀ t, ∀ x ∈ l, (f t x).hubFrame = t.hubFrame) : (l.foldl f s).hubFrame = s.hubFrame := by
  induction l generalizing s with
  | nil => rfl
  | cons x l ih =>
    rw [List.foldl_cons, ih _ (fun t y hy => h t y (List.mem_cons_of_mem x hy)), h s x List.mem_cons_self]

theorem State.param_of_hubFrame {s t : State} (h : t.hubFrame = s.hubFrame) {k : Nat} (hk : k ∉ hubCounters) :
    t.param k = s.param k := by
  have hp : t.dict.beyondHub k = s.dict.beyondHub k := congrFun (congrArg HubFrame.param h) k
  unfold DictState.beyondHub at hp
  rwa [if_neg hk, if_neg hk] at hp

/-! ## Parameters and events -/

@[simp] theorem DictState.beyondHub_setParam (s : State) {k : Nat} (v : Nat) (hk : k ∈ hubCounters) :
    (s.setParam k v).dict.beyondHub = s.dict.beyondHub := by
  funext j
  unfold DictState.beyondHub
  split
  · rfl
  · next hj =>
    have hne : j ≠ k := fun h => hj (by rw [h]; exact hk)
    exact State.param_setParam_ne s v hne

theorem hubFrame_setParam (s : State) {k : Nat} (v : Nat) (hk : k ∈ hubCounters) :
    (s.setParam k v).hubFrame = s.hubFrame :=
  congrArg (fun p => { s.hubFrame with param := p }) (DictState.beyondHub_setParam s v hk)

theorem hubFrame_bump (s : State) {k : Nat} (n : Nat) (hk : k ∈ hubCounters) : (s.bump k n).hubFrame = s.hubFrame :=
  hubFrame_setParam s _ hk

@[simp] theorem hubFrame_drawn (s : State) : s.drawn.hubFrame = s.hubFrame := rfl

@[simp] theorem hubFrame_emit (s : State) (o : Output) : (s.emit o).hubFrame = s.hubFrame := rfl

@[simp] theorem hubFrame_signalEvent (s : State) : s.signalEvent.hubFrame = s.hubFrame := by
  unfold State.signalEvent State.signal
  split
  · rfl
  · split <;> rfl

theorem eventCount_mem_hubCounters (x : EvClass) : P.eventCountInfo x.code ∈ hubCounters := by
  refine List.mem_append_right _ (List.mem_map_of_mem (List.mem_range.2 ?_))
  cases x <;> decide

theorem hubFrame_logRecord (s : State) (x : EventRec) : (s.logRecord x).hubFrame = s.hubFrame := by
  have hd : (s.logRecord x).dict.beyondHub = s.dict.beyondHub := by
    rw [State.logRecord_dict]
    exact DictState.beyondHub_setParam s _ (eventCount_mem_hubCounters x.cls)
  unfold State.hubFrame
  rw [hd]
  simp only [State.logRecord_pending, State.logRecord_fe, State.logRecord_cells, State.logRecord_mem, State.logRecord_beat,
    State.logRecord_job, State.logRecord_adm, State.logRecord_fab, State.logRecord_ten, State.logRecord_res,
    State.logRecord_boot]

@[simp] theorem hubFrame_log' (s : State) (code source : Nat) (d : List Byte) : (s.log' code source d).hubFrame = s.hubFrame :=
  hubFrame_logRecord s _

@[simp] theorem hubFrame_event (s : State) (code : Nat) (l : List (Nat × Nat)) : (s.event code l).hubFrame = s.hubFrame :=
  hubFrame_log' s _ _ _

@[simp] theorem hubFrame_dieEvent (s : State) (d : DieId) (code : Nat) (l : List (Nat × Nat)) :
    (s.dieEvent d code l).hubFrame = s.hubFrame := hubFrame_log' s _ _ _

@[simp] theorem hubFrame_limited (s : State) (code source sub n : Nat) (l : Nat → List (Nat × Nat)) :
    (s.limited code source sub n l).hubFrame = s.hubFrame := by
  unfold State.limited
  dsimp only
  split
  · split
    · exact hubFrame_log' _ _ _ _
    · rfl
  · exact hubFrame_log' _ _ _ _

/-! ## Blocks of the external tiers -/

@[simp] theorem hubFrame_setTier (s : State) (lp : Bool) (m : Memory) : (s.setTier lp m).hubFrame = s.hubFrame := by
  unfold State.setTier; split <;> rfl

@[simp] theorem hubFrame_takeSweep (slot gen e n : Nat) (s : State) : (s.takeSweep slot gen e n).hubFrame = s.hubFrame := by
  induction n generalizing s with
  | zero => rfl
  | succ n ih =>
    unfold State.takeSweep
    split
    · exact ih _
    · rfl

@[simp] theorem hubFrame_fillSweeps (s : State) (e : Nat) : (s.fillSweeps e).hubFrame = s.hubFrame :=
  hubFrame_foldl _ _ _ (fun _ _ _ => hubFrame_takeSweep _ _ _ _ _)

@[simp] theorem hubFrame_keyedPage (s : State) (frame : Nat) : (s.keyedPage frame).hubFrame = s.hubFrame := by
  unfold State.keyedPage
  dsimp only
  split
  · rfl
  · exact hubFrame_fillSweeps _ _

@[simp] theorem hubFrame_leaveSweep (s : State) (frame old : Nat) : (s.leaveSweep frame old).hubFrame = s.hubFrame := by
  unfold State.leaveSweep
  dsimp only
  split
  · exact hubFrame_takeSweep _ _ _ _ _
  · rfl

@[simp] theorem hubFrame_markDone (s : State) (frame block : Nat) : (s.markDone frame block).hubFrame = s.hubFrame := by
  unfold State.markDone
  split
  · rfl
  · dsimp only
    split
    · split
      · exact hubFrame_keyedPage _ _
      · exact hubFrame_leaveSweep _ _ _
    · rfl

/-- Blocks that a write or a clearing repairs touch no memory of the frame. -/
theorem hubFrame_clearBlocks (s : State) (frame first n : Nat) :
    ({ s with mem := s.mem.clearBlocks frame first n } : State).hubFrame = s.hubFrame := rfl

@[simp] theorem hubFrame_extWriteBlock (s : State) (lp : Bool) (d : DieId) (b : Nat) (bytes : List Byte) :
    (s.extWriteBlock lp d b bytes).hubFrame = s.hubFrame := by
  unfold State.extWriteBlock
  dsimp only
  rw [hubFrame_markDone, hubFrame_clearBlocks, hubFrame_setTier]

@[simp] theorem hubFrame_extWrite (lp : Bool) (d : DieId) (fuel b : Nat) (bytes : List Byte) (s : State) :
    (s.extWrite lp d b bytes fuel).hubFrame = s.hubFrame := by
  induction fuel generalizing s b bytes with
  | zero => rfl
  | succ n ih =>
    unfold State.extWrite
    split
    · rfl
    · exact (ih _ _ _).trans (hubFrame_extWriteBlock _ _ _ _ _)

@[simp] theorem hubFrame_extPut (s : State) (lp : Bool) (d : DieId) (b : Nat) (bytes : List Byte) :
    (s.extPut lp d b bytes).hubFrame = s.hubFrame := hubFrame_extWrite _ _ _ _ _ _

@[simp] theorem hubFrame_clearPage (s : State) (frame : Nat) : (s.clearPage frame).hubFrame = s.hubFrame := by
  unfold State.clearPage
  dsimp only
  rw [hubFrame_clearBlocks, hubFrame_setTier]

@[simp] theorem hubFrame_keyWhole (s : State) (frame slot : Nat) : (s.keyWhole frame slot).hubFrame = s.hubFrame :=
  hubFrame_clearPage s frame

@[simp] theorem hubFrame_keyWholeRange (lp : Bool) (d : DieId) (slot n first : Nat) (s : State) :
    (s.keyWholeRange lp d first slot n).hubFrame = s.hubFrame := by
  induction n generalizing s first with
  | zero => rfl
  | succ n ih => exact (ih _ _).trans (hubFrame_keyWhole _ _ _)

@[simp] theorem hubFrame_keyingDeferred (s : State) (e : Nat) : (s.keyingDeferred e).hubFrame = s.hubFrame :=
  hubFrame_log' _ _ _ _

@[simp] theorem hubFrame_rekey (s : State) (frames : List Nat) (slot : Nat) : (s.rekey frames slot).hubFrame = s.hubFrame := rfl

/-! ## Errors that the hub meets -/

@[simp] theorem hubFrame_correctCtrl (s : State) (lp : Bool) (d : DieId) (b n ctrl : Nat) :
    (s.correctCtrl lp d b n ctrl).hubFrame = s.hubFrame := by
  unfold State.correctCtrl
  dsimp only
  split
  · rfl
  · rw [hubFrame_limited, hubFrame_bump _ _ (by decide)]

@[simp] theorem hubFrame_correctMem (s : State) (lp : Bool) (d : DieId) (b n : Nat) :
    (s.correctMem lp d b n).hubFrame = s.hubFrame := by
  unfold State.correctMem
  split
  · rfl
  · exact hubFrame_foldl _ _ _ (fun _ _ _ => hubFrame_correctCtrl _ _ _ _ _ _)

/-- A fault of an external block is one of an error or of a tag, neither of which asks for a halt. -/
theorem hubFrame_countTrip (s t : State) (lp : Bool) (d : DieId) (b : Nat) {x : Trip} (h : t.blockTrip lp d b = some x) :
    (s.countTrip d x).hubFrame = s.hubFrame := by
  unfold State.blockTrip at h
  dsimp only at h
  split at h
  · cases h
    exact hubFrame_bump _ _ (by decide)
  · obtain ⟨c, -, rfl⟩ := Option.map_eq_some_iff.1 h
    exact (hubFrame_dieEvent _ _ _ _).trans (hubFrame_bump _ _ (by decide))

@[simp] theorem hubFrame_hubMet (s : State) (lp : Bool) (blocks : List (DieId × Nat)) :
    (s.hubMet lp blocks).hubFrame = s.hubFrame := by
  have hs := hubFrame_foldl (fun (t : State) (x : DieId × Nat) => t.correctMem lp x.1 x.2 1) blocks s
    (fun _ _ _ => hubFrame_correctMem _ _ _ _ _)
  unfold State.hubMet
  dsimp only
  split
  · exact hs
  · refine (hubFrame_foldl _ _ _ fun t x hx => ?_).trans hs
    obtain ⟨y, -, hy⟩ := List.mem_filterMap.1 hx
    obtain ⟨z, hz, rfl⟩ := Option.map_eq_some_iff.1 hy
    exact hubFrame_countTrip t s lp y.1 y.2 hz

@[simp] theorem hubFrame_extMet (s : State) (lp : Bool) (d : DieId) (b n : Nat) : (s.extMet lp d b n).hubFrame = s.hubFrame :=
  hubFrame_hubMet _ _ _

@[simp] theorem hubFrame_windowMet (s : State) (o n : Nat) : (s.windowMet o n).hubFrame = s.hubFrame := hubFrame_hubMet _ _ _

@[simp] theorem hubFrame_hubPart (s : State) (lp : Bool) (d : DieId) (b : Nat) (bytes : List Byte) :
    (s.hubPart lp d b bytes).hubFrame = s.hubFrame := by
  unfold State.hubPart
  split
  · exact hubFrame_extWriteBlock _ _ _ _ _
  · split
    · next h => exact hubFrame_countTrip s s lp d _ h
    · rw [hubFrame_extWriteBlock, hubFrame_correctMem]

@[simp] theorem hubFrame_hubPut (s : State) (lp : Bool) (d : DieId) (b : Nat) (bytes : List Byte) :
    (s.hubPut lp d b bytes).hubFrame = s.hubFrame := hubFrame_foldl _ _ _ (fun _ _ _ => hubFrame_hubPart _ _ _ _ _)

/-! ## Rings -/

@[simp] theorem hubFrame_setRing (s : State) (r : Nat) (x : Ring) : (s.setRing r x).hubFrame = s.hubFrame := rfl

@[simp] theorem hubFrame_post (s : State) (id : EntryId) (a : Answer) : (s.post id a).hubFrame = s.hubFrame := by
  unfold State.post
  dsimp only
  split <;> rfl

@[simp] theorem hubFrame_postStatus (s : State) (id : EntryId) (opcode : Nat) (st : Status) :
    (s.postStatus id opcode st).hubFrame = s.hubFrame := hubFrame_post _ _ _

@[simp] theorem hubFrame_consume (s : State) (id : EntryId) : (s.consume id).hubFrame = s.hubFrame := rfl

@[simp] theorem hubFrame_badEntry (s : State) (id : EntryId) (opcode off : Nat) :
    (s.badEntry id opcode off).hubFrame = s.hubFrame := by
  unfold State.badEntry
  rw [hubFrame_limited, hubFrame_bump _ _ (by decide), hubFrame_post]

@[simp] theorem hubFrame_writeStatusLine (s : State) (k : Nat) : (s.writeStatusLine k).hubFrame = s.hubFrame := by
  unfold State.writeStatusLine
  dsimp only
  split <;> rfl

@[simp] theorem hubFrame_writeStatusLines (s : State) : s.writeStatusLines.hubFrame = s.hubFrame :=
  hubFrame_foldl _ _ _ (fun _ _ _ => hubFrame_writeStatusLine _ _)

end Sys2Proof.Machine
end


section
/-! SUPPORT. The hub's frame through the operations on sequences and page tables, on requests and on admission's own cycle. -/

namespace Sys2Proof.Machine
open Sys2Proof

/-! ## Sequences and page tables (R310 to R323) -/

@[simp] theorem hubFrame_modNext (s : State) (g : KvTables → KvTables) : (s.modNext g).hubFrame = s.hubFrame := rfl

theorem hubFrame_kv (s : State) (k : KvState) : ({ s with kv := k } : State).hubFrame = s.hubFrame := rfl

@[simp] theorem hubFrame_setSeq (s : State) (q : Nat) (r : SeqRec) : (s.setSeq q r).hubFrame = s.hubFrame := rfl

@[simp] theorem hubFrame_modSeq (s : State) (q : Nat) (g : SeqRec → SeqRec) : (s.modSeq q g).hubFrame = s.hubFrame := rfl

@[simp] theorem hubFrame_edits (s : State) (n : Nat) : (s.edits n).hubFrame = s.hubFrame := rfl

@[simp] theorem hubFrame_mapRow (s : State) (q n : Nat) : (s.mapRow q n).1.hubFrame = s.hubFrame := by
  unfold State.mapRow
  split
  · rfl
  · split
    · rfl
    · split
      · rfl
      · dsimp only
        split
        · exact hubFrame_keyingDeferred _ _
        · rw [hubFrame_edits, hubFrame_rekey, hubFrame_modSeq, hubFrame_modNext]

@[simp] theorem hubFrame_mapRows (q k n : Nat) (s : State) : (s.mapRows q n k).1.hubFrame = s.hubFrame := by
  induction k generalizing s n with
  | zero => rfl
  | succ k ih =>
    have h := hubFrame_mapRow s q n
    unfold State.mapRows
    split
    · next t ht => exact (ih _ _).trans (by rwa [ht] at h)
    · next t ht => rwa [ht] at h

@[simp] theorem hubFrame_dropRow (s : State) (q n : Nat) : (s.dropRow q n).hubFrame = s.hubFrame := by
  unfold State.dropRow
  split <;> rfl

@[simp] theorem hubFrame_dropRowsFrom (q n k : Nat) (s : State) : (s.dropRowsFrom q n k).hubFrame = s.hubFrame := by
  induction k generalizing s with
  | zero => rfl
  | succ k ih => exact (ih _).trans (hubFrame_dropRow _ _ _)

@[simp] theorem hubFrame_dropUntil (need log fuel : Nat) (s : State) : (s.dropUntil need log fuel).hubFrame = s.hubFrame := by
  induction fuel generalizing s with
  | zero => rfl
  | succ fuel ih =>
    unfold State.dropUntil
    split
    · rfl
    · split
      · rw [ih, hubFrame_bump _ _ (by decide), hubFrame_dropRow]
      · rfl

@[simp] theorem hubFrame_cover (s : State) (need log : Nat) : (s.cover need log).1.hubFrame = s.hubFrame := by
  unfold State.cover
  dsimp only
  split
  · exact hubFrame_dropUntil _ _ _ _
  · rw [hubFrame_limited, hubFrame_dropUntil]

@[simp] theorem hubFrame_freeSeqOf (s : State) (q : Nat) : (s.freeSeqOf q).hubFrame = s.hubFrame := by
  unfold State.freeSeqOf
  split <;> rfl

@[simp] theorem hubFrame_contextGone (s : State) (q : Nat) : (s.contextGone q).hubFrame = s.hubFrame := rfl

@[simp] theorem hubFrame_startMove (s : State) (id : Option EntryId) (q : Nat) (r : SeqRec) (park : Bool) :
    (s.startMove id q r park).1.hubFrame = s.hubFrame := by
  have hc := hubFrame_cover s (r.pagesPerList * s.rowEntries) 0
  unfold State.startMove
  dsimp only
  generalize s.cover (r.pagesPerList * s.rowEntries) 0 = c at hc ⊢
  generalize lowestRun s.kv.next.usedContext _ _ _ _ = a
  generalize (if c.2 = true then lowestRun c.1.kv.next.usedFrames _ _ _ _ else none) = b
  cases park with
  | true =>
    rw [if_pos rfl]
    cases a with
    | none => dsimp only
    | some a => exact (hubFrame_kv _ _).trans (hubFrame_modNext _ _)
  | false =>
    rw [if_neg Bool.false_ne_true]
    cases b with
    | none => exact hc
    | some b => exact (hubFrame_kv _ _).trans ((hubFrame_modNext _ _).trans hc)

@[simp] theorem hubFrame_finishMove (s : State) (m : Move) : (s.finishMove m).hubFrame = s.hubFrame := by
  unfold State.finishMove
  split
  · rfl
  · dsimp only
    split
    · rw [hubFrame_kv, hubFrame_edits, hubFrame_setSeq, hubFrame_modNext]
    · rw [hubFrame_kv, hubFrame_edits, hubFrame_setSeq, hubFrame_modNext]

@[simp] theorem hubFrame_finishMoves (s : State) : s.finishMoves.hubFrame = s.hubFrame :=
  hubFrame_foldl _ _ _ (fun _ _ _ => hubFrame_finishMove _ _)

@[simp] theorem hubFrame_truncateSeq (s : State) (q : Nat) (r : SeqRec) (p : Nat) :
    (s.truncateSeq q r p).hubFrame = s.hubFrame := by
  unfold State.truncateSeq
  dsimp only
  rw [hubFrame_modSeq]
  split
  · exact hubFrame_foldl _ _ _ (fun _ _ _ => rfl)
  · exact hubFrame_foldl _ _ _ (fun _ _ _ => rfl)

@[simp] theorem hubFrame_applyEdit (s : State) (id : EntryId) (q : Nat) (r : SeqRec) (e : PageEdit) :
    (s.applyEdit id q r e).1.hubFrame = s.hubFrame := by
  have hm : ∀ p, (if (s.startMove (some id) q r p).2 then ((s.startMove (some id) q r p).1, (none : Option Status))
      else ({ (s.startMove (some id) q r p).1 with
              kv := { (s.startMove (some id) q r p).1.kv with
                deferred := (s.startMove (some id) q r p).1.kv.deferred ++ [(id, q, e)] } }, none)).1.hubFrame =
      s.hubFrame := by
    intro p
    split <;> exact hubFrame_startMove _ _ _ _ _
  cases e with
  | keep b => rfl
  | release => exact hubFrame_freeSeqOf _ _
  | truncate p => exact hubFrame_truncateSeq _ _ _ _
  | drop p => exact hubFrame_dropRowsFrom _ _ _ _
  | park => exact hm _
  | unpark => exact hm _

@[simp] theorem hubFrame_tryEdit (s : State) (id : EntryId) (q : Nat) (e : PageEdit) :
    (s.tryEdit id q e).hubFrame = s.hubFrame := by
  unfold State.tryEdit
  split
  · exact hubFrame_postStatus _ _ _ _
  · split
    · exact hubFrame_postStatus _ _ _ _
    · split
      · rfl
      · dsimp only
        split
        · rfl
        · split <;> exact hubFrame_applyEdit _ _ _ _ _

@[simp] theorem hubFrame_retryEdits (s : State) : s.retryEdits.hubFrame = s.hubFrame :=
  hubFrame_foldl _ _ _ (fun _ _ _ => hubFrame_tryEdit _ _ _ _)

/-! ## Opening and continuing sequences (R304 to R307) -/

@[simp] theorem hubFrame_openSeq (s : State) (q : Nat) (r : SeqRec) : (s.openSeq q r).hubFrame = s.hubFrame := rfl

@[simp] theorem hubFrame_takeTokLog (s : State) (page n slot : Nat) : (s.takeTokLog page n slot).hubFrame = s.hubFrame :=
  hubFrame_keyWholeRange _ _ _ _ _ _

@[simp] theorem hubFrame_openOwn (s : State) (punnet own base matter slot : Nat) (keep : Bool) :
    (s.openOwn punnet own base matter slot keep).1.hubFrame = s.hubFrame := by
  have hc := hubFrame_cover s (ceilDiv own (kvTpp (s.param P.kvFormat)) * s.rowEntries) (tokLogPagesOf punnet)
  unfold State.openOwn
  dsimp only
  generalize s.cover _ _ = c at hc ⊢
  generalize c.1.lowestExtent _ = e
  generalize c.1.tokLogRun _ = l
  generalize s.freeSeq = q
  cases q with
  | none => rfl
  | some q =>
    dsimp only
    split
    · exact hc
    · cases e with
      | none => exact hc
      | some e =>
        cases l with
        | none => exact hc
        | some l => exact (hubFrame_takeTokLog _ _ _ _).trans ((hubFrame_openSeq _ _ _).trans hc)

@[simp] theorem hubFrame_moveExtent (s : State) (q : Nat) (r r' : SeqRec) : (s.moveExtent q r r').hubFrame = s.hubFrame := by
  unfold State.moveExtent
  rw [hubFrame_edits, hubFrame_setSeq, hubFrame_modNext]

@[simp] theorem hubFrame_copyPages (s : State) (src dst n : Nat) : (s.copyPages src dst n).hubFrame = s.hubFrame := by
  unfold State.copyPages
  rw [hubFrame_extPut, hubFrame_extMet]

@[simp] theorem hubFrame_reopen (s : State) (q : Nat) (r : SeqRec) (punnet own : Nat) (keep : Bool) :
    (s.reopen q r punnet own keep).1.hubFrame = s.hubFrame := by
  have hc := (hubFrame_cover (s.modSeq q fun x => { x with phase := .opened })
    (ceilDiv own (kvTpp r.fmt) * s.rowEntries - s.mappedRows r * s.rowEntries)
    (if decide (r.tokLogPages < tokLogPagesOf (max punnet r.punnet)) then tokLogPagesOf (max punnet r.punnet) else 0)).trans
    (hubFrame_modSeq _ _ _)
  unfold State.reopen
  dsimp only
  generalize decide (r.tokLogPages < tokLogPagesOf (max punnet r.punnet)) = grow at hc ⊢
  generalize State.cover _ _ _ = c at hc ⊢
  split
  · exact hc
  · generalize (if r.punnet < punnet then c.1.lowestExtent _ else some r.extent) = e
    generalize (if grow = true then c.1.tokLogRun _ else some r.tokLogPage) = l
    cases e with
    | none => exact hc
    | some e =>
      cases l with
      | none => exact hc
      | some l =>
        dsimp only
        split
        · rw [hubFrame_modNext, hubFrame_copyPages, hubFrame_takeTokLog, hubFrame_moveExtent, hc]
        · rw [hubFrame_moveExtent, hc]

@[simp] theorem hubFrame_openContext (s : State) (id : Option Nat) (tokens matter slot : Nat) :
    (s.openContext id tokens matter slot).1.hubFrame = s.hubFrame := by
  have hc := hubFrame_cover s (contextRows tokens (s.param P.kvFormat) * s.rowEntries) 0
  unfold State.openContext
  dsimp only
  generalize s.cover _ _ = c at hc ⊢
  generalize c.1.lowestExtent _ = e
  generalize lowestRun c.1.kv.next.usedFrames _ _ _ _ = l
  split
  · rfl
  · split
    · exact hc
    · cases e with
      | none => exact hc
      | some e =>
        cases l with
        | none => exact hc
        | some l => exact (hubFrame_openSeq _ _ _).trans ((hubFrame_modNext _ _).trans hc)

/-! ## Moves and tables in memory -/

@[simp] theorem hubFrame_advanceMove (s : State) (n : Nat) : (s.advanceMove n).hubFrame = s.hubFrame := by
  unfold State.advanceMove
  split <;> rfl

@[simp] theorem hubFrame_moveDeferred (s : State) : s.moveDeferred.hubFrame = s.hubFrame := by
  unfold State.moveDeferred
  split
  · exact hubFrame_keyingDeferred _ _
  · rfl

@[simp] theorem hubFrame_steerMove (s : State) : s.steerMove.hubFrame = s.hubFrame := by
  unfold State.steerMove
  rw [hubFrame_advanceMove, hubFrame_rekey, hubFrame_moveDeferred]

@[simp] theorem hubFrame_hubMove (s : State) : s.hubMove.hubFrame = s.hubFrame := by
  unfold State.hubMove
  split
  · rfl
  · rw [hubFrame_advanceMove]
    refine (hubFrame_foldl _ _ _ fun t d _ => ?_).trans (hubFrame_moveDeferred s)
    rw [hubFrame_extPut, hubFrame_keyWholeRange, hubFrame_extMet]

@[simp] theorem hubFrame_writeTables (s : State) (old t : KvTables) (d : DieId) :
    (s.writeTables old t d).hubFrame = s.hubFrame := by
  unfold State.writeTables
  dsimp only
  refine (hubFrame_foldl _ _ _ fun _ _ _ => hubFrame_hubPut _ _ _ _ _).trans ?_
  exact hubFrame_foldl _ _ _ fun _ _ _ => hubFrame_hubPut _ _ _ _ _

@[simp] theorem hubFrame_nextView (s : State) (d : DieId) : (s.nextView d).hubFrame = s.hubFrame := by
  unfold State.nextView
  split
  · rfl
  · exact hubFrame_writeTables _ _ _ _

/-! ## Requests leave (R250, R259, R260, R343) -/

@[simp] theorem hubFrame_settleCancels (s : State) : s.settleCancels.hubFrame = s.hubFrame := by
  unfold State.settleCancels
  dsimp only
  exact hubFrame_foldl _ _ _ (fun _ _ _ => hubFrame_post _ _ _)

@[simp] theorem hubFrame_leaveSeq (s : State) (r : Request) (st : Status) : (s.leaveSeq r st).hubFrame = s.hubFrame := by
  unfold State.leaveSeq
  split
  · rfl
  · split
    · split
      · rfl
      · split
        · rfl
        · exact hubFrame_freeSeqOf _ _
    · split
      · rfl
      · exact hubFrame_freeSeqOf _ _

@[simp] theorem hubFrame_dropSlot (s : State) (n : Nat) : (s.dropSlot n).hubFrame = s.hubFrame := rfl

@[simp] theorem hubFrame_freeRevoked (s : State) (h : Nat) (a : Adapter) : (s.freeRevoked h a).hubFrame = s.hubFrame := by
  unfold State.freeRevoked
  split
  · rfl
  · dsimp only
    refine (hubFrame_foldl _ _ _ fun _ _ _ => hubFrame_postStatus _ _ _ _).trans ?_
    exact hubFrame_foldl _ _ s fun _ _ _ => hubFrame_dropSlot _ _

@[simp] theorem hubFrame_settleRevoked (s : State) : s.settleRevoked.hubFrame = s.hubFrame :=
  hubFrame_foldl _ _ _ (fun _ _ _ => hubFrame_freeRevoked _ _ _)

@[simp] theorem hubFrame_completeFills (s : State) : s.completeFills.hubFrame = s.hubFrame := hubFrame_settleRevoked _

@[simp] theorem hubFrame_finishReq (s : State) (idx : Nat) (st : Status) : (s.finishReq idx st).hubFrame = s.hubFrame := by
  unfold State.finishReq
  split
  · rfl
  · next r _ =>
    refine (hubFrame_settleRevoked _).trans ?_
    exact (hubFrame_leaveSeq (s.post r.id (s.requestAnswer idx r st)) r st).trans (hubFrame_post _ _ _)

@[simp] theorem hubFrame_finishAll (s : State) (idxs : List Nat) (st : Status) : (s.finishAll idxs st).hubFrame = s.hubFrame :=
  (hubFrame_settleCancels _).trans (hubFrame_foldl _ _ _ fun _ _ _ => hubFrame_finishReq _ _ _)

@[simp] theorem hubFrame_modReq (s : State) (idx : Nat) (g : Request → Request) : (s.modReq idx g).hubFrame = s.hubFrame := rfl

@[simp] theorem hubFrame_leaveNow (s : State) : s.leaveNow.hubFrame = s.hubFrame :=
  (hubFrame_settleCancels _).trans (hubFrame_foldl _ _ _ fun _ _ _ => hubFrame_finishReq _ _ _)

/-! ## Steps end (R258, R312, R313) -/

@[simp] theorem hubFrame_afterToken (s : State) (idx : Nat) : (s.afterToken idx).hubFrame = s.hubFrame := by
  unfold State.afterToken
  split
  · rfl
  · split
    · rfl
    · split <;> rfl

@[simp] theorem hubFrame_commitReq (s : State) (idx : Nat) (r : Request) : (s.commitReq idx r).hubFrame = s.hubFrame := by
  unfold State.commitReq
  dsimp only
  split
  · split
    · rw [hubFrame_modReq, hubFrame_modSeq, hubFrame_modReq, hubFrame_modSeq]
    · rw [hubFrame_modReq, hubFrame_modSeq]
  · split
    · rw [hubFrame_modSeq, hubFrame_modReq, hubFrame_bump _ _ (by decide)]
    · rw [hubFrame_modReq, hubFrame_bump _ _ (by decide)]
  · split
    · rw [hubFrame_afterToken, hubFrame_modReq, hubFrame_modReq, hubFrame_modSeq]
    · rw [hubFrame_modReq, hubFrame_modSeq]
  · rw [hubFrame_afterToken, hubFrame_modReq, hubFrame_modSeq]

@[simp] theorem hubFrame_dropFaulted (s : State) (q : Nat) : (s.dropFaulted q).hubFrame = s.hubFrame := by
  unfold State.dropFaulted
  split
  · rfl
  · split
    · exact hubFrame_freeSeqOf _ _
    · rfl
    · rfl
    · rfl

@[simp] theorem hubFrame_leaveFaulted (s : State) : s.leaveFaulted.hubFrame = s.hubFrame := by
  unfold State.leaveFaulted
  refine (hubFrame_settleCancels _).trans ?_
  refine Eq.trans (b := State.hubFrame (List.foldl State.dropFaulted _ s.adm.faultedSeqs)) rfl ?_
  exact (hubFrame_foldl _ _ _ fun _ _ _ => hubFrame_dropFaulted _ _).trans
    (hubFrame_foldl _ _ _ fun _ _ _ => hubFrame_finishReq _ _ _)

@[simp] theorem hubFrame_endStep (s : State) : s.endStep.hubFrame = s.hubFrame := by
  unfold State.endStep
  dsimp only
  refine (hubFrame_leaveNow _).trans ?_
  exact (hubFrame_foldl _ _ _ fun _ _ _ => hubFrame_commitReq _ _ _).trans (hubFrame_leaveFaulted s)

/-! ## Revocation and bundles (R245 to R249, R259, R261) -/

@[simp] theorem hubFrame_revokeFrom (s : State) (b h : Nat) (e : Option EntryId) : (s.revokeFrom b h e).hubFrame = s.hubFrame := by
  unfold State.revokeFrom
  split
  · rfl
  · dsimp only
    split
    · rfl
    · refine (hubFrame_settleRevoked _).trans ((hubFrame_finishAll _ _ _).trans ?_)
      exact hubFrame_foldl _ _ _ (fun _ _ _ => hubFrame_modReq _ _ _)

@[simp] theorem hubFrame_applyRevoke (s : State) (h : Nat) (e : Option EntryId) : (s.applyRevoke h e).hubFrame = s.hubFrame :=
  hubFrame_revokeFrom _ _ _ _

@[simp] theorem hubFrame_forceRevoke (s : State) (h : Nat) (a : Adapter) : (s.forceRevoke h a).hubFrame = s.hubFrame := by
  unfold State.forceRevoke
  dsimp only
  split
  · rfl
  · rw [hubFrame_event, hubFrame_finishAll]

@[simp] theorem hubFrame_forceOverdue (s : State) (b : Nat) : (s.forceOverdue b).hubFrame = s.hubFrame :=
  hubFrame_foldl _ _ _ (fun _ _ _ => hubFrame_forceRevoke _ _ _)

@[simp] theorem hubFrame_evictCache (s : State) (e : EntryId) (h : Nat) : (s.evictCache e h).hubFrame = s.hubFrame := by
  unfold State.evictCache
  split
  · exact hubFrame_postStatus _ _ _ _
  · split
    · exact hubFrame_postStatus _ _ _ _
    · split
      · exact hubFrame_postStatus _ _ _ _
      · split <;> exact hubFrame_postStatus _ _ _ _

@[simp] theorem hubFrame_evictRevoke (s : State) (e : EntryId) (h : Nat) : (s.evictRevoke e h).hubFrame = s.hubFrame := by
  unfold State.evictRevoke
  split
  · exact hubFrame_postStatus _ _ _ _
  · split
    · exact hubFrame_postStatus _ _ _ _
    · exact hubFrame_applyRevoke _ _ _

@[simp] theorem hubFrame_defineBundle (s : State) (e : EntryId) (f : BundleF) : (s.defineBundle e f).hubFrame = s.hubFrame := by
  unfold State.defineBundle
  split
  · exact hubFrame_postStatus _ _ _ _
  · dsimp only
    split <;> exact hubFrame_postStatus _ _ _ _

@[simp] theorem hubFrame_releaseBundle (s : State) (e : EntryId) (b : Nat) : (s.releaseBundle e b).hubFrame = s.hubFrame := by
  unfold State.releaseBundle
  split <;> exact hubFrame_postStatus _ _ _ _

@[simp] theorem hubFrame_applyLate (s : State) : s.applyLate.hubFrame = s.hubFrame := by
  unfold State.applyLate
  refine (hubFrame_foldl _ _ _ fun t x _ => ?_).trans rfl
  split
  · exact hubFrame_evictCache _ _ _
  · exact hubFrame_evictRevoke _ _ _
  · exact hubFrame_defineBundle _ _ _
  · exact hubFrame_releaseBundle _ _ _

@[simp] theorem hubFrame_lateToDue (s : State) : s.lateToDue.hubFrame = s.hubFrame := rfl

/-! ## Matters (R414 to R416) -/

@[simp] theorem hubFrame_dropBundles (s : State) (l : List Nat) : (s.dropBundles l).hubFrame = s.hubFrame := rfl

@[simp] theorem hubFrame_releaseMatterSeqs (s : State) (m : Nat) : (s.releaseMatterSeqs m).hubFrame = s.hubFrame :=
  hubFrame_foldl _ _ _ (fun _ _ _ => (hubFrame_contextGone _ _).trans (hubFrame_freeSeqOf _ _))

@[simp] theorem hubFrame_releaseRemoving (s : State) : s.releaseRemoving.hubFrame = s.hubFrame :=
  hubFrame_foldl _ _ _ (fun _ _ _ => hubFrame_releaseMatterSeqs _ _)

@[simp] theorem hubFrame_settleEdits (s : State) : s.settleEdits.hubFrame = s.hubFrame :=
  (hubFrame_releaseRemoving _).trans (hubFrame_retryEdits _)

@[simp] theorem hubFrame_revokeMatter (s : State) (b m : Nat) : (s.revokeMatter b m).hubFrame = s.hubFrame :=
  (hubFrame_dropBundles _ _).trans (hubFrame_foldl _ _ _ fun _ _ _ => hubFrame_revokeFrom _ _ _ _)

@[simp] theorem hubFrame_matterStepTwo (s : State) : s.matterStepTwo.hubFrame = s.hubFrame := by
  unfold State.matterStepTwo
  split
  · split
    · rfl
    · rw [hubFrame_releaseMatterSeqs, hubFrame_revokeMatter]
  · rfl

end Sys2Proof.Machine
end


section
/-! SUPPORT. The hub's frame through ring entries, admission, batches and the whole admission cycle (R252). -/

namespace Sys2Proof.Machine
open Sys2Proof

/-! ## Ring entries (R341 to R348) -/

@[simp] theorem hubFrame_queueReq (s : State) (r : Request) : (s.queueReq r).hubFrame = s.hubFrame := by
  unfold State.queueReq
  generalize firstGap _ _ _ = o
  cases o <;> rfl

@[simp] theorem hubFrame_submitEntry (s : State) (e : EntryId) (f : SubmitF) : (s.submitEntry e f).hubFrame = s.hubFrame := by
  unfold State.submitEntry
  generalize firstBad _ = bad
  generalize s.asOfStepTwo.submitCheck f = checked
  cases bad with
  | some off => exact hubFrame_badEntry _ _ _ _
  | none =>
    cases checked with
    | error st => exact hubFrame_post _ _ _
    | ok x => exact hubFrame_queueReq _ _

@[simp] theorem hubFrame_cancelEntry (s : State) (e : EntryId) (tag : W64) : (s.cancelEntry e tag).hubFrame = s.hubFrame := by
  unfold State.cancelEntry
  dsimp only
  refine (hubFrame_settleCancels _).trans ?_
  exact (hubFrame_foldl (fun (t : State) i => t.finishReq i .cancelled) _ _ fun _ _ _ => hubFrame_finishReq _ _ _).trans
    (hubFrame_foldl _ _ _ fun _ _ _ => hubFrame_modReq _ _ _)

@[simp] theorem hubFrame_lateEntry (s : State) (e : EntryId) (opcode : Nat) (checks : List (Nat × Bool)) (c : LateCmd) :
    (s.lateEntry e opcode checks c).hubFrame = s.hubFrame := by
  unfold State.lateEntry
  split
  · exact hubFrame_badEntry _ _ _ _
  · rfl

@[simp] theorem hubFrame_markStepTwo (s : State) : s.markStepTwo.hubFrame = s.hubFrame := by
  unfold State.markStepTwo
  split <;> rfl

@[simp] theorem hubFrame_editEntry (s : State) (e : EntryId) (q : Nat) (x : PageEdit) :
    (s.editEntry e q x).hubFrame = s.hubFrame := (hubFrame_tryEdit _ _ _ _).trans (hubFrame_markStepTwo _)

@[simp] theorem hubFrame_prefillEntry (s : State) (e : EntryId) (matter tokens offset : Nat) :
    (s.prefillEntry e matter tokens offset).hubFrame = s.hubFrame := by
  unfold State.prefillEntry
  split
  · exact hubFrame_badEntry _ _ _ _
  · split
    · exact hubFrame_postStatus _ _ _ _
    · split
      · exact hubFrame_postStatus _ _ _ _
      · split
        · exact hubFrame_postStatus _ _ _ _
        · exact hubFrame_queueReq _ _

@[simp] theorem hubFrame_queueCheckpoint (s : State) (e : EntryId) (h dst max : Nat)
    (taken : Option (Status × List Byte × Nat)) : (s.queueCheckpoint e h dst max taken).hubFrame = s.hubFrame := rfl

@[simp] theorem hubFrame_recordMet (s : State) (a : Adapter) : (s.recordMet a).hubFrame = s.hubFrame :=
  (hubFrame_foldl _ _ _ fun _ _ _ => (hubFrame_extMet _ _ _ _ _).trans (hubFrame_extMet _ _ _ _ _)).trans
    (hubFrame_extMet _ _ _ _ _)

@[simp] theorem hubFrame_checkpointEntry (s : State) (e : EntryId) (h dst max : Nat) :
    (s.checkpointEntry e h dst max).hubFrame = s.hubFrame := by
  unfold State.checkpointEntry
  split
  · exact hubFrame_badEntry _ _ _ _
  · split
    · exact hubFrame_postStatus _ _ _ _
    · split
      · split
        · rfl
        · exact hubFrame_postStatus _ _ _ _
      · split
        · exact hubFrame_postStatus _ _ _ _
        · split
          · rfl
          · dsimp only
            split
            · exact (hubFrame_queueCheckpoint _ _ _ _ _ _).trans (hubFrame_recordMet _ _)
            · exact hubFrame_postStatus _ _ _ _

@[simp] theorem hubFrame_registerRecord (s : State) (id : Option EntryId) (offset : Nat) (rec' : List Byte) :
    (s.registerRecord id offset rec').hubFrame = s.hubFrame := by
  unfold State.registerRecord
  dsimp only
  split <;> rfl

@[simp] theorem hubFrame_registerEntry (s : State) (e : EntryId) (offset bytes : Nat) :
    (s.registerEntry e offset bytes).hubFrame = s.hubFrame := by
  unfold State.registerEntry
  split
  · exact hubFrame_badEntry _ _ _ _
  · split
    · exact hubFrame_postStatus _ _ _ _
    · dsimp only
      split
      · rw [hubFrame_postStatus, hubFrame_windowMet]
      · split
        · rw [hubFrame_postStatus, hubFrame_windowMet]
        · rw [hubFrame_registerRecord, hubFrame_windowMet]

@[simp] theorem hubFrame_entryEffect (s : State) (i : Instr) : (s.entryEffect i).hubFrame = s.hubFrame := by
  unfold State.entryEffect
  split
  · exact hubFrame_submitEntry _ _ _
  · exact hubFrame_cancelEntry _ _ _
  · exact hubFrame_registerEntry _ _ _ _
  · exact hubFrame_lateEntry _ _ _ _ _
  · exact hubFrame_lateEntry _ _ _ _ _
  · exact hubFrame_lateEntry _ _ _ _ _
  · exact hubFrame_lateEntry _ _ _ _ _
  · exact hubFrame_editEntry _ _ _ _
  · exact hubFrame_editEntry _ _ _ _
  · exact hubFrame_editEntry _ _ _ _
  · exact hubFrame_editEntry _ _ _ _
  · exact hubFrame_editEntry _ _ _ _
  · exact hubFrame_editEntry _ _ _ _
  · exact hubFrame_prefillEntry _ _ _ _ _
  · exact hubFrame_checkpointEntry _ _ _ _ _
  · rfl

@[simp] theorem hubFrame_consumeCmd (s : State) (e : EntryId) (i : Instr) : (s.consumeCmd e i).hubFrame = s.hubFrame := by
  unfold State.consumeCmd
  split
  · rw [hubFrame_entryEffect, hubFrame_consume]
  · rfl

theorem hubFrame_consumeNext {s t : State} {k : RingId} (h : s.consumeNext k = some t) : t.hubFrame = s.hubFrame := by
  unfold State.consumeNext at h
  dsimp only at h
  split at h
  · cases h
  · split at h
    · cases h
    · split at h
      · cases h
        rw [hubFrame_badEntry, hubFrame_consume]
      · split at h
        · cases h
        · cases h
          rw [hubFrame_entryEffect, hubFrame_consume]

@[simp] theorem hubFrame_consumeRing (k : RingId) (n : Nat) (s : State) : (s.consumeRing k n).hubFrame = s.hubFrame := by
  induction n generalizing s with
  | zero => rfl
  | succ n ih =>
    unfold State.consumeRing
    split
    · next h => exact (ih _).trans (hubFrame_consumeNext h)
    · rfl

@[simp] theorem hubFrame_consumeHeld (s : State) (x : EntryId × Instr) : (s.consumeHeld x).hubFrame = s.hubFrame := by
  unfold State.consumeHeld
  split
  · rfl
  · exact hubFrame_consumeCmd _ _ _

@[simp] theorem hubFrame_consumeTurn (s : State) (k : RingId) : (s.consumeTurn k).hubFrame = s.hubFrame := by
  unfold State.consumeTurn
  dsimp only
  have h := hubFrame_foldl State.consumeHeld (s.adm.heldCmds.filter (fun (x : EntryId × Instr) => x.1.ring == k))
    { s with adm := { s.adm with heldCmds := s.adm.heldCmds.filter (fun x => !(x.1.ring == k)) } }
    (fun _ _ _ => hubFrame_consumeHeld _ _)
  split
  · exact h
  · exact (hubFrame_consumeRing _ _ _).trans h

@[simp] theorem hubFrame_consumeRings (s : State) : s.consumeRings.hubFrame = s.hubFrame :=
  hubFrame_foldl _ _ _ (fun _ _ _ => hubFrame_consumeTurn _ _)

/-! ## Admission (R250, R253, R254, R258) -/

@[simp] theorem hubFrame_getSlot (s : State) (h : Nat) (a : Adapter) : (s.getSlot h a).1.hubFrame = s.hubFrame := by
  unfold State.getSlot
  generalize s.slotOf a.serial = held
  generalize s.pickSlot = free
  cases held with
  | some x => rfl
  | none =>
    cases free with
    | none => rfl
    | some n =>
      dsimp only
      generalize s.engineFull _ = full
      cases full with
      | some e => exact hubFrame_keyingDeferred _ _
      | none => rfl

@[simp] theorem hubFrame_fillHolds (s : State) : s.fillHolds.hubFrame = s.hubFrame := by
  refine hubFrame_foldl _ _ _ fun t x _ => ?_
  split
  · split
    · split
      · rfl
      · exact hubFrame_getSlot _ _ _
    · rfl
  · rfl

@[simp] theorem hubFrame_takeContext (s : State) (idx : Nat) (r : Request) (sh : Short) :
    (s.takeContext idx r sh).1.hubFrame = s.hubFrame := by
  unfold State.takeContext
  split
  · exact hubFrame_finishReq _ _ _
  · next slot _ =>
    have h := hubFrame_openContext s r.seq r.f.promptTokens r.matter slot
    split
    · next t q ht => rw [ht] at h; exact h
    · next t ht => rw [ht] at h; exact h

@[simp] theorem hubFrame_contextReady (s : State) (c : Option Nat) : (s.contextReady c).1.hubFrame = s.hubFrame := by
  unfold State.contextReady
  split
  · rfl
  · split
    · rfl
    · split
      · rfl
      · split
        · rfl
        · split
          · exact hubFrame_startMove _ _ _ _ _
          · rfl

@[simp] theorem hubFrame_takeSeq (s : State) (r : Request) (t : Target) : (s.takeSeq r t).1.hubFrame = s.hubFrame := by
  unfold State.takeSeq
  dsimp only
  split
  · split
    · rfl
    · exact hubFrame_reopen _ _ _ _ _ _
  · exact hubFrame_openOwn _ _ _ _ _ _ _

@[simp] theorem hubFrame_admitReq (s : State) (idx q : Nat) (slot : Option Nat) (t : Target) :
    (s.admitReq idx q slot t).hubFrame = s.hubFrame := hubFrame_modReq _ _ _

@[simp] theorem hubFrame_takeSubmit (s : State) (idx : Nat) (r : Request) (sh : Short) :
    (s.takeSubmit idx r sh).1.hubFrame = s.hubFrame := by
  -- the definition is opened in an equation: opened in place it makes the kernel run the checks of a submission
  suffices h : ∀ f, f = State.takeSubmit → ∀ x, f s idx r sh = x → x.1.hubFrame = s.hubFrame from h _ rfl _ rfl
  intro f hf
  delta State.takeSubmit at hf
  subst hf
  beta_reduce
  generalize s.submitCheck r.f = checked
  intro x hx
  cases checked with
  | error st =>
    subst hx
    exact hubFrame_finishReq _ _ _
  | ok y =>
    obtain ⟨t, span⟩ := y
    have h1 := hubFrame_contextReady s t.context
    dsimp -zeta only at hx
    generalize s.contextReady t.context = c at h1 hx
    obtain ⟨s1, _ | _ | st⟩ := c
    · have h2 := (hubFrame_takeSeq s1 r t).trans h1
      dsimp -zeta only at hx
      extract_lets g at hx
      have hg : g.1.hubFrame = s.hubFrame := by
        unfold g
        split
        · exact h1
        · exact (hubFrame_getSlot _ _ _).trans h1
      clear_value g
      obtain ⟨s2, _ | slot⟩ := g
      · subst hx
        exact hg
      · dsimp -zeta only at hx
        generalize s1.takeSeq r t = y at h2 hx
        obtain ⟨s3, _ | q⟩ := y
        · subst hx
          exact h2
        · subst hx
          refine (hubFrame_admitReq _ _ _ _ _).trans (Eq.trans ?_ h2)
          split
          · rfl
          · exact hubFrame_getSlot _ _ _
    · subst hx
      exact h1
    · subst hx
      exact (hubFrame_finishReq _ _ _).trans h1

@[simp] theorem hubFrame_takeReq (x : State × Short) (idx : Nat) : (State.takeReq x idx).1.hubFrame = x.1.hubFrame := by
  unfold State.takeReq
  split
  · rfl
  · split
    · rfl
    · split
      · exact hubFrame_takeContext _ _ _ _
      · exact hubFrame_takeSubmit _ _ _ _

theorem hubFrame_takeReqs (l : List Nat) (x : State × Short) : (l.foldl State.takeReq x).1.hubFrame = x.1.hubFrame := by
  induction l generalizing x with
  | nil => rfl
  | cons i l ih => exact (ih _).trans (hubFrame_takeReq _ _)

@[simp] theorem hubFrame_admitRequests (s : State) : s.admitRequests.hubFrame = s.hubFrame := by
  unfold State.admitRequests
  split
  · rfl
  · have h := (hubFrame_takeReqs (AMap.keys s.fillHolds.adm.requests) (s.fillHolds, {})).trans (hubFrame_fillHolds s)
    dsimp only
    generalize List.foldl State.takeReq _ _ = x at h ⊢
    split
    · split
      · exact (hubFrame_settleCancels _).trans h
      · rw [hubFrame_limited, hubFrame_settleCancels, h]
    · split
      · rw [hubFrame_limited, hubFrame_settleCancels, h]
      · rw [hubFrame_limited, hubFrame_limited, hubFrame_settleCancels, h]

@[simp] theorem hubFrame_mapPiece (s : State) (p : Piece) : (s.mapPiece p).1.hubFrame = s.hubFrame := by
  unfold State.mapPiece
  split
  · rfl
  · split
    · rfl
    · exact hubFrame_mapRows _ _ _ _

@[simp] theorem hubFrame_mapPieces (s : State) (ps : List Piece) : (s.mapPieces ps).1.hubFrame = s.hubFrame := by
  suffices h : ∀ (l : List Piece) (x : State × List Piece), (l.foldl (fun (x : State × List Piece) p =>
      let m := x.1.mapPiece p
      (m.1, if m.2 then x.2 ++ [p] else x.2)) x).1.hubFrame = x.1.hubFrame from h ps (s, [])
  intro l
  induction l with
  | nil => exact fun _ => rfl
  | cons p l ih => exact fun x => (ih _).trans (hubFrame_mapPiece _ _)

@[simp] theorem hubFrame_mapAdmitted (s : State) : s.mapAdmitted.hubFrame = s.hubFrame := by
  unfold State.mapAdmitted
  split
  · exact hubFrame_mapPieces _ _
  · rfl

/-! ## The coming beat's batch (R258, R262 to R264) -/

@[simp] theorem hubFrame_startStep (s : State) (ps : List Piece) : (s.startStep ps).hubFrame = s.hubFrame :=
  hubFrame_foldl _ _ _ (fun _ _ _ => hubFrame_modReq _ _ _)

@[simp] theorem hubFrame_writeRows (s : State) (jb : Nat) : (s.writeRows jb).hubFrame = s.hubFrame := by
  unfold State.writeRows
  dsimp only
  exact hubFrame_foldl _ _ _ (fun _ _ _ => (hubFrame_hubPut _ _ _ _ _).trans (hubFrame_hubPut _ _ _ _ _))

@[simp] theorem hubFrame_touchSeqs (s : State) : s.touchSeqs.hubFrame = s.hubFrame :=
  hubFrame_foldl _ _ _ (fun _ _ _ => (hubFrame_modSeq _ _ _).trans (hubFrame_modSeq _ _ _))

@[simp] theorem hubFrame_advanceFill (s : State) : s.advanceFill.hubFrame = s.hubFrame := by
  unfold State.advanceFill
  split
  · rfl
  · split
    · rfl
    · dsimp only
      split <;> rfl

/-- Of the frame, the choice of a batch changes the plan of the coming beat alone. -/
theorem hubFrame_formBatch (s : State) (set : PlanSet) : ∃ p, (s.formBatch set).hubFrame = { s.hubFrame with plan := p } := by
  unfold State.formBatch
  dsimp only
  generalize hm : s.mapPieces s.pieces = m
  have h : m.1.hubFrame = s.hubFrame := by rw [← hm]; exact hubFrame_mapPieces _ _
  generalize set.choose _ _ = c
  generalize ht : State.startStep _ _ = t
  have h2 : t.hubFrame = s.hubFrame := by
    rw [← ht, hubFrame_startStep]
    split
    · exact h
    · rw [hubFrame_limited, hubFrame_bump _ _ (by decide), h]
  exact ⟨_, congrArg (fun (f : HubFrame) => { f with plan := c.2.map (fun (x : Nat × Nat) => x.2) }) h2⟩

/-- Of the frame, looking ahead changes the plan of the coming beat alone. -/
theorem hubFrame_planAhead (s : State) (set : PlanSet) (jb : Nat) :
    ∃ p, (s.planAhead set jb).hubFrame = { s.hubFrame with plan := p } := by
  unfold State.planAhead
  dsimp only
  generalize hs : (if jb % max set.scheduleLength 1 = 0 then _ else _ : State) = t
  have h : ∃ p, t.hubFrame = { s.hubFrame with plan := p } := by
    rw [← hs]
    split
    · exact hubFrame_formBatch s set
    · exact ⟨_, rfl⟩
  obtain ⟨p, hp⟩ := h
  refine ⟨p, ?_⟩
  rw [hubFrame_steerMove, hubFrame_advanceFill, ← hp, ← hubFrame_touchSeqs t, ← hubFrame_writeRows t.touchSeqs jb]
  rfl

theorem hubFrame_lookAhead (s : State) : ∃ p, s.lookAhead.hubFrame = { s.hubFrame with plan := p } := by
  unfold State.lookAhead
  split
  · exact hubFrame_planAhead _ _ _
  · split
    · exact ⟨_, rfl⟩
    · exact ⟨_, hubFrame_hubMove s⟩

/-- Of the frame, the admission cycle changes the plan of the coming beat alone (R252). -/
theorem hubFrame_admissionCycle (s : State) : ∃ p, s.admissionCycle.hubFrame = { s.hubFrame with plan := p } := by
  unfold State.admissionCycle
  dsimp only
  generalize hs : (if s.stepEnds = true then s.endStep else s) = s0
  have h0 : s0.hubFrame = s.hubFrame := by
    rw [← hs]
    split
    · exact hubFrame_endStep s
    · rfl
  generalize hc : State.lateToDue _ = s3
  have h3 : s3.hubFrame = s.hubFrame := by
    rw [← hc]
    simp only [hubFrame_lateToDue, hubFrame_consumeRings, hubFrame_matterStepTwo, hubFrame_applyLate, hubFrame_settleEdits,
      hubFrame_finishMoves, hubFrame_completeFills, hubFrame_forceOverdue, h0]
  generalize hl : (if s.stepEnds = true then s3.leaveNow else s3) = s4
  have h4 : s4.hubFrame = s.hubFrame := by
    rw [← hl]
    split
    · exact (hubFrame_leaveNow _).trans h3
    · exact h3
  obtain ⟨p, hp⟩ := hubFrame_lookAhead s4.settleEdits.admitRequests.mapAdmitted
  refine ⟨p, ?_⟩
  rw [hp, hubFrame_mapAdmitted, hubFrame_admitRequests, hubFrame_settleEdits, h4]

end Sys2Proof.Machine
end


section
/-! SUPPORT. What sending a message into the orchard leaves unchanged: links, requests and their counters move, and nothing else. -/

namespace Sys2Proof.Machine
open Sys2Proof

/-- What sending into the orchard leaves unchanged. -/
structure NetFrame where
  pending : List Instr
  fe : Quad FrontEnd
  cells : CellState
  mem : MemState
  rind : RindState
  beat : BeatState
  job : JobState
  adm : AdmState
  kv : KvState
  nextOp : Nat
  ten : TenantState
  res : ResState
  boot : BootState

/-- The part of a state that sending into the orchard leaves unchanged. -/
def State.netFrame (s : State) : NetFrame :=
  ⟨s.pending, s.fe, s.cells, s.mem, s.rind, s.beat, s.job, s.adm, s.kv, s.fab.nextOp, s.ten, s.res, s.boot⟩

theorem netFrame_foldl {α : Type} (f : State → α → State) (l : List α) (s : State)
    (h : ∀ t x, (f t x).netFrame = t.netFrame) : (l.foldl f s).netFrame = s.netFrame := by
  induction l generalizing s with
  | nil => rfl
  | cons x l ih => rw [List.foldl_cons, ih, h]

theorem netFrame_setParam (s : State) (k v : Nat) : (s.setParam k v).netFrame = s.netFrame := rfl

theorem netFrame_bump (s : State) (k n : Nat) : (s.bump k n).netFrame = s.netFrame := netFrame_setParam s k _

theorem netFrame_res (s : State) (r : ResState) : ({ s with res := r } : State).netFrame = { s.netFrame with res := r } := rfl

theorem netFrame_setLink (s : State) (n : Nat) (l : Link) : (s.setLink n l).netFrame = s.netFrame := rfl

theorem netFrame_log' (s : State) (code source : Nat) (d : List Byte) : (s.log' code source d).netFrame = s.netFrame := by
  unfold State.netFrame State.log'
  simp only [State.logRecord_pending, State.logRecord_fe, State.logRecord_cells, State.logRecord_mem, State.logRecord_rind,
    State.logRecord_beat, State.logRecord_job, State.logRecord_adm, State.logRecord_kv, State.logRecord_fab,
    State.logRecord_ten, State.logRecord_res, State.logRecord_boot]

theorem netFrame_event (s : State) (code : Nat) (l : List (Nat × Nat)) : (s.event code l).netFrame = s.netFrame :=
  netFrame_log' _ _ _ _

theorem netFrame_limited (s : State) (code source sub n : Nat) (l : Nat → List (Nat × Nat)) :
    (s.limited code source sub n l).netFrame = s.netFrame := by
  unfold State.limited
  dsimp only
  split
  · split
    · exact netFrame_log' _ _ _ _
    · rfl
  · exact netFrame_log' _ _ _ _

theorem netFrame_of_onlyLinks {s t : State} (h : OnlyLinks s t) : t.netFrame = s.netFrame := by
  obtain ⟨ls, o, f, rfl⟩ := h
  rfl

theorem netFrame_returnCredit (s : State) (x : Option (Nat × Nat)) : (s.returnCredit x).netFrame = s.netFrame := by
  unfold State.returnCredit
  split <;> rfl

theorem netFrame_dropRouted (s : State) (d : DieId) (dest : Nat) : (s.dropRouted d dest).netFrame = s.netFrame := by
  unfold State.dropRouted
  dsimp only
  rw [netFrame_limited, netFrame_bump]
  rfl

theorem netFrame_purgeRouted (s : State) (n : Nat) (counted : Bool) : (s.purgeRouted n counted).netFrame = s.netFrame := by
  unfold State.purgeRouted
  dsimp only
  refine (netFrame_foldl _ _ _ fun t w => ?_).trans (netFrame_setLink _ _ _)
  rw [netFrame_returnCredit]
  split
  · exact netFrame_dropRouted _ _ _
  · rfl

theorem netFrame_violate (s : State) (n code : Nat) (hdr : W64) : (s.violate n code hdr).netFrame = s.netFrame := by
  unfold State.violate
  dsimp only
  split
  · rw [netFrame_event, netFrame_setLink, netFrame_purgeRouted, netFrame_limited, netFrame_setParam, netFrame_bump,
      netFrame_setLink]
  · rw [netFrame_limited, netFrame_setParam, netFrame_bump, netFrame_setLink]

theorem netFrame_refuseFlit (s : State) (d : DieId) (inp : FlitInput) (origin : Option (Nat × Nat)) (code : Nat) (f : Flit) :
    (s.refuseFlit d inp origin code f).netFrame = s.netFrame := by
  unfold State.refuseFlit
  rw [netFrame_returnCredit]
  split
  · exact netFrame_violate _ _ _ _
  · exact netFrame_dropRouted _ _ _

theorem netFrame_push (s : State) (n : Nat) (w : Waiting) : (s.push n w).netFrame = s.netFrame :=
  netFrame_of_onlyLinks (onlyLinks_push s n w)

theorem netFrame_route (origin : Option (Nat × Nat)) (fuel : Nat) (s : State) (f : Flit) (d : DieId) (inp : FlitInput) :
    (s.route origin f fuel d inp).1.netFrame = s.netFrame := by
  induction fuel generalizing f d inp with
  | zero => exact (netFrame_returnCredit _ _).trans (netFrame_dropRouted _ _ _)
  | succ fuel ih =>
    unfold State.route
    dsimp only
    split
    · exact (netFrame_returnCredit _ _).trans (netFrame_dropRouted _ _ _)
    · split
      · split
        · rfl
        · exact ih _ _ _
      · split
        · exact netFrame_refuseFlit _ _ _ _ _ _
        · split
          · exact netFrame_refuseFlit _ _ _ _ _ _
          · split
            · split
              · exact netFrame_push _ _ _
              · split
                · exact netFrame_returnCredit _ _
                · exact (netFrame_returnCredit _ _).trans (netFrame_dropRouted _ _ _)
            · split
              · exact ih _ _ _
              · exact ih _ _ _

theorem netFrame_sendMessage (s : State) (d : DieId) (m : Message) : (s.sendMessage d m).netFrame = s.netFrame :=
  netFrame_foldl _ _ _ (fun _ _ => netFrame_route _ _ _ _ _ _)

theorem netFrame_request (s : State) (p : Pending) (m : Message) : (s.request p m).netFrame = s.netFrame := by
  unfold State.request
  generalize lowestFree _ _ = n
  cases n with
  | some n => exact netFrame_sendMessage _ _ _
  | none => rfl

theorem State.setFront_front (s : State) (d : DieId) : s.setFront d (s.front d) = s := by
  have h : s.fe.set d (s.fe.get d) = s.fe := by
    unfold Quad.set Quad.get
    fin_cases d <;> rfl
  unfold State.setFront State.front
  rw [h]

/-- An operation that awaits more has every front end as before if no operation has its number. -/
theorem State.awaitMore_fresh (s : State) (d : DieId) (id n : Nat) (h : ∀ r ∈ (s.front d).running, r.id ≠ id) :
    s.awaitMore d id n = s := by
  unfold State.awaitMore State.modRunning State.modFront
  have hr : (s.front d).running.map (fun r => if r.id = id then { r with awaiting := r.awaiting + n } else r) =
      (s.front d).running := by
    conv_rhs => rw [← List.map_id (s.front d).running]
    exact List.map_congr_left fun r hr => if_neg (h r hr)
  dsimp only
  rw [hr]
  exact State.setFront_front s d

/-- What a copy's write leaves unchanged but the front ends, and the front ends if its operation number is new. -/
theorem writePartner_frame (s : State) (d : DieId) (byte : Nat) (bytes : List Byte) :
    ∃ fe, (s.writePartner d byte bytes).netFrame = { s.netFrame with fe := fe, nextOp := s.fab.nextOp + 1 } ∧
      ((∀ x, ∀ r ∈ (s.front x).running, r.id < s.fab.nextOp) → fe = s.fe) := by
  have h : (s.writePartner d byte bytes).netFrame =
      { (s.awaitMore d s.fab.nextOp 1).netFrame with nextOp := s.fab.nextOp + 1 } := by
    unfold State.writePartner State.sendWrite
    dsimp only [Option.isSome]
    rw [if_neg Bool.false_ne_true]
    generalize hp : State.request _ _ _ = t
    have ht : t.netFrame = (s.awaitMore d s.fab.nextOp 1).netFrame := by rw [← hp]; exact netFrame_request _ _ _
    have hn : t.fab.nextOp = s.fab.nextOp := congrArg NetFrame.nextOp ht
    rw [← ht, ← hn]
    rfl
  refine ⟨(s.awaitMore d s.fab.nextOp 1).fe, h, fun hf => ?_⟩
  rw [State.awaitMore_fresh s d _ _ fun r hr => (hf d r hr).ne]

/-- What the writes of an image's header leave unchanged but the front ends, and the front ends if every operation's number is
below the next one. -/
theorem writePartners_frame (c : PartnerCopy) (bytes : List Byte) (l : List DieId) (s : State) :
    ∃ fe n, (l.foldl (fun (t : State) d => t.writePartner d (t.imageByte c.image) bytes) s).netFrame =
        { s.netFrame with fe := fe, nextOp := n } ∧
      ((∀ x, ∀ r ∈ (s.front x).running, r.id < s.fab.nextOp) → fe = s.fe) := by
  induction l generalizing s with
  | nil => exact ⟨s.fe, s.fab.nextOp, rfl, fun _ => rfl⟩
  | cons d l ih =>
    obtain ⟨fe, h1, h2⟩ := writePartner_frame s d (s.imageByte c.image) bytes
    rw [List.foldl_cons]
    generalize s.writePartner d (s.imageByte c.image) bytes = t at h1 ⊢
    obtain ⟨fe', n, h3, h4⟩ := ih t
    refine ⟨fe', n, by rw [h3, h1], fun hf => ?_⟩
    have hfe : t.fe = s.fe := (congrArg NetFrame.fe h1).trans (h2 hf)
    have hop : t.fab.nextOp = s.fab.nextOp + 1 := congrArg NetFrame.nextOp h1
    refine (h4 fun x r hr => ?_).trans hfe
    rw [State.front, hfe] at hr
    rw [hop]
    exact Nat.lt_succ_of_lt (hf x r hr)

/-- What the final header of a copy leaves unchanged: the front ends if every operation's number is below the next one. -/
theorem sealCopy_frame (s : State) :
    ∃ fe n r, s.sealCopy.netFrame = { s.netFrame with fe := fe, nextOp := n, res := r } ∧
      ((∀ x, ∀ r ∈ (s.front x).running, r.id < s.fab.nextOp) → fe = s.fe) := by
  unfold State.sealCopy
  split
  · next c _ =>
    split
    · unfold State.writeImageHead
      dsimp only
      generalize (if true = true then _ else _ : List Byte) = bytes
      obtain ⟨fe, n, h1, h2⟩ := writePartners_frame c bytes allDies s
      generalize List.foldl _ s allDies = t at h1 ⊢
      refine ⟨fe, n, { t.res with copying := some { c with head := (List.range 4).map (fun i => s.fab.nextOp + i), sent := true } },
        ?_, h2⟩
      rw [netFrame_res, h1]
    · exact ⟨s.fe, s.fab.nextOp, s.res, rfl, fun _ => rfl⟩
  · exact ⟨s.fe, s.fab.nextOp, s.res, rfl, fun _ => rfl⟩

end Sys2Proof.Machine
end


section
/-! SUPPORT. BEAT_SNAPSHOT, step by step (R31 to R33, R252, R267, R414, R427). -/

namespace Sys2Proof.Machine
open Sys2Proof

/-- What a snapshot leaves unchanged once it has taken releases, STOP and matter commands, but for the front ends. -/
def State.snapFrame (s : State) :
    List Instr × Memory × Memory × BeatState × JobState × TenantState × Option MatterCmd × Option MatterCmd × Option MatterCmd :=
  (s.pending, s.mem.sram, s.mem.plan, s.beat, s.job, s.ten, s.adm.matterDue, s.adm.matterTaken, s.adm.matterWritten)

theorem snapFrame_of_hubFrame {s t : State} {p : Option Nat} {r : ResState}
    (h : t.hubFrame = { s.hubFrame with plan := p, res := r }) : t.snapFrame = s.snapFrame :=
  congrArg (fun f : HubFrame => (f.pending, f.sram, f.planStore, f.beat, f.job, f.ten, f.matterDue, f.matterTaken,
    f.matterWritten)) h

theorem snapFrame_of_netFrame {s t : State} {fe : Quad FrontEnd} {n : Nat} {r : ResState}
    (h : t.netFrame = { s.netFrame with fe := fe, nextOp := n, res := r }) : t.snapFrame = s.snapFrame :=
  congrArg (fun f : NetFrame => (f.pending, f.mem.sram, f.mem.plan, f.beat, f.job, f.ten, f.adm.matterDue, f.adm.matterTaken,
    f.adm.matterWritten)) h

theorem hubFrame_res (s : State) (r : ResState) : ({ s with res := r } : State).hubFrame = { s.hubFrame with res := r } := rfl

/-- Of the frame, the descriptor of the coming beat's chunks changes the state of the copy alone (R445). -/
theorem hubFrame_steerCopy (s : State) : ∃ r, s.steerCopy.hubFrame = { s.hubFrame with res := r } := by
  unfold State.steerCopy
  split
  · exact ⟨_, rfl⟩
  · dsimp only
    generalize ht : List.foldl _ s allDies = t
    have h : t.hubFrame = s.hubFrame := by
      rw [← ht]
      exact hubFrame_foldl _ _ _ fun _ _ _ => hubFrame_hubPut _ _ _ _ _
    exact ⟨_, (hubFrame_res t _).trans (congrArg (fun f : HubFrame =>
      { f with res := { t.res with copying := s.res.copying.map s.copyAdvance } }) h)⟩

/-! ## Status lines (R336) -/

theorem writeStatusLine_self (s : State) (k : Nat) : ((s.writeStatusLine k).ring k).statusDirty = false := by
  unfold State.writeStatusLine
  dsimp only
  split
  · exact congrArg Ring.statusDirty (State.ring_setRing_self s k _)
  · next h => exact Bool.eq_false_iff.2 h

theorem writeStatusLine_keeps (s : State) (j k : Nat) (h : (s.ring k).statusDirty = false) :
    ((s.writeStatusLine j).ring k).statusDirty = false := by
  by_cases hjk : k = j
  · subst hjk; exact writeStatusLine_self s k
  · unfold State.writeStatusLine
    dsimp only
    split
    · exact (congrArg Ring.statusDirty (State.ring_setRing_ne s _ hjk)).trans h
    · exact h

theorem writeStatusLine_foldl (l : List Nat) (k : Nat) (s : State) (h : k ∈ l ∨ (s.ring k).statusDirty = false) :
    ((l.foldl State.writeStatusLine s).ring k).statusDirty = false := by
  induction l generalizing s with
  | nil => exact h.resolve_left List.not_mem_nil
  | cons j l ih =>
    refine ih _ ?_
    rcases h with h | h
    · rcases List.mem_cons.1 h with rfl | h
      · exact Or.inr (writeStatusLine_self s k)
      · exact Or.inl h
    · exact Or.inr (writeStatusLine_keeps s j k h)

/-- Every status line that had changed has been written (R336). -/
theorem writeStatusLines_clean (s : State) {k : Nat} (h : k < 64) : (s.writeStatusLines.ring k).statusDirty = false :=
  writeStatusLine_foldl _ k s (Or.inl (List.mem_range.2 h))

/-! ## What is taken -/

theorem takeRelease_eq (s : State) : s.takeRelease = { s with ten := s.takeRelease.ten } := by
  unfold State.takeRelease
  split
  · split <;> rfl
  · rfl

theorem takeStop_eq (s : State) : s.takeStop = { s with job := s.takeStop.job } := by
  unfold State.takeStop
  split <;> rfl

theorem takeMatter_eq (s : State) : s.takeMatter = { s with adm := s.takeMatter.adm } := by
  unfold State.takeMatter
  split <;> rfl

/-- The job once STOP is taken depends on the job alone. -/
theorem takeStop_job_congr {s t : State} (h : t.job = s.job) : t.takeStop.job = s.takeStop.job := by
  unfold State.takeStop
  rw [h]
  split
  · rfl
  · exact h

/-- A matter command moves on by the commands alone. -/
theorem takeMatter_adm_congr {s t : State} (h : t.adm = s.adm) : t.takeMatter.adm = s.takeMatter.adm := by
  unfold State.takeMatter
  rw [h]
  split
  · exact h
  · rfl

theorem taken_eq (s : State) : s.takeRelease.takeStop.takeMatter =
    { s with ten := s.takeRelease.ten, job := s.takeStop.job, adm := s.takeMatter.adm } := by
  have e1 := takeRelease_eq s
  have e2 := takeStop_eq s.takeRelease
  have e3 := takeMatter_eq s.takeRelease.takeStop
  have hj : s.takeRelease.takeStop.job = s.takeStop.job := takeStop_job_congr (by rw [e1])
  have ha : s.takeRelease.takeStop.takeMatter.adm = s.takeMatter.adm := takeMatter_adm_congr (by rw [e2, e1])
  rw [e3, ha, e2, hj, e1]

/-! ## The snapshot -/

theorem snapFrame_taken (s : State) (b : BeatState) : ({ s with beat := b } : State).snapFrame =
    (s.snapFrame.1, s.snapFrame.2.1, s.snapFrame.2.2.1, b, s.snapFrame.2.2.2.2) := rfl

/-- What a snapshot that is due does to the parts of its frame, with the front ends kept where every operation's number is below the
next one. -/
theorem exec_beatSnapshot (s : State) (h : s.beat.snapTaken = false) : ∃ t, exec .beatSnapshot s = .next t ∧
    (OpsFresh s → t.fe = s.fe) ∧
    t.snapFrame = (s.pending, s.mem.sram, s.mem.plan, { s.beat with snapTaken := true }, s.takeStop.job, s.takeRelease.ten,
      s.takeMatter.adm.matterDue, s.takeMatter.adm.matterTaken, s.takeMatter.adm.matterWritten) ∧
    ∀ k, k < 64 → (t.ring k).statusDirty = false := by
  have hx : exec .beatSnapshot s = execBeatSnapshot s := rfl
  rw [hx]
  unfold execBeatSnapshot
  rw [h, if_neg Bool.false_ne_true]
  dsimp only
  have h0 : s.takeRelease.takeStop.takeMatter.snapFrame = (s.pending, s.mem.sram, s.mem.plan, s.beat, s.takeStop.job,
      s.takeRelease.ten, s.takeMatter.adm.matterDue, s.takeMatter.adm.matterTaken, s.takeMatter.adm.matterWritten) := by
    rw [taken_eq]; rfl
  have hfe : s.takeRelease.takeStop.takeMatter.fe = s.fe := by rw [taken_eq]
  have hfab : s.takeRelease.takeStop.takeMatter.fab = s.fab := by rw [taken_eq]
  generalize s.takeRelease.takeStop.takeMatter = s0 at h0 hfe hfab ⊢
  obtain ⟨p, h1⟩ := hubFrame_admissionCycle s0
  generalize s0.admissionCycle = s1 at h1 ⊢
  obtain ⟨fe, n, r, h2, hkeep⟩ := sealCopy_frame s1
  obtain ⟨r', h3⟩ : ∃ r', (if s1.nextOpening.isSome then s1.sealCopy.steerCopy else s1.sealCopy).hubFrame =
      { s1.sealCopy.hubFrame with res := r' } := by
    split
    · exact hubFrame_steerCopy _
    · exact ⟨_, rfl⟩
  generalize (if s1.nextOpening.isSome = true then s1.sealCopy.steerCopy else s1.sealCopy) = s3 at h3 ⊢
  generalize s1.sealCopy = s2 at h2 h3
  have h4 := hubFrame_writeStatusLines s3
  have hclean := fun k (hk : k < 64) => writeStatusLines_clean s3 hk
  generalize s3.writeStatusLines = s4 at h4 hclean ⊢
  have hsnap : s4.snapFrame = s0.snapFrame :=
    (snapFrame_of_hubFrame h4).trans ((snapFrame_of_hubFrame h3).trans ((snapFrame_of_netFrame h2).trans
      (snapFrame_of_hubFrame h1)))
  refine ⟨_, rfl, fun hf => ?_, ?_, hclean⟩
  · have e4 : s4.fe = s3.fe := congrArg HubFrame.fe h4
    have e3 : s3.fe = s2.fe := congrArg HubFrame.fe h3
    have e2 : s2.fe = fe := congrArg NetFrame.fe h2
    have e1 : s1.fe = s.fe := (congrArg HubFrame.fe h1).trans hfe
    have n1 : s1.fab = s.fab := (congrArg HubFrame.fab h1).trans hfab
    have hops : ∀ x, ∀ r ∈ (s1.front x).running, r.id < s1.fab.nextOp := by
      intro x r hr
      rw [State.front, e1] at hr
      rw [n1]
      exact hf.1 x r hr
    exact e4.trans (e3.trans (e2.trans ((hkeep hops).trans e1)))
  · have hb : s4.beat = s.beat := congrArg (fun x => x.2.2.2.1) (hsnap.trans h0)
    rw [snapFrame_taken, hsnap, h0, hb]

end Sys2Proof.Machine
end


section
/-! SUPPORT. A die lets go of its plan and opens another one: what changes, and what stays (R30, R31, R82, R85, R161, R449). -/

namespace Sys2Proof.Machine
open Sys2Proof

/-! ## What closing and opening leave unchanged -/

/-- The hub's frame without the front ends, the cells, the job and the parameters. -/
def HubFrame.fixed (f : HubFrame) : HubFrame :=
  { f with fe := Quad.fill FrontEnd.reset, cells := {}, job := {}, param := fun _ => 0 }

/-- The part of a state that closing and opening plans leaves unchanged. -/
def State.closeFrame (s : State) : HubFrame := s.hubFrame.fixed

theorem closeFrame_of_hubFrame {s t : State} (h : t.hubFrame = s.hubFrame) : t.closeFrame = s.closeFrame :=
  congrArg HubFrame.fixed h

theorem State.beat_of_closeFrame {s t : State} (h : t.closeFrame = s.closeFrame) : t.beat = s.beat :=
  congrArg HubFrame.beat h

theorem State.sram_of_closeFrame {s t : State} (h : t.closeFrame = s.closeFrame) : t.mem.sram = s.mem.sram :=
  congrArg HubFrame.sram h

theorem State.fe_of_hubFrame {s t : State} (h : t.hubFrame = s.hubFrame) : t.fe = s.fe := congrArg HubFrame.fe h

theorem State.job_of_hubFrame {s t : State} (h : t.hubFrame = s.hubFrame) : t.job = s.job := congrArg HubFrame.job h

/-! ## Parameters that stay -/

/-- Every parameter but some is the same in two states. -/
def ParamsBut (l : List Nat) (s t : State) : Prop := ∀ k, k ∉ l → t.param k = s.param k

theorem ParamsBut.refl (l : List Nat) (s : State) : ParamsBut l s s := fun _ _ => rfl

theorem ParamsBut.trans {l : List Nat} {s t u : State} (h : ParamsBut l s t) (h' : ParamsBut l t u) : ParamsBut l s u :=
  fun k hk => (h' k hk).trans (h k hk)

theorem ParamsBut.setParam {l : List Nat} {s t : State} {k : Nat} (h : ParamsBut l s t) (v : Nat) (hk : k ∈ l) :
    ParamsBut l s (t.setParam k v) := fun j hj =>
  (State.param_setParam_ne t v fun e => hj (by rw [e]; exact hk)).trans (h j hj)

theorem ParamsBut.bump {l : List Nat} {s t : State} {k : Nat} (h : ParamsBut l s t) (n : Nat) (hk : k ∈ l) :
    ParamsBut l s (t.bump k n) := h.setParam _ hk

theorem ParamsBut.of_dict {l : List Nat} {s t u : State} (h : ParamsBut l s t) (hd : u.dict = t.dict) : ParamsBut l s u :=
  fun k hk => (State.param_congr hd k).trans (h k hk)

theorem ParamsBut.of_hubFrame {l : List Nat} {s t u : State} (h : ParamsBut l s t) (hl : ∀ k ∈ hubCounters, k ∈ l)
    (hu : u.hubFrame = t.hubFrame) : ParamsBut l s u :=
  fun k hk => (State.param_of_hubFrame hu fun hc => hk (hl k hc)).trans (h k hk)

/-- The parameters that closing a plan may write. -/
def closeCounters : List Nat :=
  hubCounters ++ [P.numNanTotal, P.numInfTotal, P.numOverflowTotal, P.accOverflowTotal, P.numFirstNonfiniteBeat, P.numLastNan,
    P.numLastInf, P.numLastOverflow]

theorem closeCounters_of_hub {k : Nat} (h : k ∈ hubCounters) : k ∈ closeCounters := List.mem_append_left _ h

/-! ## The numerics are latched (R82, R85) -/

/-- Two jobs that agree but for the flags of the events that a job reports once. -/
def SameButSeen (j i : JobState) : Prop := ∃ a b, i = { j with nonfiniteSeen := a, overflowSeen := b }

theorem SameButSeen.refl (j : JobState) : SameButSeen j j := ⟨_, _, rfl⟩

theorem SameButSeen.trans {i j k : JobState} (h : SameButSeen i j) (h' : SameButSeen j k) : SameButSeen i k := by
  obtain ⟨a, b, rfl⟩ := h
  obtain ⟨a', b', rfl⟩ := h'
  exact ⟨a', b', rfl⟩

/-- A die's closing may log events of its counts, each of which a job reports once. -/
structure Latched (s t : State) : Prop where
  frame : t.closeFrame = s.closeFrame
  fe : t.fe = s.fe
  job : SameButSeen s.job t.job
  params : ParamsBut closeCounters s t

theorem Latched.refl (s : State) : Latched s s := ⟨rfl, rfl, SameButSeen.refl _, ParamsBut.refl _ _⟩

theorem Latched.setParam {s t : State} {k : Nat} (h : Latched s t) (v : Nat) (hk : k ∈ closeCounters) :
    Latched s (t.setParam k v) := ⟨h.frame, h.fe, h.job, h.params.setParam v hk⟩

theorem Latched.bump {s t : State} {k : Nat} (h : Latched s t) (n : Nat) (hk : k ∈ closeCounters) : Latched s (t.bump k n) :=
  h.setParam _ hk

theorem Latched.of_hubFrame {s t u : State} (h : Latched s t) (hu : u.hubFrame = t.hubFrame) : Latched s u :=
  ⟨(closeFrame_of_hubFrame hu).trans h.frame, (State.fe_of_hubFrame hu).trans h.fe,
    (State.job_of_hubFrame hu).symm ▸ h.job, h.params.of_hubFrame (fun _ => closeCounters_of_hub) hu⟩

theorem Latched.lastSums {s t : State} (h : Latched s t) : Latched s t.lastSums :=
  ((h.setParam _ (by decide)).setParam _ (by decide)).setParam _ (by decide)

theorem Latched.modFront {s t : State} (h : Latched s t) (d : DieId) (g : FrontEnd → FrontEnd) :
    Latched (s.modFront d g) (t.modFront d g) := by
  refine ⟨h.frame, ?_, h.job, h.params⟩
  unfold State.modFront State.setFront State.front
  rw [h.fe]

theorem latched_latchCounts (s : State) (d : DieId) : Latched (s.modFront d FrontEnd.latch) (s.latchCounts d) := by
  have h1 := (((((Latched.refl s).bump (k := P.numNanTotal) (s.front d).nanNow (by decide)).bump (k := P.numInfTotal)
    (s.front d).infNow (by decide)).bump (k := P.numOverflowTotal) (s.front d).ovfNow (by decide)).bump
    (k := P.accOverflowTotal) (s.front d).accOvfNow (by decide)).modFront d FrontEnd.latch
  unfold State.latchCounts
  dsimp only
  generalize State.modFront (State.bump _ _ _) d FrontEnd.latch = s2 at h1 ⊢
  split
  · exact h1.lastSums
  · refine Latched.lastSums ?_
    generalize hs3 : (if (s.front d).nanNow + (s.front d).infNow ≠ 0 then _ else s2 : State) = s3
    have h3 : Latched (s.modFront d FrontEnd.latch) s3 := by
      rw [← hs3]
      split
      · generalize ht : (if s2.param P.numFirstNonfiniteBeat = 2 ^ 64 - 1 then _ else s2 : State) = t
        have h2 : Latched (s.modFront d FrontEnd.latch) t := by
          rw [← ht]
          split
          · exact h1.setParam _ (by decide)
          · exact h1
        split
        · exact h2
        · have he := h2.of_hubFrame (hubFrame_dieEvent t d Ev.numNonfiniteSeen
            [(4, (s.front d).planBeat % 2 ^ 32), (4, (s.front d).nanNow), (4, (s.front d).infNow)])
          exact ⟨he.frame, he.fe, h2.job.trans ⟨true, _, rfl⟩, he.params⟩
      · exact h1
    split
    · have he := h3.of_hubFrame (hubFrame_dieEvent s3 d Ev.numOverflowSeen
        [(8, (s.front d).planBeat), (4, (s.front d).ovfNow)])
      exact ⟨he.frame, he.fe, h3.job.trans ⟨_, true, rfl⟩, he.params⟩
    · exact h3

/-! ## A die lets go of its plan -/

/-- The front end of a die that closes. -/
def FrontEnd.letGo (f : FrontEnd) : FrontEnd := if f.planOpen then f.latch.closePlan else f

theorem State.modFront_modFront (s : State) (d : DieId) (f g : FrontEnd → FrontEnd) :
    (s.modFront d f).modFront d g = s.modFront d (fun x => g (f x)) := by
  have h : (s.modFront d f).front d = f (s.front d) := State.front_modFront_self s d f
  have hq : ∀ x y, (s.fe.set d x).set d y = s.fe.set d y := by
    intro x y
    fin_cases d <;> rfl
  unfold State.modFront at h ⊢
  rw [h]
  unfold State.setFront
  rw [hq]

theorem State.modFront_same (s : State) (d : DieId) (g : FrontEnd → FrontEnd) (h : g (s.front d) = s.front d) :
    s.modFront d g = s := by
  unfold State.modFront
  rw [h, State.setFront_front]

theorem State.modFront_congr (s : State) (d : DieId) {f g : FrontEnd → FrontEnd} (h : f (s.front d) = g (s.front d)) :
    s.modFront d f = s.modFront d g := congrArg (s.setFront d) h

theorem latched_closeDie (s : State) (d : DieId) : Latched (s.modFront d FrontEnd.letGo) (s.closeDie d) := by
  unfold State.closeDie
  split
  · next h =>
    have hl : Latched (s.modFront d FrontEnd.latch) ((s.latchCounts d).emptyStaging d) := by
      obtain ⟨hf, hfe, hj, hp⟩ := latched_latchCounts s d
      exact ⟨hf, hfe, hj, hp⟩
    have hm := hl.modFront d FrontEnd.closePlan
    rw [State.modFront_modFront] at hm
    have hg : s.modFront d FrontEnd.letGo = s.modFront d (fun x => x.latch.closePlan) :=
      State.modFront_congr s d (if_pos h)
    rw [hg]
    exact hm.of_hubFrame (hubFrame_nextView _ _)
  · next h =>
    rw [State.modFront_same s d FrontEnd.letGo (if_neg h)]
    exact (Latched.refl s).of_hubFrame (hubFrame_nextView _ _)

/-! ## A die opens a plan (R30, R161, R449) -/

/-- What fetching a plan and the stand-in counts may change: of one die's front end the halt request, whether it goes on, and the
tallies. -/
structure Fetched (d : DieId) (s t : State) : Prop where
  frame : t.closeFrame = s.closeFrame
  job : t.job = s.job
  params : ParamsBut hubCounters s t
  others : ∀ x, x ≠ d → t.front x = s.front x
  front : ∃ h st ta, t.front d = { s.front d with haltReq := h, stopped := st, tallies := ta }

theorem Fetched.refl (d : DieId) (s : State) : Fetched d s s :=
  ⟨rfl, rfl, ParamsBut.refl _ _, fun _ _ => rfl, _, _, _, rfl⟩

theorem Fetched.trans {d : DieId} {s t u : State} (h : Fetched d s t) (h' : Fetched d t u) : Fetched d s u := by
  obtain ⟨a, b, c, e⟩ := h.front
  obtain ⟨a', b', c', e'⟩ := h'.front
  exact ⟨h'.frame.trans h.frame, h'.job.trans h.job, h.params.trans h'.params,
    fun x hx => (h'.others x hx).trans (h.others x hx), a', b', c', by rw [e', e]⟩

theorem fetched_of_hubFrame (d : DieId) {s t : State} (h : t.hubFrame = s.hubFrame) : Fetched d s t := by
  have hf : ∀ x, t.front x = s.front x := fun x => congrArg (fun q : Quad FrontEnd => q.get x) (State.fe_of_hubFrame h)
  exact ⟨closeFrame_of_hubFrame h, State.job_of_hubFrame h, fun _ hk => State.param_of_hubFrame h hk, fun x _ => hf x,
    _, _, _, hf d⟩

theorem fetched_modFront (s : State) (d : DieId) (g : FrontEnd → FrontEnd)
    (h : ∃ a b c, g (s.front d) = { s.front d with haltReq := a, stopped := b, tallies := c }) : Fetched d s (s.modFront d g) := by
  obtain ⟨a, b, c, e⟩ := h
  exact ⟨rfl, rfl, ParamsBut.refl _ _, fun x hx => State.front_modFront_ne s d x g hx, a, b, c,
    (State.front_modFront_self s d g).trans e⟩

theorem fetched_requestHalt (s : State) (d : DieId) : Fetched d s (s.requestHalt d) := by
  unfold State.requestHalt
  split
  · exact fetched_modFront s d _ ⟨_, _, _, rfl⟩
  · exact Fetched.refl d s

theorem fetched_fetchLine (s : State) (d : DieId) (line : Nat) : Fetched d s (s.fetchLine d line) := by
  unfold State.fetchLine
  split
  · refine fetched_of_hubFrame d ?_
    unfold State.correctPlan
    dsimp only
    split
    · rfl
    · exact hubFrame_limited _ _ _ _ _ _
  · exact ((fetched_of_hubFrame d (hubFrame_dieEvent _ _ _ _)).trans (fetched_requestHalt _ d)).trans
      (fetched_modFront _ d _ ⟨_, _, _, rfl⟩)

theorem fetched_receiveTally (s : State) (d : DieId) (t n tag : Nat) : Fetched d s (s.receiveTally d t n tag) := by
  unfold State.receiveTally
  split
  · exact fetched_modFront s d _ ⟨_, _, _, rfl⟩
  · exact fetched_of_hubFrame d (hubFrame_limited _ _ _ _ _ _)

theorem fetched_foldl {α : Type} (d : DieId) (f : State → α → State) (l : List α) (s : State)
    (h : ∀ t x, Fetched d t (f t x)) : Fetched d s (l.foldl f s) := by
  induction l generalizing s with
  | nil => exact Fetched.refl d s
  | cons x l ih => exact (h s x).trans (ih _)

theorem fetched_standinOpen (s : State) (d : DieId) (slot : Nat) : Fetched d s (s.standinOpen d slot) := by
  unfold State.standinOpen
  split
  · exact fetched_foldl d _ _ s fun _ _ => fetched_receiveTally _ _ _ _ _
  · exact Fetched.refl d s

/-- A die that opens a plan: nothing but its own front end and its cells changes, and of the front end the plan's parts are what the
opening makes them. -/
structure Opens (d : DieId) (index slot jb : Nat) (desc : List W32) (s t : State) : Prop where
  frame : t.closeFrame = s.closeFrame
  job : t.job = s.job
  params : ParamsBut hubCounters s t
  others : ∀ x, x ≠ d → t.front x = s.front x
  front : ∃ (line : Nat) (decls : List Decl) (seed : W64) (step : Nat) (h st : Bool) (ta : AMap W32),
    t.front d = { (s.front d).opening index slot jb line decls desc with
      seed := seed, trainStep := step, haltReq := h, stopped := st, tallies := ta }

theorem opens_openPlan (s : State) (d : DieId) (index jb : Nat) (desc : List W32) :
    Opens d index (s.slotOfBeat jb) jb desc s (s.openPlan d index jb desc) := by
  unfold State.openPlan
  dsimp only
  generalize s.planLine d index = line
  generalize leNat _ = n
  generalize List.map (s.storedDecl d line) _ = decls
  generalize hs : State.modFront (s.freshCells d) d _ = s1
  have h1 := (fetched_foldl d (fun (t : State) k => t.fetchLine d k) (openingLines index line n) s1
    fun _ _ => fetched_fetchLine _ _ _).trans (fetched_standinOpen _ d (s.slotOfBeat jb))
  generalize State.standinOpen _ d _ = t at h1 ⊢
  subst hs
  obtain ⟨a, b, c, e⟩ := h1.front
  refine ⟨h1.frame, h1.job, h1.params, fun x hx => (h1.others x hx).trans (State.front_modFront_ne _ d x _ hx),
    line, decls, s.jobSeed, s.trainStepOf jb, a, b, c, ?_⟩
  rw [e, State.front_modFront_self]
  rfl

/-! ## A plan that is owed (R31, R41) -/

/-- With nothing owed, at a HALT boundary, while a halt is held or without a job, no plan opens. -/
theorem openOwed_stays (s : State) (halting : Bool) (d : DieId)
    (h : (s.front d).owed = [] ∨ halting = true ∨ s.haltHeld = true ∨ s.jobActive = false) : s.openOwed halting d = s := by
  unfold State.openOwed
  split
  · rfl
  · next e =>
    refine if_pos ?_
    rcases h with h | h | h | h
    · rw [e] at h; exact absurd h (by simp)
    · simp [h]
    · simp [h]
    · simp [h]

/-- The oldest plan owed opens, and the rest stays owed (R31). -/
theorem openOwed_opens (s : State) (d : DieId) {index jb b : Nat} {desc : List W32}
    {rest : List (Nat × Nat × Nat × List W32)} (ho : (s.front d).owed = (index, jb, b, desc) :: rest)
    (hh : s.haltHeld = false) (hj : s.jobActive = true) :
    (s.openOwed false d).closeFrame = s.closeFrame ∧ (s.openOwed false d).job = s.job ∧
      ParamsBut hubCounters s (s.openOwed false d) ∧ (∀ x, x ≠ d → (s.openOwed false d).front x = s.front x) ∧
      ((s.openOwed false d).front d).planOpen = true ∧ ((s.openOwed false d).front d).planIndex = index ∧
      ((s.openOwed false d).front d).planBeat = jb ∧ ((s.openOwed false d).front d).wordNo = 0 ∧
      ((s.openOwed false d).front d).owed = rest ∧
      ((s.openOwed false d).front d).lateSince = (if b = s.beat.count then none else some (b + 1)) := by
  unfold State.openOwed
  rw [ho]
  dsimp only
  rw [if_neg (by simp [hh, hj])]
  have h1 := opens_openPlan (s.modFront d (fun f => { f with owed := rest })) d index jb desc
  generalize State.openPlan _ d index jb desc = t at h1 ⊢
  obtain ⟨line, decls, seed, step, a, st, ta, e⟩ := h1.front
  rw [State.front_modFront_self] at e
  refine ⟨h1.frame, h1.job, h1.params, fun x hx => ?_, ?_⟩
  · rw [State.front_modFront_ne _ d x _ hx, h1.others x hx, State.front_modFront_ne _ d x _ hx]
  · rw [State.front_modFront_self, e]
    exact ⟨rfl, rfl, rfl, rfl, rfl, rfl⟩

/-! ## What follows a closing (R274, R288, R347) -/

theorem hubFrame_writeStats (s : State) (t : TrainState) : (s.writeStats t).hubFrame = s.hubFrame := by
  unfold State.writeStats
  split
  · rfl
  · exact hubFrame_foldl _ _ _ fun _ _ _ => hubFrame_hubPut _ _ _ _ _

theorem hubFrame_checkpointMet (s : State) (o : HubOp) : (s.checkpointMet o).hubFrame = s.hubFrame := by
  unfold State.checkpointMet
  split
  · split
    · exact hubFrame_foldl _ _ _ fun _ _ _ => hubFrame_recordMet _ _
    · split
      · exact hubFrame_recordMet _ _
      · rfl
  · rfl

theorem hubFrame_takeCheckpoints (s : State) (step : Nat) : (s.takeCheckpoints step).hubFrame = s.hubFrame := by
  have h := hubFrame_foldl State.checkpointMet s.boot.hub s fun _ _ _ => hubFrame_checkpointMet _ _
  exact h

/-- The job once its update phase has closed (R274). -/
def JobState.phaseClosed (j : JobState) (step : Nat) : JobState :=
  { j with trains := j.trains.map (fun (t : TrainState) =>
             { t with version := (t.version + 1) % 2 ^ 32, stashHeld := true, conflict := false }),
           inUpdate := false,
           lastStepUpdated := if step = j.firstStepNow then none else some (stepBefore step),
           phasesClosed := j.phasesClosed + 1 }

/-- The job once its stashes are released (R288). -/
def JobState.stashReleased (j : JobState) : JobState :=
  { j with trains := j.trains.map (fun (t : TrainState) => { t with stashHeld := false }) }

/-- What the end of an update phase does: the job's phase closes, and RECOVERY_STEP is its step. -/
theorem closePhase_parts (s : State) (step : Nat) : (s.closePhase step).closeFrame = s.closeFrame ∧
    (s.closePhase step).fe = s.fe ∧ (s.closePhase step).job = s.job.phaseClosed step ∧
    (s.closePhase step).param P.recoveryStep = step ∧ ParamsBut (P.recoveryStep :: hubCounters) s (s.closePhase step) := by
  have h := hubFrame_foldl State.writeStats s.job.trains s fun _ _ _ => hubFrame_writeStats _ _
  unfold State.closePhase
  dsimp only
  generalize List.foldl State.writeStats s s.job.trains = t at h ⊢
  have hf := closeFrame_of_hubFrame h
  have hfe := State.fe_of_hubFrame h
  have hj := State.job_of_hubFrame h
  have hp := (ParamsBut.refl (P.recoveryStep :: hubCounters) s).of_hubFrame (fun _ => List.mem_cons_of_mem _) h
  refine ⟨hf, hfe, ?_, State.param_setParam_self _ _ _, (hp.of_dict rfl).setParam _ List.mem_cons_self⟩
  rw [← hj]
  rfl

/-- The job after a closing: an update phase whose beats have passed closes, and a release beat that has passed releases the
stashes. -/
def State.jobAfterClose (s : State) (d : JobDesc) : JobState :=
  let j := if s.job.inUpdate && s.closedBelow (s.updateBeat d s.phaseStep + d.updateBeats) then s.job.phaseClosed s.phaseStep
    else s.job
  if j.phasesClosed ≠ 0 && j.trains.any (·.stashHeld) && s.closedBelow (({ s with job := j } : State).releaseBeat d + 1) then
    j.stashReleased
  else j

theorem State.closedBelow_congr {s t : State} (hb : t.beat = s.beat) (hf : t.fe = s.fe) (jb : Nat) :
    t.closedBelow jb = s.closedBelow jb := by
  unfold State.closedBelow
  rw [hb, hf]

theorem State.releaseBeat_congr {s t : State} (h : t.job = s.job) (d : JobDesc) : t.releaseBeat d = s.releaseBeat d := by
  unfold State.releaseBeat State.phaseStep State.schedLen
  rw [h]

/-- What the end of a closing does: the job's phase may close and its stashes be released, and no front end changes. -/
theorem afterClose_parts (s : State) (d : JobDesc) (hd : s.job.desc = some d) : s.afterClose.closeFrame = s.closeFrame ∧
    s.afterClose.fe = s.fe ∧ s.afterClose.job = s.jobAfterClose d ∧
    ParamsBut (P.recoveryStep :: hubCounters) s s.afterClose ∧
    ((s.job.inUpdate && s.closedBelow (s.updateBeat d s.phaseStep + d.updateBeats)) = true →
      s.afterClose.param P.recoveryStep = s.phaseStep) := by
  unfold State.afterClose State.jobAfterClose
  rw [hd]
  dsimp only
  generalize (s.job.inUpdate && s.closedBelow (s.updateBeat d s.phaseStep + d.updateBeats)) = c
  generalize ht : (if c = true then (s.closePhase s.phaseStep).takeCheckpoints s.phaseStep else s) = t
  generalize hj : (if c = true then s.job.phaseClosed s.phaseStep else s.job) = j
  have h : t.closeFrame = s.closeFrame ∧ t.fe = s.fe ∧ t.job = j ∧ ParamsBut (P.recoveryStep :: hubCounters) s t ∧
      (c = true → t.param P.recoveryStep = s.phaseStep) := by
    rw [← ht, ← hj]
    split
    · obtain ⟨h1, h2, h3, h4, h5⟩ := closePhase_parts s s.phaseStep
      have hh := hubFrame_takeCheckpoints (s.closePhase s.phaseStep) s.phaseStep
      exact ⟨(closeFrame_of_hubFrame hh).trans h1, (State.fe_of_hubFrame hh).trans h2, (State.job_of_hubFrame hh).trans h3,
        h5.of_hubFrame (fun _ => List.mem_cons_of_mem _) hh,
        fun _ => (State.param_of_hubFrame hh (by decide)).trans h4⟩
    · next hn => exact ⟨rfl, rfl, rfl, ParamsBut.refl _ _, fun hc => absurd hc hn⟩
  obtain ⟨h1, h2, h3, h4, h5⟩ := h
  have hb : t.closedBelow (t.releaseBeat d + 1) = s.closedBelow (({ s with job := j } : State).releaseBeat d + 1) := by
    rw [State.closedBelow_congr (State.beat_of_closeFrame h1) h2, State.releaseBeat_congr (s := { s with job := j }) h3]
  rw [h3, hb]
  split
  · exact ⟨h1, h2, by rw [← h3]; rfl, h4.of_dict rfl, h5⟩
  · exact ⟨h1, h2, h3, h4, h5⟩

/-- With no job nothing follows a closing. -/
theorem afterClose_none (s : State) (h : s.job.desc = none) : s.afterClose = s := by
  unfold State.afterClose
  rw [h]

/-- The end of a closing changes no front end, and of the parameters the hub's counters and RECOVERY_STEP alone. -/
theorem afterClose_keeps (s : State) : s.afterClose.closeFrame = s.closeFrame ∧ s.afterClose.fe = s.fe ∧
    ParamsBut (P.recoveryStep :: hubCounters) s s.afterClose := by
  cases hd : s.job.desc with
  | none =>
    rw [afterClose_none s hd]
    exact ⟨rfl, rfl, ParamsBut.refl _ _⟩
  | some d =>
    obtain ⟨h1, h2, -, h4, -⟩ := afterClose_parts s d hd
    exact ⟨h1, h2, h4⟩

end Sys2Proof.Machine
end


section
/-! SUPPORT. DIE_LATE_CLOSE (R31, R55), and the obligation O52. -/

namespace Sys2Proof.Machine
open Sys2Proof

/-! ## The slip (R55) -/

/-- A closure's slip is noted in SLIP_HIGH, and nothing else but the free values changes. -/
theorem noteSlip_frame (s : State) (d : DieId) (cycle : Nat) :
    (s.noteSlip d cycle).closeFrame = s.closeFrame ∧ (s.noteSlip d cycle).fe = s.fe ∧ (s.noteSlip d cycle).job = s.job ∧
      ParamsBut [P.slipHigh d.val] s (s.noteSlip d cycle) ∧
      (s.noteSlip d cycle).param (P.slipHigh d.val) =
        max (s.param (P.slipHigh d.val)) (min (s.slipNow d cycle) (2 ^ 32 - 1)) := by
  unfold State.noteSlip
  generalize ht : (if (s.front d).lateSince.isSome = true then s else s.drawn) = t
  have h : t.closeFrame = s.closeFrame ∧ t.fe = s.fe ∧ t.job = s.job ∧ t.dict = s.dict := by
    rw [← ht]
    split <;> exact ⟨rfl, rfl, rfl, rfl⟩
  obtain ⟨h1, h2, h3, h4⟩ := h
  exact ⟨h1, h2, h3, ((ParamsBut.refl _ s).of_dict h4).setParam _ List.mem_cons_self, State.param_setParam_self _ _ _⟩

/-- SLIP_HIGH of a die is none of the parameters that closing and opening plans write. -/
theorem slipHigh_not_close (d : DieId) : P.slipHigh d.val ∉ closeCounters := by
  revert d
  decide

theorem slipHigh_not_after (d : DieId) : P.slipHigh d.val ∉ P.recoveryStep :: hubCounters := by
  revert d
  decide

/-! ## A late die closes -/

/-- The steps of a late die's closing in the cycle in which it meets closure: its slip is noted, its plan let go of. -/
theorem closeLate_parts (s : State) (d : DieId) (cycle : Nat) :
    ((s.noteSlip d cycle).closeDie d).closeFrame = s.closeFrame ∧
      SameButSeen s.job ((s.noteSlip d cycle).closeDie d).job ∧
      ((s.noteSlip d cycle).closeDie d).front d = (s.front d).letGo ∧
      (∀ x, x ≠ d → ((s.noteSlip d cycle).closeDie d).front x = s.front x) ∧
      ((s.noteSlip d cycle).closeDie d).param (P.slipHigh d.val) =
        max (s.param (P.slipHigh d.val)) (min (s.slipNow d cycle) (2 ^ 32 - 1)) := by
  obtain ⟨h1, h2, h3, -, h5⟩ := noteSlip_frame s d cycle
  generalize s.noteSlip d cycle = t at h1 h2 h3 h5 ⊢
  have hl := latched_closeDie t d
  have hfront : ∀ x, t.front x = s.front x := fun x => congrArg (fun q : Quad FrontEnd => q.get x) h2
  have hfe : ∀ x, (t.closeDie d).front x = (t.modFront d FrontEnd.letGo).front x := fun x =>
    congrArg (fun q : Quad FrontEnd => q.get x) hl.fe
  refine ⟨hl.frame.trans h1, ?_, ?_, fun x hx => ?_, (hl.params _ (slipHigh_not_close d)).trans h5⟩
  · rw [← h3]; exact hl.job
  · rw [hfe, State.front_modFront_self, hfront]
  · rw [hfe, State.front_modFront_ne _ d x _ hx, hfront]

theorem SameButSeen.active {s t : State} (h : SameButSeen s.job t.job) : t.jobActive = s.jobActive := by
  obtain ⟨a, b, e⟩ := h
  unfold State.jobActive
  rw [e]

/-- A closing die leaves the halt requests as they are. -/
theorem haltHeld_congr {s t : State} (h : ∀ x, (t.front x).haltReq = (s.front x).haltReq) : t.haltHeld = s.haltHeld := by
  have h0 : t.fe.d0.haltReq = s.fe.d0.haltReq := h 0
  have h1 : t.fe.d1.haltReq = s.fe.d1.haltReq := h 1
  have h2 : t.fe.d2.haltReq = s.fe.d2.haltReq := h 2
  have h3 : t.fe.d3.haltReq = s.fe.d3.haltReq := h 3
  simp only [State.haltHeld, Quad.toList, List.any_cons, List.any_nil, h0, h1, h2, h3]

theorem FrontEnd.letGo_fields (f : FrontEnd) : f.letGo.haltReq = f.haltReq ∧ f.letGo.owed = f.owed ∧
    f.letGo.tallies = f.tallies := by
  unfold FrontEnd.letGo
  split <;> exact ⟨rfl, rfl, rfl⟩

/-- When the command finds a late die closed, it takes the four steps. -/
theorem exec_dieLateClose (s : State) (d : DieId) (cycle : Nat) :
    ((s.front d).planOpen = true → ∀ b, (s.front d).lateSince = some b → (s.front d).closed = true →
      exec (.dieLateClose d cycle) s = .next (((s.noteSlip d cycle).closeDie d).openOwed false d).afterClose) ∧
    ((s.front d).planOpen = false ∨ (s.front d).lateSince = none ∨ (s.front d).closed = false →
      exec (.dieLateClose d cycle) s = .next s) := by
  have hx : exec (.dieLateClose d cycle) s = execDieLateClose d cycle s := rfl
  rw [hx]
  unfold execDieLateClose
  dsimp only
  refine ⟨fun hp b hb hc => ?_, fun h => ?_⟩
  · rw [hp, hb, hc]
    rfl
  · refine if_neg ?_
    rcases h with h | h | h <;> simp [h]

/-- A late die that has closed, whatever it then opens. -/
theorem dieLateClose_closes (s : State) (d : DieId) (cycle b : Nat) (hp : (s.front d).planOpen = true)
    (hb : (s.front d).lateSince = some b) (hc : (s.front d).closed = true)
    (ho : (s.front d).owed = [] ∨ s.haltHeld = true ∨ s.jobActive = false) :
    ∃ t, exec (.dieLateClose d cycle) s = .next t ∧ (t.front d).planOpen = false ∧ (t.front d).decls = [] ∧
      (t.front d).owed = (s.front d).owed ∧ (t.front d).tallies = (s.front d).tallies ∧
      t.param (P.slipHigh d.val) = max (s.param (P.slipHigh d.val)) (min (s.beat.guard
        + (s.beat.count - b) * s.beat.cycles + cycle) (2 ^ 32 - 1)) ∧
      (∀ x, x ≠ d → t.front x = s.front x) ∧ t.beat = s.beat ∧ t.mem.sram = s.mem.sram := by
  refine ⟨_, (exec_dieLateClose s d cycle).1 hp b hb hc, ?_⟩
  obtain ⟨h1, h2, h3, h4, h5⟩ := closeLate_parts s d cycle
  generalize (s.noteSlip d cycle).closeDie d = t at h1 h2 h3 h4 h5 ⊢
  have hgo : (s.front d).letGo = (s.front d).latch.closePlan := if_pos hp
  have howed : (t.front d).owed = (s.front d).owed := by rw [h3]; exact (s.front d).letGo_fields.2.1
  have hheld : t.haltHeld = s.haltHeld := haltHeld_congr fun x => by
    by_cases hx : x = d
    · subst hx; rw [h3]; exact (s.front x).letGo_fields.1
    · rw [h4 x hx]
  have hstay : t.openOwed false d = t := openOwed_stays t false d (by
    rw [howed, hheld, h2.active]
    exact ho.imp id Or.inr)
  rw [hstay]
  obtain ⟨a1, a2, a3⟩ := afterClose_keeps t
  have hf : ∀ x, t.afterClose.front x = t.front x := fun x => congrArg (fun q : Quad FrontEnd => q.get x) a2
  have hframe := a1.trans h1
  refine ⟨?_, ?_, ?_, ?_, ?_, fun x hx => (hf x).trans (h4 x hx), State.beat_of_closeFrame hframe,
    State.sram_of_closeFrame hframe⟩
  · rw [hf, h3, hgo]; rfl
  · rw [hf, h3, hgo]; rfl
  · rw [hf]; exact howed
  · rw [hf, h3]; exact (s.front d).letGo_fields.2.2
  · rw [a3 _ (slipHigh_not_after d), h5]
    unfold State.slipNow
    rw [hb]

/-- A late die that has closed and owes a plan, with a job running and no halt held. -/
theorem dieLateClose_opens (s : State) (d : DieId) (cycle b : Nat) (hp : (s.front d).planOpen = true)
    (hb : (s.front d).lateSince = some b) (hc : (s.front d).closed = true) {index jb n : Nat} {desc : List W32}
    {rest : List (Nat × Nat × Nat × List W32)} (ho : (s.front d).owed = (index, jb, n, desc) :: rest)
    (hh : s.haltHeld = false) (hj : s.jobActive = true) :
    ∃ t, exec (.dieLateClose d cycle) s = .next t ∧ (t.front d).planOpen = true ∧ (t.front d).planIndex = index ∧
      (t.front d).planBeat = jb ∧ (t.front d).wordNo = 0 ∧ (t.front d).owed = rest ∧
      (t.front d).lateSince = (if n = s.beat.count then none else some (n + 1)) ∧
      (∀ x, x ≠ d → t.front x = s.front x) ∧ t.beat = s.beat ∧ t.mem.sram = s.mem.sram := by
  refine ⟨_, (exec_dieLateClose s d cycle).1 hp b hb hc, ?_⟩
  obtain ⟨h1, h2, h3, h4, -⟩ := closeLate_parts s d cycle
  generalize (s.noteSlip d cycle).closeDie d = t at h1 h2 h3 h4 ⊢
  have howed : (t.front d).owed = (index, jb, n, desc) :: rest := by rw [h3, (s.front d).letGo_fields.2.1, ho]
  have hheld : t.haltHeld = false := (haltHeld_congr fun x => by
    by_cases hx : x = d
    · subst hx; rw [h3]; exact (s.front x).letGo_fields.1
    · rw [h4 x hx]).trans hh
  obtain ⟨o1, -, -, o4, o5, o6, o7, o8, o9, o10⟩ := openOwed_opens t d howed hheld (h2.active.trans hj)
  generalize t.openOwed false d = u at o1 o4 o5 o6 o7 o8 o9 o10 ⊢
  obtain ⟨a1, a2, -⟩ := afterClose_keeps u
  have hf : ∀ x, u.afterClose.front x = u.front x := fun x => congrArg (fun q : Quad FrontEnd => q.get x) a2
  have hbeat : t.beat = s.beat := State.beat_of_closeFrame h1
  have hframe := a1.trans (o1.trans h1)
  rw [hf d]
  refine ⟨o5, o6, o7, o8, o9, by rw [o10, hbeat], fun x hx => ?_, State.beat_of_closeFrame hframe,
    State.sram_of_closeFrame hframe⟩
  rw [hf, o4 x hx, h4 x hx]

/-! ## The obligation -/

/-- A release is taken if its beat is the coming boundary's or an earlier one (R427). -/
theorem takeRelease_cases (s : State) {r : Release} (hr : s.ten.release = some r) (ht : r.taken = false) :
    (r.beat ≤ s.beat.count + 1 → s.takeRelease.ten.release = some { r with taken := true }) ∧
      (s.beat.count + 1 < r.beat → s.takeRelease.ten.release = some r) := by
  unfold State.takeRelease
  rw [hr]
  dsimp only
  constructor
  · intro h
    rw [if_pos ⟨by rw [ht]; rfl, h⟩]
  · intro h
    rw [if_neg (fun hc => absurd hc.2 (by omega)), hr]

/-- Settles O52: a snapshot takes releases, STOP and matter commands and keeps the rest of its frame, and a late die lets go of its plan
and opens what it owes. -/
theorem snapshotsTakeAndLateDiesOpen : Obligations.SnapshotsTakeAndLateDiesOpen := by
  unfold Obligations.SnapshotsTakeAndLateDiesOpen
  refine ⟨fun s h => ?_, fun s h => ?_, fun d cycle b s hp hb hc => ⟨dieLateClose_closes s d cycle b hp hb hc,
    fun index jb n desc rest ho hh hj => dieLateClose_opens s d cycle b hp hb hc ho hh hj⟩,
    fun d cycle s h => (exec_dieLateClose s d cycle).2 h⟩
  · have hx : exec .beatSnapshot s = execBeatSnapshot s := rfl
    rw [hx]
    unfold execBeatSnapshot
    rw [if_pos h]
  · obtain ⟨t, ht, hfe, hsnap, hclean⟩ := exec_beatSnapshot s h
    unfold State.snapFrame at hsnap
    simp only [Prod.mk.injEq] at hsnap
    obtain ⟨hpend, hsram, hplan, hbeat, hjob, hten, hdue, htaken, hwritten⟩ := hsnap
    refine ⟨t, ht, hfe, hbeat, hsram, hplan, hpend, hclean, fun r hr hrt hle => ?_, fun r hr hrt hlt => ?_,
      fun hw hph => ?_, fun hw => ?_, fun hn => ?_, fun x hx => ?_⟩
    · rw [hten]; exact (takeRelease_cases s hr hrt).1 hle
    · rw [hten]; exact (takeRelease_cases s hr hrt).2 hlt
    · rw [hjob]
      unfold State.takeStop
      rw [if_pos ⟨hw, hph⟩]
      exact ⟨rfl, rfl, rfl⟩
    · rw [hjob]
      unfold State.takeStop
      rw [if_neg (fun hc => absurd hc.1 (by simp [hw]))]
    · rw [hdue, htaken, hwritten]
      unfold State.takeMatter
      rw [if_neg (by simp [hn])]
      exact ⟨rfl, rfl, rfl⟩
    · rw [hdue, htaken, hwritten]
      unfold State.takeMatter
      rw [if_pos (by simp [hx])]
      exact ⟨hx, rfl, rfl⟩

end Sys2Proof.Machine
end


section
/-! SUPPORT. What a device sends at its boundary leaves the beat's kind, the job, the front ends and the memories as they are
(R27, R43, R44, R47, R355). -/

namespace Sys2Proof.Machine
open Sys2Proof

/-- A beat without what is announced, echoed, held and decided for the boundaries to come. -/
def BeatState.core (b : BeatState) : BeatState :=
  { b with announced := [], closureKnown := false, echoSent := false, aggMissing := 0, aggIdle := 0, holdBeats := 0,
           holdTicks := [], holdExpired := false, nextKind := .free }

/-- The part of a state that the sends of a boundary leave unchanged. -/
def State.sentFrame (s : State) : List Instr × Quad FrontEnd × MemState × JobState × BootState × BeatState :=
  (s.pending, s.fe, s.mem, s.job, s.boot, s.beat.core)

/-- The parameters that the election, the echo and a hold may write. -/
def sendParams : List Nat :=
  [P.beatSourceId, P.beatRole, P.beatParentLink, P.beatDepth, P.beatPathLatency, P.idleGranted, P.lossState]

/-- One state is the other after sends alone. -/
structure Sent (s t : State) : Prop where
  frame : t.sentFrame = s.sentFrame
  params : ParamsBut sendParams s t

theorem Sent.refl (s : State) : Sent s s := ⟨rfl, ParamsBut.refl _ _⟩

theorem Sent.trans {s t u : State} (h : Sent s t) (h' : Sent t u) : Sent s u :=
  ⟨h'.frame.trans h.frame, h.params.trans h'.params⟩

theorem Sent.fe {s t : State} (h : Sent s t) : t.fe = s.fe := congrArg (fun x => x.2.1) h.frame

theorem Sent.job {s t : State} (h : Sent s t) : t.job = s.job := congrArg (fun x => x.2.2.2.1) h.frame

theorem Sent.boot {s t : State} (h : Sent s t) : t.boot = s.boot := congrArg (fun x => x.2.2.2.2.1) h.frame

theorem Sent.beat {s t : State} (h : Sent s t) : t.beat.core = s.beat.core := congrArg (fun x => x.2.2.2.2.2) h.frame

theorem sent_of_onlyLinks {s t : State} (h : OnlyLinks s t) : Sent s t := by
  refine ⟨?_, fun k _ => h.param k⟩
  obtain ⟨ls, o, f, rfl⟩ := h
  rfl

theorem sent_setParam (s : State) {k : Nat} (v : Nat) (hk : k ∈ sendParams) : Sent s (s.setParam k v) :=
  ⟨rfl, (ParamsBut.refl _ s).setParam v hk⟩

theorem sent_beat (s : State) (b : BeatState) (h : b.core = s.beat.core) : Sent s { s with beat := b } :=
  ⟨congrArg (fun x => (s.pending, s.fe, s.mem, s.job, s.boot, x)) h, ParamsBut.refl _ _⟩

theorem sent_foldl {α : Type} (f : State → α → State) (l : List α) (s : State) (h : ∀ t x, Sent t (f t x)) :
    Sent s (l.foldl f s) := by
  induction l generalizing s with
  | nil => exact Sent.refl s
  | cons x l ih => exact (h s x).trans (ih _)

theorem sent_announce (s : State) (n : Nat) (k : BeatKind) : Sent s (s.announce n k) := by
  obtain ⟨a, h⟩ := announce_frame s n k
  rw [h]
  exact sent_beat s _ rfl

theorem sent_announceHalt (s : State) : Sent s s.announceHalt := by
  obtain ⟨a, h⟩ := (announceHalt_frame s).1
  rw [h]
  exact sent_beat s _ rfl

theorem sent_signal (s : State) (v : Nat) : Sent s (s.signal v) := by
  unfold State.signal
  split <;> exact ⟨rfl, ParamsBut.refl _ _⟩

theorem sent_ringInterrupts (s : State) : Sent s s.ringInterrupts :=
  sent_foldl _ _ s fun t k => by
    unfold State.signalRing
    split
    · exact (show Sent t (t.setRing k _) from ⟨rfl, ParamsBut.refl _ _⟩).trans (sent_signal _ _)
    · exact Sent.refl t

theorem sent_setRole (s : State) (src role link depth latency : Nat) : Sent s (s.setRole src role link depth latency) :=
  ((((sent_setParam s src (by decide)).trans (sent_setParam _ role (by decide))).trans
    (sent_setParam _ link (by decide))).trans (sent_setParam _ _ (by decide))).trans (sent_setParam _ latency (by decide))

theorem sent_elect (s : State) : Sent s s.elect := by
  unfold State.elect
  split
  · exact sent_setRole s _ _ _ _ _
  · split
    · exact sent_setRole s _ _ _ _ _
    · split
      · exact sent_setRole s _ _ _ _ _
      · split <;> exact sent_setRole s _ _ _ _ _

theorem sent_showHold (s : State) (v : Nat) : Sent s (s.showHold v) := by
  unfold State.showHold
  split
  · exact Sent.refl s
  · exact sent_setParam s v (by decide)

theorem sent_hold (s : State) : Sent s s.hold := by
  unfold State.hold
  generalize hs : (if (s.isSource && s.lossDue) = true then s.announceLoss else s) = s0
  have h0 : Sent s s0 := by
    rw [← hs]
    split
    · exact (sent_announce s _ _).trans (sent_announce _ _ _)
    · exact Sent.refl s
  have hb : ∀ v, (s0.showHold v).beat = s0.beat := State.showHold_beat s0
  dsimp only
  split
  · refine (h0.trans (sent_showHold s0 1)).trans (Sent.trans ?_ (sent_announce _ _ _))
    exact sent_beat _ _ (by rw [hb]; rfl)
  · split
    · refine (h0.trans (sent_showHold s0 0)).trans ?_
      exact sent_beat _ _ (by rw [hb]; rfl)
    · exact h0

theorem sent_lookForward (s : State) : Sent s s.lookForward :=
  ((sent_hold s).trans (sent_beat s.hold { s.hold.beat with nextKind := s.hold.nextKindNow } rfl)).trans (sent_beat _ _ rfl)

theorem sent_sendMarkers (s : State) : Sent s s.sendMarkers :=
  sent_foldl _ _ s fun t n => by
    split
    · exact (sent_of_onlyLinks (onlyLinks_sendLocal _ _ _ _)).trans (sent_of_onlyLinks (onlyLinks_drawn _))
    · exact Sent.refl t

theorem sent_sendEcho (s : State) : Sent s s.sendEcho := by
  unfold State.sendEcho
  dsimp only
  split
  · exact (sent_beat s { s.beat with echoSent := true, aggMissing := s.echoNow.missingCount, aggIdle := s.echoNow.idleReq }
      rfl).trans (sent_setParam (k := P.idleGranted) _ _ (by decide))
  · have h := ((sent_beat s { s.beat with echoSent := true } rfl).trans (sent_setParam _ (k := P.idleGranted)
      (s.freeWord.toNat % 16) (by decide))).trans (sent_of_onlyLinks (onlyLinks_drawn _))
    split
    · exact h.trans (sent_of_onlyLinks (onlyLinks_sendLocal _ _ _ _))
    · exact h

theorem sent_tryEcho (s : State) : Sent s s.tryEcho := by
  unfold State.tryEcho
  split
  · exact sent_sendEcho s
  · exact Sent.refl s

/-- The sends of a boundary. -/
theorem sent_boundarySends (s : State) : Sent s s.boundarySends := by
  unfold State.boundarySends
  dsimp only
  generalize hs : (if s.haltHeld = true then s.announceHalt else s) = s1
  have h1 : Sent s s1 := by
    rw [← hs]
    split
    · exact sent_announceHalt s
    · exact Sent.refl s
  have h2 := (((h1.trans (sent_ringInterrupts s1)).trans (sent_elect _)).trans (sent_lookForward _)).trans (sent_sendMarkers _)
  generalize s1.ringInterrupts.elect.lookForward.sendMarkers = t at h2 ⊢
  exact (h2.trans (sent_beat t { t.beat with closureKnown := true } rfl)).trans (sent_tryEcho _)

end Sys2Proof.Machine
end


section
/-! SUPPORT. The closings of a boundary: every die that meets closure lets go of its plan, and with nothing owed none opens (R30, R31). -/

namespace Sys2Proof.Machine
open Sys2Proof

/-! ## Closure survives the letting go -/

/-- A front end as the closings of a boundary leave it when nothing that is owed opens. -/
def FrontEnd.settle (f : FrontEnd) : FrontEnd := if f.closed then f.letGo else f

theorem FrontEnd.letGo_closed (f : FrontEnd) (h : f.closed = true) : f.letGo.closed = true := by
  unfold FrontEnd.letGo
  split
  · next hp =>
    have hr : f.running = [] := by
      unfold FrontEnd.closed FrontEnd.unmet FrontEnd.unitBusy at h
      by_contra hne
      have hb : (!f.running.isEmpty) = true := by cases hf : f.running with
        | nil => exact absurd hf hne
        | cons r rs => rfl
      rw [hb] at h
      simp at h
    have hu : f.latch.closePlan.unmet = 0 := by
      have hq : f.latch.closePlan.queueHeld = false := rfl
      have ht : f.latch.closePlan.badTally = none := rfl
      have hb : f.latch.closePlan.unitBusy = (!f.running.isEmpty || (false && !f.ended)) := rfl
      have ho : f.latch.closePlan.running = f.running := rfl
      unfold FrontEnd.unmet
      rw [hq, ht, hb, ho, hr]
      rfl
    unfold FrontEnd.closed
    rw [hu]
    rfl
  · exact h

theorem FrontEnd.letGo_planOpen (f : FrontEnd) : f.letGo.planOpen = false := by
  unfold FrontEnd.letGo
  split
  · rfl
  · next h => exact Bool.eq_false_iff.2 h

theorem FrontEnd.settle_of_closed {f : FrontEnd} (h : f.closed = true) : f.settle = f.letGo := if_pos h

theorem FrontEnd.settle_of_late {f : FrontEnd} (h : f.closed = false) : f.settle = f := if_neg (by rw [h]; exact Bool.false_ne_true)

theorem FrontEnd.settle_closed (f : FrontEnd) : f.settle.closed = f.closed := by
  cases h : f.closed with
  | true => rw [FrontEnd.settle_of_closed h, f.letGo_closed h]
  | false => rw [FrontEnd.settle_of_late h, h]

/-- What the closings leave of a front end: its halt request, what it owes, its tallies and the index delivered to it. -/
theorem FrontEnd.settle_fields (f : FrontEnd) : f.settle.haltReq = f.haltReq ∧ f.settle.owed = f.owed ∧
    f.settle.tallies = f.tallies ∧ f.settle.delivered = f.delivered := by
  unfold FrontEnd.settle FrontEnd.letGo
  split
  · split <;> exact ⟨rfl, rfl, rfl, rfl⟩
  · exact ⟨rfl, rfl, rfl, rfl⟩

/-- A front end that holds a plan after the closings held it before. -/
theorem FrontEnd.settle_planOpen {f : FrontEnd} (h : f.settle.planOpen = true) : f.planOpen = true := by
  cases hc : f.closed with
  | true =>
    rw [FrontEnd.settle_of_closed hc, f.letGo_planOpen] at h
    exact absurd h Bool.false_ne_true
  | false => rwa [FrontEnd.settle_of_late hc] at h

/-! ## The closings of a boundary -/

/-- The parameters that the closings of a boundary may write. -/
def settleParams : List Nat := closeCounters ++ (List.range 4).map P.slipHigh

/-- One state is the other but for what closings may write beside the front ends. -/
structure Settled (s t : State) : Prop where
  frame : t.closeFrame = s.closeFrame
  fe : t.fe = s.fe
  job : SameButSeen s.job t.job
  params : ParamsBut settleParams s t

theorem Settled.refl (s : State) : Settled s s := ⟨rfl, rfl, SameButSeen.refl _, ParamsBut.refl _ _⟩

theorem Settled.trans {s t u : State} (h : Settled s t) (h' : Settled t u) : Settled s u :=
  ⟨h'.frame.trans h.frame, h'.fe.trans h.fe, h.job.trans h'.job, h.params.trans h'.params⟩

theorem Settled.modFront {s t : State} (h : Settled s t) (d : DieId) (g : FrontEnd → FrontEnd) :
    Settled (s.modFront d g) (t.modFront d g) := by
  refine ⟨h.frame, ?_, h.job, h.params⟩
  unfold State.modFront State.setFront State.front
  rw [h.fe]

theorem Settled.foldl {s t : State} (h : Settled s t) (l : List DieId) (g : FrontEnd → FrontEnd) :
    Settled (l.foldl (fun (u : State) d => u.modFront d g) s) (l.foldl (fun (u : State) d => u.modFront d g) t) := by
  induction l generalizing s t with
  | nil => exact h
  | cons d l ih => exact ih (h.modFront d g)

theorem settled_of_latched {s t : State} (h : Latched s t) : Settled s t :=
  ⟨h.frame, h.fe, h.job, fun k hk => h.params k fun hc => hk (List.mem_append_left _ hc)⟩

theorem settled_noteSlip (s : State) (d : DieId) (cycle : Nat) : Settled s (s.noteSlip d cycle) := by
  obtain ⟨h1, h2, h3, h4, -⟩ := noteSlip_frame s d cycle
  refine ⟨h1, h2, by rw [h3]; exact SameButSeen.refl _, fun k hk => h4 k fun hc => hk ?_⟩
  rw [List.mem_singleton.1 hc]
  exact List.mem_append_right _ (List.mem_map_of_mem (List.mem_range.2 d.isLt))

/-- A closed die before it opens anything. -/
theorem settled_close (s : State) (d : DieId) (h : (s.front d).closed = true) :
    Settled (s.modFront d FrontEnd.settle)
      (if (s.front d).planOpen then (s.noteSlip d 0).closeDie d else s.closeDie d) := by
  rw [State.modFront_congr s d (f := FrontEnd.settle) (g := FrontEnd.letGo) (FrontEnd.settle_of_closed h)]
  split
  · exact ((settled_noteSlip s d 0).modFront d _).trans (settled_of_latched (latched_closeDie _ d))
  · exact settled_of_latched (latched_closeDie s d)

/-- Nothing that is owed opens: what a closed die owes is nothing, or a halt or the want of a job keeps it from opening. -/
def NothingOpens (halting : Bool) (s : State) : Prop :=
  halting = true ∨ s.haltHeld = true ∨ s.jobActive = false ∨ ∀ x, (s.front x).closed = true → (s.front x).owed = []

theorem closeAtBoundary_closed (s : State) (halting : Bool) (d : DieId) (h : (s.front d).closed = true) :
    State.closeAtBoundary halting s d =
      (if (s.front d).planOpen then (s.noteSlip d 0).closeDie d else s.closeDie d).openOwed halting d := by
  unfold State.closeAtBoundary
  rw [h]
  simp only [Bool.not_true, Bool.false_eq_true, if_false]
  split <;> rfl

theorem closeAtBoundary_late (s : State) (halting : Bool) (d : DieId) (h : (s.front d).closed = false) :
    State.closeAtBoundary halting s d = s := by
  unfold State.closeAtBoundary
  rw [h]
  rfl

theorem Settled.front {s t : State} (h : Settled s t) (x : DieId) : t.front x = s.front x :=
  congrArg (fun q : Quad FrontEnd => q.get x) h.fe

/-- What the closing of a die leaves of every front end. -/
theorem Settled.fronts {s t : State} {d : DieId} (h : Settled (s.modFront d FrontEnd.settle) t) (x : DieId) :
    t.front x = s.front x ∨ t.front x = (s.front x).settle := by
  rw [h.front]
  by_cases hx : x = d
  · subst hx; exact Or.inr (State.front_modFront_self s x _)
  · exact Or.inl (State.front_modFront_ne s d x _ hx)

theorem Settled.held {s t : State} {d : DieId} (h : Settled (s.modFront d FrontEnd.settle) t) : t.haltHeld = s.haltHeld :=
  haltHeld_congr fun x => by
    rcases h.fronts x with e | e
    · rw [e]
    · rw [e]; exact (s.front x).settle_fields.1

theorem Settled.owed {s t : State} {d : DieId} (h : Settled (s.modFront d FrontEnd.settle) t) (x : DieId) :
    (t.front x).owed = (s.front x).owed := by
  rcases h.fronts x with e | e
  · rw [e]
  · rw [e]; exact (s.front x).settle_fields.2.1

theorem Settled.closed {s t : State} {d : DieId} (h : Settled (s.modFront d FrontEnd.settle) t) (x : DieId) :
    (t.front x).closed = (s.front x).closed := by
  rcases h.fronts x with e | e
  · rw [e]
  · rw [e]; exact (s.front x).settle_closed

theorem Settled.active {s t : State} {d : DieId} (h : Settled (s.modFront d FrontEnd.settle) t) : t.jobActive = s.jobActive :=
  SameButSeen.active (s := s.modFront d FrontEnd.settle) h.job

/-- The closing of a die that opens nothing. -/
theorem settled_closeAtBoundary_of (s : State) (halting : Bool) (d : DieId)
    (hn : (s.front d).owed = [] ∨ halting = true ∨ s.haltHeld = true ∨ s.jobActive = false ∨ (s.front d).closed = false) :
    Settled (s.modFront d FrontEnd.settle) (State.closeAtBoundary halting s d) := by
  cases hc : (s.front d).closed with
  | false =>
    rw [closeAtBoundary_late s halting d hc, State.modFront_same s d _ (FrontEnd.settle_of_late hc)]
    exact Settled.refl s
  | true =>
    rw [closeAtBoundary_closed s halting d hc]
    have h1 := settled_close s d hc
    generalize (if (s.front d).planOpen = true then (s.noteSlip d 0).closeDie d else s.closeDie d) = t at h1 ⊢
    rw [openOwed_stays t halting d (by
      rw [h1.owed, h1.held, h1.active]
      refine hn.imp id (Or.imp id (Or.imp id fun h => h.resolve_right ?_))
      rw [hc]
      decide)]
    exact h1

/-- The closing of a die at which nothing opens. -/
theorem settled_closeAtBoundary (s : State) (halting : Bool) (d : DieId) (hn : NothingOpens halting s) :
    Settled (s.modFront d FrontEnd.settle) (State.closeAtBoundary halting s d) ∧
      NothingOpens halting (State.closeAtBoundary halting s d) := by
  have h : Settled (s.modFront d FrontEnd.settle) (State.closeAtBoundary halting s d) := by
    refine settled_closeAtBoundary_of s halting d ?_
    cases hc : (s.front d).closed with
    | false => exact Or.inr (Or.inr (Or.inr (Or.inr rfl)))
    | true =>
      rcases hn with h | h | h | h
      · exact Or.inr (Or.inl h)
      · exact Or.inr (Or.inr (Or.inl h))
      · exact Or.inr (Or.inr (Or.inr (Or.inl h)))
      · exact Or.inl (h d hc)
  refine ⟨h, ?_⟩
  unfold NothingOpens
  rw [h.held, h.active]
  exact hn.imp id (Or.imp id (Or.imp id fun ho x hc => by rw [h.closed] at hc; rw [h.owed]; exact ho x hc))

/-- The closings of some dies, one after the other, where nothing opens. -/
theorem settled_closings (halting : Bool) (l : List DieId) (s : State) (hn : NothingOpens halting s) :
    Settled (l.foldl (fun (u : State) d => u.modFront d FrontEnd.settle) s) (l.foldl (State.closeAtBoundary halting) s) ∧
      NothingOpens halting (l.foldl (State.closeAtBoundary halting) s) := by
  induction l generalizing s with
  | nil => exact ⟨Settled.refl s, hn⟩
  | cons d l ih =>
    obtain ⟨h1, h2⟩ := settled_closeAtBoundary s halting d hn
    obtain ⟨h3, h4⟩ := ih _ h2
    exact ⟨(h1.foldl l FrontEnd.settle).trans h3, h4⟩

end Sys2Proof.Machine
end


section
/-! SUPPORT. The stages of a boundary after its closings: overrun, the edit set, the kind of the beat and the openings (R30, R37 to R41). -/

namespace Sys2Proof.Machine
open Sys2Proof

/-! ## What the stages say -/

/-- What a boundary shows of the beat, the job, the plan chosen and the device. -/
structure BoundaryView where
  count : Nat
  kind : BeatKind
  jobBeat : Nat
  firstNormal : Bool
  overrun : Bool
  afterCatchUp : Bool
  job : JobState
  plan : Option Nat
  dev : DevState

/-- The view of a state at a boundary. -/
def State.view (s : State) : BoundaryView :=
  ⟨s.beat.count, s.beat.kind, s.beat.jobBeat, s.beat.firstNormal, s.beat.overrun, s.beat.afterCatchUp, s.job, s.adm.plan,
    s.boot.dev⟩

theorem view_of_hubFrame {s t : State} (h : t.hubFrame = s.hubFrame) : t.view = s.view :=
  congrArg (fun f : HubFrame => (⟨f.beat.count, f.beat.kind, f.beat.jobBeat, f.beat.firstNormal, f.beat.overrun,
    f.beat.afterCatchUp, f.job, f.plan, f.dev⟩ : BoundaryView)) h

theorem view_of_closeFrame {s t : State} (h : t.closeFrame = s.closeFrame) (hj : t.job = s.job) : t.view = s.view := by
  have h1 := congrArg (fun f : HubFrame => (⟨f.beat.count, f.beat.kind, f.beat.jobBeat, f.beat.firstNormal, f.beat.overrun,
    f.beat.afterCatchUp, s.job, f.plan, f.dev⟩ : BoundaryView)) h
  refine Eq.trans ?_ h1
  unfold State.view
  rw [hj]
  rfl

theorem view_setParam (s : State) (k v : Nat) : (s.setParam k v).view = s.view := rfl

theorem view_bump (s : State) (k n : Nat) : (s.bump k n).view = s.view := view_setParam s k _

/-! ## Folds over dies -/

/-- A fold over different dies, each step of which changes one front end and keeps an invariant of the rest. -/
theorem foldl_fronts (f : State → DieId → State) (Q : DieId → FrontEnd → FrontEnd → Prop) (I : State → Prop)
    (hI : ∀ t d, I t → I (f t d)) (hself : ∀ t d, I t → Q d (t.front d) ((f t d).front d))
    (hne : ∀ t d x, I t → x ≠ d → (f t d).front x = t.front x) (l : List DieId) (hl : l.Nodup) (s : State) (hs : I s) :
    I (l.foldl f s) ∧ (∀ x ∈ l, Q x (s.front x) ((l.foldl f s).front x)) ∧
      ∀ x, x ∉ l → (l.foldl f s).front x = s.front x := by
  induction l generalizing s with
  | nil => exact ⟨hs, fun x hx => absurd hx List.not_mem_nil, fun _ _ => rfl⟩
  | cons d l ih =>
    obtain ⟨hd, hl⟩ := List.nodup_cons.1 hl
    obtain ⟨h1, h2, h3⟩ := ih hl (f s d) (hI s d hs)
    refine ⟨h1, fun x hx => ?_, fun x hx => ?_⟩
    · rcases List.mem_cons.1 hx with rfl | hx
      · rw [List.foldl_cons, h3 x hd]
        exact hself s x hs
      · have hxd : x ≠ d := fun e => hd (e ▸ hx)
        have := h2 x hx
        rwa [hne s d x hs hxd] at this
    · rw [List.mem_cons, not_or] at hx
      rw [List.foldl_cons, h3 x hx.2, hne s d x hs hx.1]

theorem allDies_nodup : allDies.Nodup := by decide

theorem mem_allDies (d : DieId) : d ∈ allDies := by
  revert d
  decide

theorem mem_lateDies (s : State) (x : DieId) : x ∈ s.lateDies ↔ (s.front x).closed = false := by
  unfold State.lateDies
  rw [List.mem_filter]
  constructor
  · exact fun h => by simpa using h.2
  · exact fun h => ⟨mem_allDies x, by simp [h]⟩

theorem lateDies_nodup (s : State) : s.lateDies.Nodup := allDies_nodup.filter _

/-! ## Overrun (R37) -/

theorem overrunDie_parts (s : State) (d : DieId) : (s.overrunDie d).view = { s.view with overrun := true } ∧
    (s.overrunDie d).fe = s.fe ∧ (s.overrunDie d).ten = s.ten := by
  unfold State.overrunDie
  dsimp only
  generalize ht : State.dieEvent _ d Ev.beatOverrun _ = t
  have h : t.hubFrame = ({ s with beat := { s.beat with overrun := true } } : State).hubFrame := by
    rw [← ht]
    exact hubFrame_dieEvent _ _ _ _
  have hf : t.fe = s.fe := congrArg HubFrame.fe h
  have ht : t.ten = s.ten := congrArg HubFrame.ten h
  refine ⟨?_, ?_, ?_⟩
  · rw [view_setParam, view_setParam, view_bump, view_of_hubFrame h]
    rfl
  · rw [State.setParam_fe, State.setParam_fe, State.bump, State.setParam_fe, hf]
  · rw [State.setParam_ten, State.setParam_ten, State.bump, State.setParam_ten, ht]

theorem overrunDies_parts (l : List DieId) (s : State) :
    (l.foldl State.overrunDie s).view = (if l = [] then s.view else { s.view with overrun := true }) ∧
    (l.foldl State.overrunDie s).fe = s.fe ∧ (l.foldl State.overrunDie s).ten = s.ten := by
  induction l generalizing s with
  | nil => exact ⟨rfl, rfl, rfl⟩
  | cons d l ih =>
    obtain ⟨h1, h2, h3⟩ := overrunDie_parts s d
    obtain ⟨i1, i2, i3⟩ := ih (s.overrunDie d)
    refine ⟨?_, i2.trans h2, i3.trans h3⟩
    rw [List.foldl_cons, i1, h1, if_neg (List.cons_ne_nil d l)]
    split <;> rfl

/-! ## What follows the closure check (R38, R39) -/

/-- The halt requests that a boundary checked after a CATCH_UP beat sets. -/
def FrontEnd.haltIf (c : Bool) (f : FrontEnd) : FrontEnd := { f with haltReq := f.haltReq || c }

theorem answerLate_parts (s : State) (late : List DieId) (hl : late.Nodup) (hj : s.jobActive = true) :
    (s.answerLate late).view = { s.view with afterCatchUp := false } ∧
    ∀ x, (s.answerLate late).front x = (s.front x).haltIf (s.beat.afterCatchUp && decide (x ∈ late)) := by
  unfold State.answerLate
  dsimp only
  generalize hs : (if late.isEmpty = true then s else _ : State) = t
  suffices h : t.view = s.view ∧ ∀ x, t.front x = (s.front x).haltIf (s.beat.afterCatchUp && decide (x ∈ late)) from
    ⟨congrArg (fun v : BoundaryView => { v with afterCatchUp := false }) h.1, h.2⟩
  have hsame : ∀ f : FrontEnd, f.haltIf false = f := fun f => by
    unfold FrontEnd.haltIf
    rw [Bool.or_false]
  rw [← hs]
  split
  · next he =>
    rw [List.isEmpty_iff.1 he]
    exact ⟨rfl, fun x => by rw [decide_eq_false List.not_mem_nil, Bool.and_false, hsame]⟩
  · split
    · next ha =>
      have h := foldl_fronts (fun (u : State) d => (u.dieEvent d Ev.beatOverrunHalt []).requestHalt d)
        (fun _ f g => g = f.haltIf true) (fun u => u.view = s.view) (fun u d hu => ?_) (fun u d hu => ?_)
        (fun u d x hu hx => ?_) late hl s rfl
      · obtain ⟨h1, h2, h3⟩ := h
        refine ⟨h1, fun x => ?_⟩
        by_cases hx : x ∈ late
        · rw [h2 x hx, ha, decide_eq_true hx, Bool.true_and]
        · rw [h3 x hx, decide_eq_false hx, Bool.and_false, hsame]
      · have he := view_of_hubFrame (hubFrame_dieEvent u d Ev.beatOverrunHalt [])
        refine Eq.trans ?_ (he.trans hu)
        unfold State.requestHalt
        split <;> rfl
      · have hf : (u.dieEvent d Ev.beatOverrunHalt []).fe = u.fe := State.fe_of_hubFrame (hubFrame_dieEvent u d _ _)
        have hju : (u.dieEvent d Ev.beatOverrunHalt []).jobActive = true := by
          have : (u.dieEvent d Ev.beatOverrunHalt []).job = s.job :=
            (State.job_of_hubFrame (hubFrame_dieEvent u d _ _)).trans (congrArg BoundaryView.job hu)
          rw [State.jobActive_congr this, hj]
        unfold State.requestHalt
        rw [if_pos hju, State.front_modFront_self]
        unfold State.front FrontEnd.haltIf
        rw [hf, Bool.or_true]
      · have hf : (u.dieEvent d Ev.beatOverrunHalt []).fe = u.fe := State.fe_of_hubFrame (hubFrame_dieEvent u d _ _)
        unfold State.requestHalt
        split
        · rw [State.front_modFront_ne _ d x _ hx]
          exact congrArg (fun q : Quad FrontEnd => q.get x) hf
        · exact congrArg (fun q : Quad FrontEnd => q.get x) hf
    · next ha =>
      obtain ⟨a, h⟩ := (announceCatchUp_frame s).1
      rw [h]
      refine ⟨rfl, fun x => ?_⟩
      rw [Bool.eq_false_iff.2 ha, Bool.false_and, hsame]
      rfl

/-! ## The edit set and the kind (R30) -/

/-- A late die's front end once the boundary at which it was first late is noted. -/
def FrontEnd.noteLate (n : Nat) (f : FrontEnd) : FrontEnd :=
  if f.closed then f else { f with lateSince := some (f.lateSince.getD n) }

theorem hubFrame_keepView (s : State) (d : DieId) : (s.keepView d).hubFrame = s.hubFrame := by
  unfold State.keepView
  split <;> rfl

/-- The hub's frame without the front ends. -/
def State.restFrame (s : State) : HubFrame := { s.hubFrame with fe := Quad.fill FrontEnd.reset }

theorem restFrame_of_hubFrame {s t : State} (h : t.hubFrame = s.hubFrame) : t.restFrame = s.restFrame :=
  congrArg (fun f : HubFrame => { f with fe := Quad.fill FrontEnd.reset }) h

theorem keepLate_parts (s : State) : s.keepLate.restFrame = s.restFrame ∧
    ∀ x, s.keepLate.front x = (s.front x).noteLate s.beat.count := by
  have h := foldl_fronts (fun (t : State) d => (t.keepView d).modFront d (fun f =>
      { f with lateSince := some (f.lateSince.getD t.beat.count) }))
    (fun _ f g => g = { f with lateSince := some (f.lateSince.getD s.beat.count) }) (fun t => t.restFrame = s.restFrame)
    (fun t d ht => (restFrame_of_hubFrame (hubFrame_keepView t d)).trans ht) (fun t d ht => ?_) (fun t d x _ hx => ?_)
    s.lateDies (lateDies_nodup s) s rfl
  · obtain ⟨h1, h2, h3⟩ := h
    refine ⟨h1, fun x => ?_⟩
    unfold FrontEnd.noteLate
    cases hc : (s.front x).closed with
    | true =>
      rw [if_pos rfl]
      exact h3 x fun hx => absurd ((mem_lateDies s x).1 hx) (by rw [hc]; decide)
    | false =>
      rw [if_neg Bool.false_ne_true]
      exact h2 x ((mem_lateDies s x).2 hc)
  · have hb : t.beat = s.beat := congrArg HubFrame.beat ht
    have hf : (t.keepView d).front d = t.front d :=
      congrArg (fun q : Quad FrontEnd => q.get d) (State.fe_of_hubFrame (hubFrame_keepView t d))
    rw [State.front_modFront_self, hf, hb]
  · rw [State.front_modFront_ne _ d x _ hx]
    exact congrArg (fun q : Quad FrontEnd => q.get x) (State.fe_of_hubFrame (hubFrame_keepView t d))

theorem hubFrame_applyEditSet (s : State) : s.applyEditSet.hubFrame = s.hubFrame := by
  unfold State.applyEditSet
  split
  · rfl
  · dsimp only
    refine (hubFrame_foldl _ _ _ fun _ _ _ => hubFrame_postStatus _ _ _ _).trans ?_
    refine (hubFrame_foldl _ _ _ fun t d _ => ?_).trans (hubFrame_kv s _)
    split
    · exact hubFrame_writeTables _ _ _ _
    · rfl

theorem hubFrame_keyPage (s : State) (frame slot gen : Nat) : (s.keyPage frame slot gen).hubFrame = s.hubFrame :=
  hubFrame_clearPage s frame

theorem hubFrame_applyRekeys (s : State) : s.applyRekeys.hubFrame = s.hubFrame := by
  unfold State.applyRekeys
  split
  · rfl
  · exact (hubFrame_foldl _ _ _ fun _ _ _ => hubFrame_keyPage _ _ _ _).trans rfl

/-- The parameters that the edit set and the count of kinds may write. -/
def kindParams : List Nat := hubCounters ++ [P.idleBeatCount, P.catchUpCount]

/-- The beat's kind, counted. -/
theorem countKind_parts (s : State) (kind : BeatKind) :
    (s.countKind kind).view = { s.view with afterCatchUp := kind == .catchUp || s.beat.afterCatchUp } ∧
    (s.countKind kind).fe = s.fe ∧ ParamsBut kindParams s (s.countKind kind) ∧ (kind = .free → s.countKind kind = s) := by
  have hb : ∀ (b : BeatState), ParamsBut kindParams s { s with beat := b } := fun _ => ParamsBut.refl _ s
  unfold State.countKind
  dsimp only
  cases kind with
  | normal => exact ⟨rfl, rfl, hb _, nofun⟩
  | idle => exact ⟨rfl, rfl, (hb _).bump 1 (by decide), nofun⟩
  | catchUp =>
    dsimp only
    split
    · exact ⟨rfl, rfl, ((hb _).bump 1 (by decide)).bump 1 (by decide), nofun⟩
    · exact ⟨rfl, rfl, (hb _).bump 1 (by decide), nofun⟩
  | halt => exact ⟨rfl, rfl, hb _, nofun⟩
  | free => exact ⟨rfl, rfl, hb _, fun _ => rfl⟩

/-- The state in which the kind's own work begins: the edit set and the page attributes have been applied, and the beat counted. -/
def State.edited (s : State) (kind : BeatKind) : State :=
  let s1 := State.applyRekeys (s.keepLate.applyEditSet)
  State.countKind { s1 with beat := { s1.beat with kind := kind } } kind

theorem edited_parts (s : State) (kind : BeatKind) :
    (s.edited kind).view = { s.view with kind := kind, afterCatchUp := kind == .catchUp || s.beat.afterCatchUp } ∧
    (∀ x, (s.edited kind).front x = (s.front x).noteLate s.beat.count) ∧ ParamsBut kindParams s (s.edited kind) := by
  obtain ⟨h1, h2⟩ := keepLate_parts s
  have he := (hubFrame_applyRekeys s.keepLate.applyEditSet).trans (hubFrame_applyEditSet s.keepLate)
  unfold State.edited
  dsimp only
  generalize s.keepLate.applyEditSet.applyRekeys = t at he ⊢
  have hr : t.restFrame = s.restFrame := (restFrame_of_hubFrame he).trans h1
  have hv : t.view = s.view := congrArg (fun f : HubFrame => (⟨f.beat.count, f.beat.kind, f.beat.jobBeat, f.beat.firstNormal,
    f.beat.overrun, f.beat.afterCatchUp, f.job, f.plan, f.dev⟩ : BoundaryView)) hr
  have hb : t.beat = s.beat := congrArg HubFrame.beat hr
  have hp : ParamsBut kindParams s t := fun k hk => by
    have hc : k ∉ hubCounters := fun hc => hk (List.mem_append_left _ hc)
    have hd : t.dict.beyondHub k = s.dict.beyondHub k := congrFun (congrArg HubFrame.param hr) k
    unfold DictState.beyondHub at hd
    rwa [if_neg hc, if_neg hc] at hd
  obtain ⟨c1, c2, c3, -⟩ := countKind_parts { t with beat := { t.beat with kind := kind } } kind
  refine ⟨?_, fun x => ?_, hp.trans c3⟩
  · rw [c1, ← hv, ← hb]
    rfl
  · rw [← h2 x]
    have hf : t.front x = s.keepLate.front x := congrArg (fun q : Quad FrontEnd => q.get x) (State.fe_of_hubFrame he)
    rw [← hf]
    exact congrArg (fun q : Quad FrontEnd => q.get x) c2

/-- The kind's own work, after the edit set. -/
theorem applyKind_eq (s : State) (kind : BeatKind) : s.applyKind kind =
    match kind with
    | .normal => (s.edited kind).openBeat
    | .halt => (s.edited kind).haltBeat
    | .free => (s.edited kind).adoptConfig
    | _ => s.edited kind := rfl

/-- A late die's note leaves of its front end everything but since when it has been late. -/
theorem FrontEnd.noteLate_fields (n : Nat) (f : FrontEnd) : f.noteLate n = { f with lateSince := (f.noteLate n).lateSince } := by
  unfold FrontEnd.noteLate
  split <;> rfl

end Sys2Proof.Machine
end


section
/-! SUPPORT. The boundary of a running job with nothing to end it, as one chain of its stages (R25 to R30). -/

namespace Sys2Proof.Machine
open Sys2Proof

/-! ## The beat that begins -/

theorem onlyLinks_foldl {α : Type} (f : State → α → State) (l : List α) (s : State) (h : ∀ t x, OnlyLinks t (f t x)) :
    OnlyLinks s (l.foldl f s) := by
  induction l generalizing s with
  | nil => exact OnlyLinks.refl s
  | cons x l ih => exact (h s x).trans (ih _)

theorem onlyLinks_reportViolations (s : State) : OnlyLinks s s.reportViolations :=
  onlyLinks_foldl _ _ s fun t n => by
    split
    · exact OnlyLinks.refl t
    · exact (onlyLinks_setLink _ _ _).trans (onlyLinks_sendLocal _ _ _ _)

/-- The state in which the closings of a boundary begin. -/
def State.begun (s : State) : State := s.newBeat.reportViolations

theorem begun_eq (s : State) : ∃ ls o f, s.begun = { s.newBeat with fab := { s.newBeat.fab with links := ls }, out := o, free := f } :=
  onlyLinks_reportViolations s.newBeat

/-- What the beginning of a beat leaves unchanged. -/
theorem begun_parts (s : State) : s.begun.fe = s.fe ∧ s.begun.job = s.job ∧ s.begun.ten = s.ten ∧ s.begun.boot = s.boot ∧
    s.begun.mem = s.mem ∧ s.begun.pending = s.pending ∧ s.begun.adm = { s.adm with consumed := 0 } ∧ s.begun.dict = s.dict ∧
    s.begun.beat = s.newBeat.beat := by
  obtain ⟨ls, o, f, h⟩ := begun_eq s
  rw [h]
  exact ⟨rfl, rfl, rfl, rfl, rfl, rfl, rfl, rfl, rfl⟩

/-! ## With nothing due -/

/-- A job runs, and neither a release nor a matter command nor an ABORT is due. -/
structure Quiet (d : JobDesc) (s : State) : Prop where
  active : s.jobActive = true
  desc : s.job.desc = some d
  noAbort : s.job.abortGiven = false
  noRelease : s.ten.release = none
  noMatter : s.adm.matterDue = none

theorem releasingIfDue_none (s : State) (h : s.ten.release = none) : s.releasingIfDue = s := by
  unfold State.releasingIfDue State.releasingDue
  rw [h, Option.any_none, Bool.and_false, if_neg Bool.false_ne_true]

theorem releaseStopIfDue_none (s : State) (h : s.ten.release = none) : s.releaseStopIfDue = s := by
  unfold State.releaseStopIfDue State.releaseStopDue
  rw [h]
  simp only [Bool.and_false, Bool.false_eq_true, if_false]

theorem jobStartIfDue_none (s : State) (h : s.job.phase ≠ .starting) : s.jobStartIfDue = s := by
  unfold State.jobStartIfDue
  split
  · next hp _ => exact absurd hp h
  · rfl

theorem phase_of_active {s : State} (h : s.jobActive = true) : s.job.phase = .running ∨ s.job.phase = .stopping := by
  unfold State.jobActive at h
  simpa using h

theorem Quiet.boundaryWork {d : JobDesc} {s : State} (h : Quiet d s) : s.boundaryWork = s := by
  have hm : s.applyMatter = s := by
    unfold State.applyMatter
    rw [h.noMatter]
  have hp : s.job.phase ≠ .starting := by
    rcases phase_of_active h.active with e | e <;> rw [e] <;> decide
  unfold State.boundaryWork
  rw [hm, releasingIfDue_none s h.noRelease, jobStartIfDue_none s hp]

theorem kindNow_congr {s t : State} (hj : t.jobActive = s.jobActive) (ht : t.ten = s.ten) (hb : t.beat = s.beat) :
    t.kindNow = s.kindNow := by
  unfold State.kindNow State.immediateDue
  rw [hj, ht, hb]

/-- The kind of a quiet boundary is what has been decided for it (R27). -/
theorem Quiet.kindNow {d : JobDesc} {s : State} (h : Quiet d s) : s.kindNow =
    if s.beat.announced.contains (s.beat.count, .halt) = true then .halt
    else if s.beat.nextKind = .free then .normal else s.beat.nextKind := by
  have hi : s.immediateDue = false := by
    unfold State.immediateDue
    rw [h.noRelease, Option.any_none, Bool.and_false]
  unfold State.kindNow
  rw [h.active, hi]
  simp only [Bool.not_true, Bool.false_eq_true, if_false, false_or]

/-! ## Ends -/

theorem endCause_ne_abort (s : State) (h : s.job.abortGiven = false) (jb : Nat) : s.endCause jb ≠ some .abort := by
  unfold State.endCause
  split
  · nofun
  · rw [if_neg fun hc => absurd hc.1 (by rw [h]; exact Bool.false_ne_true)]
    split
    · nofun
    · split
      · nofun
      · split <;> nofun

theorem jobEndIfDue_false (s : State) (h : s.job.abortGiven = false) : s.jobEndIfDue false = s := by
  have hne := endCause_ne_abort s h s.nextJobBeat
  unfold State.jobEndIfDue
  split
  · rfl
  · split
    · next e => exact absurd e hne
    · rfl
    · rfl

theorem jobEndIfDue_none (s : State) (o : Bool) (h : s.endCause s.nextJobBeat = none) : s.jobEndIfDue o = s := by
  unfold State.jobEndIfDue
  split
  · rfl
  · rw [h]

/-- Nothing ends at a boundary of another kind than HALT: not at a NORMAL one without a cause, nor at another one without an ABORT. -/
theorem endings_none (s : State) (kind : BeatKind) (hk : kind ≠ .halt) (hr : s.ten.release = none)
    (ha : s.job.abortGiven = false) (he : kind = .normal → s.endCause s.nextJobBeat = none) : s.endings kind = s := by
  have hend : s.jobEndIfDue (kind == .normal) = s := by
    by_cases h : kind = .normal
    · exact jobEndIfDue_none s _ (he h)
    · rw [beq_eq_false_iff_ne.2 h]
      exact jobEndIfDue_false s ha
  unfold State.endings
  rw [releaseStopIfDue_none s hr, hend]
  dsimp only
  rw [if_neg hk, beq_eq_false_iff_ne.2 hk]
  refine if_neg ?_
  cases s.jobActive <;> decide

/-- A HALT boundary ends the deferral of every revocation (R261). -/
theorem endings_halt (s : State) (hr : s.ten.release = none) (ha : s.job.abortGiven = false) (hj : s.jobActive = true) :
    s.endings .halt = s.forceAll.settleEdits := by
  unfold State.endings
  rw [releaseStopIfDue_none s hr]
  dsimp only
  have hend : s.jobEndIfDue (BeatKind.halt == BeatKind.normal) = s := jobEndIfDue_false s ha
  rw [hend, if_pos rfl, hj]
  refine if_pos ?_
  cases s.forceAll.jobActive <;> rfl

theorem endCause_congr {s t : State} (hj : t.job = s.job) (jb : Nat) : t.endCause jb = s.endCause jb := by
  unfold State.endCause State.stepOf State.slotOfBeat State.firstStep State.schedLen
  rw [hj]

/-! ## The stages in a row -/

/-- A boundary at which closure is checked. -/
def State.checked (s1 : State) (k : BeatKind) : State :=
  State.applyKind ((s1.lateDies.foldl State.overrunDie s1).answerLate s1.lateDies) k

/-- The end of a boundary: its kind is shown and the device sends. -/
def State.shownAndSent (s : State) (k : BeatKind) : State := State.boundarySends { s with beat := { s.beat with kind := k } }

theorem kindAfter_active {s : State} (k : BeatKind) (h : s.jobActive = true) : s.kindAfter k = k := by
  unfold State.kindAfter
  exact if_pos (Or.inl h)

theorem overrunDies_job (l : List DieId) (s : State) : (l.foldl State.overrunDie s).job = s.job := by
  have h := congrArg BoundaryView.job (overrunDies_parts l s).1
  split at h <;> exact h

theorem overrunDies_next (l : List DieId) (s : State) : (l.foldl State.overrunDie s).nextJobBeat = s.nextJobBeat := by
  have h := (overrunDies_parts l s).1
  have h1 : (l.foldl State.overrunDie s).beat.firstNormal = s.beat.firstNormal := by
    have := congrArg BoundaryView.firstNormal h
    split at this <;> exact this
  have h2 : (l.foldl State.overrunDie s).beat.jobBeat = s.beat.jobBeat := by
    have := congrArg BoundaryView.jobBeat h
    split at this <;> exact this
  unfold State.nextJobBeat
  rw [h1, h2, overrunDies_job]

/-- A NORMAL or IDLE boundary of a quiet job (R25, R30, R37). -/
theorem boundary_checked (d : JobDesc) (k : BeatKind) (s s1 : State) (hk : k = .normal ∨ k = .idle)
    (h0 : Quiet d s.begun) (hk0 : s.begun.kindNow = k) (e1 : s1 = s.begun.closeDies false) (h1 : Quiet d s1)
    (hk1 : s1.kindNow = k) (he : k = .normal → s1.endCause s1.nextJobBeat = none) :
    s.boundary = (s1.checked k).shownAndSent k := by
  have hkh : k ≠ .halt := by rcases hk with e | e <;> rw [e] <;> decide
  have hchk : ∀ b, checksClosure k b = true := fun b => by rcases hk with e | e <;> rw [e] <;> rfl
  have hend1 := endings_none s1 k hkh h1.noRelease h1.noAbort he
  have hend2 : (s1.lateDies.foldl State.overrunDie s1).endings k = s1.lateDies.foldl State.overrunDie s1 := by
    refine endings_none _ k hkh ?_ ?_ fun h => ?_
    · rw [(overrunDies_parts _ s1).2.2]; exact h1.noRelease
    · rw [overrunDies_job]; exact h1.noAbort
    · rw [overrunDies_next, endCause_congr (overrunDies_job _ s1)]; exact he h
  have hact : ((s1.lateDies.foldl State.overrunDie s1).answerLate s1.lateDies).jobActive = true := by
    have hj : (s1.lateDies.foldl State.overrunDie s1).jobActive = true := by
      rw [State.jobActive_congr (overrunDies_job _ s1)]; exact h1.active
    have h := congrArg BoundaryView.job (answerLate_parts _ s1.lateDies (lateDies_nodup s1) hj).1
    rw [State.jobActive_congr (s := s1.lateDies.foldl State.overrunDie s1) h]
    exact hj
  unfold State.boundary
  dsimp only
  have eb : s.newBeat.reportViolations = s.begun := rfl
  rw [eb, h0.boundaryWork, hk0, beq_eq_false_iff_ne.2 hkh, ← e1, h1.boundaryWork, hk1, hend1,
    kindAfter_active k h1.active, hchk, if_pos rfl, if_pos rfl, hend2, if_pos hact]
  rfl

/-- A CATCH_UP boundary of a quiet job (R25). -/
theorem boundary_catchUp (d : JobDesc) (s s1 : State) (h0 : Quiet d s.begun) (hk0 : s.begun.kindNow = .catchUp)
    (e1 : s1 = s.begun.closeDies false) (h1 : Quiet d s1) (hk1 : s1.kindNow = .catchUp) :
    s.boundary = (s1.applyKind .catchUp).shownAndSent .catchUp := by
  have hend1 := endings_none s1 .catchUp (by decide) h1.noRelease h1.noAbort nofun
  unfold State.boundary
  dsimp only
  have eb : s.newBeat.reportViolations = s.begun := rfl
  have eh : (BeatKind.catchUp == BeatKind.halt) = false := rfl
  have hc : ∀ b, checksClosure .catchUp b = false := fun _ => rfl
  rw [eb, h0.boundaryWork, hk0, eh, ← e1, h1.boundaryWork, hk1, hend1, kindAfter_active _ h1.active, hc,
    if_neg Bool.false_ne_true, if_neg Bool.false_ne_true, List.foldl_nil, hend1, if_pos h1.active]
  rfl

/-- A HALT boundary of a quiet job (R25, R41, R261). -/
theorem boundary_halt (d : JobDesc) (s s1 : State) (h0 : Quiet d s.begun) (hk0 : s.begun.kindNow = .halt)
    (e1 : s1 = s.begun.closeDies true) (h1 : Quiet d s1) (hk1 : s1.kindNow = .halt) :
    s.boundary = (s1.forceAll.settleEdits.applyKind .halt).shownAndSent .halt := by
  have hend1 := endings_halt s1 h1.noRelease h1.noAbort h1.active
  have hact : s1.forceAll.settleEdits.jobActive = true := by
    have hf : s1.forceAll.hubFrame = s1.hubFrame := hubFrame_foldl _ _ _ fun _ _ _ => hubFrame_forceRevoke _ _ _
    rw [State.jobActive_congr (State.job_of_hubFrame ((hubFrame_settleEdits _).trans hf))]
    exact h1.active
  unfold State.boundary
  dsimp only
  have eb : s.newBeat.reportViolations = s.begun := rfl
  have eh : (BeatKind.halt == BeatKind.halt) = true := rfl
  have hc : ∀ b, checksClosure .halt b = false := fun _ => rfl
  have hka : ∀ t : State, t.kindAfter .halt = .halt := fun t => if_pos (Or.inr rfl)
  rw [eb, h0.boundaryWork, hk0, eh, ← e1, h1.boundaryWork, hk1, hka, hc,
    if_neg Bool.false_ne_true, if_neg Bool.false_ne_true, List.foldl_nil, hend1, if_pos hact]
  rfl

end Sys2Proof.Machine
end


section
/-! SUPPORT. The stages of a quiet boundary in their order: the closings, the checks, and the openings of a NORMAL beat. -/

namespace Sys2Proof.Machine
open Sys2Proof

/-! ## The closings -/

/-- What the end of a closing leaves of the job. -/
theorem jobAfterClose_keeps (s : State) (d : JobDesc) : ∃ tr iu ls pc, s.jobAfterClose d =
    { s.job with trains := tr, inUpdate := iu, lastStepUpdated := ls, phasesClosed := pc } := by
  unfold State.jobAfterClose
  generalize (s.job.inUpdate && s.closedBelow (s.updateBeat d s.phaseStep + d.updateBeats)) = c
  dsimp only
  generalize hj : (if c = true then s.job.phaseClosed s.phaseStep else s.job) = j
  have h : ∃ tr iu ls pc, j = { s.job with trains := tr, inUpdate := iu, lastStepUpdated := ls, phasesClosed := pc } := by
    rw [← hj]
    split
    · exact ⟨_, _, _, _, rfl⟩
    · exact ⟨s.job.trains, s.job.inUpdate, s.job.lastStepUpdated, s.job.phasesClosed, rfl⟩
  obtain ⟨tr, iu, ls, pc, rfl⟩ := h
  split
  · exact ⟨_, _, _, _, rfl⟩
  · exact ⟨_, _, _, _, rfl⟩

/-- A job that holds no trains is after a closing what it was, unless a phase closes. -/
theorem jobAfterClose_serving (s : State) (d : JobDesc) (hi : s.job.inUpdate = false) (ht : s.job.trains = []) :
    s.jobAfterClose d = s.job := by
  unfold State.jobAfterClose
  rw [hi, Bool.false_and, if_neg Bool.false_ne_true]
  dsimp only
  rw [ht]
  simp only [List.any_nil, Bool.and_false, Bool.false_and, Bool.false_eq_true, if_false]

/-- The closings of a boundary at which nothing that is owed opens. -/
structure ClosedAt (d : JobDesc) (s u t : State) : Prop where
  before : SameButSeen s.job u.job
  beforeFe : u.fe = s.fe.map FrontEnd.settle
  beforeBeat : u.beat = s.beat
  job : t.job = u.jobAfterClose d
  fe : t.fe = s.fe.map FrontEnd.settle
  frame : t.closeFrame = s.closeFrame
  step : (u.job.inUpdate && u.closedBelow (u.updateBeat d u.phaseStep + d.updateBeats)) = true →
    t.param P.recoveryStep = u.phaseStep

theorem closedAt_closeDies {d : JobDesc} {s : State} {halting : Bool} (hd : s.job.desc = some d)
    (hn : NothingOpens halting s) : ∃ u, ClosedAt d s u (s.closeDies halting) := by
  obtain ⟨h, -⟩ := settled_closings halting allDies s hn
  have hm : (allDies.foldl (fun (u : State) x => u.modFront x FrontEnd.settle) s) = { s with fe := s.fe.map FrontEnd.settle } :=
    foldl_modFront s FrontEnd.settle
  rw [hm] at h
  unfold State.closeDies
  generalize allDies.foldl (State.closeAtBoundary halting) s = u at h ⊢
  have hud : u.job.desc = some d := by
    obtain ⟨a, b, e⟩ := h.job
    rw [e]
    exact hd
  obtain ⟨a1, a2, a3, -, a5⟩ := afterClose_parts u d hud
  exact ⟨u, h.job, h.fe, State.beat_of_closeFrame h.frame, a3, a2.trans h.fe, a1.trans h.frame, a5⟩

theorem ClosedAt.front {d : JobDesc} {s u t : State} (h : ClosedAt d s u t) (x : DieId) : t.front x = (s.front x).settle := by
  unfold State.front
  rw [h.fe, Quad.get_map]

theorem ClosedAt.beat {d : JobDesc} {s u t : State} (h : ClosedAt d s u t) : t.beat = s.beat := State.beat_of_closeFrame h.frame

/-- What the closings leave of a job. -/
theorem ClosedAt.jobKeeps {d : JobDesc} {s u t : State} (h : ClosedAt d s u t) : ∃ tr iu ls pc a b, t.job =
    { s.job with trains := tr, inUpdate := iu, lastStepUpdated := ls, phasesClosed := pc, nonfiniteSeen := a, overflowSeen := b } := by
  obtain ⟨tr, iu, ls, pc, e⟩ := jobAfterClose_keeps u d
  obtain ⟨a, b, e'⟩ := h.before
  exact ⟨tr, iu, ls, pc, a, b, by rw [h.job, e, e']⟩

theorem ClosedAt.active {d : JobDesc} {s u t : State} (h : ClosedAt d s u t) : t.jobActive = s.jobActive := by
  obtain ⟨tr, iu, ls, pc, a, b, e⟩ := h.jobKeeps
  unfold State.jobActive
  rw [e]

theorem ClosedAt.quiet {d : JobDesc} {s u t : State} (h : ClosedAt d s u t) (hq : Quiet d s) : Quiet d t := by
  obtain ⟨tr, iu, ls, pc, a, b, e⟩ := h.jobKeeps
  have ht : t.ten = s.ten := congrArg HubFrame.ten h.frame
  have hm : t.adm.matterDue = s.adm.matterDue := congrArg HubFrame.matterDue h.frame
  exact ⟨h.active.trans hq.active, by rw [e]; exact hq.desc, by rw [e]; exact hq.noAbort, by rw [ht]; exact hq.noRelease,
    by rw [hm]; exact hq.noMatter⟩

theorem ClosedAt.kindNow {d : JobDesc} {s u t : State} (h : ClosedAt d s u t) : t.kindNow = s.kindNow :=
  kindNow_congr h.active (congrArg HubFrame.ten h.frame) h.beat

theorem ClosedAt.nextJobBeat {d : JobDesc} {s u t : State} (h : ClosedAt d s u t) : t.nextJobBeat = s.nextJobBeat := by
  obtain ⟨tr, iu, ls, pc, a, b, e⟩ := h.jobKeeps
  unfold State.nextJobBeat
  rw [h.beat, e]

theorem endCause_keeps {s t : State} {tr : List TrainState} {iu : Bool} {ls : Option Nat} {pc : Nat} {a b : Bool} (e : t.job =
    { s.job with trains := tr, inUpdate := iu, lastStepUpdated := ls, phasesClosed := pc, nonfiniteSeen := a, overflowSeen := b })
    (ha : s.job.abortGiven = false) (jb : Nat) : t.endCause jb = s.endCause jb := by
  unfold State.endCause State.stepOf State.slotOfBeat State.firstStep State.schedLen
  rw [e]
  dsimp only
  rw [ha]
  simp only [Bool.false_eq_true, false_and]

theorem ClosedAt.endCause {d : JobDesc} {s u t : State} (h : ClosedAt d s u t) (ha : s.job.abortGiven = false) (jb : Nat) :
    t.endCause jb = s.endCause jb := by
  obtain ⟨tr, iu, ls, pc, a, b, e⟩ := h.jobKeeps
  exact endCause_keeps e ha jb

/-! ## The checks -/

/-- A front end that a check has judged: a halt request after a CATCH_UP beat, and the boundary at which it was first late. -/
def FrontEnd.checkedAt (c : Bool) (n : Nat) (f : FrontEnd) : FrontEnd := (f.haltIf (c && !f.closed)).noteLate n

theorem FrontEnd.haltIf_closed (c : Bool) (f : FrontEnd) : (f.haltIf c).closed = f.closed := rfl

theorem FrontEnd.noteLate_closed (n : Nat) (f : FrontEnd) : (f.noteLate n).closed = f.closed := by
  unfold FrontEnd.noteLate
  split <;> rfl

/-- A front end that met closure passes the check unchanged. -/
theorem FrontEnd.checkedAt_of_closed {f : FrontEnd} (c : Bool) (n : Nat) (h : f.closed = true) : f.checkedAt c n = f := by
  unfold FrontEnd.checkedAt
  have h1 : f.haltIf (c && !f.closed) = f := by
    unfold FrontEnd.haltIf
    rw [h, Bool.not_true, Bool.and_false, Bool.or_false]
  rw [h1]
  exact if_pos h

/-- A late front end keeps its plan and what it owes; its lateness is noted, and after a CATCH_UP beat it asks for a halt. -/
theorem FrontEnd.checkedAt_of_late {f : FrontEnd} (c : Bool) (n : Nat) (h : f.closed = false) : f.checkedAt c n =
    { f with haltReq := f.haltReq || c, lateSince := some (f.lateSince.getD n) } := by
  unfold FrontEnd.checkedAt FrontEnd.noteLate
  rw [FrontEnd.haltIf_closed, h, if_neg Bool.false_ne_true, Bool.not_false, Bool.and_true]
  rfl

theorem FrontEnd.checkedAt_keeps (c : Bool) (n : Nat) (f : FrontEnd) : (f.checkedAt c n).closed = f.closed ∧
    (f.checkedAt c n).planOpen = f.planOpen ∧ (f.checkedAt c n).owed = f.owed ∧
    (f.checkedAt c n).planBeat = f.planBeat ∧ (f.checkedAt c n).delivered = f.delivered ∧
    (f.checkedAt c n).haltReq = (f.haltReq || (c && !f.closed)) := by
  cases h : f.closed with
  | true =>
    rw [FrontEnd.checkedAt_of_closed c n h, h]
    exact ⟨rfl, rfl, rfl, rfl, rfl, by rw [Bool.not_true, Bool.and_false, Bool.or_false]⟩
  | false =>
    have e : (f.checkedAt c n).closed = f.closed := by
      unfold FrontEnd.checkedAt
      rw [FrontEnd.noteLate_closed, FrontEnd.haltIf_closed]
    rw [e, FrontEnd.checkedAt_of_late c n h]
    exact ⟨h, rfl, rfl, rfl, rfl, by rw [Bool.not_false, Bool.and_true]⟩

/-- The state in which a checked boundary's kind begins its own work. -/
def State.judged (s : State) (k : BeatKind) : State :=
  ((s.lateDies.foldl State.overrunDie s).answerLate s.lateDies).edited k

theorem checked_eq (s : State) (k : BeatKind) (hk : k = .normal ∨ k = .idle) :
    s.checked k = if k = .normal then (s.judged k).openBeat else s.judged k := by
  rcases hk with e | e <;> subst e <;> rfl

/-- The check and the edit set: overrun if a die is late, no CATCH_UP beat any more, and every front end judged. -/
theorem judged_parts (s : State) (k : BeatKind) (hk : k ≠ .catchUp) (hj : s.jobActive = true) :
    (s.judged k).view = { s.view with kind := k, afterCatchUp := false, overrun := s.beat.overrun || !s.lateDies.isEmpty } ∧
    (∀ x, (s.judged k).front x = (s.front x).checkedAt s.beat.afterCatchUp s.beat.count) := by
  obtain ⟨o1, o2, -⟩ := overrunDies_parts s.lateDies s
  have oj := overrunDies_job s.lateDies s
  unfold State.judged
  generalize s.lateDies.foldl State.overrunDie s = u at o1 o2 oj ⊢
  have hov : u.view = { s.view with overrun := s.beat.overrun || !s.lateDies.isEmpty } := by
    rw [o1]
    cases s.lateDies with
    | nil =>
      rw [if_pos rfl]
      show s.view = { s.view with overrun := s.beat.overrun || false }
      rw [Bool.or_false]
      rfl
    | cons x l =>
      rw [if_neg (List.cons_ne_nil x l)]
      show _ = { s.view with overrun := s.beat.overrun || true }
      rw [Bool.or_true]
  have hafter : u.beat.afterCatchUp = s.beat.afterCatchUp := congrArg BoundaryView.afterCatchUp hov
  have hcount : u.beat.count = s.beat.count := congrArg BoundaryView.count hov
  obtain ⟨l1, l2⟩ := answerLate_parts u s.lateDies (lateDies_nodup s) ((State.jobActive_congr oj).trans hj)
  generalize u.answerLate s.lateDies = v at l1 l2 ⊢
  have hv : v.beat.afterCatchUp = false := congrArg BoundaryView.afterCatchUp l1
  have hvc : v.beat.count = s.beat.count := (congrArg BoundaryView.count l1).trans hcount
  obtain ⟨e1, e2, -⟩ := edited_parts v k
  refine ⟨?_, fun x => ?_⟩
  · rw [e1, l1, hov, hv, beq_eq_false_iff_ne.2 hk, Bool.or_false]
  · have hf : u.front x = s.front x := congrArg (fun q : Quad FrontEnd => q.get x) o2
    have hx : decide (x ∈ s.lateDies) = !(s.front x).closed := by
      cases hc : (s.front x).closed with
      | true => exact decide_eq_false fun hm => absurd ((mem_lateDies s x).1 hm) (by rw [hc]; decide)
      | false => exact decide_eq_true ((mem_lateDies s x).2 hc)
    rw [e2, l2, hf, hafter, hx, hvc]
    rfl

/-! ## The openings of a NORMAL beat -/

/-- What a die does when a NORMAL boundary opens a plan: closed and owing nothing it opens the plan, late it owes it. -/
def OpensOrOwes (plan : Option Nat) (slot jb : Nat) (f g : FrontEnd) : Prop :=
  (f.closed = true → f.owed = [] → f.planOpen = false → g.planOpen = true ∧
    g.planIndex = f.delivered.getD (plan.getD 0) ∧ g.planBeat = jb ∧ g.schedSlot = slot ∧ g.wordNo = 0 ∧ g.nominal = 0 ∧
    g.loops = [] ∧ g.ptrs = [] ∧ g.mask = BitVec.allOnes 64) ∧
  (f.closed = false → g.planOpen = f.planOpen ∧ g.planBeat = f.planBeat ∧ g.owed.length = f.owed.length + 1 ∧
    g.lateSince = f.lateSince)

theorem front_kv (s : State) (k : KvState) (x : DieId) : ({ s with kv := k } : State).front x = s.front x := rfl

theorem openOrOwe_opens (s : State) (jb : Nat) (d : DieId) : (s.openOrOwe jb d).closeFrame = s.closeFrame ∧
    (s.openOrOwe jb d).job = s.job ∧ (∀ x, x ≠ d → (s.openOrOwe jb d).front x = s.front x) ∧
    OpensOrOwes s.adm.plan (s.slotOfBeat jb) jb (s.front d) ((s.openOrOwe jb d).front d) := by
  unfold State.openOrOwe
  dsimp only
  split
  · next h =>
    have ho := opens_openPlan s d ((s.front d).delivered.getD (s.adm.plan.getD 0)) jb s.adm.desc
    generalize s.openPlan d _ jb s.adm.desc = t at ho ⊢
    obtain ⟨line, decls, seed, step, a, st, ta, e⟩ := ho.front
    refine ⟨ho.frame, ho.job, ho.others, fun _ _ _ => ?_, fun hc => ?_⟩
    · rw [e]
      exact ⟨rfl, rfl, rfl, rfl, rfl, rfl, rfl, rfl, rfl⟩
    · rw [hc] at h
      exact absurd h Bool.false_ne_true
  · next h =>
    refine ⟨rfl, rfl, fun x hx => ?_, fun hc ho hp => absurd ?_ h, fun _ => ?_⟩
    · rw [front_kv]
      exact State.front_modFront_ne _ _ _ _ hx
    · rw [hc, ho, hp]
      rfl
    · rw [front_kv, State.front_modFront_self]
      exact ⟨rfl, rfl, List.length_append, rfl⟩

/-- The plans of a beat open, or are owed, and the indices delivered are spent. -/
def State.openings (s : State) (jb : Nat) : State :=
  let s2 := if s.haltHeld then s else allDies.foldl (fun (t : State) x => t.openOrOwe jb x) s
  allDies.foldl (fun (t : State) x => t.modFront x (fun f => { f with delivered := none })) s2

/-- A front end whose delivered index is spent. -/
def FrontEnd.spend (f : FrontEnd) : FrontEnd := { f with delivered := none }

theorem openings_held (s : State) (jb : Nat) (h : s.haltHeld = true) : s.openings jb = { s with fe := s.fe.map FrontEnd.spend } := by
  unfold State.openings
  rw [h, if_pos rfl]
  exact foldl_modFront s FrontEnd.spend

theorem openings_open (s : State) (jb : Nat) (h : s.haltHeld = false) : (s.openings jb).closeFrame = s.closeFrame ∧
    (s.openings jb).job = s.job ∧
    ∀ x, ∃ g, (s.openings jb).front x = FrontEnd.spend g ∧ OpensOrOwes s.adm.plan (s.slotOfBeat jb) jb (s.front x) g := by
  have hf := foldl_fronts (fun (t : State) x => t.openOrOwe jb x)
    (fun _ f g => OpensOrOwes s.adm.plan (s.slotOfBeat jb) jb f g) (fun t => t.closeFrame = s.closeFrame ∧ t.job = s.job)
    (fun t d ht => ?_) (fun t d ht => ?_) (fun t d x ht hx => ?_) allDies allDies_nodup s ⟨rfl, rfl⟩
  · obtain ⟨⟨h1, h2⟩, h3, -⟩ := hf
    unfold State.openings
    rw [h, if_neg Bool.false_ne_true]
    generalize allDies.foldl (fun (t : State) x => t.openOrOwe jb x) s = t at h1 h2 h3 ⊢
    have hm : (allDies.foldl (fun (u : State) x => u.modFront x (fun f => { f with delivered := none })) t) =
      { t with fe := t.fe.map FrontEnd.spend } := foldl_modFront t FrontEnd.spend
    dsimp only
    rw [hm]
    refine ⟨h1, h2, fun x => ⟨t.front x, ?_, h3 x (mem_allDies x)⟩⟩
    unfold State.front
    rw [Quad.get_map]
  · obtain ⟨o1, o2, -⟩ := openOrOwe_opens t jb d
    exact ⟨o1.trans ht.1, o2.trans ht.2⟩
  · obtain ⟨-, -, -, o4⟩ := openOrOwe_opens t jb d
    have hp : t.adm.plan = s.adm.plan := congrArg HubFrame.plan ht.1
    have hs : t.slotOfBeat jb = s.slotOfBeat jb := by
      unfold State.slotOfBeat State.schedLen
      rw [ht.2]
    rwa [hp, hs] at o4
  · exact (openOrOwe_opens t jb d).2.2.1 x hx

theorem openBeat_eq (s : State) (d : JobDesc) (hd : s.job.desc = some d) : s.openBeat =
    (State.enterSlot { s with beat := { s.beat with jobBeat := s.nextJobBeat, firstNormal := false } } d s.nextJobBeat).openings
      s.nextJobBeat := by
  unfold State.openBeat
  rw [hd]
  rfl

/-- A job that trains nothing enters no update slot. -/
theorem enterSlot_serving (s : State) (d : JobDesc) (jb : Nat) (h : d.trains = []) : s.enterSlot d jb = s := by
  unfold State.enterSlot
  rw [if_neg (fun hc => hc.2 h), if_neg (fun hc => hc.2 h)]

end Sys2Proof.Machine
end


section
/-! SUPPORT. The boundaries of a quiet job by their kind (R25, R26, R30, R31, R37, R39, R41). -/

namespace Sys2Proof.Machine
open Sys2Proof

/-! ## From the state before the boundary -/

theorem Quiet.begun {d : JobDesc} {s : State} (h : Quiet d s) : Quiet d s.begun := by
  obtain ⟨-, hj, ht, -, -, -, ha, -, -⟩ := begun_parts s
  exact ⟨(State.jobActive_congr hj).trans h.active, by rw [hj]; exact h.desc, by rw [hj]; exact h.noAbort,
    by rw [ht]; exact h.noRelease, by rw [ha]; exact h.noMatter⟩

theorem begun_front (s : State) (x : DieId) : s.begun.front x = s.front x :=
  congrArg (fun q : Quad FrontEnd => q.get x) (begun_parts s).1

theorem NothingOpens.begun {halting : Bool} {s : State} (h : NothingOpens halting s) : NothingOpens halting s.begun := by
  have hh : s.begun.haltHeld = s.haltHeld := haltHeld_congr fun x => by rw [begun_front]
  unfold NothingOpens
  rw [hh, State.jobActive_congr (begun_parts s).2.1]
  exact h.imp id (Or.imp id (Or.imp id fun ho x hc => by rw [begun_front] at hc ⊢; exact ho x hc))

theorem nothingOpens_of {s : State} (halting : Bool)
    (h : s.haltHeld = true ∨ ∀ x, (s.front x).closed = true → (s.front x).owed = []) : NothingOpens halting s :=
  Or.inr (h.imp id Or.inr)

/-- The beat that begins, field by field. -/
theorem begun_beat (s : State) : s.begun.beat.count = (s.beat.count + 1) % 2 ^ 64 ∧ s.begun.beat.jobBeat = s.beat.jobBeat ∧
    s.begun.beat.firstNormal = s.beat.firstNormal ∧ s.begun.beat.overrun = false ∧
    s.begun.beat.afterCatchUp = s.beat.afterCatchUp ∧ s.begun.beat.announced = s.beat.announced ∧
    s.begun.beat.nextKind = s.beat.nextKind := by
  rw [(begun_parts s).2.2.2.2.2.2.2.2]
  exact ⟨rfl, rfl, rfl, rfl, rfl, rfl, rfl⟩

theorem begun_nextJobBeat (s : State) : s.begun.nextJobBeat = s.nextJobBeat := by
  obtain ⟨-, h1, h2, -⟩ := begun_beat s
  unfold State.nextJobBeat
  rw [h1, h2, (begun_parts s).2.1]

/-- The kind of the boundary that has come, from what was decided before it (R27). -/
theorem Quiet.kindOfBoundary {d : JobDesc} {s : State} (h : Quiet d s) : s.begun.kindNow =
    if s.beat.announced.contains ((s.beat.count + 1) % 2 ^ 64, .halt) = true then .halt
    else if s.beat.nextKind = .free then .normal else s.beat.nextKind := by
  obtain ⟨h1, -, -, -, -, h2, h3⟩ := begun_beat s
  rw [h.begun.kindNow, h1, h2, h3]

theorem Quiet.kind_eq {d : JobDesc} {s : State} {k : BeatKind} (h : Quiet d s)
    (ha : s.beat.announced.contains ((s.beat.count + 1) % 2 ^ 64, BeatKind.halt) = false) (hk : s.beat.nextKind = k)
    (hf : k ≠ .free) : s.begun.kindNow = k := by
  rw [h.kindOfBoundary, ha, hk, if_neg Bool.false_ne_true, if_neg hf]

/-! ## What a boundary shows at its end -/

/-- The sends at the end of a boundary leave its work as it is. -/
theorem shownAndSent_parts (s : State) (k : BeatKind) : (s.shownAndSent k).fe = s.fe ∧ (s.shownAndSent k).job = s.job ∧
    (s.shownAndSent k).boot = s.boot ∧ (s.shownAndSent k).beat.core = { s.beat.core with kind := k } ∧
    ParamsBut sendParams s (s.shownAndSent k) := by
  have h := sent_boundarySends { s with beat := { s.beat with kind := k } }
  exact ⟨h.fe, h.job, h.boot, h.beat, h.params⟩

/-- What a boundary ends with: the kind shown, and of the beat, the job and the front ends what its work has made. -/
structure Ends (v : BoundaryView) (g : DieId → FrontEnd) (t : State) : Prop where
  kind : t.beat.kind = v.kind
  jobBeat : t.beat.jobBeat = v.jobBeat
  firstNormal : t.beat.firstNormal = v.firstNormal
  overrun : t.beat.overrun = v.overrun
  afterCatchUp : t.beat.afterCatchUp = v.afterCatchUp
  job : t.job = v.job
  dev : t.boot.dev = v.dev
  front : ∀ x, t.front x = g x

/-- What two beats have in common that agree but for what is to come and for the kind. -/
theorem core_fields {b c : BeatState} {k : BeatKind} (h : b.core = { c.core with kind := k }) : b.kind = k ∧
    b.jobBeat = c.jobBeat ∧ b.firstNormal = c.firstNormal ∧ b.overrun = c.overrun ∧ b.afterCatchUp = c.afterCatchUp := by
  have h1 := congrArg BeatState.kind h
  have h2 := congrArg BeatState.jobBeat h
  have h3 := congrArg BeatState.firstNormal h
  have h4 := congrArg BeatState.overrun h
  have h5 := congrArg BeatState.afterCatchUp h
  exact ⟨h1, h2, h3, h4, h5⟩

theorem ends_shownAndSent (s : State) {k : BeatKind} (hk : s.beat.kind = k) : Ends s.view s.front (s.shownAndSent k) := by
  obtain ⟨h1, h2, h3, h4, -⟩ := shownAndSent_parts s k
  generalize s.shownAndSent k = t at h1 h2 h3 h4 ⊢
  obtain ⟨b1, b2, b3, b4, b5⟩ := core_fields h4
  exact ⟨b1.trans hk.symm, b2, b3, b4, b5, h2, congrArg BootState.dev h3, fun x => congrArg (fun q : Quad FrontEnd => q.get x) h1⟩

/-- The view after the closings. -/
theorem ClosedAt.view {d : JobDesc} {s u t : State} (h : ClosedAt d s u t) : t.view = { s.view with job := t.job } := by
  have hb := h.beat
  have hp : t.adm.plan = s.adm.plan := congrArg HubFrame.plan h.frame
  have hd : t.boot.dev = s.boot.dev := congrArg HubFrame.dev h.frame
  unfold State.view
  rw [hb, hp, hd]

theorem begun_view (s : State) : s.begun.view =
    { s.view with count := (s.beat.count + 1) % 2 ^ 64, overrun := false } := by
  obtain ⟨-, h2, -, h4, -, -, h7, -, h9⟩ := begun_parts s
  obtain ⟨b1, b2, b3, b4, b5, -, -⟩ := begun_beat s
  have b6 : s.begun.beat.kind = s.beat.kind := by rw [h9]; rfl
  unfold State.view
  rw [b1, b2, b3, b4, b5, b6, h2, h4, h7]

/-! ## IDLE -/

/-- The boundary of an IDLE beat: the front ends that met closure let go of their plans, the others are judged. -/
theorem idle_boundary {d : JobDesc} {s : State} (hq : Quiet d s) (hn : NothingOpens false s)
    (hk : s.begun.kindNow = .idle) : ∃ u s1 t, ClosedAt d s.begun u s1 ∧ exec .beatBoundary s = .next t ∧
      Ends { s.view with count := (s.beat.count + 1) % 2 ^ 64, kind := .idle, overrun := !s1.lateDies.isEmpty,
                         afterCatchUp := false, job := s1.job }
        (fun x => ((s.front x).settle).checkedAt s.beat.afterCatchUp ((s.beat.count + 1) % 2 ^ 64)) t ∧
      t = (s1.judged .idle).shownAndSent .idle := by
  obtain ⟨u, hc⟩ := closedAt_closeDies hq.begun.desc hn.begun
  have hb := boundary_checked d .idle s _ (Or.inr rfl) hq.begun hk rfl (hc.quiet hq.begun) (hc.kindNow.trans hk) nofun
  rw [checked_eq _ _ (Or.inr rfl), if_neg (by decide)] at hb
  generalize s.begun.closeDies false = s1 at hc hb
  obtain ⟨j1, j2⟩ := judged_parts s1 .idle (by decide) (hc.quiet hq.begun).active
  have hv : s1.view = { s.view with count := (s.beat.count + 1) % 2 ^ 64, overrun := false, job := s1.job } := by
    rw [hc.view, begun_view]
  have ho : s1.beat.overrun = false := congrArg BoundaryView.overrun hv
  have ha : s1.beat.afterCatchUp = s.beat.afterCatchUp := congrArg BoundaryView.afterCatchUp hv
  have hct : s1.beat.count = (s.beat.count + 1) % 2 ^ 64 := congrArg BoundaryView.count hv
  rw [hv, ho, Bool.false_or] at j1
  have he := ends_shownAndSent (s1.judged .idle) (k := .idle) (congrArg BoundaryView.kind j1)
  rw [j1] at he
  refine ⟨u, s1, _, hc, by rw [← hb]; rfl, ?_, rfl⟩
  have hf : (s1.judged .idle).front = fun x =>
      ((s.front x).settle).checkedAt s.beat.afterCatchUp ((s.beat.count + 1) % 2 ^ 64) := by
    funext x
    rw [j2, hc.front, begun_front, ha, hct]
  rwa [hf] at he

/-! ## CATCH_UP -/

/-- The boundary of a CATCH_UP beat, from the state after its closings. -/
theorem catchUp_boundary {d : JobDesc} {s s1 : State} (hq : Quiet d s) (hk : s.begun.kindNow = .catchUp)
    (e1 : s1 = s.begun.closeDies false) (h1 : Quiet d s1) (hk1 : s1.kindNow = .catchUp) :
    ∃ t, exec .beatBoundary s = .next t ∧ Ends { s1.view with kind := .catchUp, afterCatchUp := true }
      (fun x => (s1.front x).noteLate s1.beat.count) t ∧ t = (s1.edited .catchUp).shownAndSent .catchUp := by
  have hb := boundary_catchUp d s s1 hq.begun hk e1 h1 hk1
  obtain ⟨j1, j2, -⟩ := edited_parts s1 .catchUp
  have he := ends_shownAndSent (s1.edited .catchUp) (k := .catchUp) (congrArg BoundaryView.kind j1)
  rw [j1] at he
  have hf : (s1.edited .catchUp).front = fun x => (s1.front x).noteLate s1.beat.count := funext j2
  rw [hf] at he
  exact ⟨_, by rw [applyKind_eq] at hb; rw [← hb]; rfl, he, rfl⟩

/-! ## HALT -/

theorem FrontEnd.halt_fields (f : FrontEnd) : f.halt.stopped = true ∧ f.halt.queues = Slots.empty ∧ f.halt.owed = [] ∧
    f.halt.tallies = f.tallies := ⟨rfl, rfl, rfl, rfl⟩

/-- A HALT beat: the job and the device are halted and every die stops issuing and owes nothing (R41). -/
theorem haltBeat_parts (s : State) : s.haltBeat.beat = s.beat ∧ s.haltBeat.job.phase = .halted ∧ s.haltBeat.boot.dev = .halted ∧
    ∀ x, s.haltBeat.front x = (s.front x).halt := by
  have hset : ∀ u : State, (u.setDev .halted).boot.dev = .halted ∧ (u.setDev .halted).beat = u.beat ∧
      (u.setDev .halted).job = u.job ∧ (u.setDev .halted).fe = u.fe := by
    intro u
    unfold State.setDev
    split
    · next h => exact ⟨h, rfl, rfl, rfl⟩
    · have h := hubFrame_signalEvent { u with boot := { u.boot with dev := .halted } }
      exact ⟨congrArg HubFrame.dev h, congrArg HubFrame.beat h, congrArg HubFrame.job h, congrArg HubFrame.fe h⟩
  have hm : (allDies.foldl (fun (t : State) d => t.modFront d FrontEnd.halt) s) = { s with fe := s.fe.map FrontEnd.halt } :=
    foldl_modFront s FrontEnd.halt
  unfold State.haltBeat
  rw [hm]
  dsimp only
  generalize hs : (if s.job.inUpdate = true then _ else _ : State) = t
  have ht : t.beat = s.beat ∧ t.fe = s.fe.map FrontEnd.halt := by
    rw [← hs]
    split <;> exact ⟨rfl, rfl⟩
  obtain ⟨h1, h2, h3, h4⟩ := hset { t with job := { t.job with phase := .halted } }
  refine ⟨h2.trans ht.1, congrArg JobState.phase h3, h1, fun x => ?_⟩
  unfold State.front
  rw [h4, ht.2, Quad.get_map]

/-- The boundary of a HALT beat. -/
theorem halt_boundary {d : JobDesc} {s : State} (hq : Quiet d s) (hk : s.begun.kindNow = .halt) :
    ∃ t, exec .beatBoundary s = .next t ∧ t.beat.kind = .halt ∧ t.beat.jobBeat = s.beat.jobBeat ∧
      t.job.phase = .halted ∧ t.boot.dev = .halted ∧ ∀ x, (t.front x).stopped = true ∧
        (t.front x).queues = Slots.empty ∧ (t.front x).owed = [] ∧ (t.front x).tallies = (s.front x).tallies := by
  have hn : NothingOpens true s := Or.inl rfl
  obtain ⟨u, hc⟩ := closedAt_closeDies hq.begun.desc hn.begun
  have hb := boundary_halt d s _ hq.begun hk rfl (hc.quiet hq.begun) (hc.kindNow.trans hk)
  generalize s.begun.closeDies true = s1 at hc hb
  have hh : s1.forceAll.settleEdits.hubFrame = s1.hubFrame :=
    (hubFrame_settleEdits _).trans (hubFrame_foldl _ _ _ fun _ _ _ => hubFrame_forceRevoke _ _ _)
  generalize s1.forceAll.settleEdits = s2 at hb hh
  obtain ⟨j1, j2, -⟩ := edited_parts s2 .halt
  rw [applyKind_eq] at hb
  dsimp only at hb
  generalize s2.edited .halt = s3 at j1 j2 hb
  obtain ⟨a1, a2, a3, a4⟩ := haltBeat_parts s3
  obtain ⟨p1, p2, p3, p4, -⟩ := shownAndSent_parts s3.haltBeat .halt
  have hjb : s3.beat.jobBeat = s.beat.jobBeat := by
    have h1 : s3.beat.jobBeat = s2.beat.jobBeat := congrArg BoundaryView.jobBeat j1
    have h2 : s2.beat = s1.beat := congrArg HubFrame.beat hh
    rw [h1, h2, hc.beat]
    exact (begun_beat s).2.1
  have hx : exec .beatBoundary s = .next (s3.haltBeat.shownAndSent .halt) := by rw [← hb]; rfl
  generalize s3.haltBeat.shownAndSent .halt = t at p1 p2 p3 p4 hx
  obtain ⟨b1, b2, -⟩ := core_fields p4
  refine ⟨t, hx, b1, ?_, by rw [p2]; exact a2, by rw [p3]; exact a3, fun x => ?_⟩
  · rw [b2, a1, hjb]
  · have hf : t.front x = (s3.front x).halt :=
      (congrArg (fun q : Quad FrontEnd => q.get x) p1).trans (a4 x)
    obtain ⟨f1, f2, f3, f4⟩ := (s3.front x).halt_fields
    have ht : (s3.front x).tallies = (s.front x).tallies := by
      have h2 : s2.front x = s1.front x := congrArg (fun q : Quad FrontEnd => q.get x) (State.fe_of_hubFrame hh)
      rw [j2, FrontEnd.noteLate_fields, h2, hc.front, begun_front]
      exact (s.front x).settle_fields.2.2.1
    rw [hf]
    exact ⟨f1, f2, f3, f4.trans ht⟩

/-! ## NORMAL -/

/-- The boundary of a NORMAL beat, up to the update slot that it may enter. -/
theorem normal_boundary {d : JobDesc} {s : State} (hq : Quiet d s) (hn : NothingOpens false s)
    (hk : s.begun.kindNow = .normal) (he : s.endCause s.nextJobBeat = none) :
    ∃ (u s1 j : State), ClosedAt d s.begun u s1 ∧
      j.view = { s.view with count := (s.beat.count + 1) % 2 ^ 64, kind := .normal, overrun := !s1.lateDies.isEmpty,
                             afterCatchUp := false, job := s1.job, jobBeat := s.nextJobBeat, firstNormal := false } ∧
      (∀ x, j.front x = ((s.front x).settle).checkedAt s.beat.afterCatchUp ((s.beat.count + 1) % 2 ^ 64)) ∧
      exec .beatBoundary s = .next (((j.enterSlot d s.nextJobBeat).openings s.nextJobBeat).shownAndSent .normal) := by
  obtain ⟨u, hc⟩ := closedAt_closeDies hq.begun.desc hn.begun
  have hend : (s.begun.closeDies false).endCause (s.begun.closeDies false).nextJobBeat = none := by
    rw [hc.nextJobBeat, begun_nextJobBeat, hc.endCause hq.begun.noAbort, endCause_congr (begun_parts s).2.1]
    exact he
  have hb := boundary_checked d .normal s _ (Or.inl rfl) hq.begun hk rfl (hc.quiet hq.begun) (hc.kindNow.trans hk)
    fun _ => hend
  rw [checked_eq _ _ (Or.inl rfl), if_pos rfl] at hb
  generalize s.begun.closeDies false = s1 at hc hb
  have hq1 := hc.quiet hq.begun
  obtain ⟨j1, j2⟩ := judged_parts s1 .normal (by decide) hq1.active
  have hv : s1.view = { s.view with count := (s.beat.count + 1) % 2 ^ 64, overrun := false, job := s1.job } := by
    rw [hc.view, begun_view]
  have ho : s1.beat.overrun = false := congrArg BoundaryView.overrun hv
  have ha : s1.beat.afterCatchUp = s.beat.afterCatchUp := congrArg BoundaryView.afterCatchUp hv
  have hct : s1.beat.count = (s.beat.count + 1) % 2 ^ 64 := congrArg BoundaryView.count hv
  rw [hv, ho, Bool.false_or] at j1
  generalize s1.judged .normal = s2 at j1 j2 hb
  have hj2 : s2.job = s1.job := congrArg BoundaryView.job j1
  have hnext : s2.nextJobBeat = s.nextJobBeat := by
    have h1 : s2.beat.firstNormal = s.beat.firstNormal := congrArg BoundaryView.firstNormal j1
    have h2 : s2.beat.jobBeat = s.beat.jobBeat := congrArg BoundaryView.jobBeat j1
    have h3 : s2.job.resumeBeat = s.job.resumeBeat := by
      obtain ⟨tr, iu, ls, pc, a, b, e⟩ := hc.jobKeeps
      rw [hj2, e, (begun_parts s).2.1]
    unfold State.nextJobBeat
    rw [h1, h2, h3]
  rw [openBeat_eq s2 d (by rw [hj2]; exact hq1.desc), hnext] at hb
  refine ⟨u, s1, { s2 with beat := { s2.beat with jobBeat := s.nextJobBeat, firstNormal := false } }, hc, ?_, fun x => ?_,
    by rw [← hb]; rfl⟩
  · exact congrArg (fun v : BoundaryView => { v with jobBeat := s.nextJobBeat, firstNormal := false }) j1
  · have hx : s2.front x = ((s.front x).settle).checkedAt s.beat.afterCatchUp ((s.beat.count + 1) % 2 ^ 64) := by
      rw [j2, hc.front, begun_front, ha, hct]
    exact hx

end Sys2Proof.Machine
end


section
/-! SUPPORT. The boundaries of a serving job (R26, R30, R31, R37, R39, R41). -/

namespace Sys2Proof.Machine
open Sys2Proof

/-! ## Helpers -/

theorem haltHeld_of_front {s : State} (x : DieId) (h : (s.front x).haltReq = true) : s.haltHeld = true := by
  unfold State.haltHeld Quad.toList
  rw [List.any_eq_true]
  refine ⟨s.front x, ?_, h⟩
  unfold State.front Quad.get
  fin_cases x <;> simp

theorem openings_view (s : State) (jb : Nat) : (s.openings jb).view = s.view := by
  cases h : s.haltHeld with
  | true => rw [openings_held s jb h]; rfl
  | false =>
    obtain ⟨h1, h2, -⟩ := openings_open s jb h
    exact view_of_closeFrame h1 h2

/-- A training job's other parts are what the closings leave of them. -/
theorem ClosedAt.phase {d : JobDesc} {s u t : State} (h : ClosedAt d s.begun u t) : t.job.phase = s.job.phase := by
  obtain ⟨tr, iu, ls, pc, a, b, e⟩ := h.jobKeeps
  rw [e, (begun_parts s).2.1]

theorem ClosedAt.planSet {d : JobDesc} {s u t : State} (h : ClosedAt d s.begun u t) : t.job.planSet = s.job.planSet := by
  obtain ⟨tr, iu, ls, pc, a, b, e⟩ := h.jobKeeps
  rw [e, (begun_parts s).2.1]

theorem ClosedAt.late {d : JobDesc} {s u t : State} (h : ClosedAt d s.begun u t) {x : DieId}
    (hx : (s.front x).closed = false) : t.lateDies.isEmpty = false := by
  have hm : x ∈ t.lateDies := (mem_lateDies t x).2 (by rw [h.front, begun_front, FrontEnd.settle_closed, hx])
  cases hl : t.lateDies with
  | nil => rw [hl] at hm; exact absurd hm List.not_mem_nil
  | cons y l => rfl

theorem ClosedAt.noneLate {d : JobDesc} {s u t : State} (h : ClosedAt d s.begun u t)
    (hx : ∀ x, (s.front x).closed = true) : t.lateDies = [] := by
  refine List.eq_nil_iff_forall_not_mem.2 fun x hm => ?_
  have hc := (mem_lateDies t x).1 hm
  rw [h.front, begun_front, FrontEnd.settle_closed, hx x] at hc
  exact absurd hc (by decide)

/-- What is held of halt requests after the check of a boundary. -/
theorem haltHeld_checked {s j : State} {c : Bool} {n : Nat} (hf : ∀ x, j.front x = ((s.front x).settle).checkedAt c n)
    (hc : c = false ∨ ∀ x, (s.front x).closed = true) : j.haltHeld = s.haltHeld :=
  haltHeld_congr fun x => by
    obtain ⟨-, -, -, -, -, h⟩ := FrontEnd.checkedAt_keeps c n (s.front x).settle
    rw [hf, h, FrontEnd.settle_closed, (s.front x).settle_fields.1]
    rcases hc with hc | hc
    · rw [hc, Bool.false_and, Bool.or_false]
    · rw [hc x, Bool.not_true, Bool.and_false, Bool.or_false]

/-- A plan open after the check was open before it. -/
theorem planOpen_checked {f : FrontEnd} {c : Bool} {n : Nat} (h : (f.settle.checkedAt c n).planOpen = true) :
    f.planOpen = true := by
  obtain ⟨-, hp, -⟩ := FrontEnd.checkedAt_keeps c n f.settle
  rw [hp] at h
  exact FrontEnd.settle_planOpen h

/-! ## NORMAL -/

/-- A NORMAL boundary of a serving job with no halt held and no CATCH_UP beat before it: every closed die opens the plan, every late
one owes it. -/
theorem serving_normal {d : JobDesc} {s : State} (hq : Quiet d s) (hd : d.trains = [])
    (ho : ∀ x, (s.front x).closed = true → (s.front x).owed = []) (hk : s.begun.kindNow = .normal)
    (he : s.endCause s.nextJobBeat = none) (hh : s.haltHeld = false) (ha : s.beat.afterCatchUp = false) :
    ∃ t, exec .beatBoundary s = .next t ∧ t.beat.kind = .normal ∧ t.beat.jobBeat = s.nextJobBeat ∧
      t.beat.firstNormal = false ∧ t.job.phase = s.job.phase ∧ t.boot.dev = s.boot.dev ∧
      (∀ x, (s.front x).closed = true →
        (t.front x).planOpen = true ∧ (t.front x).planIndex = (s.front x).delivered.getD (s.adm.plan.getD 0) ∧
          (t.front x).planBeat = s.nextJobBeat ∧ (t.front x).schedSlot = s.nextJobBeat % s.schedLen ∧
          (t.front x).wordNo = 0 ∧ (t.front x).nominal = 0 ∧ (t.front x).loops = [] ∧ (t.front x).ptrs = [] ∧
          (t.front x).mask = BitVec.allOnes 64 ∧ (t.front x).delivered = none) ∧
      (∀ x, (s.front x).closed = false →
        (t.front x).planOpen = (s.front x).planOpen ∧ (t.front x).planBeat = (s.front x).planBeat ∧
          (t.front x).owed.length = (s.front x).owed.length + 1 ∧ (t.front x).lateSince ≠ none ∧
          t.beat.overrun = true) := by
  obtain ⟨u, s1, j, hc, hv, hf, hx⟩ := normal_boundary hq (nothingOpens_of false (Or.inr ho)) hk he
  rw [enterSlot_serving j d _ hd] at hx
  rw [ha] at hf
  have hj : j.haltHeld = false := (haltHeld_checked hf (Or.inl rfl)).trans hh
  have hplan : j.adm.plan = s.adm.plan := congrArg BoundaryView.plan hv
  have hslot : j.slotOfBeat s.nextJobBeat = s.nextJobBeat % s.schedLen := by
    have hjob : j.job = s1.job := congrArg BoundaryView.job hv
    unfold State.slotOfBeat State.schedLen
    rw [hjob, hc.planSet]
  obtain ⟨-, -, o3⟩ := openings_open j s.nextJobBeat hj
  have hov := (openings_view j s.nextJobBeat).trans hv
  generalize j.openings s.nextJobBeat = v at o3 hov hx
  have hend := ends_shownAndSent v (k := .normal) (congrArg BoundaryView.kind hov)
  rw [hov] at hend
  generalize v.shownAndSent .normal = t at hx hend
  refine ⟨t, hx, hend.kind, hend.jobBeat, hend.firstNormal, by rw [hend.job]; exact hc.phase, hend.dev, fun x hcl => ?_,
    fun x hcl => ?_⟩
  · obtain ⟨g, hg, hopen, -⟩ := o3 x
    rw [hplan, hslot] at hopen
    have hjx : j.front x = (s.front x).letGo := by
      rw [hf, FrontEnd.checkedAt_of_closed _ _ (by rw [FrontEnd.settle_closed]; exact hcl), FrontEnd.settle_of_closed hcl]
    have hset : (s.front x).letGo = (s.front x).settle := (FrontEnd.settle_of_closed hcl).symm
    rw [hjx] at hopen
    obtain ⟨g1, g2, g3, g4, g5, g6, g7, g8, g9⟩ := hopen ((s.front x).letGo_closed hcl)
      (by rw [hset, (s.front x).settle_fields.2.1]; exact ho x hcl) (s.front x).letGo_planOpen
    rw [hset, (s.front x).settle_fields.2.2.2] at g2
    rw [hend.front, hg]
    exact ⟨g1, g2, g3, g4, g5, g6, g7, g8, g9, rfl⟩
  · obtain ⟨g, hg, -, howe⟩ := o3 x
    have hjx : j.front x = { s.front x with
        haltReq := (s.front x).haltReq || false, lateSince := some ((s.front x).lateSince.getD ((s.beat.count + 1) % 2 ^ 64)) } := by
      rw [hf, FrontEnd.settle_of_late hcl, FrontEnd.checkedAt_of_late _ _ hcl]
    rw [hjx] at howe
    obtain ⟨g1, g2, g3, g4⟩ := howe hcl
    rw [hend.front, hg, hend.overrun]
    refine ⟨g1, g2, g3, ?_, by rw [hc.late hcl]; rfl⟩
    have : (FrontEnd.spend g).lateSince = g.lateSince := rfl
    rw [this, g4]
    exact Option.some_ne_none _

/-- A NORMAL boundary checked after a CATCH_UP beat. -/
theorem serving_normal_checked {d : JobDesc} {s : State} (hq : Quiet d s) (hd : d.trains = []) (hn : NothingOpens false s)
    (hk : s.begun.kindNow = .normal) (he : s.endCause s.nextJobBeat = none) (ha : s.beat.afterCatchUp = true) :
    ∃ t, exec .beatBoundary s = .next t ∧ t.beat.kind = .normal ∧ t.beat.afterCatchUp = false ∧
      ∀ x, (s.front x).closed = false → (t.front x).haltReq = true ∧ t.beat.overrun = true ∧
        ∀ y, (t.front y).planOpen = true → (s.front y).planOpen = true := by
  obtain ⟨u, s1, j, hc, hv, hf, hx⟩ := normal_boundary hq hn hk he
  rw [enterSlot_serving j d _ hd] at hx
  have hov := (openings_view j s.nextJobBeat).trans hv
  have hend := ends_shownAndSent (j.openings s.nextJobBeat) (k := .normal) (congrArg BoundaryView.kind hov)
  rw [hov] at hend
  refine ⟨_, hx, hend.kind, hend.afterCatchUp, fun x hcl => ?_⟩
  have hreq : (j.front x).haltReq = true := by
    rw [hf, ha, FrontEnd.settle_of_late hcl, FrontEnd.checkedAt_of_late _ _ hcl]
    exact Bool.or_true _
  have hfr : ∀ y, (j.openings s.nextJobBeat).front y = (j.front y).spend := fun y => by
    rw [openings_held j _ (haltHeld_of_front x hreq)]
    unfold State.front
    rw [Quad.get_map]
  refine ⟨?_, hend.overrun.trans (by rw [hc.late hcl]; rfl), fun y hy => ?_⟩
  · rw [hend.front, hfr]
    exact hreq
  · rw [hend.front, hfr] at hy
    have hy' : (j.front y).planOpen = true := hy
    rw [hf] at hy'
    exact planOpen_checked hy'

/-! ## CATCH_UP and IDLE -/

/-- A CATCH_UP boundary of a serving job opens nothing. -/
theorem quiet_catchUp {d : JobDesc} {s : State} (hq : Quiet d s) (hn : NothingOpens false s)
    (hk : s.begun.kindNow = .catchUp) : ∃ u s1 t, ClosedAt d s.begun u s1 ∧ exec .beatBoundary s = .next t ∧
      Ends { s.view with count := (s.beat.count + 1) % 2 ^ 64, kind := .catchUp, overrun := false, afterCatchUp := true,
                         job := s1.job }
        (fun x => ((s.front x).settle).noteLate ((s.beat.count + 1) % 2 ^ 64)) t ∧
      t = (s1.edited .catchUp).shownAndSent .catchUp := by
  obtain ⟨u, hc⟩ := closedAt_closeDies hq.begun.desc hn.begun
  obtain ⟨t, hx, hend, ht⟩ := catchUp_boundary hq hk rfl (hc.quiet hq.begun) (hc.kindNow.trans hk)
  generalize s.begun.closeDies false = s1 at hc hend ht
  rw [hc.view, begun_view] at hend
  have hf : (fun x => (s1.front x).noteLate s1.beat.count) =
      fun x => ((s.front x).settle).noteLate ((s.beat.count + 1) % 2 ^ 64) := by
    funext x
    rw [hc.front, begun_front, hc.beat, (begun_beat s).1]
  rw [hf] at hend
  exact ⟨u, s1, t, hc, hx, hend, ht⟩

theorem FrontEnd.noteLate_keeps (n : Nat) (f : FrontEnd) : (f.noteLate n).planOpen = f.planOpen ∧ (f.noteLate n).owed = f.owed := by
  rw [FrontEnd.noteLate_fields]
  exact ⟨rfl, rfl⟩

/-- A CATCH_UP or IDLE boundary leaves JOB_BEAT, opens no new plan and takes nothing owed away. -/
theorem quiet_between {d : JobDesc} {s : State} {k : BeatKind} (hq : Quiet d s) (hn : NothingOpens false s)
    (hk : k = .catchUp ∨ k = .idle) (hkn : s.begun.kindNow = k) :
    ∃ t, exec .beatBoundary s = .next t ∧ t.beat.kind = k ∧ t.beat.jobBeat = s.beat.jobBeat ∧
      t.job.phase = s.job.phase ∧ (∀ x, (t.front x).planOpen = true → (s.front x).planOpen = true) ∧
      ∀ x, (t.front x).owed = (s.front x).owed := by
  rcases hk with rfl | rfl
  · obtain ⟨u, s1, t, hc, hx, hend, -⟩ := quiet_catchUp hq hn hkn
    refine ⟨t, hx, hend.kind, hend.jobBeat, by rw [hend.job]; exact hc.phase, fun x hp => ?_, fun x => ?_⟩
    · rw [hend.front, ((s.front x).settle.noteLate_keeps _).1] at hp
      exact FrontEnd.settle_planOpen hp
    · rw [hend.front, ((s.front x).settle.noteLate_keeps _).2, (s.front x).settle_fields.2.1]
  · obtain ⟨u, s1, t, hc, hx, hend, -⟩ := idle_boundary hq hn hkn
    refine ⟨t, hx, hend.kind, hend.jobBeat, by rw [hend.job]; exact hc.phase, fun x hp => ?_, fun x => ?_⟩
    · rw [hend.front] at hp
      exact planOpen_checked hp
    · obtain ⟨-, -, h, -⟩ := FrontEnd.checkedAt_keeps s.beat.afterCatchUp ((s.beat.count + 1) % 2 ^ 64) (s.front x).settle
      rw [hend.front, h, (s.front x).settle_fields.2.1]

/-- An IDLE boundary checked after a CATCH_UP beat: a late die's halt request is set, and with every die closed none changes. -/
theorem quiet_idle_checked {d : JobDesc} {s : State} (hq : Quiet d s) (hn : NothingOpens false s)
    (hk : s.begun.kindNow = .idle) (ha : s.beat.afterCatchUp = true) :
    ∃ t, exec .beatBoundary s = .next t ∧ t.beat.kind = .idle ∧ t.beat.afterCatchUp = false ∧
      (∀ x, (s.front x).closed = false → (t.front x).haltReq = true ∧ t.beat.overrun = true ∧
        ∀ y, (t.front y).planOpen = true → (s.front y).planOpen = true) ∧
      ((∀ x, (s.front x).closed = true) → t.haltHeld = s.haltHeld) := by
  obtain ⟨u, s1, t, hc, hx, hend, -⟩ := idle_boundary hq hn hk
  refine ⟨t, hx, hend.kind, hend.afterCatchUp, fun x hcl => ⟨?_, ?_, fun y hy => ?_⟩, fun hcl => ?_⟩
  · rw [hend.front, ha, FrontEnd.settle_of_late hcl, FrontEnd.checkedAt_of_late _ _ hcl]
    exact Bool.or_true _
  · exact hend.overrun.trans (by rw [hc.late hcl]; rfl)
  · rw [hend.front] at hy
    exact planOpen_checked hy
  · exact haltHeld_checked hend.front (Or.inr hcl)

end Sys2Proof.Machine
end


section
/-! SUPPORT. The boundaries of a training job, and a plan that is owed at a CATCH_UP boundary (R31, R274, R287, R288, R294). -/

namespace Sys2Proof.Machine
open Sys2Proof

/-! ## Stashes at the update slot (R288) -/

/-- A train whose stash is still held at the update slot is in conflict. -/
def TrainState.mark (u : TrainState) : TrainState := { u with conflict := u.stashHeld || u.conflict }

theorem TrainState.mark_of_free {u : TrainState} (h : u.stashHeld = false) : u.mark = u := by
  have hc : (u.stashHeld || u.conflict) = u.conflict := by rw [h, Bool.false_or]
  unfold TrainState.mark
  rw [hc]

/-- One train of the check of stashes. -/
def stashStep (late : Bool) (t : State) (x : TrainState × Nat) : State :=
  if x.1.stashHeld && !late then
    let u : TrainState := { x.1 with conflict := true }
    (((State.bump { t with job := { t.job with trains := t.job.trains.set x.2 u } } P.stashConflicts 1).event
      Ev.stashConflict [(2, x.2), (2, x.1.handle), (4, x.1.version)])).requestHaltAll
  else t

theorem stashCheck_eq (s : State) : s.stashCheck = s.job.trains.zipIdx.foldl (stashStep s.releaseLate) s := rfl

/-- A train without a held stash passes. -/
theorem stashStep_free (late : Bool) (t : State) (x : TrainState × Nat) (h : x.1.stashHeld = false) : stashStep late t x = t := by
  unfold stashStep
  rw [h, Bool.false_and, if_neg Bool.false_ne_true]

/-- A train with a held stash is marked, and every die asks for a halt. -/
theorem stashStep_held (t : State) (x : TrainState × Nat) (h : x.1.stashHeld = true) (hj : t.jobActive = true) :
    (stashStep false t x).view = { t.view with job := { t.job with trains := t.job.trains.set x.2 x.1.mark } } ∧
    ∀ y, (stashStep false t x).front y = (t.front y).haltIf true := by
  have hm : x.1.mark = { x.1 with conflict := true } := by
    have hc : (x.1.stashHeld || x.1.conflict) = true := by rw [h, Bool.true_or]
    unfold TrainState.mark
    rw [hc]
  unfold stashStep
  rw [h, Bool.not_false, Bool.and_true, if_pos rfl]
  dsimp only
  rw [hm]
  generalize hu : State.bump _ P.stashConflicts 1 = u
  have huv : u.view = { t.view with job := { t.job with trains := t.job.trains.set x.2 { x.1 with conflict := true } } } := by
    rw [← hu, view_bump]
    rfl
  have huf : u.fe = t.fe := by rw [← hu]; rfl
  have huj : u.jobActive = true := by rw [← hu]; exact hj
  have he := hubFrame_event u Ev.stashConflict [(2, x.2), (2, x.1.handle), (4, x.1.version)]
  generalize u.event Ev.stashConflict _ = v at he ⊢
  have hvj : v.jobActive = true := (State.jobActive_congr (State.job_of_hubFrame he)).trans huj
  rw [requestHaltAll_active v hvj]
  refine ⟨(view_of_hubFrame he).trans huv, fun y => ?_⟩
  unfold State.front FrontEnd.haltIf
  rw [Quad.get_map, State.fe_of_hubFrame he, huf, Bool.or_true]

theorem FrontEnd.haltIf_haltIf (a b : Bool) (f : FrontEnd) : (f.haltIf a).haltIf b = f.haltIf (a || b) := by
  unfold FrontEnd.haltIf
  rw [Bool.or_assoc]

/-- The trains of a list that follow a marked part are marked, and a held stash among them makes every die ask for a halt. -/
theorem stash_fold (l p : List TrainState) (t : State) (hj : t.jobActive = true) (hl : t.job.trains = p ++ l) :
    ((l.zipIdx p.length).foldl (stashStep false) t).view =
      { t.view with job := { t.job with trains := p ++ l.map TrainState.mark } } ∧
    ∀ y, ((l.zipIdx p.length).foldl (stashStep false) t).front y = (t.front y).haltIf (l.any (·.stashHeld)) := by
  induction l generalizing p t with
  | nil =>
    refine ⟨?_, fun y => ?_⟩
    · rw [List.map_nil, ← hl]
      rfl
    · show t.front y = (t.front y).haltIf false
      unfold FrontEnd.haltIf
      rw [Bool.or_false]
  | cons x l ih =>
    rw [List.zipIdx_cons, List.foldl_cons, List.map_cons, List.any_cons]
    have hstep : (stashStep false t (x, p.length)).view = { t.view with job := { t.job with trains := p ++ x.mark :: l } } ∧
        ∀ y, (stashStep false t (x, p.length)).front y = (t.front y).haltIf x.stashHeld := by
      cases h : x.stashHeld with
      | false =>
        rw [stashStep_free false t _ h, TrainState.mark_of_free h, ← hl]
        refine ⟨rfl, fun y => ?_⟩
        unfold FrontEnd.haltIf
        rw [Bool.or_false]
      | true =>
        obtain ⟨h1, h2⟩ := stashStep_held t (x, p.length) h hj
        refine ⟨?_, h2⟩
        rw [h1, hl, List.set_append_right _ _ (le_refl _), Nat.sub_self, List.set_cons_zero]
    obtain ⟨h1, h2⟩ := hstep
    generalize stashStep false t (x, p.length) = v at h1 h2 ⊢
    have hv : v.job = { t.job with trains := p ++ x.mark :: l } := congrArg BoundaryView.job h1
    have hvj : v.jobActive = true := by
      unfold State.jobActive at hj ⊢
      rw [hv]
      exact hj
    obtain ⟨i1, i2⟩ := ih (p ++ [x.mark]) v hvj (by rw [hv]; simp)
    rw [List.length_append, List.length_singleton] at i1 i2
    refine ⟨?_, fun y => ?_⟩
    · rw [i1, h1, hv, List.append_assoc, List.singleton_append]
    · rw [i2, h2, FrontEnd.haltIf_haltIf]

/-- The check of stashes where no release is late (R288). -/
theorem stashCheck_parts (s : State) (hj : s.jobActive = true) (hr : s.releaseLate = false) :
    s.stashCheck.view = { s.view with job := { s.job with trains := s.job.trains.map TrainState.mark } } ∧
    ∀ y, s.stashCheck.front y = (s.front y).haltIf (s.job.trains.any (·.stashHeld)) := by
  rw [stashCheck_eq, hr]
  exact stash_fold s.job.trains [] s hj rfl

/-- With no stash held nothing is in conflict. -/
theorem stashCheck_free (s : State) (h : ∀ u ∈ s.job.trains, u.stashHeld = false) : s.stashCheck = s := by
  rw [stashCheck_eq]
  suffices hg : ∀ (l : List (TrainState × Nat)), (∀ x ∈ l, x.1.stashHeld = false) → l.foldl (stashStep s.releaseLate) s = s from
    hg _ fun x hx => h x.1 (List.fst_mem_of_mem_zipIdx hx)
  intro l hl
  induction l with
  | nil => rfl
  | cons x l ih =>
    rw [List.foldl_cons, stashStep_free _ _ _ (hl x List.mem_cons_self)]
    exact ih fun y hy => hl y (List.mem_cons_of_mem x hy)

/-! ## The update slot (R274, R294) -/

/-- Front ends that differ in their drop keys alone. -/
def SameButKeys (f g : FrontEnd) : Prop := ∃ k, g = { f with dropKeys := k }

theorem loadKeys_parts (s : State) (step : Nat) : (s.loadKeys step).view = s.view ∧
    ∀ x, SameButKeys (s.front x) ((s.loadKeys step).front x) := by
  unfold State.loadKeys
  dsimp only
  generalize List.map _ s.job.trains.zipIdx = ks
  have hm : (allDies.foldl (fun (u : State) d => u.modFront d (fun f =>
      { f with dropKeys := ks.foldl (fun (m : AMap W64) (k : Nat × W64) => AMap.set 0 m k.1 k.2) f.dropKeys })) s) = _ :=
    foldl_modFront s _
  rw [hm]
  refine ⟨rfl, fun x => ?_⟩
  unfold State.front
  rw [Quad.get_map]
  exact ⟨_, rfl⟩

/-- The state at the update slot once the step's keys are loaded. -/
def State.keyed (s : State) (d : JobDesc) (jb : Nat) : State :=
  if s.slotOfBeat jb = 0 ∧ d.trains ≠ [] then s.loadKeys (s.stepOf jb) else s

theorem keyed_parts (s : State) (d : JobDesc) (jb : Nat) : (s.keyed d jb).view = s.view ∧
    ∀ x, SameButKeys (s.front x) ((s.keyed d jb).front x) := by
  unfold State.keyed
  split
  · exact loadKeys_parts s _
  · exact ⟨rfl, fun x => ⟨(s.front x).dropKeys, rfl⟩⟩

theorem enterSlot_update (s : State) (d : JobDesc) (jb : Nat) (ht : d.trains ≠ []) (hs : s.slotOfBeat jb = d.updateSlot) :
    s.enterSlot d jb = if (s.keyed d jb).stashCheck.haltHeld then (s.keyed d jb).stashCheck
      else { (s.keyed d jb).stashCheck with job := { (s.keyed d jb).stashCheck.job with inUpdate := true } } := by
  have hj : (s.keyed d jb).job = s.job := congrArg BoundaryView.job (keyed_parts s d jb).1
  have hslot : (s.keyed d jb).slotOfBeat jb = d.updateSlot := by
    unfold State.slotOfBeat State.schedLen at hs ⊢
    rw [hj]
    exact hs
  unfold State.enterSlot
  dsimp only
  change (if (s.keyed d jb).slotOfBeat jb = d.updateSlot ∧ d.trains ≠ [] then _ else _) = _
  exact if_pos ⟨hslot, ht⟩

/-! ## Closings of a training job -/

/-- With every die closed and nothing owed, what lies below a JOB_BEAT has closed if the beats have come that far. -/
theorem ClosedAt.closedBelow {d : JobDesc} {s u t : State} (h : ClosedAt d s.begun u t)
    (hcl : ∀ x, (s.front x).closed = true ∧ (s.front x).owed = []) (hf : s.beat.firstNormal = false) (jb : Nat) :
    u.closedBelow jb = decide (jb ≤ s.beat.jobBeat + 1) := by
  obtain ⟨-, b1, b2, -⟩ := begun_beat s
  have hg : ∀ x, ((s.begun.fe.map FrontEnd.settle).get x).planOpen = false ∧ ((s.begun.fe.map FrontEnd.settle).get x).owed = [] := by
    intro x
    have hx : s.begun.fe.get x = s.front x := begun_front s x
    rw [Quad.get_map, hx, (s.front x).settle_fields.2.1, FrontEnd.settle_of_closed (hcl x).1]
    exact ⟨(s.front x).letGo_planOpen, (hcl x).2⟩
  obtain ⟨p0, o0⟩ := hg 0
  obtain ⟨p1, o1⟩ := hg 1
  obtain ⟨p2, o2⟩ := hg 2
  obtain ⟨p3, o3⟩ := hg 3
  unfold State.closedBelow
  rw [h.beforeFe, h.beforeBeat, b1, b2, hf]
  unfold Quad.get at p0 p1 p2 p3 o0 o1 o2 o3
  unfold Quad.toList
  simp only [List.all_cons, List.all_nil, p0, p1, p2, p3, o0, o1, o2, o3, Bool.not_false, Bool.true_or, Bool.and_true,
    Bool.true_and]

/-- The job before a boundary's closings end, by the parts that a training job's phases go by. -/
theorem ClosedAt.beforeParts {d : JobDesc} {s u t : State} (h : ClosedAt d s.begun u t) :
    u.job.trains = s.job.trains ∧ u.job.inUpdate = s.job.inUpdate ∧ u.job.phasesClosed = s.job.phasesClosed ∧
      u.phaseStep = s.phaseStep ∧ u.schedLen = s.schedLen := by
  obtain ⟨a, b, e⟩ := h.before
  unfold State.phaseStep State.schedLen
  rw [e, (begun_parts s).2.1]
  exact ⟨rfl, rfl, rfl, rfl, rfl⟩

/-- A phase whose beats have passed closes, while its stashes' release is still to come. -/
theorem ClosedAt.phaseCloses {d : JobDesc} {s u t : State} (h : ClosedAt d s.begun u t)
    (hcl : ∀ x, (s.front x).closed = true ∧ (s.front x).owed = []) (hf : s.beat.firstNormal = false)
    (hu : s.job.inUpdate = true) (hb : s.updateBeat d s.phaseStep + d.updateBeats ≤ s.beat.jobBeat + 1)
    (hr : s.beat.jobBeat < (s.phaseStep - d.firstStep) * s.schedLen + d.releaseSlot) :
    t.job = u.job.phaseClosed s.phaseStep ∧ t.param P.recoveryStep = s.phaseStep := by
  obtain ⟨-, p2, -, p4, p5⟩ := h.beforeParts
  have hub : u.updateBeat d u.phaseStep = s.updateBeat d s.phaseStep := by
    unfold State.updateBeat
    rw [p4, p5]
  have hc : (u.job.inUpdate && u.closedBelow (u.updateBeat d u.phaseStep + d.updateBeats)) = true := by
    rw [p2, hu, h.closedBelow hcl hf, hub, Bool.true_and]
    exact decide_eq_true hb
  have hrel : ({ u with job := u.job.phaseClosed s.phaseStep } : State).releaseBeat d =
      (s.phaseStep - d.firstStep) * s.schedLen + d.releaseSlot := by
    have h1 : ({ u with job := u.job.phaseClosed s.phaseStep } : State).phaseStep = s.phaseStep + 1 := by
      rw [← p4]
      rfl
    have h2 : ({ u with job := u.job.phaseClosed s.phaseStep } : State).schedLen = s.schedLen := by
      rw [← p5]
      rfl
    unfold State.releaseBeat
    rw [h1, h2, Nat.add_sub_cancel]
  refine ⟨?_, (h.step hc).trans p4⟩
  rw [h.job]
  unfold State.jobAfterClose
  rw [hc, if_pos rfl, p4]
  dsimp only
  have hno : decide ((s.phaseStep - d.firstStep) * s.schedLen + d.releaseSlot + 1 ≤ s.beat.jobBeat + 1) = false :=
    decide_eq_false (by omega)
  rw [hrel, h.closedBelow hcl hf, hno, Bool.and_false, if_neg Bool.false_ne_true]

/-- Outside an update phase the stashes are released at their beat (R288). -/
theorem ClosedAt.stashes {d : JobDesc} {s u t : State} (h : ClosedAt d s.begun u t)
    (hcl : ∀ x, (s.front x).closed = true ∧ (s.front x).owed = []) (hf : s.beat.firstNormal = false)
    (hu : s.job.inUpdate = false) : t.job =
      if s.job.phasesClosed ≠ 0 ∧ s.job.trains.any (·.stashHeld) = true ∧ s.releaseBeat d ≤ s.beat.jobBeat then
        u.job.stashReleased else u.job := by
  obtain ⟨p1, p2, p3, p4, p5⟩ := h.beforeParts
  have hrel : ({ u with job := u.job } : State).releaseBeat d = s.releaseBeat d := by
    unfold State.releaseBeat
    have e1 : ({ u with job := u.job } : State).phaseStep = s.phaseStep := p4
    have e2 : ({ u with job := u.job } : State).schedLen = s.schedLen := p5
    rw [e1, e2]
  rw [h.job]
  unfold State.jobAfterClose
  rw [p2, hu, Bool.false_and, if_neg Bool.false_ne_true]
  dsimp only
  rw [hrel, h.closedBelow hcl hf, p1, p3]
  refine if_congr ?_ rfl rfl
  rw [Bool.and_eq_true, Bool.and_eq_true, decide_eq_true_iff, decide_eq_true_iff, Nat.add_le_add_iff_right, and_assoc]

/-! ## The update slot's boundary -/

/-- Hypotheses of a NORMAL boundary at which a training job comes to its update slot. -/
structure AtUpdateSlot (d : JobDesc) (s : State) : Prop where
  quiet : Quiet d s
  trains : d.trains ≠ []
  closed : ∀ x, (s.front x).closed = true ∧ (s.front x).owed = []
  firstNormal : s.beat.firstNormal = false
  outside : s.job.inUpdate = false
  noEnd : s.endCause s.nextJobBeat = none
  kind : s.begun.kindNow = .normal
  noHalt : s.haltHeld = false
  slot : s.slotOfBeat s.nextJobBeat = d.updateSlot

/-- The state at which the update slot's stashes are checked. -/
theorem AtUpdateSlot.checkedState {d : JobDesc} {s : State} (h : AtUpdateSlot d s) : ∃ u s1 j : State, ClosedAt d s.begun u s1 ∧
    j.view = { s.view with count := (s.beat.count + 1) % 2 ^ 64, kind := .normal, overrun := false, afterCatchUp := false,
                           job := s1.job, jobBeat := s.nextJobBeat, firstNormal := false } ∧
    (∀ x, SameButKeys (s.front x).letGo (j.front x)) ∧ j.haltHeld = false ∧
    exec .beatBoundary s = .next ((State.openings (if j.stashCheck.haltHeld then j.stashCheck
      else { j.stashCheck with job := { j.stashCheck.job with inUpdate := true } }) s.nextJobBeat).shownAndSent .normal) := by
  obtain ⟨u, s1, j, hc, hv, hf, hx⟩ := normal_boundary h.quiet (nothingOpens_of false (Or.inr fun x _ => (h.closed x).2))
    h.kind h.noEnd
  rw [hc.noneLate fun x => (h.closed x).1] at hv
  have hjf : ∀ x, j.front x = (s.front x).letGo := fun x => by
    rw [hf, FrontEnd.checkedAt_of_closed _ _ (by rw [FrontEnd.settle_closed]; exact (h.closed x).1),
      FrontEnd.settle_of_closed (h.closed x).1]
  have hslot : j.slotOfBeat s.nextJobBeat = d.updateSlot := by
    have hj : j.job = s1.job := congrArg BoundaryView.job hv
    rw [← h.slot]
    unfold State.slotOfBeat State.schedLen
    rw [hj, hc.planSet]
  rw [enterSlot_update j d _ h.trains hslot] at hx
  obtain ⟨k1, k2⟩ := keyed_parts j d s.nextJobBeat
  generalize j.keyed d s.nextJobBeat = j' at k1 k2 hx
  refine ⟨u, s1, j', hc, k1.trans hv, fun x => by rw [← hjf]; exact k2 x, ?_, hx⟩
  refine (haltHeld_congr fun x => ?_).trans h.noHalt
  obtain ⟨k, e⟩ := k2 x
  rw [e, hjf]
  exact (s.front x).letGo_fields.1

theorem ClosedAt.trainsKept {d : JobDesc} {s u t : State} (h : ClosedAt d s.begun u t)
    (hcl : ∀ x, (s.front x).closed = true ∧ (s.front x).owed = []) (hf : s.beat.firstNormal = false)
    (hu : s.job.inUpdate = false)
    (hr : (∀ v ∈ s.job.trains, v.stashHeld = false) ∨ s.job.phasesClosed = 0 ∨ s.beat.jobBeat < s.releaseBeat d) :
    t.job = u.job := by
  rw [h.stashes hcl hf hu, if_neg]
  rintro ⟨h1, h2, h3⟩
  rcases hr with hr | hr | hr
  · obtain ⟨v, hv, hs⟩ := List.any_eq_true.1 h2
    rw [hr v hv] at hs
    exact absurd hs Bool.false_ne_true
  · exact h1 hr
  · omega

/-- With no stash held the update phase opens (R274). -/
theorem AtUpdateSlot.opens {d : JobDesc} {s : State} (h : AtUpdateSlot d s) (hs : ∀ u ∈ s.job.trains, u.stashHeld = false) :
    ∃ t, exec .beatBoundary s = .next t ∧ t.beat.kind = .normal ∧ t.beat.jobBeat = s.nextJobBeat ∧
      t.job.inUpdate = true ∧ ∀ x, (t.front x).planOpen = true ∧ (t.front x).planBeat = s.nextJobBeat := by
  obtain ⟨u, s1, j, hc, hv, hf, hh, hx⟩ := h.checkedState
  have hj : j.job.trains = s.job.trains := by
    have e : j.job = s1.job := congrArg BoundaryView.job hv
    rw [e, hc.trainsKept h.closed h.firstNormal h.outside (Or.inl hs), hc.beforeParts.1]
  rw [stashCheck_free j (by rw [hj]; exact hs), hh, if_neg Bool.false_ne_true] at hx
  have hh' : ({ j with job := { j.job with inUpdate := true } } : State).haltHeld = false := hh
  obtain ⟨-, o2, o3⟩ := openings_open _ s.nextJobBeat hh'
  have hov := openings_view { j with job := { j.job with inUpdate := true } } s.nextJobBeat
  have hov' : (State.openings { j with job := { j.job with inUpdate := true } } s.nextJobBeat).view =
      { j.view with job := { j.job with inUpdate := true } } := hov
  rw [hv] at hov'
  generalize State.openings _ s.nextJobBeat = v at o2 o3 hov' hx
  have hend := ends_shownAndSent v (k := .normal) (congrArg BoundaryView.kind hov')
  rw [hov'] at hend
  refine ⟨_, hx, hend.kind, hend.jobBeat, by rw [hend.job], fun x => ?_⟩
  obtain ⟨g, hg, hopen, -⟩ := o3 x
  obtain ⟨k, e⟩ := hf x
  have hcl : ((s.front x).letGo).closed = true := (s.front x).letGo_closed (h.closed x).1
  have hjx : ({ j with job := { j.job with inUpdate := true } } : State).front x = { (s.front x).letGo with dropKeys := k } := e
  rw [hjx] at hopen
  obtain ⟨g1, -, g3, -⟩ := hopen hcl ((s.front x).letGo_fields.2.1.trans (h.closed x).2) (s.front x).letGo_planOpen
  rw [hend.front, hg]
  exact ⟨g1, g3⟩

/-- A stash that is held marks the conflict, asks for a halt and keeps the phase from opening (R288). -/
theorem AtUpdateSlot.conflicts {d : JobDesc} {s : State} (h : AtUpdateSlot d s) (hs : ∃ u ∈ s.job.trains, u.stashHeld = true)
    (hr : s.job.phasesClosed = 0 ∨ s.nextJobBeat ≤ s.releaseBeat d ∧ s.beat.jobBeat < s.releaseBeat d) :
    ∃ t, exec .beatBoundary s = .next t ∧ t.beat.kind = .normal ∧ t.job.inUpdate = false ∧
      (∀ x, (t.front x).haltReq = true ∧ (t.front x).planOpen = false) ∧
      ∀ (i : Nat) (u : TrainState), s.job.trains[i]? = some u →
        t.job.trains[i]? = some { u with conflict := u.stashHeld || u.conflict } := by
  obtain ⟨u, s1, j, hc, hv, hf, -, hx⟩ := h.checkedState
  have hj1 : j.job = s1.job := congrArg BoundaryView.job hv
  have hj2 : s1.job = u.job := hc.trainsKept h.closed h.firstNormal h.outside (Or.inr (hr.imp id And.right))
  have hju : j.job = u.job := hj1.trans hj2
  obtain ⟨p1, p2, p3, p4, p5⟩ := hc.beforeParts
  have hact : j.jobActive = true := (State.jobActive_congr hj1).trans (hc.quiet h.quiet.begun).active
  have hlate : j.releaseLate = false := by
    have hjb : j.beat.jobBeat = s.nextJobBeat := congrArg BoundaryView.jobBeat hv
    have hdesc : j.job.desc = some d := by rw [hj1]; exact (hc.quiet h.quiet.begun).desc
    have hrel : j.releaseBeat d = s.releaseBeat d := by
      rw [State.releaseBeat_congr hju]
      unfold State.releaseBeat
      rw [p4, p5]
    unfold State.releaseLate
    rw [hdesc, Option.any_some, hrel, hjb, hju, p3]
    rcases hr with hr | hr
    · rw [hr]
      rfl
    · rw [decide_eq_false (by omega), Bool.and_false]
  have hany : j.job.trains.any (·.stashHeld) = true := by
    rw [hju, p1, List.any_eq_true]
    exact hs
  obtain ⟨c1, c2⟩ := stashCheck_parts j hact hlate
  rw [hany] at c2
  have hheld : j.stashCheck.haltHeld = true := haltHeld_of_front 0 (by rw [c2]; exact Bool.or_true _)
  rw [hheld, if_pos rfl, openings_held _ _ hheld] at hx
  have hview : ({ j.stashCheck with fe := j.stashCheck.fe.map FrontEnd.spend } : State).view =
      { j.view with job := { j.job with trains := j.job.trains.map TrainState.mark } } := c1
  have hfr : ∀ x, ({ j.stashCheck with fe := j.stashCheck.fe.map FrontEnd.spend } : State).front x =
      ((j.front x).haltIf true).spend := fun x => by
    rw [← c2 x]
    unfold State.front
    rw [Quad.get_map]
  rw [hv] at hview
  generalize ({ j.stashCheck with fe := j.stashCheck.fe.map FrontEnd.spend } : State) = v at hview hfr hx
  have hend := ends_shownAndSent v (k := .normal) (congrArg BoundaryView.kind hview)
  rw [hview] at hend
  refine ⟨_, hx, hend.kind, ?_, fun x => ?_, fun i w hw => ?_⟩
  · rw [hend.job]
    exact (congrArg JobState.inUpdate hju).trans (p2.trans h.outside)
  · obtain ⟨k, e⟩ := hf x
    rw [hend.front, hfr, e]
    exact ⟨Bool.or_true _, (s.front x).letGo_planOpen⟩
  · rw [hend.job]
    show (j.job.trains.map TrainState.mark)[i]? = _
    rw [hju, p1, List.getElem?_map, hw]
    rfl

end Sys2Proof.Machine
end


section
/-! SUPPORT. A training job's phases at a CATCH_UP or IDLE boundary, and a plan that is owed there (R31, R274, R287, R288). -/

namespace Sys2Proof.Machine
open Sys2Proof

/-! ## Phases that close between beats -/

theorem recoveryStep_not_kind : P.recoveryStep ∉ kindParams := by decide

theorem recoveryStep_not_send : P.recoveryStep ∉ sendParams := by decide

/-- With no die late the check writes no parameter but the edit set's and the counts of kinds. -/
theorem judged_params (s : State) (k : BeatKind) (hl : s.lateDies = []) : ParamsBut kindParams s (s.judged k) := by
  unfold State.judged
  rw [hl, List.foldl_nil]
  have he : s.answerLate [] = { s with beat := { s.beat with afterCatchUp := false } } := rfl
  rw [he]
  exact (edited_parts { s with beat := { s.beat with afterCatchUp := false } } k).2.2

/-- What a CATCH_UP or IDLE boundary of a quiet job, all of whose dies are closed, leaves of the job and of RECOVERY_STEP: what its
closings make them. -/
theorem between_job {d : JobDesc} {s : State} {k : BeatKind} (hq : Quiet d s)
    (hcl : ∀ x, (s.front x).closed = true ∧ (s.front x).owed = []) (hk : k = .catchUp ∨ k = .idle) (hkn : s.begun.kindNow = k) :
    ∃ u s1 t, ClosedAt d s.begun u s1 ∧ exec .beatBoundary s = .next t ∧ t.beat.kind = k ∧ t.job = s1.job ∧
      t.param P.recoveryStep = s1.param P.recoveryStep := by
  have hn : NothingOpens false s := nothingOpens_of false (Or.inr fun x _ => (hcl x).2)
  rcases hk with rfl | rfl
  · obtain ⟨u, s1, t, hc, hx, hend, ht⟩ := quiet_catchUp hq hn hkn
    refine ⟨u, s1, t, hc, hx, hend.kind, hend.job, ?_⟩
    rw [ht, (shownAndSent_parts _ .catchUp).2.2.2.2 _ recoveryStep_not_send]
    exact (edited_parts s1 .catchUp).2.2 _ recoveryStep_not_kind
  · obtain ⟨u, s1, t, hc, hx, hend, ht⟩ := idle_boundary hq hn hkn
    refine ⟨u, s1, t, hc, hx, hend.kind, hend.job, ?_⟩
    rw [ht, (shownAndSent_parts _ .idle).2.2.2.2 _ recoveryStep_not_send]
    exact judged_params s1 .idle (hc.noneLate fun x => (hcl x).1) _ recoveryStep_not_kind

/-- An update phase whose beats have passed closes: the versions advance, the stashes are held and RECOVERY_STEP is its step. -/
theorem between_phaseCloses {d : JobDesc} {s : State} {k : BeatKind} (hq : Quiet d s)
    (hcl : ∀ x, (s.front x).closed = true ∧ (s.front x).owed = []) (hf : s.beat.firstNormal = false)
    (hk : k = .catchUp ∨ k = .idle) (hkn : s.begun.kindNow = k) (hu : s.job.inUpdate = true)
    (hb : s.updateBeat d s.phaseStep + d.updateBeats ≤ s.beat.jobBeat + 1)
    (hr : s.beat.jobBeat < (s.phaseStep - d.firstStep) * s.schedLen + d.releaseSlot) :
    ∃ t, exec .beatBoundary s = .next t ∧ t.beat.kind = k ∧ t.job.inUpdate = false ∧
      t.job.phasesClosed = s.job.phasesClosed + 1 ∧ t.job.trains.length = s.job.trains.length ∧
      (∀ (i : Nat) (u v : TrainState), s.job.trains[i]? = some u → t.job.trains[i]? = some v →
        v.version = (u.version + 1) % 2 ^ 32 ∧ v.stashHeld = true) ∧ t.param P.recoveryStep = s.phaseStep := by
  obtain ⟨u, s1, t, hc, hx, hkind, hjob, hp⟩ := between_job hq hcl hk hkn
  obtain ⟨hphase, hstep⟩ := hc.phaseCloses hcl hf hu hb hr
  obtain ⟨p1, -, p3, -⟩ := hc.beforeParts
  have htr : t.job.trains = s.job.trains.map (fun (v : TrainState) =>
      { v with version := (v.version + 1) % 2 ^ 32, stashHeld := true, conflict := false }) := by
    rw [hjob, hphase, ← p1]
    rfl
  refine ⟨t, hx, hkind, by rw [hjob, hphase]; rfl, ?_, by rw [htr, List.length_map], fun i w v hw hv => ?_,
    hp.trans hstep⟩
  · rw [hjob, hphase, ← p3]
    rfl
  · rw [htr, List.getElem?_map, hw] at hv
    obtain rfl := Option.some.inj hv
    exact ⟨rfl, rfl⟩

/-- At the release beat the stashes are released. -/
theorem between_releases {d : JobDesc} {s : State} {k : BeatKind} (hq : Quiet d s)
    (hcl : ∀ x, (s.front x).closed = true ∧ (s.front x).owed = []) (hf : s.beat.firstNormal = false)
    (hk : k = .catchUp ∨ k = .idle) (hkn : s.begun.kindNow = k) (hu : s.job.inUpdate = false) (hpc : s.job.phasesClosed ≠ 0)
    (hr : s.releaseBeat d ≤ s.beat.jobBeat) : ∃ t, exec .beatBoundary s = .next t ∧ t.beat.kind = k ∧
      t.job.trains = s.job.trains.map (fun v => { v with stashHeld := false }) := by
  obtain ⟨u, s1, t, hc, hx, hkind, hjob, -⟩ := between_job hq hcl hk hkn
  obtain ⟨p1, -⟩ := hc.beforeParts
  refine ⟨t, hx, hkind, ?_⟩
  rw [hjob, hc.stashes hcl hf hu, ← p1]
  split
  · rfl
  · next hno =>
    have hnone : ∀ v ∈ u.job.trains, v.stashHeld = false := by
      intro v hv
      cases hs : v.stashHeld with
      | false => rfl
      | true => exact absurd ⟨hpc, List.any_eq_true.2 ⟨v, hv, hs⟩, hr⟩ hno
    conv_lhs => rw [← List.map_id u.job.trains]
    refine List.map_congr_left fun v hv => ?_
    have h := hnone v hv
    cases v
    dsimp only at h
    rw [h]
    rfl

/-! ## A plan that is owed (R31) -/

/-- What any die's closing at a boundary leaves of the beat and of the other dies. -/
theorem closeAtBoundary_others (s : State) (d : DieId) :
    (State.closeAtBoundary false s d).closeFrame = s.closeFrame ∧ SameButSeen s.job (State.closeAtBoundary false s d).job ∧
      ∀ x, x ≠ d → (State.closeAtBoundary false s d).front x = s.front x := by
  have hone : ∀ t, Settled (s.modFront d FrontEnd.settle) t → t.closeFrame = s.closeFrame ∧ SameButSeen s.job t.job ∧
      ∀ x, x ≠ d → t.front x = s.front x := fun t ht =>
    ⟨ht.frame, ht.job, fun x hx => (ht.front x).trans (State.front_modFront_ne s d x _ hx)⟩
  cases hc : (s.front d).closed with
  | false => exact hone _ (settled_closeAtBoundary_of s false d (Or.inr (Or.inr (Or.inr (Or.inr hc)))))
  | true =>
    cases ho : (s.front d).owed with
    | nil => exact hone _ (settled_closeAtBoundary_of s false d (Or.inl ho))
    | cons o rest =>
      obtain ⟨index, jb, b, desc⟩ := o
      cases hh : s.haltHeld with
      | true => exact hone _ (settled_closeAtBoundary_of s false d (Or.inr (Or.inr (Or.inl hh))))
      | false =>
        cases hj : s.jobActive with
        | false => exact hone _ (settled_closeAtBoundary_of s false d (Or.inr (Or.inr (Or.inr (Or.inl hj)))))
        | true =>
          have h1 := settled_close s d hc
          rw [closeAtBoundary_closed s false d hc]
          generalize (if (s.front d).planOpen = true then (s.noteSlip d 0).closeDie d else s.closeDie d) = t at h1 ⊢
          obtain ⟨o1, o2, -, o4, -⟩ := openOwed_opens t d ((h1.owed d).trans ho) (h1.held.trans hh) (h1.active.trans hj)
          obtain ⟨g1, g2, g3⟩ := hone t h1
          exact ⟨o1.trans g1, by rw [o2]; exact g2, fun x hx => (o4 x hx).trans (g3 x hx)⟩

/-- What a die that opens an owed plan shows of it. -/
def OwedOpened (index jb : Nat) (rest : List (Nat × Nat × Nat × List W32)) (f : FrontEnd) : Prop :=
  f.planOpen = true ∧ f.planIndex = index ∧ f.planBeat = jb ∧ f.wordNo = 0 ∧ f.owed = rest

/-- A closed die that owes a plan opens it, with no halt held and a job running. -/
theorem closeAtBoundary_owed (s : State) (d : DieId) {index jb b : Nat} {desc : List W32}
    {rest : List (Nat × Nat × Nat × List W32)} (hc : (s.front d).closed = true)
    (ho : (s.front d).owed = (index, jb, b, desc) :: rest) (hh : s.haltHeld = false) (hj : s.jobActive = true) :
    OwedOpened index jb rest ((State.closeAtBoundary false s d).front d) := by
  have h1 := settled_close s d hc
  rw [closeAtBoundary_closed s false d hc]
  generalize (if (s.front d).planOpen = true then (s.noteSlip d 0).closeDie d else s.closeDie d) = t at h1 ⊢
  obtain ⟨-, -, -, -, o5, o6, o7, o8, o9, -⟩ := openOwed_opens t d ((h1.owed d).trans ho) (h1.held.trans hh)
    (h1.active.trans hj)
  exact ⟨o5, o6, o7, o8, o9⟩

/-- The closings of dies that owe nothing leave the other dies, the halt requests and the job's run as they are. -/
theorem closings_before (l : List DieId) (x : DieId) (hx : x ∉ l) (s : State) (ho : ∀ y, y ≠ x → (s.front y).owed = []) :
    (l.foldl (State.closeAtBoundary false) s).closeFrame = s.closeFrame ∧
      SameButSeen s.job (l.foldl (State.closeAtBoundary false) s).job ∧
      (l.foldl (State.closeAtBoundary false) s).haltHeld = s.haltHeld ∧
      (l.foldl (State.closeAtBoundary false) s).front x = s.front x := by
  induction l generalizing s with
  | nil => exact ⟨rfl, SameButSeen.refl _, rfl, rfl⟩
  | cons d l ih =>
    rw [List.mem_cons, not_or] at hx
    have h := settled_closeAtBoundary_of s false d (Or.inl (ho d (Ne.symm hx.1)))
    obtain ⟨i1, i2, i3, i4⟩ := ih hx.2 (State.closeAtBoundary false s d) fun y hy => (h.owed y).trans (ho y hy)
    have hf : (State.closeAtBoundary false s d).front x = s.front x :=
      (h.front x).trans (State.front_modFront_ne s d x _ hx.1)
    exact ⟨i1.trans h.frame, SameButSeen.trans (i := s.job) h.job i2, i3.trans h.held, i4.trans hf⟩

theorem closings_after (l : List DieId) (x : DieId) (hx : x ∉ l) (s : State) :
    (l.foldl (State.closeAtBoundary false) s).closeFrame = s.closeFrame ∧
      SameButSeen s.job (l.foldl (State.closeAtBoundary false) s).job ∧
      (l.foldl (State.closeAtBoundary false) s).front x = s.front x := by
  induction l generalizing s with
  | nil => exact ⟨rfl, SameButSeen.refl _, rfl⟩
  | cons d l ih =>
    rw [List.mem_cons, not_or] at hx
    obtain ⟨h1, h2, h3⟩ := closeAtBoundary_others s d
    obtain ⟨i1, i2, i3⟩ := ih hx.2 (State.closeAtBoundary false s d)
    exact ⟨i1.trans h1, h2.trans i2, i3.trans (h3 x hx.1)⟩

/-- The closings of a boundary at which one die opens what it owes. -/
theorem closeDies_owed {d : JobDesc} {s : State} (hq : Quiet d s) (hu : s.job.inUpdate = false) (htr : s.job.trains = [])
    (hh : s.haltHeld = false) (x : DieId) {index jb b : Nat} {desc : List W32} {rest : List (Nat × Nat × Nat × List W32)}
    (hc : (s.front x).closed = true) (ho : (s.front x).owed = (index, jb, b, desc) :: rest)
    (hothers : ∀ y, y ≠ x → (s.front y).owed = []) : (s.closeDies false).closeFrame = s.closeFrame ∧
      SameButSeen s.job (s.closeDies false).job ∧ OwedOpened index jb rest ((s.closeDies false).front x) := by
  obtain ⟨l1, l2, hl⟩ := List.append_of_mem (mem_allDies x)
  have hnd : (l1 ++ x :: l2).Nodup := hl ▸ allDies_nodup
  have hx1 : x ∉ l1 := fun h => (List.disjoint_of_nodup_append hnd) h List.mem_cons_self
  have hx2 : x ∉ l2 := (List.nodup_cons.1 (List.nodup_append.1 hnd).2.1).1
  have hall : (allDies.foldl (State.closeAtBoundary false) s).closeFrame = s.closeFrame ∧
      SameButSeen s.job (allDies.foldl (State.closeAtBoundary false) s).job ∧
      OwedOpened index jb rest ((allDies.foldl (State.closeAtBoundary false) s).front x) := by
    rw [hl, List.foldl_append, List.foldl_cons]
    obtain ⟨a1, a2, a3, a4⟩ := closings_before l1 x hx1 s hothers
    generalize l1.foldl (State.closeAtBoundary false) s = t at a1 a2 a3 a4 ⊢
    obtain ⟨b1, b2, -⟩ := closeAtBoundary_others t x
    have b3 := closeAtBoundary_owed t x (by rw [a4]; exact hc) (by rw [a4]; exact ho) (a3.trans hh)
      ((SameButSeen.active a2).trans hq.active)
    generalize State.closeAtBoundary false t x = v at b1 b2 b3 ⊢
    obtain ⟨c1, c2, c3⟩ := closings_after l2 x hx2 v
    exact ⟨c1.trans (b1.trans a1), a2.trans (b2.trans c2), by rw [c3]; exact b3⟩
  unfold State.closeDies
  generalize allDies.foldl (State.closeAtBoundary false) s = u at hall ⊢
  obtain ⟨h1, ⟨a, b, e⟩, h3⟩ := hall
  obtain ⟨p1, p2, p3, -, -⟩ := afterClose_parts u d (by rw [e]; exact hq.desc)
  have hserv : u.jobAfterClose d = u.job := jobAfterClose_serving u d (by rw [e]; exact hu) (by rw [e]; exact htr)
  have hf : u.afterClose.front x = u.front x := congrArg (fun q : Quad FrontEnd => q.get x) p2
  exact ⟨p1.trans h1, ⟨a, b, by rw [p3, hserv, e]⟩, by rw [hf]; exact h3⟩

theorem ten_of_closeFrame {s t : State} (h : t.closeFrame = s.closeFrame) : t.ten = s.ten := congrArg HubFrame.ten h

theorem matterDue_of_closeFrame {s t : State} (h : t.closeFrame = s.closeFrame) : t.adm.matterDue = s.adm.matterDue :=
  congrArg HubFrame.matterDue h

/-- A boundary stays quiet when the closings write no more of the job than what the host has seen. -/
theorem Quiet.congr {d : JobDesc} {s t : State} (hq : Quiet d s) (h : t.closeFrame = s.closeFrame)
    (hj : SameButSeen s.job t.job) : Quiet d t := by
  have hten := ten_of_closeFrame h
  have hm := matterDue_of_closeFrame h
  have hact := SameButSeen.active hj
  obtain ⟨a, b, e⟩ := hj
  exact ⟨hact.trans hq.active, by rw [e]; exact hq.desc, by rw [e]; exact hq.noAbort, by rw [hten]; exact hq.noRelease,
    hm.trans hq.noMatter⟩

/-- A die that is found closed at a CATCH_UP boundary and owes a plan opens the oldest one there. -/
theorem catchUp_owed {d : JobDesc} {s : State} (hq : Quiet d s) (hu : s.job.inUpdate = false) (htr : s.job.trains = [])
    (hh : s.haltHeld = false) (hk : s.begun.kindNow = .catchUp) (x : DieId) {index jb n : Nat} {desc : List W32}
    {rest : List (Nat × Nat × Nat × List W32)} (hc : (s.front x).closed = true)
    (ho : (s.front x).owed = (index, jb, n, desc) :: rest) (hothers : ∀ y, y ≠ x → (s.front y).owed = []) :
    ∃ t, exec .beatBoundary s = .next t ∧ (t.front x).planOpen = true ∧ (t.front x).planIndex = index ∧
      (t.front x).planBeat = jb ∧ (t.front x).wordNo = 0 ∧ (t.front x).owed = rest ∧ t.beat.jobBeat = s.beat.jobBeat := by
  have hj := (begun_parts s).2.1
  have hhb : s.begun.haltHeld = false := (haltHeld_congr fun y => by rw [begun_front]).trans hh
  obtain ⟨h1, hjs, h3⟩ := closeDies_owed hq.begun (by rw [hj]; exact hu) (by rw [hj]; exact htr) hhb x
    (by rw [begun_front]; exact hc) (by rw [begun_front]; exact ho) (fun y hy => by rw [begun_front]; exact hothers y hy)
  have hq1 : Quiet d (s.begun.closeDies false) := hq.begun.congr h1 hjs
  have hk1 : (s.begun.closeDies false).kindNow = .catchUp :=
    (kindNow_congr (SameButSeen.active hjs) (ten_of_closeFrame h1) (State.beat_of_closeFrame h1)).trans hk
  obtain ⟨t, hx, hend, -⟩ := catchUp_boundary hq hk rfl hq1 hk1
  have hb : (s.begun.closeDies false).beat = s.begun.beat := State.beat_of_closeFrame h1
  generalize s.begun.closeDies false = s1 at h3 hend hb
  obtain ⟨g1, g2, g3, g4, g5⟩ := h3
  have hfr := hend.front x
  rw [FrontEnd.noteLate_fields] at hfr
  refine ⟨t, hx, (congrArg FrontEnd.planOpen hfr).trans g1, (congrArg FrontEnd.planIndex hfr).trans g2,
    (congrArg FrontEnd.planBeat hfr).trans g3, (congrArg FrontEnd.wordNo hfr).trans g4,
    (congrArg FrontEnd.owed hfr).trans g5, ?_⟩
  rw [hend.jobBeat]
  show s1.beat.jobBeat = s.beat.jobBeat
  rw [hb]
  exact (begun_beat s).2.1

end Sys2Proof.Machine
end


section
/-! SUPPORT. A FREE boundary and the delivery of the plan index: with no job, only a matter command that is due and the beat
configuration take effect (R25, R30, R32, R414). -/

namespace Sys2Proof.Machine
open Sys2Proof

/-! ## A matter command takes effect (R414 to R416, R421) -/

/-- The parameters that a matter command may write. -/
def matterParams : List Nat := hubCounters ++ [P.matterResult, P.matterResultSlot]

/-- The frame without the matter command that is due, nor the parameters. -/
def HubFrame.unmattered (f : HubFrame) : HubFrame := { f with matterDue := none, param := fun _ => 0 }

/-- What a matter command leaves unchanged: all of the hub's frame but the command and its outcome. -/
structure Mattered (s t : State) : Prop where
  frame : t.hubFrame.unmattered = s.hubFrame.unmattered
  params : ParamsBut matterParams s t

theorem Mattered.refl (s : State) : Mattered s s := ⟨rfl, ParamsBut.refl _ _⟩

theorem Mattered.of_hubFrame {s t u : State} (h : Mattered s t) (hu : u.hubFrame = t.hubFrame) : Mattered s u :=
  ⟨(congrArg HubFrame.unmattered hu).trans h.frame, h.params.of_hubFrame (fun _ hk => List.mem_append_left _ hk) hu⟩

theorem Mattered.setParam {s t : State} {k : Nat} (h : Mattered s t) (v : Nat) (hk : k ∈ matterParams) :
    Mattered s (t.setParam k v) := ⟨h.frame, h.params.setParam v hk⟩

theorem Mattered.result {s t : State} (h : Mattered s t) (r : Nat) : Mattered s (t.matterResult r) := h.setParam r (by decide)

theorem Mattered.done {s t : State} (h : Mattered s t) :
    Mattered s { t with adm := { t.adm with matterDue := none } } := ⟨h.frame, h.params.of_dict rfl⟩

theorem mattered_createMatter (s : State) (m : Nat) : Mattered s (s.createMatter m) := by
  unfold State.createMatter
  split
  · exact (Mattered.refl s).result 1
  · split
    · exact (Mattered.refl s).result 2
    · next n _ =>
      have h : Mattered s (s.openSlot n m) := (Mattered.refl s).of_hubFrame rfl
      exact ((h.setParam n (by decide)).result 0).of_hubFrame (hubFrame_event _ _ _)

theorem hubFrame_removeMatter (s : State) (m slot : Nat) : (s.removeMatter m slot).hubFrame = s.hubFrame :=
  (hubFrame_revokeMatter _ _ _).trans rfl

theorem hubFrame_beginSweep (s : State) (slot gen : Nat) : (s.beginSweep slot gen).hubFrame = s.hubFrame :=
  (hubFrame_foldl _ _ _ fun _ _ _ => hubFrame_takeSweep _ _ _ _ _).trans rfl

theorem hubFrame_rotateSlot (s : State) (slot : Nat) : (s.rotateSlot slot).1.hubFrame = s.hubFrame := by
  unfold State.rotateSlot
  dsimp only
  split
  · rfl
  · rfl
  · rfl
  · exact (hubFrame_event _ _ _).trans ((hubFrame_beginSweep _ _ _).trans rfl)

theorem mattered_applyMatter (s : State) : Mattered s s.applyMatter := by
  have h := Mattered.refl s
  unfold State.applyMatter
  dsimp only
  split
  · exact h
  · exact (mattered_createMatter s _).done
  · split
    · exact (h.result 3).done
    · split
      · exact (h.result 0).done
      · split
        · exact h
        · exact ((h.of_hubFrame (hubFrame_removeMatter s _ _)).result 0).done
  · exact ((h.of_hubFrame (hubFrame_rotateSlot s _)).result _).done

theorem Mattered.fe {s t : State} (h : Mattered s t) : t.fe = s.fe := congrArg HubFrame.fe h.frame

theorem Mattered.job {s t : State} (h : Mattered s t) : t.job = s.job := congrArg HubFrame.job h.frame

theorem Mattered.ten {s t : State} (h : Mattered s t) : t.ten = s.ten := congrArg HubFrame.ten h.frame

theorem Mattered.beat {s t : State} (h : Mattered s t) : t.beat = s.beat := congrArg HubFrame.beat h.frame

theorem Mattered.dev {s t : State} (h : Mattered s t) : t.boot.dev = s.boot.dev := congrArg HubFrame.dev h.frame

/-! ## With no job -/

/-- No job and no plan, and neither a start nor a release to come. -/
structure Idle (s : State) : Prop where
  inactive : s.jobActive = false
  noStart : s.job.phase ≠ .starting
  noDesc : s.job.desc = none
  noRelease : s.ten.release = none
  noPlan : ∀ d, (s.front d).planOpen = false

theorem Idle.congr {s t : State} (h : Idle s) (hj : t.job = s.job) (ht : t.ten = s.ten) (hf : t.fe = s.fe) : Idle t :=
  ⟨(State.jobActive_congr hj).trans h.inactive, by rw [hj]; exact h.noStart, by rw [hj]; exact h.noDesc,
    by rw [ht]; exact h.noRelease,
    fun d => (congrArg (fun q : Quad FrontEnd => (q.get d).planOpen) hf).trans (h.noPlan d)⟩

theorem Idle.of_hubFrame {s t : State} (h : Idle s) (ht : t.hubFrame = s.hubFrame) : Idle t :=
  h.congr (State.job_of_hubFrame ht) (congrArg HubFrame.ten ht) (State.fe_of_hubFrame ht)

theorem Idle.begun {s : State} (h : Idle s) : Idle s.begun := by
  obtain ⟨hf, hj, ht, -⟩ := begun_parts s
  exact h.congr hj ht hf

theorem Idle.boundaryWork {s : State} (h : Idle s) : s.boundaryWork = s.applyMatter := by
  have hm := mattered_applyMatter s
  have hi : Idle s.applyMatter := h.congr hm.job hm.ten hm.fe
  unfold State.boundaryWork
  rw [releasingIfDue_none _ hi.noRelease, jobStartIfDue_none _ hi.noStart]

theorem Idle.kindNow {s : State} (h : Idle s) : s.kindNow = .free := by
  unfold State.kindNow
  rw [h.inactive]
  rfl

theorem kindAfter_free (s : State) : s.kindAfter .free = .free := ite_self _

/-- With no plan to close and no job, a closing writes no more than the die's view of the tables. -/
theorem Idle.closeAtBoundary {s : State} (h : Idle s) (halting : Bool) (d : DieId) :
    (State.closeAtBoundary halting s d).hubFrame = s.hubFrame := by
  have hc : (s.closeDie d).hubFrame = s.hubFrame := by
    unfold State.closeDie
    rw [if_neg (by rw [h.noPlan d]; exact Bool.false_ne_true)]
    exact hubFrame_nextView _ _
  have ho : (s.closeDie d).openOwed halting d = s.closeDie d :=
    openOwed_stays _ halting d (Or.inr (Or.inr (Or.inr (h.of_hubFrame hc).inactive)))
  cases e : (s.front d).closed with
  | false => rw [closeAtBoundary_late s halting d e]
  | true =>
    rw [closeAtBoundary_closed s halting d e, if_neg (by rw [h.noPlan d]; exact Bool.false_ne_true), ho]
    exact hc

theorem Idle.closings {s : State} (h : Idle s) (halting : Bool) (l : List DieId) :
    (l.foldl (State.closeAtBoundary halting) s).hubFrame = s.hubFrame := by
  induction l generalizing s with
  | nil => rfl
  | cons d l ih =>
    have hd := h.closeAtBoundary halting d
    exact (ih (h.of_hubFrame hd)).trans hd

theorem Idle.closeDies {s : State} (h : Idle s) (halting : Bool) : (s.closeDies halting).hubFrame = s.hubFrame := by
  have hc := h.closings halting allDies
  unfold State.closeDies
  rw [afterClose_none _ (h.of_hubFrame hc).noDesc]
  exact hc

/-- Nothing ends where no job runs, starts or is to be released. -/
theorem Idle.endings {s : State} (h : Idle s) : s.endings .free = s := by
  have hend : s.jobEndIfDue false = s := by
    unfold State.jobEndIfDue
    refine if_pos ?_
    rw [h.inactive, Bool.false_or, Bool.not_eq_true', beq_eq_false_iff_ne]
    exact h.noStart
  unfold State.endings
  rw [releaseStopIfDue_none s h.noRelease]
  have hk : (BeatKind.free == BeatKind.normal) = false := rfl
  dsimp only
  rw [hk, hend, if_neg (show BeatKind.free ≠ BeatKind.halt by decide), h.inactive, Bool.false_and, if_neg Bool.false_ne_true]

theorem Idle.had {s : State} (h : Idle s) : (s.job.phase != .halted && s.fe.toList.any (·.planOpen)) = false := by
  have ha : s.fe.toList.any (·.planOpen) = false := by
    have h0 : s.fe.d0.planOpen = false := h.noPlan 0
    have h1 : s.fe.d1.planOpen = false := h.noPlan 1
    have h2 : s.fe.d2.planOpen = false := h.noPlan 2
    have h3 : s.fe.d3.planOpen = false := h.noPlan 3
    simp only [Quad.toList, List.any_cons, List.any_nil, h0, h1, h2, h3, Bool.or_self]
  rw [ha, Bool.and_false]

/-- The state in which a FREE boundary's kind begins its own work: the closings and a matter command are behind it. -/
def State.freed (s : State) : State := (s.begun.closeDies (s.begun.boundaryWork.kindNow == .halt)).applyMatter

theorem Idle.boundary {s : State} (h : Idle s) : s.boundary = ((s.freed.edited .free).adoptConfig).shownAndSent .free := by
  have hc := h.begun.closeDies (s.begun.boundaryWork.kindNow == .halt)
  have hi := h.begun.of_hubFrame hc
  have hm := mattered_applyMatter (s.begun.closeDies (s.begun.boundaryWork.kindNow == .halt))
  have h1 : Idle s.freed := hi.congr hm.job hm.ten hm.fe
  unfold State.boundary
  dsimp only
  have eb : s.newBeat.reportViolations = s.begun := rfl
  rw [eb, hi.boundaryWork, h.had]
  have ef : (s.begun.closeDies (s.begun.boundaryWork.kindNow == .halt)).applyMatter = s.freed := rfl
  have hn : checksClosure .free false = false := rfl
  rw [ef, h1.kindNow, kindAfter_free, hn, if_neg Bool.false_ne_true, if_neg Bool.false_ne_true, List.foldl_nil,
    h1.endings, h1.inactive, if_neg Bool.false_ne_true]
  rfl

theorem State.dev_of_hubFrame {s t : State} (h : t.hubFrame = s.hubFrame) : t.boot.dev = s.boot.dev := congrArg HubFrame.dev h

/-- What a FREE boundary starts its own work with. -/
theorem Idle.freed_parts {s : State} (h : Idle s) : s.freed.fe = s.fe ∧ s.freed.job = s.job ∧ s.freed.beat = s.begun.beat ∧
    s.freed.boot.dev = s.boot.dev ∧ ParamsBut matterParams s s.freed := by
  obtain ⟨b1, b2, -, b4, -, -, -, b8, -⟩ := begun_parts s
  have hc := h.begun.closeDies (s.begun.boundaryWork.kindNow == .halt)
  have hm := mattered_applyMatter (s.begun.closeDies (s.begun.boundaryWork.kindNow == .halt))
  have hp : ParamsBut matterParams s s.begun := (ParamsBut.refl _ s).of_dict b8
  unfold State.freed
  exact ⟨hm.fe.trans ((State.fe_of_hubFrame hc).trans b1), hm.job.trans ((State.job_of_hubFrame hc).trans b2),
    hm.beat.trans (State.beat_of_closeFrame (closeFrame_of_hubFrame hc)),
    hm.dev.trans ((State.dev_of_hubFrame hc).trans (congrArg BootState.dev b4)),
    (hp.of_hubFrame (fun _ hk => List.mem_append_left _ hk) hc).trans hm.params⟩

/-- The parameters that a FREE boundary may write before it takes the beat configuration. -/
def freeParams : List Nat := matterParams ++ kindParams

/-- The state in which a FREE boundary takes the beat configuration. -/
theorem Idle.edited_parts {s : State} (h : Idle s) : (s.freed.edited .free).job = s.job ∧
    (s.freed.edited .free).beat.kind = .free ∧ (s.freed.edited .free).beat.jobBeat = s.beat.jobBeat ∧
    (s.freed.edited .free).boot.dev = s.boot.dev ∧ (∀ d, ((s.freed.edited .free).front d).planOpen = false) ∧
    ParamsBut freeParams s (s.freed.edited .free) := by
  obtain ⟨f1, f2, f3, f4, f5⟩ := h.freed_parts
  have hbeat := (begun_beat s).2.1
  generalize s.begun = w at f3 hbeat
  generalize s.freed = v at f1 f2 f3 f4 f5 ⊢
  obtain ⟨e1, e2, e3⟩ := Machine.edited_parts v .free
  generalize v.edited .free = u at e1 e2 e3 ⊢
  have hj := congrArg BoundaryView.job e1
  have hk := congrArg BoundaryView.kind e1
  have hb := congrArg BoundaryView.jobBeat e1
  have hd := congrArg BoundaryView.dev e1
  refine ⟨hj.trans f2, hk, hb.trans ((congrArg BeatState.jobBeat f3).trans hbeat), hd.trans f4, fun d => ?_, fun k hk => ?_⟩
  · have hf : (v.front d).planOpen = false :=
      (congrArg (fun q : Quad FrontEnd => (q.get d).planOpen) f1).trans (h.noPlan d)
    rw [e2, FrontEnd.noteLate_fields]
    exact hf
  · rw [e3 k fun hc => hk (List.mem_append_right _ hc), f5 k fun hc => hk (List.mem_append_left _ hc)]

/-- A FREE boundary leaves the job, JOB_BEAT and the device's state, opens no plan, and takes the configuration written. -/
theorem Idle.free_boundary {s : State} (h : Idle s) : ∃ t, exec .beatBoundary s = .next t ∧ t.beat.kind = .free ∧
    t.job = s.job ∧ t.beat.jobBeat = s.beat.jobBeat ∧ t.boot.dev = s.boot.dev ∧ (∀ d, (t.front d).planOpen = false) ∧
    t.beat.cycles = s.param P.beatCycles ∧ t.beat.guard = s.param P.guardCycles ∧
    t.beat.priority = s.param P.beatSourcePriority ∧ t.beat.idleMax = s.param P.idleMax := by
  obtain ⟨e1, e2, e3, e4, e5, e6⟩ := h.edited_parts
  have hb := h.boundary
  generalize s.freed.edited .free = u at e1 e2 e3 e4 e5 e6 hb
  have he := ends_shownAndSent u.adoptConfig (k := .free) e2
  obtain ⟨-, -, -, hcore, -⟩ := shownAndSent_parts u.adoptConfig .free
  generalize u.adoptConfig.shownAndSent .free = t at hb he hcore
  have h1 := congrArg BeatState.cycles hcore
  have h2 := congrArg BeatState.guard hcore
  have h3 := congrArg BeatState.priority hcore
  have h4 := congrArg BeatState.idleMax hcore
  exact ⟨t, by rw [← hb]; rfl, he.kind.trans e2, he.job.trans e1, he.jobBeat.trans e3, he.dev.trans e4,
    fun d => by rw [he.front]; exact e5 d, h1.trans (e6 P.beatCycles (by decide)),
    h2.trans (e6 P.guardCycles (by decide)), h3.trans (e6 P.beatSourcePriority (by decide)),
    h4.trans (e6 P.idleMax (by decide))⟩

/-! ## The delivery of the plan index (R32) -/

/-- The plan index reaches the four front ends, and nothing else changes. -/
theorem planIndexDelivery_delivers (s : State) (i : Nat) (h : s.adm.plan = some i) : ∃ t, exec .planIndexDelivery s = .next t ∧
    (∀ d, t.front d = { s.front d with delivered := some i }) ∧ { t with fe := s.fe } = s := by
  have hx : exec .planIndexDelivery s = .next { s with fe := s.fe.map fun f => { f with delivered := some i } } := by
    rw [← foldl_modFront s fun f => { f with delivered := some i }]
    show execPlanIndexDelivery s = _
    unfold execPlanIndexDelivery
    rw [h]
  exact ⟨_, hx, fun d => Quad.get_map _ _ d, rfl⟩

theorem planIndexDelivery_none (s : State) (h : s.adm.plan = none) : exec .planIndexDelivery s = .next s := by
  show execPlanIndexDelivery s = _
  unfold execPlanIndexDelivery
  rw [h]

end Sys2Proof.Machine
end


section
/-! SUPPORT. What every boundary leaves unchanged, whatever its kind and whatever starts, ends or is released at it: the flash, the
input feed's ID and the actions that are pending, and of the beat that has begun its count (R30). -/

namespace Sys2Proof.Machine
open Sys2Proof

/-! ## The projection -/

/-- BEAT_COUNT, the feed's ID, the flash and the pending actions. -/
def State.lasting (s : State) : Nat × Byte × Memory × List Instr := (s.beat.count, s.boot.feedId, s.mem.flash, s.pending)

/-- The same, of the hub's frame. -/
def HubFrame.lasting (f : HubFrame) : Nat × Byte × Memory × List Instr := (f.beat.count, f.feedId, f.flash, f.pending)

theorem lasting_of_hubFrame {s t : State} (h : t.hubFrame = s.hubFrame) : t.lasting = s.lasting := congrArg HubFrame.lasting h

theorem lasting_of_closeFrame {s t : State} (h : t.closeFrame = s.closeFrame) : t.lasting = s.lasting := congrArg HubFrame.lasting h

theorem lasting_of_restFrame {s t : State} (h : t.restFrame = s.restFrame) : t.lasting = s.lasting := congrArg HubFrame.lasting h

theorem lasting_of_mattered {s t : State} (h : Mattered s t) : t.lasting = s.lasting := congrArg HubFrame.lasting h.frame

theorem lasting_of_sent {s t : State} (h : Sent s t) : t.lasting = s.lasting :=
  congrArg (fun x : List Instr × Quad FrontEnd × MemState × JobState × BootState × BeatState =>
    (x.2.2.2.2.2.count, x.2.2.2.2.1.feedId, x.2.2.1.flash, x.1)) h.frame

theorem lasting_setParam (s : State) (k v : Nat) : (s.setParam k v).lasting = s.lasting := rfl

theorem lasting_bump (s : State) (k n : Nat) : (s.bump k n).lasting = s.lasting := lasting_setParam s k _

theorem lasting_modFront (s : State) (d : DieId) (g : FrontEnd → FrontEnd) : (s.modFront d g).lasting = s.lasting := rfl

theorem lasting_event (s : State) (c : Nat) (l : List (Nat × Nat)) : (s.event c l).lasting = s.lasting :=
  lasting_of_hubFrame (hubFrame_event s c l)

theorem lasting_foldl {α : Type} (f : State → α → State) (l : List α) (s : State) (h : ∀ t x, (f t x).lasting = t.lasting) :
    (l.foldl f s).lasting = s.lasting := by
  induction l generalizing s with
  | nil => rfl
  | cons x l ih => exact (ih _).trans (h s x)

theorem lasting_setDev (s : State) (d : DevState) : (s.setDev d).lasting = s.lasting := by
  unfold State.setDev
  split
  · rfl
  · exact (lasting_of_hubFrame (hubFrame_signalEvent _)).trans rfl

/-! ## Closings and openings -/

theorem lasting_openOwed (s : State) (halting : Bool) (d : DieId) : (s.openOwed halting d).lasting = s.lasting := by
  by_cases h : (s.front d).owed = [] ∨ halting = true ∨ s.haltHeld = true ∨ s.jobActive = false
  · rw [openOwed_stays s halting d h]
  · simp only [not_or, Bool.not_eq_true, Bool.not_eq_false] at h
    obtain ⟨ho, rfl, hh, hj⟩ := h
    obtain ⟨⟨index, jb, b, desc⟩, rest, e⟩ := List.exists_cons_of_ne_nil ho
    exact lasting_of_closeFrame (openOwed_opens s d e hh hj).1

theorem lasting_closeAtBoundary (halting : Bool) (s : State) (d : DieId) :
    (State.closeAtBoundary halting s d).lasting = s.lasting := by
  cases h : (s.front d).closed with
  | false => rw [closeAtBoundary_late s halting d h]
  | true =>
    rw [closeAtBoundary_closed s halting d h, lasting_openOwed]
    exact (lasting_of_closeFrame (settled_close s d h).frame).trans (lasting_modFront _ _ _)

theorem lasting_closeDies (s : State) (halting : Bool) : (s.closeDies halting).lasting = s.lasting :=
  (lasting_of_closeFrame (afterClose_keeps _).1).trans (lasting_foldl _ _ _ (lasting_closeAtBoundary halting))

theorem lasting_requestHaltAll (s : State) : s.requestHaltAll.lasting = s.lasting := by
  cases h : s.jobActive with
  | false => rw [requestHaltAll_inactive s h]
  | true => rw [requestHaltAll_active s h]; rfl

theorem lasting_stashCheck (s : State) : s.stashCheck.lasting = s.lasting :=
  lasting_foldl _ _ s fun t x => by
    split
    · exact (lasting_requestHaltAll _).trans ((lasting_event _ _ _).trans rfl)
    · rfl

theorem lasting_loadKeys (s : State) (step : Nat) : (s.loadKeys step).lasting = s.lasting :=
  lasting_foldl _ _ s fun _ _ => rfl

theorem lasting_enterSlot (s : State) (d : JobDesc) (jb : Nat) : (s.enterSlot d jb).lasting = s.lasting := by
  unfold State.enterSlot
  dsimp only
  generalize ht : (if s.slotOfBeat jb = 0 ∧ d.trains ≠ [] then s.loadKeys (s.stepOf jb) else s) = t
  have h : t.lasting = s.lasting := by
    rw [← ht]
    split
    · exact lasting_loadKeys _ _
    · rfl
  split
  · split
    · exact (lasting_stashCheck t).trans h
    · exact (lasting_stashCheck t).trans h
  · exact h

theorem lasting_openPlan (s : State) (d : DieId) (index jb : Nat) (desc : List W32) :
    (s.openPlan d index jb desc).lasting = s.lasting := lasting_of_closeFrame (opens_openPlan s d index jb desc).frame

theorem lasting_openOrOwe (s : State) (jb : Nat) (d : DieId) : (s.openOrOwe jb d).lasting = s.lasting := by
  unfold State.openOrOwe
  dsimp only
  split
  · exact lasting_openPlan _ _ _ _ _
  · rfl

theorem lasting_openBeat (s : State) : s.openBeat.lasting = s.lasting := by
  unfold State.openBeat
  split
  · rfl
  · next d _ =>
    refine (lasting_foldl _ _ _ fun _ _ => lasting_modFront _ _ _).trans ?_
    have h := lasting_enterSlot { s with beat := { s.beat with jobBeat := s.nextJobBeat, firstNormal := false } } d s.nextJobBeat
    split
    · exact h
    · exact (lasting_foldl _ _ _ fun _ _ => lasting_openOrOwe _ _ _).trans h

/-! ## Checks and kinds -/

theorem lasting_overrunDie (s : State) (d : DieId) : (s.overrunDie d).lasting = s.lasting :=
  (lasting_setParam _ _ _).trans ((lasting_setParam _ _ _).trans ((lasting_bump _ _ _).trans
    ((lasting_of_hubFrame (hubFrame_dieEvent _ _ _ _)).trans rfl)))

theorem lasting_requestHalt (s : State) (d : DieId) : (s.requestHalt d).lasting = s.lasting := by
  unfold State.requestHalt
  split <;> rfl

theorem lasting_announceCatchUp (s : State) : s.announceCatchUp.lasting = s.lasting := by
  unfold State.announceCatchUp State.announce
  split
  · rfl
  · split <;> rfl

theorem lasting_answerLate (s : State) (late : List DieId) : (s.answerLate late).lasting = s.lasting := by
  unfold State.answerLate
  generalize ht : (if late.isEmpty = true then s else if s.beat.afterCatchUp = true then
      late.foldl (fun (t : State) d => (t.dieEvent d Ev.beatOverrunHalt []).requestHalt d) s else s.announceCatchUp) = t
  have h : t.lasting = s.lasting := by
    rw [← ht]
    split
    · rfl
    · split
      · exact lasting_foldl _ _ _ fun _ _ => (lasting_requestHalt _ _).trans (lasting_of_hubFrame (hubFrame_dieEvent _ _ _ _))
      · exact lasting_announceCatchUp s
  exact h

theorem lasting_countKind (s : State) (kind : BeatKind) : (s.countKind kind).lasting = s.lasting := by
  unfold State.countKind
  cases kind with
  | normal => rfl
  | idle => exact lasting_bump _ _ _
  | catchUp =>
    dsimp only
    split
    · exact (lasting_bump _ _ _).trans (lasting_bump _ _ _)
    · exact lasting_bump _ _ _
  | halt => rfl
  | free => rfl

theorem lasting_edited (s : State) (kind : BeatKind) : (s.edited kind).lasting = s.lasting :=
  (lasting_countKind _ _).trans ((lasting_of_hubFrame (hubFrame_applyRekeys _)).trans
    ((lasting_of_hubFrame (hubFrame_applyEditSet _)).trans (lasting_of_restFrame (keepLate_parts s).1)))

theorem lasting_haltBeat (s : State) : s.haltBeat.lasting = s.lasting := by
  unfold State.haltBeat
  refine (lasting_setDev _ _).trans ?_
  have h : (allDies.foldl (fun (t : State) d => t.modFront d FrontEnd.halt) s).lasting = s.lasting :=
    lasting_foldl _ _ s fun _ _ => lasting_modFront _ _ _
  dsimp only
  split
  · exact h
  · exact h

theorem lasting_applyKind (s : State) (kind : BeatKind) : (s.applyKind kind).lasting = s.lasting := by
  have h := lasting_edited s kind
  rw [applyKind_eq]
  cases kind with
  | normal => exact (lasting_openBeat _).trans h
  | halt => exact (lasting_haltBeat _).trans h
  | free => exact h
  | catchUp => exact h
  | idle => exact h

/-! ## What starts -/

theorem lasting_prepareRegion (s : State) (d : JobDesc) (press : Bool) : (s.prepareRegion d press).lasting = s.lasting :=
  lasting_foldl _ _ s fun t _ => lasting_foldl _ _ t fun _ _ => lasting_of_hubFrame (hubFrame_keyWhole _ _ _)

theorem lasting_fillSlot (s : State) (a : Adapter) (n : Nat) : (s.fillSlot a n).lasting = s.lasting :=
  lasting_foldl _ _ s fun _ _ => (lasting_of_hubFrame (hubFrame_extPut _ _ _ _ _)).trans
    ((lasting_of_hubFrame (hubFrame_keyWholeRange _ _ _ _ _ _)).trans (lasting_of_hubFrame (hubFrame_extMet _ _ _ _ _)))

theorem lasting_fillTrain (s : State) (t : TrainEntry) : (s.fillTrain t).lasting = s.lasting := by
  unfold State.fillTrain
  split
  · rfl
  · exact (lasting_fillSlot _ _ t.slotB).trans (lasting_fillSlot s _ t.slotA)

theorem lasting_prepared (s : State) : s.prepared.lasting = s.lasting := by
  unfold State.prepared
  split
  · rfl
  · exact (lasting_foldl _ _ _ lasting_fillTrain).trans ((lasting_prepareRegion _ _ _).trans (lasting_prepareRegion _ _ _))

theorem lasting_endPreparation (s : State) : s.endPreparation.lasting = s.lasting := by
  unfold State.endPreparation
  split
  · exact lasting_prepared s
  · rfl

theorem lasting_jobTotals (s : State) : s.jobTotals.lasting = s.lasting := lasting_foldl _ _ s fun _ _ => lasting_setParam _ _ _

theorem lasting_startJob (s : State) (d : JobDesc) : (s.startJob d).lasting = s.lasting := by
  have h : (State.jobTotals (State.setDev { s.endPreparation with
      job := { s.endPreparation.job with phase := .running } } .running)).lasting = s.lasting :=
    (lasting_jobTotals _).trans ((lasting_setDev _ _).trans (lasting_endPreparation s))
  unfold State.startJob
  dsimp only
  split
  · exact (lasting_event _ _ _).trans h
  · exact (lasting_event _ _ _).trans h

theorem lasting_jobStartIfDue (s : State) : s.jobStartIfDue.lasting = s.lasting := by
  unfold State.jobStartIfDue
  split
  · split
    · exact lasting_startJob _ _
    · rfl
  · rfl

/-! ## What ends -/

theorem lasting_releaseTrain (s : State) (x : TrainEntry × Nat) : (s.releaseTrain x).lasting = s.lasting := by
  unfold State.releaseTrain
  dsimp only
  split
  · split <;> rfl
  · rfl

theorem lasting_modReq (s : State) (i : Nat) (g : Request → Request) : (s.modReq i g).lasting = s.lasting :=
  lasting_of_hubFrame (hubFrame_modReq s i g)

theorem lasting_leaveNow (s : State) : s.leaveNow.lasting = s.lasting := lasting_of_hubFrame (hubFrame_leaveNow s)

theorem lasting_finishAll (s : State) (l : List Nat) (st : Status) : (s.finishAll l st).lasting = s.lasting :=
  lasting_of_hubFrame (hubFrame_finishAll s l st)

theorem lasting_endJob (s : State) (cause : EndCause) : (s.endJob cause).lasting = s.lasting := by
  unfold State.endJob
  split
  · rfl
  · next d _ =>
    dsimp only
    generalize ht : (if s.job.lastStepUpdated.isNone = true then s.drawn else s) = t
    have h0 : t.lasting = s.lasting := by
      rw [← ht]
      split <;> rfl
    generalize hu : t.event Ev.jobEnded _ = u
    have h1 : u.lasting = t.lasting := by rw [← hu]; exact lasting_event _ _ _
    generalize hv : (u.requestsThat _).foldl _ u = v
    have h2 : v.lasting = u.lasting := by rw [← hv]; exact lasting_foldl _ _ _ fun _ _ => lasting_modReq _ _ _
    generalize hw : d.trains.zipIdx.foldl State.releaseTrain v.leaveNow = w
    have h3 : w.lasting = v.lasting := by
      rw [← hw]; exact (lasting_foldl _ _ _ lasting_releaseTrain).trans (lasting_leaveNow v)
    have h : w.lasting = s.lasting := h3.trans (h2.trans (h1.trans h0))
    generalize hx : allDies.foldl _ _ = x
    have h4 : x.lasting = w.lasting := by
      rw [← hx]; exact (lasting_foldl _ _ _ fun _ _ => lasting_modFront _ _ _).trans rfl
    split
    · split
      · exact (lasting_setDev _ _).trans (h4.trans h)
      · exact h4.trans h
    · exact h4.trans h

theorem lasting_jobEndIfDue (s : State) (opening : Bool) : (s.jobEndIfDue opening).lasting = s.lasting := by
  unfold State.jobEndIfDue
  split
  · rfl
  · split
    · exact lasting_endJob _ _
    · split
      · exact lasting_endJob _ _
      · rfl
    · rfl

theorem lasting_forceAll (s : State) : s.forceAll.lasting = s.lasting :=
  lasting_foldl _ _ s fun _ _ => lasting_of_hubFrame (hubFrame_forceRevoke _ _ _)

/-! ## Release (R428) -/

theorem lasting_discardMatter (s : State) : s.discardMatter.lasting = s.lasting := by
  unfold State.discardMatter
  dsimp only
  split <;> rfl

theorem lasting_beginReleasing (s : State) : s.beginReleasing.lasting = s.lasting := by
  unfold State.beginReleasing
  dsimp only
  generalize ht : State.discardMatter _ = t
  have h0 : t.lasting = s.lasting := by rw [← ht]; exact lasting_discardMatter _
  generalize hu : (AMap.keys t.adm.adapters).foldl _ t = u
  have h1 : u.lasting = t.lasting := by
    rw [← hu]; exact lasting_foldl _ _ _ fun _ _ => lasting_of_hubFrame (hubFrame_revokeFrom _ _ _ _)
  generalize hv : u.finishAll _ _ = v
  have h2 : v.lasting = u.lasting := by rw [← hv]; exact lasting_finishAll _ _ _
  generalize hw : (v.requestsThat _).foldl _ v = w
  have h3 : w.lasting = v.lasting := by rw [← hw]; exact lasting_foldl _ _ _ fun _ _ => lasting_modReq _ _ _
  have h : w.lasting = s.lasting := h3.trans (h2.trans (h1.trans h0))
  split
  · exact (lasting_leaveNow w).trans h
  · exact h

theorem lasting_releasingIfDue (s : State) : s.releasingIfDue.lasting = s.lasting := by
  unfold State.releasingIfDue
  split
  · exact lasting_beginReleasing s
  · rfl

theorem lasting_releaseEntries (s : State) : s.releaseEntries.lasting = s.lasting :=
  (lasting_foldl _ _ _ fun _ _ => lasting_of_hubFrame (hubFrame_postStatus _ _ _ _)).trans
    ((lasting_finishAll _ _ _).trans ((lasting_finishAll _ _ _).trans rfl))

theorem lasting_disableRing (s : State) (k : Nat) : (s.disableRing k).lasting = s.lasting := by
  unfold State.disableRing
  dsimp only
  split
  · rfl
  · refine (lasting_of_hubFrame (hubFrame_writeStatusLine _ _)).trans ((lasting_of_hubFrame (hubFrame_setRing _ _ _)).trans ?_)
    split
    · exact lasting_of_sent (sent_signal _ _)
    · rfl

theorem lasting_disableRings (s : State) : s.disableRings.lasting = s.lasting :=
  (lasting_setParam _ _ _).trans (lasting_foldl _ _ s lasting_disableRing)

theorem lasting_epochDrop (s : State) (d : DieId) (point : Nat) : (s.epochDrop d point).lasting = s.lasting :=
  (lasting_of_hubFrame (hubFrame_limited _ _ _ _ _ _)).trans (lasting_bump _ _ _)

theorem lasting_abortWork (s : State) : s.abortWork.lasting = s.lasting := by
  unfold State.abortWork
  dsimp only
  generalize ht : allDies.foldl _ s = t
  have h0 : t.lasting = s.lasting := by rw [← ht]; exact lasting_foldl _ _ _ fun _ _ => lasting_modFront _ _ _
  generalize hu : s.host.snoops.foldl _ t = u
  have h1 : u.lasting = t.lasting := by
    rw [← hu]
    refine lasting_foldl _ _ _ fun _ _ => ?_
    split
    · exact lasting_epochDrop _ _ _
    · rfl
  exact h1.trans h0

theorem lasting_emptyTables (s : State) : s.emptyTables.lasting = s.lasting := (lasting_setParam _ _ _).trans rfl

theorem lasting_clearPerf (s : State) : s.clearPerf.lasting = s.lasting :=
  (lasting_foldl _ _ _ fun _ _ => lasting_setParam _ _ _).trans rfl

theorem lasting_zeroTenant (s : State) : s.zeroTenant.lasting = s.lasting := by
  have h : s.abortWork.emptyTables.zeroise.clearPerf.lasting = s.lasting :=
    (lasting_clearPerf _).trans ((lasting_emptyTables s.abortWork).trans (lasting_abortWork s))
  unfold State.zeroTenant
  generalize s.abortWork.emptyTables.zeroise.clearPerf = t at h ⊢
  exact h

theorem lasting_stopRelease (s : State) : s.stopRelease.lasting = s.lasting := by
  unfold State.stopRelease
  dsimp only
  generalize ht : (if s.ten.release.any (fun r => r.mode == .immediate) = true then s.forceAll else s.forceOverdue s.beat.count) = t
  have h0 : t.lasting = s.lasting := by
    rw [← ht]
    split
    · exact lasting_forceAll s
    · exact lasting_of_hubFrame (hubFrame_forceOverdue _ _)
  have h1 : t.releaseEntries.lasting = s.lasting := (lasting_releaseEntries t).trans h0
  generalize t.releaseEntries = u at h1
  refine (lasting_setDev _ _).trans ((lasting_zeroTenant _).trans ((lasting_disableRings _).trans ?_))
  split
  · exact (lasting_endJob _ _).trans h1
  · exact h1

theorem lasting_releaseStopIfDue (s : State) : s.releaseStopIfDue.lasting = s.lasting := by
  unfold State.releaseStopIfDue
  split
  · exact lasting_stopRelease s
  · rfl

theorem lasting_endings (s : State) (kind : BeatKind) : (s.endings kind).lasting = s.lasting := by
  unfold State.endings
  dsimp only
  have h1 := (lasting_jobEndIfDue s.releaseStopIfDue (kind == .normal)).trans (lasting_releaseStopIfDue s)
  generalize s.releaseStopIfDue.jobEndIfDue (kind == .normal) = t at h1 ⊢
  generalize hu : (if kind = .halt then t.forceAll else t) = u
  have h2 : u.lasting = s.lasting := by
    rw [← hu]
    split
    · exact (lasting_forceAll t).trans h1
    · exact h1
  split
  · exact (lasting_of_hubFrame (hubFrame_settleEdits u)).trans h2
  · exact h2

/-! ## The boundary -/

theorem lasting_boundaryWork (s : State) : s.boundaryWork.lasting = s.lasting :=
  (lasting_jobStartIfDue _).trans ((lasting_releasingIfDue _).trans (lasting_of_mattered (mattered_applyMatter s)))

theorem lasting_begun (s : State) :
    s.begun.lasting = ((s.beat.count + 1) % 2 ^ 64, s.boot.feedId, s.mem.flash, s.pending) := by
  obtain ⟨-, -, -, h1, h2, h3, -⟩ := begun_parts s
  have h4 := (begun_beat s).1
  unfold State.lasting
  rw [h1, h2, h3, h4]

/-- A boundary leaves the flash, the feed's ID and the pending actions, and BEAT_COUNT is the count of the beat that begins. -/
theorem lasting_boundary (s : State) :
    s.boundary.lasting = ((s.beat.count + 1) % 2 ^ 64, s.boot.feedId, s.mem.flash, s.pending) := by
  rw [← lasting_begun s]
  unfold State.boundary
  dsimp only
  have eb : s.newBeat.reportViolations = s.begun := rfl
  rw [eb]
  generalize s.begun = t
  have h1 : ((t.closeDies (t.boundaryWork.kindNow == .halt)).boundaryWork).lasting = t.lasting :=
    (lasting_boundaryWork _).trans (lasting_closeDies _ _)
  generalize (t.closeDies (t.boundaryWork.kindNow == .halt)).boundaryWork = u at h1 ⊢
  generalize hc : checksClosure _ _ = c
  generalize hl : (if c = true then u.lateDies else []) = late
  generalize (u.endings u.kindNow).kindAfter u.kindNow = shown
  have h2 : ((late.foldl State.overrunDie u).endings u.kindNow).lasting = t.lasting :=
    (lasting_endings _ _).trans ((lasting_foldl _ _ _ lasting_overrunDie).trans h1)
  generalize (late.foldl State.overrunDie u).endings u.kindNow = v at h2 ⊢
  generalize hw : (if c = true then v.answerLate late else v) = w
  have h3 : w.lasting = t.lasting := by
    rw [← hw]
    split
    · exact (lasting_answerLate _ _).trans h2
    · exact h2
  refine (lasting_of_sent (sent_boundarySends _)).trans ?_
  exact Eq.trans (b := (w.applyKind _).lasting) rfl ((lasting_applyKind _ _).trans h3)

/-- Every boundary completes and counts its beat. -/
theorem boundary_counts (s : State) : ∃ t, exec .beatBoundary s = .next t ∧ t.beat.count = (s.beat.count + 1) % 2 ^ 64 ∧
    t.boot.feedId = s.boot.feedId ∧ t.mem.flash = s.mem.flash ∧ t.pending = s.pending := by
  have h := lasting_boundary s
  have hx : exec .beatBoundary s = .next s.boundary := rfl
  generalize s.boundary = t at h hx
  have h1 := congrArg (fun x => x.1) h
  have h2 := congrArg (fun x => x.2.1) h
  have h3 := congrArg (fun x => x.2.2.1) h
  have h4 := congrArg (fun x => x.2.2.2) h
  exact ⟨t, hx, h1, h2, h3, h4⟩

end Sys2Proof.Machine
end


section
/-! O51: every boundary counts its beat, and the kinds do what they say, in serving and in training (R25 to R41, R274, R287, R288,
R294). -/

namespace Sys2Proof.Machine
open Sys2Proof

/-- A boundary for which HALT has been announced or is decided is a HALT boundary. -/
theorem Quiet.kind_halt {d : JobDesc} {s : State} (h : Quiet d s)
    (hk : s.beat.announced.contains ((s.beat.count + 1) % 2 ^ 64, BeatKind.halt) = true ∨ s.beat.nextKind = .halt) :
    s.begun.kindNow = .halt := by
  rw [h.kindOfBoundary]
  split
  · rfl
  · next ha =>
    rw [hk.resolve_left ha]
    rfl

theorem between_ne_free {k : BeatKind} (hk : k = .catchUp ∨ k = .idle) : k ≠ .free := by
  rcases hk with e | e <;> rw [e] <;> decide

/-- Settles O51: each clause is a boundary of one kind, cut into its closings, its check, the edits and its kind's own work; what holds
of every boundary is a projection that all of these keep. -/
theorem boundariesAdvanceTheBeat : Obligations.BoundariesAdvanceTheBeat := by
  unfold Obligations.BoundariesAdvanceTheBeat
  refine ⟨boundary_counts, ?free, ?serving, ?checked, ?training, ?owed, ?config,
    fun s => ⟨fun i => planIndexDelivery_delivers s i, planIndexDelivery_none s⟩⟩
  case free =>
    intro s hj hp hd hr hf
    obtain ⟨t, hx, h1, h2, h3, h4, h5, -⟩ := (Idle.mk hj hp hd hr hf).free_boundary
    exact ⟨t, hx, h1, h2, h3, h4, h5⟩
  case serving =>
    intro d s hj hd htr _ _ ha hr hm he ho
    have hq : Quiet d s := ⟨hj, hd, ha, hr, hm⟩
    refine ⟨fun hn => ⟨fun hk hh hc => ?_, fun k hk hkn => ?_⟩, fun hk => halt_boundary hq (hq.kind_halt hk)⟩
    · have hno : ¬ s.haltHeld = true := by rw [hh]; exact Bool.false_ne_true
      exact serving_normal hq htr (ho.resolve_left hno) (hq.kind_eq hn hk nofun) he hh hc
    · exact quiet_between hq (nothingOpens_of false ho) hk (hq.kind_eq hn hkn (between_ne_free hk))
  case checked =>
    intro d k s hj hd htr _ _ ha hr hm he ho hn hk hkn hc
    have hq : Quiet d s := ⟨hj, hd, ha, hr, hm⟩
    rcases hk with rfl | rfl
    · obtain ⟨t, hx, h1, h2, h3⟩ := serving_normal_checked hq htr (nothingOpens_of false ho) (hq.kind_eq hn hkn nofun) he hc
      exact ⟨t, hx, h1, h2, h3, nofun⟩
    · obtain ⟨t, hx, h1, h2, h3, h4⟩ := quiet_idle_checked hq (nothingOpens_of false ho) (hq.kind_eq hn hkn nofun) hc
      exact ⟨t, hx, h1, h2, h3, fun _ => h4⟩
  case training =>
    intro d s hj hd htr ha hr hm hn hcl hf
    have hq : Quiet d s := ⟨hj, hd, ha, hr, hm⟩
    refine ⟨fun hu he hk hh hs => ?_, fun k hk hkn => ?_⟩
    · have hup : AtUpdateSlot d s := ⟨hq, htr, hcl, hf, hu, he, hq.kind_eq hn hk nofun, hh, hs⟩
      exact ⟨hup.opens, hup.conflicts⟩
    · have hkind := hq.kind_eq hn hkn (between_ne_free hk)
      exact ⟨fun hu hb hr' => between_phaseCloses hq hcl hf hk hkind hu hb hr',
        fun hu hp hb => between_releases hq hcl hf hk hkind hu hp hb⟩
  case owed =>
    intro d x index jb n desc rest s hj hd _ htr hu ha hr hm hh hk hn hc ho hy
    have hq : Quiet d s := ⟨hj, hd, ha, hr, hm⟩
    exact catchUp_owed hq hu htr hh (hq.kind_eq hn hk nofun) x hc ho hy
  case config =>
    intro s hf hj hp hd hr
    obtain ⟨t, hx, -, -, -, -, -, h1, h2, h3, h4⟩ := (Idle.mk hj hp hd hr hf).free_boundary
    exact ⟨t, hx, h1, h2, h3, h4⟩

end Sys2Proof.Machine
end

section
/-! SUPPORT. A promotion answers a code of its total's format (R58, R91, R92). -/

namespace Sys2Proof.Machine

/-- Rounding keeps the exponent at or above the least one of the grid. -/
theorem le_roundMag_exp (p : Nat) (q : Int) (mode : Rnd) (r m : Nat) (e : Int) : q ≤ (roundMag p q false mode r m e).2 := by
  unfold roundMag
  split
  · exact le_rfl
  · simp only [Bool.false_eq_true, if_false]
    split <;> exact le_max_right _ _

/-- A magnitude that does not exceed another has no larger exponent of its leading bit. -/
theorem log2_le_of_not_magLt {m k : Nat} {e u : Int} (hk : k ≠ 0) (h : magLt m e k u = false) :
    (Nat.log2 k : Int) + u ≤ Nat.log2 m + e := by
  unfold magLt at h
  simp only [decide_eq_false_iff_not, not_lt] at h
  obtain ⟨a, ha⟩ := Int.eq_ofNat_of_zero_le (sub_nonneg.2 (min_le_left e u))
  obtain ⟨b, hb⟩ := Int.eq_ofNat_of_zero_le (sub_nonneg.2 (min_le_right e u))
  rw [ha, hb, Int.toNat_natCast, Int.toNat_natCast] at h
  have hlt : 2 ^ (Nat.log2 k + b) < 2 ^ (Nat.log2 m + 1 + a) := calc
    2 ^ (Nat.log2 k + b) = 2 ^ Nat.log2 k * 2 ^ b := pow_add _ _ _
    _ ≤ k * 2 ^ b := Nat.mul_le_mul_right _ (Nat.log2_self_le hk)
    _ ≤ m * 2 ^ a := h
    _ < 2 ^ (Nat.log2 m + 1) * 2 ^ a := Nat.mul_lt_mul_of_pos_right Nat.lt_log2_self (Nat.two_pow_pos a)
    _ = 2 ^ (Nat.log2 m + 1 + a) := (pow_add _ _ _).symm
  have := (Nat.pow_lt_pow_iff_right (by decide)).1 hlt
  omega

/-- The exponent and mantissa of a magnitude on the grid of a format, below the format's infinities, make a code of the format. -/
theorem encodeMag_lt (f : Fmt) (neg : Bool) {k : Nat} {u : Int} (hw : fmtWidth f = fmtExpBits f + fmtManBits f + 1)
    (hu : 1 - (fmtBias f : Int) - fmtManBits f ≤ u)
    (ht : k ≠ 0 → (Nat.log2 k : Int) + u + fmtBias f + 1 < (2 ^ fmtExpBits f : Nat)) :
    encodeMag f neg k u < 2 ^ fmtWidth f := by
  have hsign : (if neg = true then 2 ^ (fmtWidth f - 1) else 0) ≤ 2 ^ (fmtWidth f - 1) := by split <;> simp
  have hhalf : 2 ^ fmtWidth f = 2 ^ (fmtWidth f - 1) + 2 ^ fmtExpBits f * 2 ^ fmtManBits f := by
    rw [hw, Nat.add_sub_cancel, pow_succ, pow_add]; ring
  have hpos : 0 < 2 ^ fmtExpBits f * 2 ^ fmtManBits f := by positivity
  unfold encodeMag
  simp only []
  split
  · omega
  · next hk =>
    have ht := ht hk
    split
    · next hlow =>
      have hsub : k * 2 ^ (u - (1 - (fmtBias f : Int) - fmtManBits f)).toNat < 2 ^ fmtManBits f := calc
        _ < 2 ^ (Nat.log2 k + 1) * 2 ^ (u - (1 - (fmtBias f : Int) - fmtManBits f)).toNat :=
          Nat.mul_lt_mul_of_pos_right Nat.lt_log2_self (Nat.two_pow_pos _)
        _ = 2 ^ (Nat.log2 k + 1 + (u - (1 - (fmtBias f : Int) - fmtManBits f)).toNat) := (pow_add _ _ _).symm
        _ ≤ 2 ^ fmtManBits f := Nat.pow_le_pow_right (by decide) (by omega)
      have : 2 ^ fmtManBits f ≤ 2 ^ fmtExpBits f * 2 ^ fmtManBits f := Nat.le_mul_of_pos_left _ (Nat.two_pow_pos _)
      omega
    · next hlow =>
      generalize (if Nat.log2 k ≤ fmtManBits f then _ else _ : Nat) = mant
      have hm : mant % 2 ^ fmtManBits f < 2 ^ fmtManBits f := Nat.mod_lt _ (Nat.two_pow_pos _)
      have hE : ((Nat.log2 k : Int) + u + fmtBias f).toNat + 1 ≤ 2 ^ fmtExpBits f := by omega
      have := Nat.mul_le_mul_right (2 ^ fmtManBits f) hE
      rw [Nat.add_mul, Nat.one_mul] at this
      omega

/-- Flushing a subnormal makes no code larger. -/
theorem flushCode_le (audit : Bool) (f : Fmt) (code : Nat) : flushCode audit f code ≤ code := by
  unfold flushCode
  split
  · exact Nat.div_mul_le_self _ _
  · exact le_rfl

/-- The format of a total (R91). -/
def totalFmt (a16 : Bool) : Fmt := if a16 then .bf16 else .f32

theorem two_pow_totalFmt (a16 : Bool) : 2 ^ fmtWidth (totalFmt a16) = 256 ^ totalBytes a16 := by
  cases a16 <;> rfl

theorem fmtNan_totalFmt_lt (a16 : Bool) : fmtNan (totalFmt a16) < 256 ^ totalBytes a16 := by
  cases a16 <;> decide

theorem fmtInf_totalFmt_lt (a16 neg : Bool) : fmtInf (totalFmt a16) neg < 256 ^ totalBytes a16 := by
  cases a16 <;> cases neg <;> decide

/-- A magnitude on a total's grid that does not exceed the largest finite one has a code of the total's format. -/
theorem encodeMag_totalFmt_lt (a16 neg : Bool) {k : Nat} {u : Int}
    (hu : 1 - (fmtBias (totalFmt a16) : Int) - fmtManBits (totalFmt a16) ≤ u)
    (hmax : magLt (fmtMax (totalFmt a16)).1 (fmtMax (totalFmt a16)).2 k u = false) :
    encodeMag (totalFmt a16) neg k u < 256 ^ totalBytes a16 := by
  rw [← two_pow_totalFmt]
  have hfmt : fmtWidth (totalFmt a16) = fmtExpBits (totalFmt a16) + fmtManBits (totalFmt a16) + 1 ∧
      (Nat.log2 (fmtMax (totalFmt a16)).1 : Int) + (fmtMax (totalFmt a16)).2 +
        fmtBias (totalFmt a16) + 1 < (2 ^ fmtExpBits (totalFmt a16) : Nat) := by
    cases a16 <;> decide
  obtain ⟨hw, htop⟩ := hfmt
  refine encodeMag_lt _ neg hw hu fun hk => ?_
  have := log2_le_of_not_magLt hk hmax
  omega

/-- A promotion into a total of a format answers a code of that format (R92). -/
theorem promote_lt (audit a16 sr : Bool) (r : Nat) {total : Nat} (c : Chunk) (h : total < 256 ^ totalBytes a16) :
    (promote audit a16 sr r total c).1 < 256 ^ totalBytes a16 := by
  have hnan := fmtNan_totalFmt_lt a16
  have hinf := fmtInf_totalFmt_lt a16
  unfold promote
  rw [← totalFmt]
  dsimp only
  generalize (if (a16 || sr) = true then Rnd.sr else Rnd.rne) = mode
  split
  · exact hnan
  · exact hnan
  · split
    · exact hinf _
    · exact hnan
  · exact hinf _
  · exact hinf _
  · split
    · exact h
    · split
      · split
        · positivity
        · split
          · exact hinf _
          · next hmax =>
            exact (flushCode_le _ _ _).trans_lt
              (encodeMag_totalFmt_lt a16 _ (le_roundMag_exp _ _ _ _ _ _) (Bool.eq_false_iff.2 hmax))
      · exact hnan

end Sys2Proof.Machine
end

section
/-! SUPPORT. What an array operation leaves alone from its start to its completion, and how an operation runs by itself (R145, R148,
R149, R205). -/

namespace Sys2Proof.Machine

open Sys2Proof

/-! ### The frame of an array operation -/

/-- What names the draws of a front end's plan (R106, R133). -/
def FrontEnd.drawSite (f : FrontEnd) : W64 × Nat × Nat × Nat := (f.seed, f.planIndex, f.planBeat, f.trainStep)

/-- The part of a state that an MMA of a die reads beside its tiles and totals, and that it leaves alone. -/
structure ArrayFrame where
  pending : List Instr
  vregs : AMap (List W32)
  sram : Memory
  hbm : Memory
  lpddr : Memory
  rind : RindState
  beat : BeatState
  job : JobState
  adm : AdmState
  kv : KvState
  ten : TenantState
  res : ResState
  boot : BootState
  site : W64 × Nat × Nat × Nat
  deviceId : Nat

/-- That part of a state. -/
def State.arrayFrame (s : State) (d : DieId) : ArrayFrame :=
  ⟨s.pending, s.cells.vregs, s.mem.sram, s.mem.hbm, s.mem.lpddr, s.rind, s.beat, s.job, s.adm, s.kv, s.ten, s.res, s.boot,
    (s.front d).drawSite, s.param P.deviceId⟩

section
variable {s t : State} {d : DieId} (h : t.arrayFrame d = s.arrayFrame d)
include h

theorem sameControl_of_arrayFrame : SameControl s t := by
  simp only [State.arrayFrame, ArrayFrame.mk.injEq] at h
  obtain ⟨hpending, -, -, -, -, hrind, hbeat, hjob, hadm, hkv, hten, hres, hboot, -, -⟩ := h
  exact ⟨hpending, hrind, hbeat, hjob, hadm, hkv, hten, hres, hboot⟩

theorem sram_of_arrayFrame : t.mem.sram = s.mem.sram := congrArg ArrayFrame.sram h

theorem State.audit_of_arrayFrame : t.audit = s.audit := by
  unfold State.audit; rw [show t.job = s.job from congrArg ArrayFrame.job h]

/-- The draws of a die's promotions are named by what stays. -/
theorem State.promDraw_of_arrayFrame (cell lane c p row chunk : Nat) :
    t.promDraw d cell lane c p row chunk = s.promDraw d cell lane c p row chunk := by
  have hjob : t.job = s.job := congrArg ArrayFrame.job h
  have hdev : t.param P.deviceId = s.param P.deviceId := congrArg ArrayFrame.deviceId h
  have hsite : (t.front d).drawSite = (s.front d).drawSite := congrArg ArrayFrame.site h
  simp only [FrontEnd.drawSite, Prod.mk.injEq] at hsite
  obtain ⟨hseed, hplan, hbeat, hstep⟩ := hsite
  unfold State.promDraw State.audit State.auditDrawAt State.firstChunk State.roundingSite State.auditStep
  rw [hjob, hdev, hseed, hplan, hbeat, hstep]

/-- The input vectors of an MMA lie in SRAM. -/
theorem State.inputVector_of_arrayFrame (f : MmaF) (c j : Nat) : t.inputVector d f c j = s.inputVector d f c j := by
  simp only [State.inputVector, State.sramRead, sram_of_arrayFrame h, State.audit_of_arrayFrame h]

end

/-- A change of a front end that keeps the names of its draws keeps the frame. -/
theorem arrayFrame_modFront (s : State) (d e : DieId) {g : FrontEnd → FrontEnd}
    (h : (g (s.front e)).drawSite = (s.front e).drawSite) : (s.modFront e g).arrayFrame d = s.arrayFrame d := by
  have hfront : ((s.modFront e g).front d).drawSite = (s.front d).drawSite := by
    by_cases hd : d = e
    · subst hd; rw [State.front_modFront_self, h]
    · rw [State.front_modFront_ne s e d g hd]
  unfold State.arrayFrame
  rw [hfront]
  rfl

theorem arrayFrame_addTally (s : State) (d e : DieId) (k n : Nat) : (s.addTally e k n).arrayFrame d = s.arrayFrame d :=
  arrayFrame_modFront s d e rfl

theorem arrayFrame_count (s : State) (d e : DieId) (c : Counts) : (s.count e c).arrayFrame d = s.arrayFrame d :=
  arrayFrame_modFront s d e rfl

/-! ### Start and completion (R148, R149) -/

theorem State.beginOp_mem (s : State) (d : DieId) (sl : Slot) (e : QEntry) (n : Nat) : (s.beginOp d sl e n).mem = s.mem := rfl

theorem State.beginOp_cells (s : State) (d : DieId) (sl : Slot) (e : QEntry) (n : Nat) :
    (s.beginOp d sl e n).cells = s.cells := rfl

theorem arrayFrame_beginOp (s : State) (d x : DieId) (sl : Slot) (e : QEntry) (n : Nat) :
    (s.beginOp d sl e n).arrayFrame x = s.arrayFrame x :=
  arrayFrame_modFront s x d (g := fun f => { f with running := f.running ++ [⟨s.fab.nextOp, sl, e, n, s.ten.epoch, 0⟩] }) rfl

theorem State.ownSignal_keeps (s : State) (d x : DieId) (e : QEntry) :
    (s.ownSignal d e).arrayFrame x = s.arrayFrame x ∧ (s.ownSignal d e).mem = s.mem ∧ (s.ownSignal d e).cells = s.cells := by
  unfold State.ownSignal
  split
  · exact ⟨arrayFrame_addTally _ _ _ _ _, rfl, rfl⟩
  · exact ⟨rfl, rfl, rfl⟩

theorem State.nearSignal_keeps (s : State) (d x : DieId) (o : Op) :
    (s.nearSignal d o).arrayFrame x = s.arrayFrame x ∧ (s.nearSignal d o).mem = s.mem ∧
      (s.nearSignal d o).cells = s.cells := by
  unfold State.nearSignal
  split
  · exact ⟨arrayFrame_addTally _ _ _ _ _, rfl, rfl⟩
  · exact ⟨rfl, rfl, rfl⟩

theorem State.dropRunning_keeps (s : State) (d x : DieId) (id : Nat) :
    (s.dropRunning d id).arrayFrame x = s.arrayFrame x ∧ (s.dropRunning d id).mem = s.mem ∧
      (s.dropRunning d id).cells = s.cells := by
  have hf := arrayFrame_modFront s x d (g := fun f => { f with running := f.running.filter (fun r => r.id ≠ id) }) rfl
  unfold State.dropRunning
  dsimp only
  split
  · exact ⟨hf, rfl, rfl⟩
  · exact ⟨hf, rfl, rfl⟩

/-- A completion leaves the cells, the memories and the frame alone. -/
theorem State.settle_keeps (s : State) (d x : DieId) (id : Nat) :
    (s.settle d id).arrayFrame x = s.arrayFrame x ∧ (s.settle d id).mem = s.mem ∧ (s.settle d id).cells = s.cells := by
  unfold State.settle
  split
  · next r _ =>
    obtain ⟨hf, hm, hc⟩ := s.dropRunning_keeps d x r.id
    split
    · split
      · obtain ⟨hf', hm', hc'⟩ := (s.dropRunning d r.id).ownSignal_keeps d x r.entry
        exact ⟨hf'.trans hf, hm'.trans hm, hc'.trans hc⟩
      · obtain ⟨hf', hm', hc'⟩ := (s.dropRunning d r.id).nearSignal_keeps d x r.entry.op
        obtain ⟨hf'', hm'', hc''⟩ := ((s.dropRunning d r.id).nearSignal d r.entry.op).ownSignal_keeps d x r.entry
        exact ⟨hf''.trans (hf'.trans hf), hm''.trans (hm'.trans hm), hc''.trans (hc'.trans hc)⟩
    · exact ⟨rfl, rfl, rfl⟩
  · exact ⟨rfl, rfl, rfl⟩

/-- An operation that is not hollow and does not complete at once runs by itself to its effect and its completion. -/
theorem State.runOp_of_ok {s t : State} {d : DieId} {sl : Slot} {i : Issue} {o : Op} (hi : i.hollow = false)
    (hc : s.completesAtOnce d ⟨o, i, none, none⟩ = false)
    (h : effOp (s.beginOp d sl ⟨o, i, none, none⟩ 0) d s.fab.nextOp i o = .ok t) :
    s.runOp d sl i o = .next (t.settle d s.fab.nextOp) := by
  simp only [State.runOp, State.launch, hi, Bool.false_eq_true, if_false, h, hc]

/-! ### The accesses of a broadcast operation (R121, R205) -/

theorem arrayFrame_limited (s : State) (x : DieId) (c r k n : Nat) (g : Nat → List (Nat × Nat)) :
    (s.limited c r k n g).arrayFrame x = s.arrayFrame x := by
  simp [State.arrayFrame, State.front, State.param_limited _ _ _ _ _ _ (notEventCount (k := P.deviceId) (by decide))]

/-- Correcting errors of a range changes neither cells nor accumulators, nor the frame. -/
theorem State.correctSram_keeps (s : State) (d x : DieId) (c a n : Nat) :
    (s.correctSram d c a n).arrayFrame x = s.arrayFrame x ∧ (s.correctSram d c a n).mem.acc = s.mem.acc ∧
      (s.correctSram d c a n).cells = s.cells := by
  unfold State.correctSram
  dsimp only
  split
  · exact ⟨rfl, rfl, rfl⟩
  · exact ⟨arrayFrame_limited _ _ _ _ _ _ _, by simp, by simp⟩

/-- Nor does correcting those of several accesses. -/
theorem State.correctTouches_keeps (s : State) (d x : DieId) (ts : List Touch) :
    (s.correctTouches d ts).arrayFrame x = s.arrayFrame x ∧ (s.correctTouches d ts).mem.acc = s.mem.acc ∧
      (s.correctTouches d ts).cells = s.cells := by
  unfold State.correctTouches
  refine List.foldlRecOn _ _ (motive := fun (t : State) => t.arrayFrame x = s.arrayFrame x ∧ t.mem.acc = s.mem.acc ∧ t.cells = s.cells)
    ⟨rfl, rfl, rfl⟩ (fun t ht y _ => ?_)
  split
  · exact ht
  · obtain ⟨hf, ha, hc⟩ := t.correctSram_keeps d x y.cell y.addr y.len
    exact ⟨hf.trans ht.1, ha.trans ht.2.1, hc.trans ht.2.2⟩

/-- Faults of accesses are those of the memories. -/
theorem State.touchesTrip_congr {s t : State} (h : t.mem = s.mem) (d : DieId) (ts : List Touch) :
    t.touchesTrip d ts = s.touchesTrip d ts := by
  induction ts with
  | nil => rfl
  | cons x xs ih =>
    simp only [State.touchesTrip, ih, State.touchTrip, State.firstUnwritten, State.firstDouble, h]

end Sys2Proof.Machine
end

section
/-! SUPPORT. Rows and bytes of totals: what a write of one leaves alone, and where the totals of a tile lie (R91, R96, R97). -/

namespace Sys2Proof.Machine

/-! ### Reads after writes -/

@[simp] theorem State.count_mem (s : State) (d : DieId) (c : Counts) : (s.count d c).mem = s.mem := rfl

theorem arrayFrame_setTotal (s : State) (d x : DieId) (c arr b : Nat) (a16 : Bool) (v : Nat) :
    (s.setTotal d c arr b a16 v).arrayFrame x = s.arrayFrame x := rfl

theorem arrayFrame_setTotalRow (s : State) (d x : DieId) (c arr tile grp row : Nat) (r : TotalRow) :
    (s.setTotalRow d c arr tile grp row r).arrayFrame x = s.arrayFrame x := rfl

theorem State.setTotalRow_tiles (s : State) (d : DieId) (c arr tile grp row : Nat) (r : TotalRow) :
    (s.setTotalRow d c arr tile grp row r).cells.tiles = s.cells.tiles := rfl

theorem State.setTotalRow_acc (s : State) (d : DieId) (c arr tile grp row : Nat) (r : TotalRow) :
    (s.setTotalRow d c arr tile grp row r).mem.acc = s.mem.acc := rfl

/-- A total is a code of its format's width. -/
theorem State.total_lt (s : State) (d : DieId) (c arr b : Nat) (a16 : Bool) :
    s.total d c arr b a16 < 256 ^ totalBytes a16 := by
  have h := leNat_lt (s.mem.acc.readBytes (accKey d c arr b) (totalBytes a16))
  rwa [Memory.length_readBytes] at h

theorem State.total_setTotal_self (s : State) (d : DieId) (c arr b : Nat) (a16 : Bool) {v : Nat}
    (hv : v < 256 ^ totalBytes a16) : (s.setTotal d c arr b a16 v).total d c arr b a16 = v :=
  (Memory.readLE_writeLE _ _ _ _).trans (Nat.mod_eq_of_lt hv)

/-- A total that lies apart from the one written keeps its code. -/
theorem State.total_setTotal_apart (s : State) (d : DieId) {c c' arr arr' b b' : Nat} {a16 a16' : Bool} (v : Nat)
    (h : accKey d c' arr' b' + totalBytes a16' ≤ accKey d c arr b ∨ accKey d c arr b + totalBytes a16 ≤ accKey d c' arr' b') :
    (s.setTotal d c arr b a16 v).total d c' arr' b' a16' = s.total d c' arr' b' a16' := by
  unfold State.setTotal State.total Memory.readLE Memory.writeLE
  rw [Memory.readBytes_writeBytes_out _ _ _ _ _ (by rwa [length_leBytes])]

/-- So does a byte. -/
theorem State.read_setTotal_apart (s : State) (d : DieId) {c arr b k : Nat} {a16 : Bool} (v : Nat)
    (h : k < accKey d c arr b ∨ accKey d c arr b + totalBytes a16 ≤ k) :
    (s.setTotal d c arr b a16 v).mem.acc.read k = s.mem.acc.read k :=
  Memory.read_writeBytes_out _ _ _ _ (by rwa [length_leBytes])

/-- The record of a row after a row's record has been replaced. -/
theorem State.totalRow_setTotalRow (s : State) (d : DieId) (c arr tile grp row c' arr' tile' grp' row' : Nat) (r : TotalRow) :
    (s.setTotalRow d c arr tile grp row r).totalRow d c' arr' tile' grp' row' =
      if rowKey d c' arr' tile' grp' row' = rowKey d c arr tile grp row then r else s.totalRow d c' arr' tile' grp' row' := by
  unfold State.totalRow State.setTotalRow
  split
  · next h => rw [h]; exact AMap.getD_set_self _ _ _ _
  · next h => exact AMap.getD_set_ne _ _ _ _ h

/-- The record of a row is a matter of the cells alone. -/
theorem State.totalRow_congr {s t : State} (h : t.cells = s.cells) (d : DieId) (c arr tile grp row : Nat) :
    t.totalRow d c arr tile grp row = s.totalRow d c arr tile grp row := by
  unfold State.totalRow; rw [h]

/-- A total is a matter of accumulator memory alone. -/
theorem State.total_congr {s t : State} (h : t.mem.acc = s.mem.acc) (d : DieId) (c arr b : Nat) (a16 : Bool) :
    t.total d c arr b a16 = s.total d c arr b a16 := by
  unfold State.total; rw [h]

/-! ### Keys -/

/-- Rows of different cells, arrays or numbers have different keys. -/
theorem rowKey_inj {d : DieId} {c c' arr arr' tile grp row row' : Nat} (ha : arr < 2) (ha' : arr' < 2) (hr : row < 128)
    (hr' : row' < 128) (h : rowKey d c arr tile grp row = rowKey d c' arr' tile grp row') :
    c = c' ∧ arr = arr' ∧ row = row' := by
  unfold rowKey at h
  omega

/-- Ranges of different accumulators lie apart. -/
theorem accKey_apart (d : DieId) {c c' arr arr' b b' n n' : Nat} (ha : arr < 2) (ha' : arr' < 2) (hb : b + n ≤ 131072)
    (hb' : b' + n' ≤ 131072) (h : (c, arr) ≠ (c', arr')) :
    accKey d c arr b + n ≤ accKey d c' arr' b' ∨ accKey d c' arr' b' + n' ≤ accKey d c arr b := by
  rw [Ne, Prod.mk.injEq, not_and_or] at h
  unfold accKey
  omega

/-- A total of a tile that fits lies in its accumulator (R96). -/
theorem totalAt_fits {tile : Nat} {sh : Shape} {a16 : Bool} {row col : Nat} (h : tileFits tile sh a16 = true)
    (hr : row < shapeRows sh) (hc : col < shapeCols sh) : totalAt tile sh a16 row col + totalBytes a16 ≤ 131072 := by
  simp only [tileFits, Bool.and_eq_true, decide_eq_true_eq] at h
  obtain ⟨-, h⟩ := h
  have hcell : row * shapeCols sh + col + 1 ≤ shapeRows sh * shapeCols sh := calc
    row * shapeCols sh + col + 1 ≤ row * shapeCols sh + shapeCols sh := by omega
    _ = (row + 1) * shapeCols sh := (Nat.succ_mul _ _).symm
    _ ≤ shapeRows sh * shapeCols sh := Nat.mul_le_mul_right _ hr
  have := Nat.mul_le_mul_right (totalBytes a16) hcell
  rw [Nat.succ_mul] at this
  calc totalAt tile sh a16 row col + totalBytes a16
      = tile * 8192 + ((row * shapeCols sh + col) * totalBytes a16 + totalBytes a16) := Nat.add_assoc _ _ _
    _ ≤ tile * 8192 + shapeRows sh * shapeCols sh * totalBytes a16 := Nat.add_le_add_left this _
    _ ≤ 131072 := h

/-- Totals of one tile and one format lie apart. -/
theorem totalAt_apart (tile : Nat) (sh : Shape) (a16 : Bool) {row row' col col' : Nat} (hc : col < shapeCols sh)
    (hc' : col' < shapeCols sh) (h : (row, col) ≠ (row', col')) :
    totalAt tile sh a16 row col + totalBytes a16 ≤ totalAt tile sh a16 row' col' ∨
      totalAt tile sh a16 row' col' + totalBytes a16 ≤ totalAt tile sh a16 row col := by
  have hne : row * shapeCols sh + col ≠ row' * shapeCols sh + col' := by
    intro e
    have hcol : col = col' := by simpa [Nat.mul_add_mod', Nat.mod_eq_of_lt, hc, hc'] using congrArg (· % shapeCols sh) e
    subst hcol
    have hrow := Nat.eq_of_mul_eq_mul_right (Nat.zero_lt_of_lt hc) (Nat.add_right_cancel e)
    exact h (by rw [hrow])
  unfold totalAt
  rcases Nat.lt_or_gt_of_ne hne with hlt | hlt
  · have := Nat.mul_le_mul_right (totalBytes a16) hlt
    rw [Nat.succ_mul] at this
    omega
  · have := Nat.mul_le_mul_right (totalBytes a16) hlt
    rw [Nat.succ_mul] at this
    omega

/-! ### Exchanging tiles (R180) -/

theorem State.tile_congr {s t : State} (h : t.cells.tiles = s.cells.tiles) (d : DieId) (c arr sh : Nat) :
    t.tile d c arr sh = s.tile d c arr sh := by
  unfold State.tile; rw [h]

theorem tileKey_inj {d e : DieId} {c c' arr arr' sh sh' : Nat} (hc : c < 64) (hc' : c' < 64) (ha : arr < 2) (ha' : arr' < 2)
    (hs : sh < 2) (hs' : sh' < 2) : tileKey d c arr sh = tileKey e c' arr' sh' ↔ d = e ∧ c = c' ∧ arr = arr' ∧ sh = sh' := by
  unfold tileKey
  rw [Fin.ext_iff]
  omega

/-- A tile register after one has been replaced. -/
theorem State.tile_setTile (s : State) {d e : DieId} {c c' arr arr' sh sh' : Nat} (t : List Num) (hc : c < 64) (hc' : c' < 64)
    (ha : arr < 2) (ha' : arr' < 2) (hs : sh < 2) (hs' : sh' < 2) :
    (s.setTile d c arr sh t).tile e c' arr' sh' =
      if e = d ∧ c' = c ∧ arr' = arr ∧ sh' = sh then t else s.tile e c' arr' sh' := by
  simp only [← tileKey_inj hc' hc ha' ha hs' hs]
  unfold State.tile State.setTile
  split
  · next h => rw [h]; exact AMap.getD_set_self _ _ _ _
  · next h => exact AMap.getD_set_ne _ _ _ _ h

/-- The tiles of one array of one cell, exchanged. -/
theorem State.tile_swapCell (s : State) {d e : DieId} {c c' a arr sh : Nat} (hc : c < 64) (hc' : c' < 64) (ha : a < 2)
    (harr : arr < 2) (hs : sh < 2) : (s.swapCell d a c).tile e c' arr sh =
      if e = d ∧ arr = a ∧ c' = c then s.tile e c' arr (1 - sh) else s.tile e c' arr sh := by
  unfold State.swapCell
  rw [State.tile_setTile _ _ hc hc' ha harr (by decide) hs, State.tile_setTile _ _ hc hc' ha harr (by decide) hs]
  by_cases h : e = d ∧ arr = a ∧ c' = c
  · obtain ⟨rfl, rfl, rfl⟩ := h
    obtain rfl | rfl : sh = 0 ∨ sh = 1 := by omega
    · simp
    · simp
  · rw [if_neg (fun h' => h ⟨h'.1, h'.2.2.1, h'.2.1⟩), if_neg (fun h' => h ⟨h'.1, h'.2.2.1, h'.2.1⟩), if_neg h]

/-- A shadow that is spent is no longer pending. -/
def State.spendShadow (s : State) (d : DieId) (a : Nat) : State :=
  { s with cells := { s.cells with pending := s.cells.pending.filter (fun k => k ≠ d.val * 2 + a) } }

theorem State.spendShadow_tiles (s : State) (d : DieId) (a : Nat) : (s.spendShadow d a).cells.tiles = s.cells.tiles := rfl

theorem State.swapArray_eq (s : State) (d : DieId) (a : Nat) :
    s.swapArray d a = ((List.range 64).foldl (fun t c => t.swapCell d a c) s).spendShadow d a := rfl

/-- The tiles of an array, exchanged in every cell. -/
theorem State.tile_swapArray (s : State) {d e : DieId} {c a arr sh : Nat} (hc : c < 64) (ha : a < 2) (harr : arr < 2)
    (hs : sh < 2) : (s.swapArray d a).tile e c arr sh =
      if e = d ∧ arr = a then s.tile e c arr (1 - sh) else s.tile e c arr sh := by
  have hcells : ∀ n, n ≤ 64 → ∀ sh, sh < 2 → ((List.range n).foldl (fun t x => t.swapCell d a x) s).tile e c arr sh =
      if e = d ∧ arr = a ∧ c < n then s.tile e c arr (1 - sh) else s.tile e c arr sh := by
    intro n
    induction n with
    | zero => intro _ sh _; rw [if_neg (by omega)]; rfl
    | succ n ih =>
      intro hn sh hs
      have ih := ih (by omega)
      rw [List.range_succ, List.foldl_append, List.foldl_cons, List.foldl_nil, State.tile_swapCell _ (by omega) hc ha harr hs,
        ih (1 - sh) (by omega), ih sh hs]
      by_cases hx : e = d ∧ arr = a
      · rcases Nat.lt_trichotomy c n with h | h | h
        · simp [hx, h, h.ne, Nat.lt_succ_of_lt h]
        · simp [hx, h]
        · simp [hx, h.ne', h.not_gt, show ¬ c < n + 1 by omega]
      · rw [if_neg (fun h => hx ⟨h.1, h.2.1⟩), if_neg (fun h => hx ⟨h.1, h.2.1⟩), if_neg (fun h => hx ⟨h.1, h.2.1⟩)]
  rw [State.swapArray_eq, State.tile_congr (State.spendShadow_tiles _ d a), hcells 64 le_rfl sh hs]
  simp only [hc, and_true]

/-- The arrays that an operation names are among array 0 and array 1. -/
theorem selArrays_lt {a : ArraySel} {arr : Nat} (h : arr ∈ selArrays a) : arr < 2 := by
  cases a <;> simp [selArrays] at h <;> omega

theorem selArrays_nodup (a : ArraySel) : (selArrays a).Nodup := by
  cases a <;> decide

end Sys2Proof.Machine
end

section
/-! SUPPORT. An MMA vector by vector: what it keeps as it goes on, and what it makes of one total (R87 to R93, R134, R181, R182). -/

namespace Sys2Proof.Machine

open Sys2Proof

/-! ### The vectors of an MMA -/

/-- The input vectors that an MMA brings to its arrays: cell, array and number of the vector (R181, R182). -/
def mmaVectors (i : Issue) (f : MmaF) : List (Nat × Nat × Nat) :=
  maskCells i.mask ×ˢ selArrays f.array ×ˢ List.range (f.nvec.val + 1)

theorem mem_mmaVectors {i : Issue} {f : MmaF} {x : Nat × Nat × Nat} : x ∈ mmaVectors i f ↔
    (x.1 < 64 ∧ i.mask.getLsbD x.1 = true) ∧ x.2.1 ∈ selArrays f.array ∧ x.2.2 < f.nvec.val + 1 := by
  obtain ⟨c, arr, j⟩ := x
  simp only [mmaVectors, List.mem_product, maskCells, List.mem_filter, List.mem_range]

theorem mmaVectors_nodup (i : Issue) (f : MmaF) : (mmaVectors i f).Nodup :=
  (List.nodup_range.filter _).product ((selArrays_nodup _).product List.nodup_range)

/-- One step of an MMA. -/
def State.mmaStep (d : DieId) (i : Issue) (f : MmaF) (s : State) (x : Nat × Nat × Nat) : State :=
  s.mmaVector d i f x.1 x.2.1 x.2.2

/-- An MMA is the fold of its steps. -/
theorem mmaCells_eq_steps (s : State) (d : DieId) (i : Issue) (f : MmaF) :
    (maskCells i.mask).foldl (fun t c => t.mmaCell d i f c) s = (mmaVectors i f).foldl (State.mmaStep d i f) s := by
  simp only [mmaVectors, SProd.sprod, List.product, List.foldl_flatMap, List.foldl_map, State.mmaStep, State.mmaCell]

/-- A fold of steps treats what belongs to one member x of a list without repetition as the step of x alone does, taken in a state
that keeps the invariant and what belongs to x. -/
theorem foldl_own {ι α : Type} {F : State → ι → State} {own : State → α} {I : State → Prop} {x : ι} {l : List ι}
    (hl : l.Nodup) (hx : x ∈ l) (hI : ∀ t, ∀ y ∈ l, I t → I (F t y))
    (hown : ∀ t, ∀ y ∈ l, y ≠ x → I t → own (F t y) = own t) {s : State} (hs : I s) :
    ∃ u, I u ∧ own u = own s ∧ own (l.foldl F s) = own (F u x) := by
  obtain ⟨l₁, l₂, rfl⟩ := List.append_of_mem hx
  obtain ⟨-, htail, hapart⟩ := List.nodup_append.1 hl
  have keep : ∀ (m : List ι) (t : State), (∀ y ∈ m, y ∈ l₁ ++ x :: l₂ ∧ y ≠ x) → I t →
      I (m.foldl F t) ∧ own (m.foldl F t) = own t := by
    intro m t hm ht
    refine List.foldlRecOn m F (motive := fun (v : State) => I v ∧ own v = own t) ⟨ht, rfl⟩ (fun v hv y hy => ?_)
    obtain ⟨hmem, hne⟩ := hm y hy
    exact ⟨hI v y hmem hv.1, (hown v y hmem hne hv.1).trans hv.2⟩
  obtain ⟨hu, hus⟩ := keep l₁ s (fun y hy => ⟨List.mem_append_left _ hy, hapart y hy x List.mem_cons_self⟩) hs
  refine ⟨l₁.foldl F s, hu, hus, ?_⟩
  rw [List.foldl_append, List.foldl_cons]
  refine (keep l₂ _ (fun y hy => ⟨List.mem_append_right _ (List.mem_cons_of_mem _ hy), ?_⟩) (hI _ x hx hu)).2
  rintro rfl
  exact (List.nodup_cons.1 htail).1 hy

/-! ### One promotion -/

/-- The row of totals of a vector is held in A16. -/
def State.mmaA16 (s : State) (d : DieId) (f : MmaF) (x : Nat × Nat × Nat) : Bool :=
  (s.mmaRow d f x.1 x.2.1 x.2.2).mode == .a16

/-- Where an MMA promotes column n of vector j. -/
def mmaPlace (f : MmaF) (a16 : Bool) (j n : Nat) : Nat :=
  totalAt f.tile.val f.shape a16 (f.row.val + j) (f.colgrp.val * 64 + n)

/-- The promotion of column n of vector j into a held total (R92, R134, R182). -/
def State.mmaPromoted (s : State) (d : DieId) (i : Issue) (f : MmaF) (h : TotalRow) (c arr : Nat) (x tile : List Num)
    (j n held : Nat) : Nat × Counts :=
  promote s.audit (h.mode == .a16) (h.mode == .a32Sr)
    (s.promDraw d c n (i.nominal + j / vectorsPerCycle f.wFmt f.inFmt + 14)
      (4 * arr + j % vectorsPerCycle f.wFmt f.inFmt) j h.chunks)
    (if f.acc && h.chunks != 0 then held else 0) (chunkSum (columnProducts x tile n))

theorem State.mmaTotal_eq (s : State) (d : DieId) (i : Issue) (f : MmaF) (h : TotalRow) (c arr : Nat) (x : List Num)
    (j n : Nat) :
    let a16 := h.mode == .a16
    let p := s.mmaPromoted d i f h c arr x (s.tile d c arr 0) j n (s.total d c arr (mmaPlace f a16 j n) a16)
    s.mmaTotal d i f h c arr x j n = (s.setTotal d c arr (mmaPlace f a16 j n) a16 p.1).count d p.2 := rfl

/-- What a promotion answers is named by what an MMA keeps. -/
theorem State.mmaPromoted_of_arrayFrame {s t : State} {d : DieId} (h : t.arrayFrame d = s.arrayFrame d) (i : Issue) (f : MmaF)
    (r : TotalRow) (c arr : Nat) (x tile : List Num) (j n held : Nat) :
    t.mmaPromoted d i f r c arr x tile j n held = s.mmaPromoted d i f r c arr x tile j n held := by
  unfold State.mmaPromoted
  rw [State.audit_of_arrayFrame h, State.promDraw_of_arrayFrame h]

theorem State.mmaPromoted_lt (s : State) (d : DieId) (i : Issue) (f : MmaF) (h : TotalRow) (c arr : Nat) (x tile : List Num)
    (j n : Nat) {held : Nat} (hh : held < 256 ^ totalBytes (h.mode == .a16)) :
    (s.mmaPromoted d i f h c arr x tile j n held).1 < 256 ^ totalBytes (h.mode == .a16) := by
  refine promote_lt _ _ _ _ _ ?_
  split
  · exact hh
  · positivity

/-! ### What an MMA keeps as it goes on -/

/-- What the steps of an MMA keep of a state: all that it reads but the totals, its tiles, and how each row is held. -/
structure MmaKeeps (d : DieId) (f : MmaF) (s t : State) : Prop where
  frame : t.arrayFrame d = s.arrayFrame d
  tiles : t.cells.tiles = s.cells.tiles
  mode : ∀ c arr j, (t.mmaRow d f c arr j).mode = (s.mmaRow d f c arr j).mode

theorem MmaKeeps.refl (d : DieId) (f : MmaF) (s : State) : MmaKeeps d f s s := ⟨rfl, rfl, fun _ _ _ => rfl⟩

theorem MmaKeeps.trans {d : DieId} {f : MmaF} {s t u : State} (h : MmaKeeps d f s t) (h' : MmaKeeps d f t u) :
    MmaKeeps d f s u :=
  ⟨h'.frame.trans h.frame, h'.tiles.trans h.tiles, fun c arr j => (h'.mode c arr j).trans (h.mode c arr j)⟩

/-- How an MMA would open a row is not closed. -/
theorem mmaMode_ne_closed (f : MmaF) : mmaMode f ≠ .closed := by
  unfold mmaMode
  split
  · nofun
  · split <;> nofun

/-- A row of an MMA is open. -/
theorem State.mmaRow_mode_ne_closed (s : State) (d : DieId) (f : MmaF) (c arr j : Nat) :
    (s.mmaRow d f c arr j).mode ≠ .closed := by
  unfold State.mmaRow
  dsimp only
  split
  · next h => simpa using (Bool.and_eq_true_iff.1 h).2
  · exact mmaMode_ne_closed f

/-- The row of totals of an MMA is a matter of the row's record. -/
theorem State.mmaRow_congr {s t : State} {d : DieId} {f : MmaF} {c arr j : Nat}
    (h : t.totalRow d c arr f.tile.val f.colgrp.val (f.row.val + j) = s.totalRow d c arr f.tile.val f.colgrp.val (f.row.val + j)) :
    t.mmaRow d f c arr j = s.mmaRow d f c arr j := by
  unfold State.mmaRow; rw [h]

/-- The format and rounding of a row of an MMA (R91, R93). -/
theorem State.mmaRow_mode (s : State) (d : DieId) (f : MmaF) (c arr j : Nat) : (s.mmaRow d f c arr j).mode =
    if f.acc = true ∧ (s.totalRow d c arr f.tile.val f.colgrp.val (f.row.val + j)).mode ≠ .closed then
      (s.totalRow d c arr f.tile.val f.colgrp.val (f.row.val + j)).mode
    else mmaMode f := by
  unfold State.mmaRow
  simp only [Bool.and_eq_true, bne_iff_ne]
  split <;> rfl

/-- A promotion keeps all that the MMA reads but totals. -/
theorem mmaTotal_keeps (s : State) (d : DieId) (i : Issue) (f : MmaF) (h : TotalRow) (c arr : Nat) (x : List Num)
    (j n : Nat) : (s.mmaTotal d i f h c arr x j n).arrayFrame d = s.arrayFrame d ∧
      (s.mmaTotal d i f h c arr x j n).cells = s.cells := by
  rw [State.mmaTotal_eq]
  exact ⟨(arrayFrame_count _ _ _ _).trans (arrayFrame_setTotal _ _ _ _ _ _ _ _), rfl⟩

/-- The promotions of one vector. -/
def State.mmaColumns (s : State) (d : DieId) (i : Issue) (f : MmaF) (c arr j : Nat) : State :=
  (List.range 64).foldl (fun t n => t.mmaTotal d i f (s.mmaRow d f c arr j) c arr (s.inputVector d f c j) j n) s

theorem State.mmaVector_eq (s : State) (d : DieId) (i : Issue) (f : MmaF) (c arr j : Nat) :
    s.mmaVector d i f c arr j = (s.mmaColumns d i f c arr j).setTotalRow d c arr f.tile.val f.colgrp.val (f.row.val + j)
      { s.mmaRow d f c arr j with chunks := (s.mmaRow d f c arr j).chunks + 1 } := rfl

theorem State.mmaVector_acc (s : State) (d : DieId) (i : Issue) (f : MmaF) (c arr j : Nat) :
    (s.mmaVector d i f c arr j).mem.acc = (s.mmaColumns d i f c arr j).mem.acc := by
  rw [State.mmaVector_eq, State.setTotalRow_acc]

theorem mmaColumns_keeps (s : State) (d : DieId) (i : Issue) (f : MmaF) (c arr j : Nat) :
    (s.mmaColumns d i f c arr j).arrayFrame d = s.arrayFrame d ∧ (s.mmaColumns d i f c arr j).cells = s.cells := by
  unfold State.mmaColumns
  refine List.foldlRecOn _ _ (motive := fun (t : State) => t.arrayFrame d = s.arrayFrame d ∧ t.cells = s.cells) ⟨rfl, rfl⟩
    (fun t ht n _ => ?_)
  obtain ⟨hf, hc⟩ := mmaTotal_keeps t d i f (s.mmaRow d f c arr j) c arr (s.inputVector d f c j) j n
  exact ⟨hf.trans ht.1, hc.trans ht.2⟩

/-- The record of a row after a vector has entered an array. -/
theorem State.totalRow_mmaVector (s : State) (d : DieId) (i : Issue) (f : MmaF) (c arr j c' arr' row : Nat) :
    (s.mmaVector d i f c arr j).totalRow d c' arr' f.tile.val f.colgrp.val row =
      if rowKey d c' arr' f.tile.val f.colgrp.val row = rowKey d c arr f.tile.val f.colgrp.val (f.row.val + j) then
        { s.mmaRow d f c arr j with chunks := (s.mmaRow d f c arr j).chunks + 1 }
      else s.totalRow d c' arr' f.tile.val f.colgrp.val row := by
  rw [State.mmaVector_eq, State.totalRow_setTotalRow, State.totalRow_congr (mmaColumns_keeps s d i f c arr j).2]

/-- A row whose record says how an MMA holds it is held so by the MMA. -/
theorem State.mmaRow_mode_of_record {s t : State} {d : DieId} {f : MmaF} {c arr j : Nat}
    (h : (t.totalRow d c arr f.tile.val f.colgrp.val (f.row.val + j)).mode = (s.mmaRow d f c arr j).mode) :
    (t.mmaRow d f c arr j).mode = (s.mmaRow d f c arr j).mode := by
  rw [State.mmaRow_mode, h]
  split
  · rfl
  · next hn =>
    have hacc : ¬ f.acc = true := fun ha => hn ⟨ha, s.mmaRow_mode_ne_closed d f c arr j⟩
    rw [State.mmaRow_mode, if_neg (fun hc => hacc hc.1)]

theorem mmaKeeps_mmaVector (s : State) (d : DieId) (i : Issue) (f : MmaF) (c arr j : Nat) :
    MmaKeeps d f s (s.mmaVector d i f c arr j) := by
  obtain ⟨hf, hc⟩ := mmaColumns_keeps s d i f c arr j
  refine ⟨?frame, ?tiles, fun c' arr' j' => ?mode⟩
  case frame => rw [State.mmaVector_eq, arrayFrame_setTotalRow, hf]
  case tiles => rw [State.mmaVector_eq, State.setTotalRow_tiles, hc]
  case mode =>
    have hrow := s.totalRow_mmaVector d i f c arr j c' arr' (f.row.val + j')
    split at hrow
    · next hk =>
      have hsame : s.mmaRow d f c' arr' j' = s.mmaRow d f c arr j := by
        unfold State.mmaRow State.totalRow; rw [hk]
      exact State.mmaRow_mode_of_record (by rw [hrow, hsame])
    · rw [State.mmaRow_congr hrow]

end Sys2Proof.Machine
end

section
/-! O13: an MMA promotes one chunk into each total of its rows and columns, and leaves everything else alone but its tiles (R91, R93,
R180, R182). -/

namespace Sys2Proof.Machine

open Sys2Proof

/-! ### The totals that an MMA reaches -/

/-- An MMA of a defined form whose rows fit and are held, in each array of each enabled cell, in one format (R91, R96, R181). -/
structure MmaRuns (s : State) (d : DieId) (i : Issue) (f : MmaF) : Prop where
  defined : mmaDefined f = true
  fits : s.mmaFits d i f = true
  oneFormat : ∀ c, c < 64 → i.mask.getLsbD c = true → ∀ arr ∈ selArrays f.array, ∀ j, j ≤ f.nvec.val →
    ((s.mmaRow d f c arr j).mode = .a16 ↔ (s.mmaRow d f c arr 0).mode = .a16)

theorem shapeRows_le (sh : Shape) : shapeRows sh ≤ 128 := by cases sh <;> decide

theorem shapeCols_groups (sh : Shape) : shapeCols sh / 64 * 64 = shapeCols sh := by cases sh <;> rfl

/-- Where column n of the row of a vector lies in accumulator memory, in the format in which the row is held. -/
def State.mmaKey (s : State) (d : DieId) (f : MmaF) (x : Nat × Nat × Nat) (n : Nat) : Nat :=
  accKey d x.1 x.2.1 (mmaPlace f (s.mmaA16 d f x) x.2.2 n)

/-- The total of column n of the row of a vector, where s tells in which format the row is held. -/
def State.heldAt (t s : State) (d : DieId) (f : MmaF) (x : Nat × Nat × Nat) (n : Nat) : Nat :=
  t.total d x.1 x.2.1 (mmaPlace f (s.mmaA16 d f x) x.2.2 n) (s.mmaA16 d f x)

theorem State.heldAt_congr {t u s : State} (h : t.mem.acc = u.mem.acc) {d : DieId} {f : MmaF} {x : Nat × Nat × Nat} {n : Nat} :
    t.heldAt s d f x n = u.heldAt s d f x n :=
  State.total_congr h _ _ _ _ _

/-- What belongs to a vector: the record of its row, and the total of a column n of it. -/
def State.ownOf (t s : State) (d : DieId) (f : MmaF) (x : Nat × Nat × Nat) (n : Nat) : TotalRow × Nat :=
  (t.totalRow d x.1 x.2.1 f.tile.val f.colgrp.val (f.row.val + x.2.2), t.heldAt s d f x n)

/-- A promotion of a vector writes what it answers. -/
theorem heldAt_mmaTotal_self (s u : State) (d : DieId) (i : Issue) (f : MmaF) {x : Nat × Nat × Nat} {n : Nat} {r : TotalRow}
    (v : List Num) (hmode : r.mode = (s.mmaRow d f x.1 x.2.1 x.2.2).mode) :
    (u.mmaTotal d i f r x.1 x.2.1 v x.2.2 n).heldAt s d f x n =
      (u.mmaPromoted d i f r x.1 x.2.1 v (u.tile d x.1 x.2.1 0) x.2.2 n (u.heldAt s d f x n)).1 := by
  rw [State.mmaTotal_eq, State.heldAt_congr (congrArg MemState.acc (State.count_mem _ _ _))]
  unfold State.heldAt State.mmaA16
  rw [← hmode]
  exact State.total_setTotal_self _ _ _ _ _ _ (State.mmaPromoted_lt _ _ _ _ _ _ _ _ _ _ _ (State.total_lt _ _ _ _ _ _))

/-- What an MMA makes of the record of a vector's row and of the total held in a column of it, with a tile (R91, R92, R104). -/
def State.mmaOutcome (s : State) (d : DieId) (i : Issue) (f : MmaF) (r : TotalRow) (x : Nat × Nat × Nat) (tile : List Num)
    (n held : Nat) : TotalRow × Nat :=
  ({ r with chunks := r.chunks + 1 },
    (s.mmaPromoted d i f r x.1 x.2.1 (s.inputVector d f x.1 x.2.2) tile x.2.2 n held).1)

theorem State.mmaOutcome_of_arrayFrame {s t : State} {d : DieId} (h : t.arrayFrame d = s.arrayFrame d) (i : Issue) (f : MmaF)
    (r : TotalRow) (x : Nat × Nat × Nat) (tile : List Num) (n held : Nat) :
    t.mmaOutcome d i f r x tile n held = s.mmaOutcome d i f r x tile n held := by
  unfold State.mmaOutcome
  rw [State.mmaPromoted_of_arrayFrame h, State.inputVector_of_arrayFrame h]

section
variable {s : State} {d : DieId} {i : Issue} {f : MmaF} (hr : MmaRuns s d i f)
include hr

/-- An MMA's rows and columns lie in its tile. -/
theorem MmaRuns.inTile : f.row.val + f.nvec.val + 1 ≤ shapeRows f.shape ∧
    ∀ n, n < 64 → f.colgrp.val * 64 + n < shapeCols f.shape := by
  have h := hr.defined
  simp only [mmaDefined, Bool.and_eq_true, decide_eq_true_eq] at h
  obtain ⟨⟨⟨⟨⟨-, hrows⟩, hcols⟩, -⟩, -⟩, -⟩ := h
  have := shapeCols_groups f.shape
  exact ⟨hrows, fun n hn => by omega⟩

/-- The totals of a vector lie in its array's accumulator. -/
theorem MmaRuns.place_fits {x : Nat × Nat × Nat} (hx : x ∈ mmaVectors i f) {n : Nat} (hn : n < 64) :
    mmaPlace f (s.mmaA16 d f x) x.2.2 n + totalBytes (s.mmaA16 d f x) ≤ 131072 := by
  obtain ⟨⟨hc, hm⟩, harr, hj⟩ := mem_mmaVectors.1 hx
  obtain ⟨hrow, hcol⟩ := hr.inTile
  have hfit := hr.fits
  simp only [State.mmaFits, List.all_eq_true, maskCells, List.mem_filter, List.mem_range] at hfit
  exact totalAt_fits (hfit x.1 ⟨hc, hm⟩ x.2.1 harr x.2.2 hj) (by omega) (hcol n hn)

/-- Two vectors of one array of one cell go to rows of one format. -/
theorem MmaRuns.sameFormat {c arr j k : Nat} (hj : (c, arr, j) ∈ mmaVectors i f) (hk : (c, arr, k) ∈ mmaVectors i f) :
    s.mmaA16 d f (c, arr, j) = s.mmaA16 d f (c, arr, k) := by
  obtain ⟨⟨hc, hm⟩, harr, hj⟩ := mem_mmaVectors.1 hj
  obtain ⟨-, -, hk⟩ := mem_mmaVectors.1 hk
  have h := (hr.oneFormat c hc hm arr harr j (Nat.le_of_lt_succ hj)).trans
    (hr.oneFormat c hc hm arr harr k (Nat.le_of_lt_succ hk)).symm
  unfold State.mmaA16
  rw [Bool.eq_iff_iff, beq_iff_eq, beq_iff_eq]
  exact h

/-- Different totals of an MMA lie apart. -/
theorem MmaRuns.apart {x y : Nat × Nat × Nat} (hx : x ∈ mmaVectors i f) (hy : y ∈ mmaVectors i f) {n m : Nat} (hn : n < 64)
    (hm : m < 64) (h : (x, n) ≠ (y, m)) :
    s.mmaKey d f x n + totalBytes (s.mmaA16 d f x) ≤ s.mmaKey d f y m ∨
      s.mmaKey d f y m + totalBytes (s.mmaA16 d f y) ≤ s.mmaKey d f x n := by
  have hxa := selArrays_lt (mem_mmaVectors.1 hx).2.1
  have hya := selArrays_lt (mem_mmaVectors.1 hy).2.1
  by_cases hca : (x.1, x.2.1) = (y.1, y.2.1)
  · obtain ⟨c, arr, j⟩ := x
    obtain ⟨c', arr', k⟩ := y
    obtain ⟨rfl, rfl⟩ : c = c' ∧ arr = arr' := Prod.mk.inj hca
    have hcell : (f.row.val + j, f.colgrp.val * 64 + n) ≠ (f.row.val + k, f.colgrp.val * 64 + m) := by
      intro e
      obtain ⟨hrow, hcol⟩ := Prod.mk.inj e
      exact h (by rw [Nat.add_left_cancel hrow, Nat.add_left_cancel hcol])
    have := totalAt_apart f.tile.val f.shape (s.mmaA16 d f (c, arr, k)) (hr.inTile.2 n hn) (hr.inTile.2 m hm) hcell
    simp only [State.mmaKey, mmaPlace, accKey, hr.sameFormat hx hy]
    omega
  · exact accKey_apart d hxa hya (hr.place_fits hx hn) (hr.place_fits hy hm) hca

/-- Different vectors of an MMA have rows with different keys. -/
theorem MmaRuns.rowKey_ne {c c' arr arr' j k : Nat} (hx : (c, arr, j) ∈ mmaVectors i f) (hy : (c', arr', k) ∈ mmaVectors i f)
    (h : (c, arr, j) ≠ (c', arr', k)) : rowKey d c arr f.tile.val f.colgrp.val (f.row.val + j) ≠
      rowKey d c' arr' f.tile.val f.colgrp.val (f.row.val + k) := by
  obtain ⟨-, harr, hj⟩ := mem_mmaVectors.1 hx
  obtain ⟨-, harr', hk⟩ := mem_mmaVectors.1 hy
  have hrows := hr.inTile.1.trans (shapeRows_le f.shape)
  dsimp only at hj hk
  intro e
  obtain ⟨rfl, rfl, hrow⟩ := rowKey_inj (selArrays_lt harr) (selArrays_lt harr') (by omega) (by omega) e
  exact h (by rw [Nat.add_left_cancel hrow])

/-! ### One vector -/

/-- A promotion of a vector leaves every other total of the MMA alone. -/
theorem MmaRuns.held_mmaTotal_ne (t : State) {x y : Nat × Nat × Nat} {n m : Nat} {r : TotalRow} (v : List Num)
    (hx : x ∈ mmaVectors i f) (hy : y ∈ mmaVectors i f) (hn : n < 64) (hm : m < 64) (hne : (x, n) ≠ (y, m))
    (hmode : r.mode = (s.mmaRow d f y.1 y.2.1 y.2.2).mode) :
    (t.mmaTotal d i f r y.1 y.2.1 v y.2.2 m).heldAt s d f x n = t.heldAt s d f x n := by
  have hapart := hr.apart hx hy hn hm hne
  unfold State.mmaKey State.mmaA16 at hapart
  rw [← hmode] at hapart
  rw [State.mmaTotal_eq, State.heldAt_congr (congrArg MemState.acc (State.count_mem _ _ _))]
  exact State.total_setTotal_apart t d _ hapart

/-- The step of a vector leaves the record and the totals of every other vector's row alone. -/
theorem MmaRuns.own_mmaStep_ne {t : State} (ht : MmaKeeps d f s t) {x y : Nat × Nat × Nat} {n : Nat} (hx : x ∈ mmaVectors i f)
    (hy : y ∈ mmaVectors i f) (hn : n < 64) (hne : y ≠ x) :
    (State.mmaStep d i f t y).ownOf s d f x n = t.ownOf s d f x n := by
  have hcols : (t.mmaColumns d i f y.1 y.2.1 y.2.2).heldAt s d f x n = t.heldAt s d f x n := by
    unfold State.mmaColumns
    refine List.foldlRecOn _ _ (motive := fun (u : State) => u.heldAt s d f x n = t.heldAt s d f x n) rfl (fun u hu m hm => ?_)
    rw [hr.held_mmaTotal_ne u _ hx hy hn (List.mem_range.1 hm) (fun e => hne (Prod.mk.inj e).1.symm) (ht.mode _ _ _), hu]
  unfold State.ownOf State.mmaStep
  rw [State.totalRow_mmaVector, if_neg (hr.rowKey_ne hx hy hne.symm), State.heldAt_congr (State.mmaVector_acc _ _ _ _ _ _ _),
    hcols]

/-- The promotions of a vector make each of its row's totals the promotion into it. -/
theorem MmaRuns.held_mmaColumns_self {t : State} (ht : MmaKeeps d f s t) {x : Nat × Nat × Nat} {n : Nat}
    (hx : x ∈ mmaVectors i f) (hn : n < 64) : (t.mmaColumns d i f x.1 x.2.1 x.2.2).heldAt s d f x n =
      (s.mmaPromoted d i f (t.mmaRow d f x.1 x.2.1 x.2.2) x.1 x.2.1 (s.inputVector d f x.1 x.2.2) (s.tile d x.1 x.2.1 0) x.2.2 n
        (t.heldAt s d f x n)).1 := by
  have hmode := ht.mode x.1 x.2.1 x.2.2
  generalize hrow : t.mmaRow d f x.1 x.2.1 x.2.2 = r at hmode
  unfold State.mmaColumns
  rw [hrow, State.inputVector_of_arrayFrame ht.frame]
  obtain ⟨u, ⟨hframe, htiles⟩, hus, hcol⟩ := foldl_own (own := fun u => State.heldAt u s d f x n)
    (F := fun u m => State.mmaTotal u d i f r x.1 x.2.1 (s.inputVector d f x.1 x.2.2) x.2.2 m)
    (I := fun u => u.arrayFrame d = s.arrayFrame d ∧ u.cells.tiles = s.cells.tiles) List.nodup_range (List.mem_range.2 hn)
    (fun u m _ hu => (mmaTotal_keeps u d i f r x.1 x.2.1 _ x.2.2 m).imp (·.trans hu.1)
      fun hc => (congrArg CellState.tiles hc).trans hu.2)
    (fun u m hm hne _ => hr.held_mmaTotal_ne u _ hx hx hn (List.mem_range.1 hm) (fun e => hne (Prod.mk.inj e).2.symm) hmode)
    (s := t) ⟨ht.frame, ht.tiles⟩
  rw [hcol, ← hus, ← State.mmaPromoted_of_arrayFrame hframe, ← State.tile_congr htiles]
  exact heldAt_mmaTotal_self s u d i f _ hmode

/-- The step of a vector adds one chunk to its row, and makes each of the row's totals the promotion into it. -/
theorem MmaRuns.own_mmaStep_self {t : State} (ht : MmaKeeps d f s t) {x : Nat × Nat × Nat} {n : Nat} (hx : x ∈ mmaVectors i f)
    (hn : n < 64) : (State.mmaStep d i f t x).ownOf s d f x n =
      s.mmaOutcome d i f (t.mmaRow d f x.1 x.2.1 x.2.2) x (s.tile d x.1 x.2.1 0) n (t.heldAt s d f x n) := by
  unfold State.ownOf State.mmaStep State.mmaOutcome
  rw [State.totalRow_mmaVector, if_pos rfl, State.heldAt_congr (State.mmaVector_acc _ _ _ _ _ _ _),
    hr.held_mmaColumns_self ht hx hn]

/-- A step writes the accumulator of its own cell only. -/
theorem MmaRuns.read_mmaStep {t : State} (ht : MmaKeeps d f s t) {y : Nat × Nat × Nat} (hy : y ∈ mmaVectors i f) {c arr b : Nat}
    (harr : arr < 2) (hb : b < 131072) (hc : i.mask.getLsbD c = false) :
    (State.mmaStep d i f t y).mem.acc.read (accKey d c arr b) = t.mem.acc.read (accKey d c arr b) := by
  have hne : (c, arr) ≠ (y.1, y.2.1) := by
    rintro ⟨⟩
    exact Bool.false_ne_true (hc.symm.trans (mem_mmaVectors.1 hy).1.2)
  unfold State.mmaStep
  rw [State.mmaVector_acc]
  unfold State.mmaColumns
  refine List.foldlRecOn _ _ (motive := fun (u : State) => u.mem.acc.read (accKey d c arr b) = t.mem.acc.read (accKey d c arr b))
    rfl (fun u hu m hm => ?_)
  have hfit := hr.place_fits hy (List.mem_range.1 hm)
  unfold State.mmaA16 at hfit
  rw [← ht.mode] at hfit
  have hapart := accKey_apart d (n := 1) harr (selArrays_lt (mem_mmaVectors.1 hy).2.1) hb hfit hne
  rw [State.mmaTotal_eq, State.count_mem, State.read_setTotal_apart _ _ _ hapart, hu]

/-- What belongs to a vector after the whole MMA is what its own step makes of it. -/
theorem MmaRuns.own_steps {x : Nat × Nat × Nat} {n : Nat} (hx : x ∈ mmaVectors i f) (hn : n < 64) :
    ((mmaVectors i f).foldl (State.mmaStep d i f) s).ownOf s d f x n =
      s.mmaOutcome d i f (s.mmaRow d f x.1 x.2.1 x.2.2) x (s.tile d x.1 x.2.1 0) n (s.heldAt s d f x n) := by
  obtain ⟨u, hu, hus, hown⟩ := foldl_own (own := fun t => State.ownOf t s d f x n) (F := State.mmaStep d i f)
    (I := MmaKeeps d f s) (mmaVectors_nodup i f) hx (fun t y _ ht => ht.trans (mmaKeeps_mmaVector _ _ _ _ _ _ _))
    (fun t y hy hne ht => hr.own_mmaStep_ne ht hx hy hn hne) (MmaKeeps.refl d f s)
  obtain ⟨hrow, hheld⟩ := Prod.mk.inj hus
  rw [hown, hr.own_mmaStep_self hu hx hn, State.mmaRow_congr hrow, hheld]

/-- An MMA leaves the accumulators of disabled cells alone. -/
theorem MmaRuns.read_steps {c arr b : Nat} (harr : arr < 2) (hb : b < 131072) (hc : i.mask.getLsbD c = false) :
    ((mmaVectors i f).foldl (State.mmaStep d i f) s).mem.acc.read (accKey d c arr b) = s.mem.acc.read (accKey d c arr b) :=
  (List.foldlRecOn _ _ (motive := fun (t : State) => MmaKeeps d f s t ∧
      t.mem.acc.read (accKey d c arr b) = s.mem.acc.read (accKey d c arr b)) ⟨MmaKeeps.refl d f s, rfl⟩
    (fun _ ⟨hkeeps, hread⟩ _ hy =>
      ⟨hkeeps.trans (mmaKeeps_mmaVector _ _ _ _ _ _ _), (hr.read_mmaStep hkeeps hy harr hb hc).trans hread⟩)).2

end

/-- The steps of an MMA keep what each of them keeps. -/
theorem mmaKeeps_steps (s : State) (d : DieId) (i : Issue) (f : MmaF) (l : List (Nat × Nat × Nat)) :
    MmaKeeps d f s (l.foldl (State.mmaStep d i f) s) :=
  List.foldlRecOn _ _ (motive := fun (t : State) => MmaKeeps d f s t) (MmaKeeps.refl d f s)
    (fun _ ht _ _ => ht.trans (mmaKeeps_mmaVector _ _ _ _ _ _ _))

/-! ### From the start to the completion -/

/-- The state in which the vectors of an MMA begin to enter its arrays: tiles swapped, errors of its accesses corrected. -/
def State.mmaReady (s : State) (d : DieId) (i : Issue) (f : MmaF) : State :=
  (s.mmaSwap d f).correctTouches d ((maskCells i.mask).flatMap (mmaTouches f))

theorem swapArray_keeps (s : State) (d x : DieId) (a : Nat) : (s.swapArray d a).arrayFrame x = s.arrayFrame x ∧
    (s.swapArray d a).mem = s.mem ∧ (s.swapArray d a).cells.totalRows = s.cells.totalRows := by
  rw [State.swapArray_eq]
  exact List.foldlRecOn _ _ (motive := fun (t : State) => (t.spendShadow d a).arrayFrame x = s.arrayFrame x ∧
    (t.spendShadow d a).mem = s.mem ∧ (t.spendShadow d a).cells.totalRows = s.cells.totalRows) ⟨rfl, rfl, rfl⟩ (fun _ ht _ _ => ht)

theorem mmaSwap_keeps (s : State) (d x : DieId) (f : MmaF) : (s.mmaSwap d f).arrayFrame x = s.arrayFrame x ∧
    (s.mmaSwap d f).mem = s.mem ∧ (s.mmaSwap d f).cells.totalRows = s.cells.totalRows := by
  unfold State.mmaSwap
  split
  · refine List.foldlRecOn _ _ (motive := fun (t : State) => t.arrayFrame x = s.arrayFrame x ∧ t.mem = s.mem ∧
      t.cells.totalRows = s.cells.totalRows) ⟨rfl, rfl, rfl⟩ (fun t ht a _ => ?_)
    obtain ⟨hf, hm, hrows⟩ := swapArray_keeps t d x a
    exact ⟨hf.trans ht.1, hm.trans ht.2.1, hrows.trans ht.2.2⟩
  · exact ⟨rfl, rfl, rfl⟩

/-- The tiles of several arrays, exchanged. -/
theorem tile_swapArrays (s : State) {d e : DieId} {c arr sh : Nat} {l : List Nat} (hl : l.Nodup) (hlt : ∀ a ∈ l, a < 2)
    (hc : c < 64) (harr : arr < 2) (hs : sh < 2) : (l.foldl (fun t a => t.swapArray d a) s).tile e c arr sh =
      if e = d ∧ arr ∈ l then s.tile e c arr (1 - sh) else s.tile e c arr sh := by
  induction l generalizing s with
  | nil => simp
  | cons a l ih =>
    obtain ⟨ha, hl⟩ := List.nodup_cons.1 hl
    have halt := hlt a List.mem_cons_self
    rw [List.foldl_cons, ih _ hl (fun b hb => hlt b (List.mem_cons_of_mem _ hb)), State.tile_swapArray s hc halt harr hs,
      State.tile_swapArray s hc halt harr (by omega)]
    by_cases harr : arr = a
    · subst harr; simp [ha]
    · simp [harr]

/-- The tiles after the swap of an MMA (R180, R182). -/
theorem tile_mmaSwap (s : State) {d e : DieId} (f : MmaF) {c arr sh : Nat} (hc : c < 64) (harr : arr < 2) (hs : sh < 2) :
    (s.mmaSwap d f).tile e c arr sh =
      if f.swap = true ∧ e = d ∧ arr ∈ selArrays f.array then s.tile e c arr (1 - sh) else s.tile e c arr sh := by
  unfold State.mmaSwap
  split
  · next h => simp only [h, true_and]; exact tile_swapArrays s (selArrays_nodup _) (fun _ => selArrays_lt) hc harr hs
  · next h => rw [if_neg (fun hx => h hx.1)]

/-- What a state u in which an MMA begins has of the state s from which it starts: all but the tiles, which it may have swapped. -/
structure MmaStarts (d : DieId) (f : MmaF) (s u : State) : Prop where
  frame : u.arrayFrame d = s.arrayFrame d
  acc : u.mem.acc = s.mem.acc
  rows : u.cells.totalRows = s.cells.totalRows
  tile : ∀ e c arr sh, c < 64 → arr < 2 → sh < 2 → u.tile e c arr sh =
    if f.swap = true ∧ e = d ∧ arr ∈ selArrays f.array then s.tile e c arr (1 - sh) else s.tile e c arr sh

/-- An MMA starts from a state as it does from one with the same cells, accumulators and frame. -/
theorem MmaStarts.of_begin {d : DieId} {f : MmaF} {s b u : State} (h : MmaStarts d f b u) (hf : b.arrayFrame d = s.arrayFrame d)
    (hm : b.mem = s.mem) (hc : b.cells = s.cells) : MmaStarts d f s u := by
  refine ⟨h.frame.trans hf, h.acc.trans (congrArg MemState.acc hm), h.rows.trans (congrArg CellState.totalRows hc), ?_⟩
  have htile : b.tile = s.tile := by
    funext e c arr sh
    exact State.tile_congr (congrArg CellState.tiles hc) e c arr sh
  rw [← htile]
  exact h.tile

theorem mmaStarts_mmaReady (s : State) (d : DieId) (i : Issue) (f : MmaF) : MmaStarts d f s (s.mmaReady d i f) := by
  obtain ⟨hf, hm, hrows⟩ := mmaSwap_keeps s d d f
  obtain ⟨hf', ha, hc⟩ := (s.mmaSwap d f).correctTouches_keeps d d ((maskCells i.mask).flatMap (mmaTouches f))
  refine ⟨hf'.trans hf, ha.trans (congrArg MemState.acc hm), (congrArg CellState.totalRows hc).trans hrows, ?_⟩
  intro e c arr sh hcell harr hs
  rw [← tile_mmaSwap s f hcell harr hs]
  exact State.tile_congr (congrArg CellState.tiles hc) _ _ _ _

/-- An MMA that runs and whose accesses raise no fault has its effect (R182, R205). -/
theorem MmaRuns.effMma {s : State} {d : DieId} {i : Issue} {f : MmaF} (hr : MmaRuns s d i f)
    (ht : s.touchesTrip d ((maskCells i.mask).flatMap (mmaTouches f)) = none) :
    effMma s d i f = .ok ((mmaVectors i f).foldl (State.mmaStep d i f) (s.mmaReady d i f)).drawn := by
  have htrip : (s.mmaSwap d f).touchesTrip d ((maskCells i.mask).flatMap (mmaTouches f)) = none :=
    (State.touchesTrip_congr (mmaSwap_keeps s d d f).2.1 d _).trans ht
  unfold Machine.effMma State.broadcast
  simp only [hr.defined, hr.fits, Bool.and_self, if_true, htrip, mmaCells_eq_steps, State.mmaReady]

theorem MmaRuns.congr {s t : State} {d : DieId} {i : Issue} {f : MmaF} (h : t.cells.totalRows = s.cells.totalRows)
    (hr : MmaRuns s d i f) : MmaRuns t d i f := by
  have hrow : t.mmaRow d f = s.mmaRow d f := by
    funext c arr j
    unfold State.mmaRow State.totalRow; rw [h]
  obtain ⟨hdef, hfit, hone⟩ := hr
  refine ⟨hdef, ?_, by rwa [hrow]⟩
  unfold State.mmaFits at hfit ⊢
  rwa [hrow]

/-- An MMA as a command: its vectors enter from a state in which it starts, and its completion leaves what they leave. -/
theorem MmaRuns.exec {s : State} {d : DieId} {i : Issue} {f : MmaF} (hr : MmaRuns s d i f) (hi : i.hollow = false)
    (ht : s.touchesTrip d ((maskCells i.mask).flatMap (mmaTouches f)) = none) :
    ∃ u t, exec (.mma d i f) s = .next t ∧ MmaStarts d f s u ∧ t.arrayFrame d = s.arrayFrame d ∧
      t.mem = ((mmaVectors i f).foldl (State.mmaStep d i f) u).mem ∧
      t.cells = ((mmaVectors i f).foldl (State.mmaStep d i f) u).cells := by
  have hbegin := arrayFrame_beginOp s d d .a ⟨.mma f, i, none, none⟩ 0
  have hmem := s.beginOp_mem d .a ⟨.mma f, i, none, none⟩ 0
  have hcells := s.beginOp_cells d .a ⟨.mma f, i, none, none⟩ 0
  have hrun : s.runOp d .a i (.mma f) = _ := State.runOp_of_ok hi
    (by simp only [State.completesAtOnce, hi, Bool.or_self])
    (MmaRuns.effMma (s := s.beginOp d .a ⟨.mma f, i, none, none⟩ 0) (hr.congr (congrArg CellState.totalRows hcells))
      ((State.touchesTrip_congr hmem d _).trans ht))
  have hstart := (mmaStarts_mmaReady (s.beginOp d .a ⟨.mma f, i, none, none⟩ 0) d i f).of_begin hbegin hmem hcells
  generalize (s.beginOp d .a ⟨.mma f, i, none, none⟩ 0).mmaReady d i f = u at hrun hstart
  have hv := (mmaKeeps_steps u d i f (mmaVectors i f)).frame
  generalize hfold : (mmaVectors i f).foldl (State.mmaStep d i f) u = v at hrun hv
  obtain ⟨hf', hm, hc⟩ := v.drawn.settle_keeps d d s.fab.nextOp
  exact ⟨u, _, hrun, hstart, hf'.trans (hv.trans hstart.frame), hfold ▸ hm, hfold ▸ hc⟩

/-! ### The statement -/

/-- An MMA whose state of departure is u has in u the rows and totals that it had in s. -/
theorem MmaStarts.mmaRow {d : DieId} {f : MmaF} {s u : State} (h : MmaStarts d f s u) (c arr j : Nat) :
    u.mmaRow d f c arr j = s.mmaRow d f c arr j :=
  State.mmaRow_congr (by unfold State.totalRow; rw [h.rows])

/-- After an MMA a row of one of its vectors has one chunk more, and each of its totals is the promotion into it of the products with
the tile that is active after the swap (R92, R182). -/
theorem MmaRuns.own_start {s u : State} {d : DieId} {i : Issue} {f : MmaF} (hr : MmaRuns s d i f) (hu : MmaStarts d f s u)
    {x : Nat × Nat × Nat} {n : Nat} (hx : x ∈ mmaVectors i f) (hn : n < 64) :
    ((mmaVectors i f).foldl (State.mmaStep d i f) u).ownOf s d f x n =
      s.mmaOutcome d i f (s.mmaRow d f x.1 x.2.1 x.2.2) x (s.tile d x.1 x.2.1 (if f.swap then 1 else 0)) n
        (s.heldAt s d f x n) := by
  obtain ⟨⟨hc, -⟩, harr, -⟩ := mem_mmaVectors.1 hx
  have hown := (hr.congr hu.rows).own_steps hx hn
  have htile : u.tile d x.1 x.2.1 0 = s.tile d x.1 x.2.1 (if f.swap then 1 else 0) := by
    rw [hu.tile d x.1 x.2.1 0 hc (selArrays_lt harr) (by decide)]
    by_cases hswap : f.swap = true
    · rw [if_pos ⟨hswap, rfl, harr⟩, if_pos hswap]
    · rw [if_neg (fun h => hswap h.1), if_neg hswap]
  have hat : ∀ v : State, v.heldAt u d f x n = v.heldAt s d f x n := fun v => by
    unfold State.heldAt State.mmaA16; rw [hu.mmaRow]
  rw [hu.mmaRow, State.mmaOutcome_of_arrayFrame hu.frame, htile, hat, State.heldAt_congr hu.acc] at hown
  rw [← hown]
  unfold State.ownOf
  rw [hat]

/-- Settles O13: the MMA is a fold of steps, one for each vector of each array of each enabled cell; the step of a vector promotes into
its own row, the others leave that row alone, and no step changes what the promotions read beside their totals. -/
theorem mmaPromotesIntoTotals : Obligations.MmaPromotesIntoTotals := by
  unfold Obligations.MmaPromotesIntoTotals
  intro d i f s hi hdef hfit htrip hone
  have hr : MmaRuns s d i f := ⟨hdef, hfit, hone⟩
  obtain ⟨u, t, hexec, hu, hframe, hmem, hcells⟩ := hr.exec hi htrip
  refine ⟨t, hexec, ?totals, ?tiles, ?disabled, congrArg ArrayFrame.vregs hframe, congrArg ArrayFrame.sram hframe,
    congrArg ArrayFrame.hbm hframe, congrArg ArrayFrame.lpddr hframe, sameControl_of_arrayFrame hframe⟩
  case totals =>
    intro c hc hm arr harr j hj
    have hx : (c, arr, j) ∈ mmaVectors i f := mem_mmaVectors.2 ⟨⟨hc, hm⟩, harr, Nat.lt_succ_of_le hj⟩
    have hown := fun n hn => Prod.mk.inj (hr.own_start hu hx (n := n) hn)
    refine ⟨?_, s.mmaRow_mode d f c arr j, fun n hn => ?_⟩
    · rw [State.totalRow_congr hcells]
      exact (hown 0 (by decide)).1
    · have htotal := (hown n hn).2
      rw [← State.heldAt_congr (congrArg MemState.acc hmem)] at htotal
      simp only [State.mmaPromoted, Bool.and_eq_true, bne_iff_ne] at htotal
      exact htotal
  case tiles =>
    intro e c arr hc harr sh hs
    rw [State.tile_congr (congrArg CellState.tiles hcells), State.tile_congr (mmaKeeps_steps u d i f _).tiles]
    exact hu.tile e c arr sh hc harr hs
  case disabled =>
    intro c b arr _ harr hb hm
    rw [hmem, (hr.congr hu.rows).read_steps harr hb hm, hu.acc]

end Sys2Proof.Machine
end

section
/-! O12: a tile load makes its array's shadow pending and fills it in every enabled cell (R114, R178, R179, R180). -/

namespace Sys2Proof.Machine

open Sys2Proof

/-! ### Rows of 64 elements -/

/-- Rows of w elements, one after another, are one list over the places of the elements. -/
theorem flatMap_rows_eq_map {α : Type} (g : Nat → Nat → α) {w : Nat} (hw : 0 < w) (rows : Nat) :
    (List.range rows).flatMap (fun k => (List.range w).map (g k)) = (List.range (rows * w)).map (fun i => g (i / w) (i % w)) := by
  induction rows with
  | zero => simp
  | succ rows ih =>
    have hrow : (List.range w).map (g rows) =
        (List.range w).map (fun n => g ((rows * w + n) / w) ((rows * w + n) % w)) := by
      refine List.map_congr_left fun n hn => ?_
      have hlt := List.mem_range.1 hn
      rw [Nat.mul_comm, Nat.mul_add_div hw, Nat.mul_add_mod, Nat.div_eq_of_lt hlt, Nat.mod_eq_of_lt hlt, Nat.add_zero]
    rw [List.range_succ, List.flatMap_append, ih, List.flatMap_singleton, hrow, Nat.succ_mul, List.range_add, List.map_append,
      List.map_map]
    rfl

/-- Element (k, n) of a tile that is written row after row (R178). -/
theorem tileElem_rows (g : Nat → Nat → Num) {k n : Nat} (hk : k < 64) (hn : n < 64) :
    tileElem ((List.range 64).flatMap (fun r => (List.range 64).map (g r))) k n = g k n := by
  have hplace : k * 64 + n < 64 * 64 := by omega
  have hrow : (k * 64 + n) / 64 = k := by omega
  have hcol : (k * 64 + n) % 64 = n := by omega
  rw [flatMap_rows_eq_map g (by decide), tileElem, List.getD_eq_getElem?_getD, List.getElem?_map,
    List.getElem?_range hplace, Option.map_some, Option.getD_some, hrow, hcol]

theorem tileElem_transposeTile (t : List Num) {k n : Nat} (hk : k < 64) (hn : n < 64) :
    tileElem (transposeTile t) k n = tileElem t n k :=
  tileElem_rows (fun r c => tileElem t c r) hk hn

/-! ### The stored tile (R114, R178, R179) -/

theorem getD_unpackRow (w : Nat) (row : List Byte) {m n : Nat} (hn : n < m) : (unpackRow w m row).getD n 0 = elemAt w row n := by
  rw [unpackRow, List.getD_eq_getElem?_getD, List.getElem?_map, List.getElem?_range hn]
  rfl

/-- A byte of an SRAM read. -/
theorem getD_sramRead (s : State) (d : DieId) (c a : Nat) {m n : Nat} (hn : n < m) :
    (s.sramRead d c a m).getD n 0 = sramByte s d c (a + n) := by
  have hlen : n < (s.sramRead d c a m).length := by rwa [State.sramRead, Memory.length_readBytes]
  rw [List.getD_eq_getElem _ _ hlen]
  simp only [State.sramRead, Memory.getElem_readBytes, sramByte, sramKey, Nat.add_assoc]

/-- The scale byte of an element lies among those of its tile. -/
theorem scaleIndex_lt (b : Blk) {k n : Nat} (hk : k < 64) (hn : n < 64) :
    k * blkPerRow b + n * blkPerRow b / 64 < 64 * blkPerRow b := by
  cases b <;> simp only [blkPerRow] <;> omega

/-- Element (k, n) of the tile that a load finds in SRAM, with its block's scale for a block-scaled format. -/
def State.storedElem (s : State) (d : DieId) (f : TloadF) (c k n : Nat) : Num :=
  let code := elemAt (fmtWidth f.fmt) (s.sramRead d c (ptrSram f.src f.srcOff c + k * rowBytes f.fmt) (rowBytes f.fmt)) n
  if fmtBlocked f.fmt then
    scaledElem s.audit f.fmt code
      (sramByte s d c (ptrBytes f.sc f.scOff c + k * blkPerRow f.blk + n * blkPerRow f.blk / 64)).toNat
  else readElem s.audit f.fmt code

theorem tileElem_storedTile (s : State) (d : DieId) (f : TloadF) (c : Nat) {k n : Nat} (hk : k < 64) (hn : n < 64) :
    tileElem (s.storedTile d f c) k n = s.storedElem d f c k n := by
  unfold State.storedTile State.storedElem
  rw [tileElem_rows _ hk hn]
  dsimp only
  rw [getD_unpackRow _ _ hn]
  split
  · rw [getD_sramRead s d c _ (scaleIndex_lt f.blk hk hn), Nat.add_assoc]
  · rfl

/-- The tile that a load brings to a cell: the stored one, transposed under TLOAD.T (R114). -/
def State.loadedTile (s : State) (d : DieId) (tr : Bool) (f : TloadF) (c : Nat) : List Num :=
  if tr then transposeTile (s.storedTile d f c) else s.storedTile d f c

theorem tileElem_loadedTile (s : State) (d : DieId) (tr : Bool) (f : TloadF) (c : Nat) {k n : Nat} (hk : k < 64) (hn : n < 64) :
    tileElem (s.loadedTile d tr f c) (if tr then n else k) (if tr then k else n) = s.storedElem d f c k n := by
  unfold State.loadedTile
  cases tr with
  | false => exact tileElem_storedTile s d f c hk hn
  | true => exact (tileElem_transposeTile _ hn hk).trans (tileElem_storedTile s d f c hk hn)

/-- What a load brings is named by what array operations leave alone. -/
theorem State.loadedTile_of_arrayFrame {s t : State} {d : DieId} (h : t.arrayFrame d = s.arrayFrame d) (tr : Bool) (f : TloadF)
    (c : Nat) : t.loadedTile d tr f c = s.loadedTile d tr f c := by
  simp only [State.loadedTile, State.storedTile, State.sramRead, sram_of_arrayFrame h, State.audit_of_arrayFrame h]

/-! ### The cells of a load -/

theorem mem_maskCells {m : W64} {c : Nat} : c ∈ maskCells m ↔ c < 64 ∧ m.getLsbD c = true := by
  rw [maskCells, List.mem_filter, List.mem_range]

/-- One cell of a load takes its tile. -/
def State.tloadCell (d : DieId) (tr : Bool) (f : TloadF) (s : State) (c : Nat) : State :=
  s.setTile d c f.loader.val 1 (s.loadedTile d tr f c)

/-- The cells of a load change tiles only. -/
theorem tloadCells_keeps (s : State) (d x : DieId) (tr : Bool) (f : TloadF) (l : List Nat) :
    (l.foldl (State.tloadCell d tr f) s).arrayFrame x = s.arrayFrame x ∧ (l.foldl (State.tloadCell d tr f) s).mem = s.mem ∧
      (l.foldl (State.tloadCell d tr f) s).cells.pending = s.cells.pending :=
  List.foldlRecOn l _ (motive := fun (t : State) => t.arrayFrame x = s.arrayFrame x ∧ t.mem = s.mem ∧
    t.cells.pending = s.cells.pending) ⟨rfl, rfl, rfl⟩ (fun _ ht _ _ => ht)

/-- The tiles after the cells of a load: the shadows of its array in those cells hold what it brings. -/
theorem tile_tloadCells (s : State) {d e : DieId} (tr : Bool) (f : TloadF) {c arr sh : Nat} {l : List Nat}
    (hl : ∀ x ∈ l, x < 64) (hc : c < 64) (harr : arr < 2) (hs : sh < 2) :
    (l.foldl (State.tloadCell d tr f) s).tile e c arr sh =
      if e = d ∧ c ∈ l ∧ arr = f.loader.val ∧ sh = 1 then s.loadedTile d tr f c else s.tile e c arr sh := by
  induction l generalizing s with
  | nil => simp
  | cons x l ih =>
    rw [List.foldl_cons, ih _ (fun y hy => hl y (List.mem_cons_of_mem _ hy)),
      State.loadedTile_of_arrayFrame (s := s) (t := State.tloadCell d tr f s x) rfl, State.tloadCell,
      State.tile_setTile _ _ (hl x List.mem_cons_self) hc f.loader.isLt harr (by decide) hs]
    by_cases hx : c = x
    · subst hx
      simp only [List.mem_cons, true_or, true_and]
      split
      · next h => rw [if_pos ⟨h.1, h.2.2⟩]
      · rfl
    · simp only [List.mem_cons, hx, false_or, false_and, and_false, if_false]

/-! ### The pending shadow (R180) -/

theorem State.setPendingTile_keeps (s : State) (d x : DieId) (arr : Nat) :
    (s.setPendingTile d arr).arrayFrame x = s.arrayFrame x ∧ (s.setPendingTile d arr).mem = s.mem ∧
      (s.setPendingTile d arr).cells.tiles = s.cells.tiles := by
  unfold State.setPendingTile
  split
  · exact ⟨rfl, rfl, rfl⟩
  · exact ⟨rfl, rfl, rfl⟩

theorem State.shadowPending_congr {s t : State} (h : t.cells.pending = s.cells.pending) (d : DieId) (arr : Nat) :
    t.shadowPending d arr = s.shadowPending d arr := by
  unfold State.shadowPending; rw [h]

theorem State.shadowPending_setPendingTile (s : State) (d e : DieId) {a arr : Nat} (ha : a < 2) (harr : arr < 2) :
    (s.setPendingTile d arr).shadowPending e a = (s.shadowPending e a || (e == d && a == arr)) := by
  have hkey : e.val * 2 + a = d.val * 2 + arr ↔ e = d ∧ a = arr := by rw [Fin.ext_iff]; omega
  unfold State.setPendingTile
  split
  · next h =>
    by_cases hsame : e = d ∧ a = arr
    · obtain ⟨rfl, rfl⟩ := hsame
      rw [h, Bool.true_or]
    · rw [show (e == d && a == arr) = false by simpa using hsame, Bool.or_false]
  · rw [Bool.eq_iff_iff]
    simp [State.shadowPending, hkey, or_comm]

/-! ### From the start to the completion -/

/-- The state in which the tiles of a load arrive: its shadow pending, errors of its accesses corrected. -/
def State.tloadReady (s : State) (d : DieId) (i : Issue) (f : TloadF) : State :=
  (s.setPendingTile d f.loader.val).correctTouches d ((maskCells i.mask).flatMap (tloadTouches f))

/-- What a state u after a load has of the state s before it: all but the shadows of its array, which are pending and hold what it
brings. -/
structure TloadDone (d : DieId) (i : Issue) (tr : Bool) (f : TloadF) (s u : State) : Prop where
  frame : u.arrayFrame d = s.arrayFrame d
  acc : u.mem.acc = s.mem.acc
  pending : ∀ e a, a < 2 → u.shadowPending e a = (s.shadowPending e a || (e == d && a == f.loader.val))
  tile : ∀ e c arr sh, c < 64 → arr < 2 → sh < 2 → u.tile e c arr sh =
    if e = d ∧ i.mask.getLsbD c = true ∧ arr = f.loader.val ∧ sh = 1 then s.loadedTile d tr f c else s.tile e c arr sh

/-- The cells of a load finish it. -/
theorem tloadDone_cells (s : State) (d : DieId) (i : Issue) (tr : Bool) (f : TloadF) :
    TloadDone d i tr f s ((maskCells i.mask).foldl (State.tloadCell d tr f) (s.tloadReady d i f)) := by
  obtain ⟨hf, hm, ht⟩ := s.setPendingTile_keeps d d f.loader.val
  obtain ⟨hf', ha, hc⟩ := (s.setPendingTile d f.loader.val).correctTouches_keeps d d
    ((maskCells i.mask).flatMap (tloadTouches f))
  obtain ⟨hf'', hm'', hp⟩ := tloadCells_keeps (s.tloadReady d i f) d d tr f (maskCells i.mask)
  have hready : (s.tloadReady d i f).arrayFrame d = s.arrayFrame d := hf'.trans hf
  have htiles : (s.tloadReady d i f).cells.tiles = s.cells.tiles := (congrArg CellState.tiles hc).trans ht
  refine ⟨hf''.trans hready, ?acc, fun e a hlt => ?pending, fun e c arr sh hcell harr hs => ?tile⟩
  case acc => exact (congrArg MemState.acc hm'').trans (ha.trans (congrArg MemState.acc hm))
  case pending =>
    rw [State.shadowPending_congr (hp.trans (congrArg CellState.pending hc))]
    exact s.shadowPending_setPendingTile d e hlt f.loader.isLt
  case tile =>
    rw [tile_tloadCells _ tr f (fun x hx => (mem_maskCells.1 hx).1) hcell harr hs, State.loadedTile_of_arrayFrame hready,
      State.tile_congr htiles]
    simp only [mem_maskCells, hcell, true_and]

/-- A load is done for a state as it is for one with the same cells, accumulators and frame. -/
theorem TloadDone.of_begin {d : DieId} {i : Issue} {tr : Bool} {f : TloadF} {s b u : State} (h : TloadDone d i tr f b u)
    (hf : b.arrayFrame d = s.arrayFrame d) (hm : b.mem = s.mem) (hc : b.cells = s.cells) : TloadDone d i tr f s u := by
  refine ⟨h.frame.trans hf, h.acc.trans (congrArg MemState.acc hm), fun e a ha => ?pending,
    fun e c arr sh hcell harr hs => ?tile⟩
  case pending => rw [h.pending e a ha, State.shadowPending_congr (congrArg CellState.pending hc)]
  case tile =>
    rw [h.tile e c arr sh hcell harr hs, State.loadedTile_of_arrayFrame hf, State.tile_congr (congrArg CellState.tiles hc)]

/-- And a completion leaves it done. -/
theorem TloadDone.settle {d : DieId} {i : Issue} {tr : Bool} {f : TloadF} {s u : State} (h : TloadDone d i tr f s u) (id : Nat) :
    TloadDone d i tr f s (u.drawn.settle d id) := by
  obtain ⟨hf, hm, hc⟩ := u.drawn.settle_keeps d d id
  refine ⟨hf.trans h.frame, (congrArg MemState.acc hm).trans h.acc, fun e a ha => ?pending,
    fun e c arr sh hcell harr hs => ?tile⟩
  case pending => rw [State.shadowPending_congr (congrArg CellState.pending hc)]; exact h.pending e a ha
  case tile => rw [State.tile_congr (congrArg CellState.tiles hc)]; exact h.tile e c arr sh hcell harr hs

/-- A load of a format that an array holds, whose accesses raise no fault, has its effect (R179, R205). -/
theorem effTload_of_noTrip {s : State} {d : DieId} {i : Issue} {f : TloadF} (tr : Bool) (hu : f.fmt ≠ .u16l)
    (hf : f.fmt ≠ .f32) (ht : s.touchesTrip d ((maskCells i.mask).flatMap (tloadTouches f)) = none) :
    effTload s d i tr f = .ok ((maskCells i.mask).foldl (State.tloadCell d tr f) (s.tloadReady d i f)).drawn := by
  have htrip : (s.setPendingTile d f.loader.val).touchesTrip d ((maskCells i.mask).flatMap (tloadTouches f)) = none :=
    (State.touchesTrip_congr (s.setPendingTile_keeps d d f.loader.val).2.1 d _).trans ht
  unfold effTload State.broadcast
  simp only [hu, hf, or_self, if_false, htrip]
  rfl

theorem exec_tload (tr : Bool) (d : DieId) (i : Issue) (f : TloadF) (s : State) :
    exec (if tr then .tloadT d i f else .tload d i f) s = s.runOp d .a i (.tload tr f) := by
  cases tr <;> rfl

/-- A load as a command: begun, its cells filled, completed. -/
theorem exec_tload_done {s : State} {d : DieId} {i : Issue} {f : TloadF} (tr : Bool) (hi : i.hollow = false)
    (hu : f.fmt ≠ .u16l) (hf : f.fmt ≠ .f32) (ht : s.touchesTrip d ((maskCells i.mask).flatMap (tloadTouches f)) = none) :
    ∃ t, exec (if tr then .tloadT d i f else .tload d i f) s = .next t ∧ TloadDone d i tr f s t := by
  have hmem := s.beginOp_mem d .a ⟨.tload tr f, i, none, none⟩ 0
  have hrun : s.runOp d .a i (.tload tr f) = _ := State.runOp_of_ok hi
    (by simp only [State.completesAtOnce, hi, Bool.or_self])
    (effTload_of_noTrip (s := s.beginOp d .a ⟨.tload tr f, i, none, none⟩ 0) tr hu hf
      ((State.touchesTrip_congr hmem d _).trans ht))
  have hdone := (tloadDone_cells (s.beginOp d .a ⟨.tload tr f, i, none, none⟩ 0) d i tr f).of_begin
    (arrayFrame_beginOp s d d .a _ 0) hmem (s.beginOp_cells d .a _ 0)
  exact ⟨_, (exec_tload tr d i f s).trans hrun, hdone.settle s.fab.nextOp⟩

/-! ### The statement -/

/-- Settles O12: the load is a fold over the enabled cells, each of which takes the tile that it finds in its own SRAM; no cell's
step changes what the next one reads, so every shadow holds the tile stored before the operation. -/
theorem tileLoadFillsShadow : Obligations.TileLoadFillsShadow := by
  unfold Obligations.TileLoadFillsShadow
  intro tr d i f s hi hu hf htrip
  obtain ⟨t, hexec, hdone⟩ := exec_tload_done tr hi hu hf htrip
  have hframe := hdone.frame
  refine ⟨t, hexec, ?pending, ?others, ?filled, ?tiles, congrArg ArrayFrame.vregs hframe, congrArg ArrayFrame.sram hframe,
    congrArg ArrayFrame.hbm hframe, congrArg ArrayFrame.lpddr hframe, hdone.acc, sameControl_of_arrayFrame hframe⟩
  case pending =>
    rw [hdone.pending d f.loader.val f.loader.isLt]
    simp
  case others =>
    intro e a hne ha
    rw [hdone.pending e a ha, show (e == d && a == f.loader.val) = false by simpa using hne, Bool.or_false]
  case filled =>
    intro c hc hm k n hk hn
    rw [hdone.tile d c f.loader.val 1 hc f.loader.isLt (by decide), if_pos ⟨rfl, hm, rfl, rfl⟩]
    exact tileElem_loadedTile s d tr f c hk hn
  case tiles =>
    intro e c a sh hc ha hs hne
    rw [hdone.tile e c a sh hc ha hs, if_neg hne]

end Sys2Proof.Machine
end

section
/-! O6 and O9: slot C's register writes (R202 to R204), and the stop of an arithmetic operation whose operand form is undefined (R173,
R186, R187). -/

namespace Sys2Proof.Machine

open Sys2Proof

/-! ### Register writes (R202 to R204) -/

/-- A change of one front end changes nothing else. -/
theorem onlyFront_modFront (s : State) (d : DieId) (g : FrontEnd → FrontEnd) : OnlyFront d s (s.modFront d g) := by
  unfold OnlyFront
  rw [State.front_modFront_self]
  rfl

theorem FrontEnd.scalar_putScalar_self (f : FrontEnd) (n : Nat) (w : W32) : (f.putScalar n w).scalar n = w :=
  AMap.getD_set_self _ _ _ _

theorem FrontEnd.scalar_putScalar_ne (f : FrontEnd) {m n : Nat} (w : W32) (h : m ≠ n) :
    (f.putScalar n w).scalar m = f.scalar m :=
  AMap.getD_set_ne _ _ _ _ h

/-- A command that sets one scalar register sets it and nothing else. -/
theorem modFront_putScalar (s : State) (d : DieId) (n : Nat) (w : W32) :
    OnlyFront d s (s.modFront d (fun x => x.putScalar n w)) ∧
      { (s.modFront d (fun x => x.putScalar n w)).front d with scalars := (s.front d).scalars } = s.front d ∧
      (∀ m, m ≠ n → ((s.modFront d (fun x => x.putScalar n w)).front d).scalar m = (s.front d).scalar m) ∧
      ((s.modFront d (fun x => x.putScalar n w)).front d).scalar n = w := by
  refine ⟨onlyFront_modFront s d _, ?_⟩
  rw [State.front_modFront_self]
  exact ⟨rfl, fun m hm => FrontEnd.scalar_putScalar_ne _ _ hm, FrontEnd.scalar_putScalar_self _ _ _⟩

/-- The second operand of an S.ALU: a register or the immediate. -/
def FrontEnd.aluSecond (f : FrontEnd) (b : Fin 32 ⊕ W32) : W32 :=
  match b with
  | .inl r => f.scalar r.val
  | .inr v => v

/-! ### Shifts as the table of R203 writes them -/

theorem shiftLeft_eq_mul_two_pow (a : W32) (k : Nat) : a <<< k = BitVec.ofNat 32 (a.toNat * 2 ^ k) :=
  BitVec.eq_of_toNat_eq (by simp [Nat.shiftLeft_eq])

theorem ushiftRight_eq_div_two_pow (a : W32) (k : Nat) : a >>> k = BitVec.ofNat 32 (a.toNat / 2 ^ k) := by
  have hlt : a.toNat / 2 ^ k < 2 ^ 32 := (Nat.div_le_self _ _).trans_lt a.isLt
  exact BitVec.eq_of_toNat_eq (by
    rw [BitVec.toNat_ushiftRight, Nat.shiftRight_eq_div_pow, BitVec.toNat_ofNat, Nat.mod_eq_of_lt hlt])

theorem sshiftRight_eq_div_two_pow (a : W32) (k : Nat) : a.sshiftRight k = BitVec.ofInt 32 (a.toInt / 2 ^ k) := by
  rw [BitVec.sshiftRight, Int.shiftRight_eq_div_pow]
  norm_cast

/-- Settles O6: each command changes one field of one front end; the shifts of the ALU are the products and quotients of R203. -/
theorem scalarAndMaskWrites : Obligations.ScalarAndMaskWrites := by
  unfold Obligations.ScalarAndMaskWrites
  refine ⟨fun d f s => ?alu, fun d f s => ?read, fun d f s => ?mask⟩
  case alu =>
    obtain ⟨honly, hrest, hother, hdst⟩ := modFront_putScalar s d f.dst.val
      (aluResult f.fn ((s.front d).scalar f.sa.val) ((s.front d).aluSecond f.b))
    refine ⟨_, rfl, honly, hrest, hother, _, (s.front d).aluSecond f.b, rfl, ?operand, hdst.trans ?result⟩
    case operand => cases f.b <;> rfl
    case result =>
      cases f.fn with
      | shl => exact shiftLeft_eq_mul_two_pow _ _
      | shr => exact ushiftRight_eq_div_two_pow _ _
      | sar => exact sshiftRight_eq_div_two_pow _ _
      | add | sub | mul | and | or | xor | umin | umax => rfl
  case read =>
    obtain ⟨honly, hrest, hother, hdst⟩ := modFront_putScalar s d f.dst.val (s.readSource d f.source)
    refine ⟨_, rfl, honly, hrest, hother, hdst.trans ?_⟩
    cases f.source <;> rfl
  case mask =>
    refine ⟨_, rfl, onlyFront_modFront s d _, ?_⟩
    simp only [State.control, State.front_modFront_self]
    exact ⟨rfl, rfl⟩

/-! ### Undefined operand forms (R173, R186, R187) -/

/-- An arithmetic operation runs in slot V. -/
theorem exec_vectorCommand (o : VOp) (d : DieId) (i : Issue) (f : VArithF) (s : State) :
    exec (vectorCommand o d i f) s = s.runOp d .v i (.varith o f) := by
  cases o <;> rfl

/-- An operation that is not hollow and whose operands are undefined stops the machine. -/
theorem State.runOp_of_undef {s : State} {d : DieId} {sl : Slot} {i : Issue} {o : Op} (hi : i.hollow = false)
    (h : effOp (s.beginOp d sl ⟨o, i, none, none⟩ 0) d s.fab.nextOp i o = .undef) :
    s.runOp d sl i o = .fault .undefinedOperation := by
  simp only [State.runOp, State.launch, hi, Bool.false_eq_true, if_false, h]

/-- Settles O9: the effect of an arithmetic operation asks for a defined form before it does anything. -/
theorem vectorEncodingsRefused : Obligations.VectorEncodingsRefused := by
  unfold Obligations.VectorEncodingsRefused
  intro o d i f s hi hundef
  have heff (u : State) (n : Nat) : effOp u d n i (.varith o f) = .undef := by simp [effOp, effVop, hundef]
  exact (exec_vectorCommand o d i f s).trans (State.runOp_of_undef hi (heff _ _))

end Sys2Proof.Machine
end

section
/-! O8: the number of an operation that runs. A state whose running list holds an operation under the number that the next one takes
is the counterexample: with the next operation the old one completes too, and its destination signal falls on another die. -/

namespace Sys2Proof.Machine

open Sys2Proof

/-- A copy from HBM to die 1's HBM whose destination signal falls on die 1's tally 0. -/
def copyToDieOne : CopyF := ⟨0, .hbm, ⟨0, 0⟩, .dieHbm, ⟨0, 0⟩, 1, 0, 0, false, 1, some 0⟩

/-- An issue in which no cell is enabled. -/
def noCellsIssue : Issue := ⟨0, false, 0, 0, false⟩

/-- On die 0 that copy runs under number 0, the number that the next operation takes: `OpsFresh` fails. -/
def staleNumber : State :=
  State.reset.modFront 0 (fun f =>
    { f with running := [⟨0, .m0, ⟨.copy copyToDieOne, noCellsIssue, none, none⟩, 0, 0, 0⟩] })

/-- VMOV from register 0 to register 0. -/
def moveRegisterZero : VArithF := ⟨.reg 0, .reg 0, .none, .none, .f32, 0⟩

/-- Tally 0 of die 1 after a VMOV of die 0 has completed the copy as well. -/
theorem vmov_staleNumber_tally :
    (match exec (vectorCommand .mov 0 noCellsIssue moveRegisterZero) staleNumber with
      | .next t => t.tally 1 0
      | _ => 0) = 1 := by
  decide

/-- Refutes O8: the statement does not ask that operation numbers are fresh. From `staleNumber` a VMOV of die 0 completes the running
copy too, whose destination signal changes the front end of die 1. -/
theorem not_vectorResults : ¬ Obligations.VectorResults := by
  unfold Obligations.VectorResults
  intro h
  obtain ⟨t, hexec, -, -, -, -, -, -, -, -, -, -, -, -, hfront, -⟩ :=
    h .mov 0 noCellsIssue moveRegisterZero staleNumber rfl (by decide) (by decide)
  have htally : t.tally 1 0 = 1 := by
    have h1 := vmov_staleNumber_tally
    rwa [hexec] at h1
  have hkept : t.tally 1 0 = staleNumber.tally 1 0 := by rw [State.tally, hfront 1 (by decide)]; rfl
  exact absurd (hkept.symm.trans htally) (by decide)

end Sys2Proof.Machine
end

section
/-! SUPPORT. The registers and the SRAM of one cell as plain data, and what a write of one cell does to every cell's data (R117, R121,
R122, R431). -/

namespace Sys2Proof.Machine

open Sys2Proof

/-! ### Keys and lines -/

/-- Lines of different cells have different keys, -/
theorem lineKey_inj {d e : DieId} {c c' l l' : Nat} (hc : c < 64) (hc' : c' < 64) (hl : l < 2 ^ 15) (hl' : l' < 2 ^ 15) :
    lineKey d c l = lineKey e c' l' ↔ d = e ∧ c = c' ∧ l = l' := by
  unfold lineKey
  rw [Fin.ext_iff]
  omega

/-- and so have vector registers. -/
theorem vregKey_inj {d e : DieId} {c c' r r' : Nat} (hc : c < 64) (hc' : c' < 64) (hr : r < 64) (hr' : r' < 64) :
    vregKey d c r = vregKey e c' r' ↔ d = e ∧ c = c' ∧ r = r' := by
  unfold vregKey
  rw [Fin.ext_iff]
  omega

/-- A line whose valid bit is set (R431). -/
def MemState.lineValid (m : MemState) (d : DieId) (c l : Nat) : Bool := m.sramValid.getD (lineKey d c l) false

/-- A byte of cell SRAM. -/
def MemState.sramAt (m : MemState) (d : DieId) (c a : Nat) : Byte := m.sram.read (sramKey d c a)

theorem lineValid_touchLine (m : MemState) {d e : DieId} {c c' l l' : Nat} (hc : c < 64) (hc' : c' < 64) (hl : l < 2 ^ 15)
    (hl' : l' < 2 ^ 15) :
    (m.touchLine d c l).lineValid e c' l' = (m.lineValid e c' l' || decide (e = d ∧ c' = c ∧ l' = l)) := by
  unfold MemState.touchLine
  split
  · next h =>
    by_cases hsame : e = d ∧ c' = c ∧ l' = l
    · obtain ⟨rfl, rfl, rfl⟩ := hsame
      rw [MemState.lineValid, h, Bool.true_or]
    · rw [decide_eq_false hsame, Bool.or_false]
  · unfold MemState.lineValid
    by_cases hsame : e = d ∧ c' = c ∧ l' = l
    · obtain ⟨rfl, rfl, rfl⟩ := hsame
      simp
    · rw [AMap.getD_set_ne _ _ _ _ (fun h => hsame ((lineKey_inj hc' hc hl' hl).1 h)), decide_eq_false hsame, Bool.or_false]

/-- A line that was never written is zeroed when it is touched (R431). -/
theorem sramAt_touchLine (m : MemState) {d e : DieId} {c c' l a : Nat} (hc : c < 64) (hc' : c' < 64) (hl : l < 2 ^ 15)
    (ha : a < 2 ^ 22) :
    (m.touchLine d c l).sramAt e c' a =
      if (e = d ∧ c' = c ∧ a / 128 = l) ∧ m.lineValid d c l = false then 0 else m.sramAt e c' a := by
  have hrange : (e = d ∧ c' = c ∧ a / 128 = l) ↔
      sramKey d c (l * 128) ≤ sramKey e c' a ∧ sramKey e c' a < sramKey d c (l * 128) + 128 := by
    unfold sramKey
    rw [Fin.ext_iff]
    omega
  unfold MemState.touchLine
  split
  · next h => rw [if_neg (fun h' => Bool.false_ne_true (h'.2.symm.trans h))]
  · next h =>
    unfold MemState.sramAt
    have hvalid : m.lineValid d c l = false := Bool.eq_false_iff.2 h
    simp only [hrange, hvalid, and_true]
    split
    · next hin => exact Memory.read_clearRange_in _ _ _ _ hin.1 hin.2
    · next hout => exact Memory.read_clearRange_out _ _ _ _ (by omega)

/-- The lines from l on, n of them, are touched: they are valid afterwards, -/
theorem lineValid_touchLines (m : MemState) {d e : DieId} {c c' l l' n : Nat} (hc : c < 64) (hc' : c' < 64)
    (hl : l + n ≤ 2 ^ 15) (hl' : l' < 2 ^ 15) :
    (m.touchLines d c l n).lineValid e c' l' = (m.lineValid e c' l' || decide (e = d ∧ c' = c ∧ l ≤ l' ∧ l' < l + n)) := by
  induction n generalizing m l with
  | zero =>
    rw [decide_eq_false (by omega), Bool.or_false]
    rfl
  | succ n ih =>
    rw [MemState.touchLines, ih _ (by omega), lineValid_touchLine m hc hc' (by omega) hl', Bool.or_assoc, ← Bool.decide_or]
    by_cases hcell : e = d ∧ c' = c
    · obtain ⟨rfl, rfl⟩ := hcell
      simp only [true_and]
      congr 2
      exact propext (by omega)
    · simp [← and_assoc, hcell]

/-- and those that were not are zeroed. -/
theorem sramAt_touchLines (m : MemState) {d e : DieId} {c c' l a n : Nat} (hc : c < 64) (hc' : c' < 64) (hl : l + n ≤ 2 ^ 15)
    (ha : a < 2 ^ 22) :
    (m.touchLines d c l n).sramAt e c' a =
      if (e = d ∧ c' = c ∧ l ≤ a / 128 ∧ a / 128 < l + n) ∧ m.lineValid d c (a / 128) = false then 0
      else m.sramAt e c' a := by
  induction n generalizing m l with
  | zero =>
    rw [if_neg (by omega)]
    rfl
  | succ n ih =>
    rw [MemState.touchLines, ih _ (by omega), sramAt_touchLine m hc hc' (by omega) ha,
      lineValid_touchLine m hc hc (by omega) (by omega)]
    by_cases hcell : e = d ∧ c' = c
    · obtain ⟨rfl, rfl⟩ := hcell
      by_cases hfirst : a / 128 = l
      · subst hfirst
        simp
      · simp only [true_and, hfirst, and_false, false_and, decide_false, Bool.or_false, if_false,
          show l ≤ a / 128 ∧ a / 128 < l + (n + 1) ↔ l + 1 ≤ a / 128 ∧ a / 128 < l + 1 + n by omega]
    · rw [if_neg (fun h => hcell ⟨h.1.1, h.1.2.1⟩), if_neg (fun h => hcell ⟨h.1.1, h.1.2.1⟩),
        if_neg (fun h => hcell ⟨h.1.1, h.1.2.1⟩)]

/-! ### The data of a cell -/

/-- The vector registers, the SRAM and the valid bits of one cell. -/
structure CellData where
  regs : Fin 64 → List W32
  bytes : Fin (2 ^ 22) → Byte
  valid : Fin (2 ^ 15) → Bool

/-- The data of cell c of die d. -/
def State.cellData (s : State) (d : DieId) (c : Nat) : CellData :=
  ⟨fun r => s.vreg d c r.val, fun a => sramByte s d c a.val, fun l => s.mem.lineValid d c l.val⟩

/-- A register of a cell's data replaced. -/
def CellData.setReg (x : CellData) (r : Nat) (v : List W32) : CellData :=
  { x with regs := fun q => if q.val = r then (List.range 64).map (fun j => v.getD j 0) else x.regs q }

/-- Line l is among those that n bytes at address a lie in. -/
def touchesLine (a n l : Nat) : Bool := decide (a / 128 ≤ l ∧ l < a / 128 + lineCount a n)

/-- Bytes of a cell's data written at an address: a line touched for the first time reads as zero elsewhere (R431). -/
def CellData.write (x : CellData) (a : Nat) (bs : List Byte) : CellData where
  regs := x.regs
  bytes := fun k => if a ≤ k.val ∧ k.val < a + bs.length then bs.getD (k.val - a) 0
    else if touchesLine a bs.length (k.val / 128) = true ∧ x.valid ⟨k.val / 128, by omega⟩ = false then 0 else x.bytes k
  valid := fun l => x.valid l || touchesLine a bs.length l.val

/-- A cell's data depend on the registers, the SRAM and its valid bits. -/
theorem State.cellData_congr {s t : State} (hv : t.cells.vregs = s.cells.vregs) (hm : t.mem.sram = s.mem.sram)
    (hl : t.mem.sramValid = s.mem.sramValid) (d : DieId) (c : Nat) : t.cellData d c = s.cellData d c := by
  unfold State.cellData State.vreg sramByte MemState.lineValid
  rw [hv, hm, hl]

theorem State.vreg_of_cellData {s t : State} {d : DieId} {c : Nat} (h : t.cellData d c = s.cellData d c) {r : Nat} (hr : r < 64) :
    t.vreg d c r = s.vreg d c r :=
  congrFun (congrArg CellData.regs h) ⟨r, hr⟩

theorem sramByte_of_cellData {s t : State} {d : DieId} {c : Nat} (h : t.cellData d c = s.cellData d c) {a : Nat}
    (ha : a < 2 ^ 22) : sramByte t d c a = sramByte s d c a :=
  congrFun (congrArg CellData.bytes h) ⟨a, ha⟩

/-- A read of a cell's SRAM, byte by byte. -/
theorem sramRead_eq_map (s : State) (d : DieId) (c a n : Nat) :
    s.sramRead d c a n = (List.range n).map (fun i => sramByte s d c (a + i)) := by
  refine List.ext_getElem (by simp [State.sramRead]) fun i h1 h2 => ?_
  simp only [State.sramRead, Memory.getElem_readBytes, List.getElem_map, List.getElem_range, sramByte, sramKey, Nat.add_assoc]

/-- A read that stays within a cell depends on the cell's data. -/
theorem sramRead_of_cellData {s t : State} {d : DieId} {c : Nat} (h : t.cellData d c = s.cellData d c) {a n : Nat}
    (ha : a + n ≤ 2 ^ 22) : t.sramRead d c a n = s.sramRead d c a n := by
  rw [sramRead_eq_map, sramRead_eq_map]
  refine List.map_congr_left fun i hi => sramByte_of_cellData h ?_
  have := List.mem_range.1 hi
  omega

/-- The data of every cell after a register of one has been written. -/
theorem State.cellData_setVreg (s : State) {d e : DieId} {c c' r : Nat} (v : List W32) (hc : c < 64) (hc' : c' < 64) (hr : r < 64) :
    (s.setVreg d c r v).cellData e c' = if e = d ∧ c' = c then (s.cellData d c).setReg r v else s.cellData e c' := by
  have hreg : ∀ q, q < 64 → (s.setVreg d c r v).vreg e c' q =
      if (e = d ∧ c' = c) ∧ q = r then (List.range 64).map (fun j => v.getD j 0) else s.vreg e c' q := by
    intro q hq
    unfold State.vreg State.setVreg
    by_cases h : (e = d ∧ c' = c) ∧ q = r
    · obtain ⟨⟨rfl, rfl⟩, rfl⟩ := h
      simp
    · rw [if_neg h, AMap.getD_set_ne]
      exact fun hk => h (by obtain ⟨h1, h2, h3⟩ := (vregKey_inj hc' hc hq hr).1 hk; exact ⟨⟨h1, h2⟩, h3⟩)
  by_cases h : e = d ∧ c' = c
  · rw [if_pos h]
    obtain ⟨rfl, rfl⟩ := h
    unfold State.cellData CellData.setReg
    congr 1
    funext q
    simp [hreg q.val q.isLt]
  · rw [if_neg h]
    unfold State.cellData
    congr 1
    funext q
    rw [hreg q.val q.isLt, if_neg (fun h' => h h'.1)]

/-- The data of every cell after bytes have been written into the SRAM of one. -/
theorem State.cellData_sramWrite (s : State) {d e : DieId} {c c' a : Nat} {bs : List Byte} (hc : c < 64) (hc' : c' < 64)
    (ha : a + bs.length ≤ 2 ^ 22) :
    (s.sramWrite d c a bs).cellData e c' = if e = d ∧ c' = c then (s.cellData d c).write a bs else s.cellData e c' := by
  have hlines : a / 128 + lineCount a bs.length ≤ 2 ^ 15 := by unfold lineCount; split <;> omega
  have hvalid : ∀ l, l < 2 ^ 15 → (s.sramWrite d c a bs).mem.lineValid e c' l =
      (s.mem.lineValid e c' l || decide (e = d ∧ c' = c) && touchesLine a bs.length l) := by
    intro l hl
    refine (lineValid_touchLines s.mem hc hc' hlines hl).trans ?_
    unfold touchesLine
    rw [← Bool.decide_and]
    congr 2
    exact propext and_assoc.symm
  have hbytes : ∀ k, k < 2 ^ 22 → sramByte (s.sramWrite d c a bs) e c' k =
      if (e = d ∧ c' = c) ∧ a ≤ k ∧ k < a + bs.length then bs.getD (k - a) 0
      else if (e = d ∧ c' = c) ∧ touchesLine a bs.length (k / 128) = true ∧ s.mem.lineValid d c (k / 128) = false then 0
      else sramByte s e c' k := by
    intro k hk
    have hrest : sramByte (s.sramWrite d c a bs) e c' k =
        ((s.mem.touchLines d c (a / 128) (lineCount a bs.length)).sram.writeBytes (sramKey d c a) bs).read (sramKey e c' k) := rfl
    rw [hrest]
    by_cases hin : (e = d ∧ c' = c) ∧ a ≤ k ∧ k < a + bs.length
    · obtain ⟨⟨rfl, rfl⟩, h1, h2⟩ := hin
      rw [if_pos ⟨⟨rfl, rfl⟩, h1, h2⟩, show sramKey e c' k = sramKey e c' a + (k - a) by unfold sramKey; omega,
        Memory.read_writeBytes_in _ _ _ _ (by omega), List.getD_eq_getElem _ _ (by omega)]
    · rw [if_neg hin, Memory.read_writeBytes_out]
      · refine (sramAt_touchLines s.mem hc hc' hlines hk).trans ?_
        unfold touchesLine
        simp only [decide_eq_true_eq, and_assoc]
        rfl
      · unfold sramKey
        rw [Fin.ext_iff] at hin
        omega
  by_cases h : e = d ∧ c' = c
  · rw [if_pos h]
    obtain ⟨rfl, rfl⟩ := h
    unfold State.cellData CellData.write
    congr 1
    · funext k
      simp [hbytes k.val k.isLt]
    · funext l
      simp [hvalid l.val l.isLt]
  · rw [if_neg h]
    unfold State.cellData
    congr 1
    · funext k
      rw [hbytes k.val k.isLt, if_neg (fun h' => h h'.1), if_neg (fun h' => h h'.1)]
    · funext l
      simp [hvalid l.val l.isLt, h]

end Sys2Proof.Machine
end

section
/-! SUPPORT. A broadcast operation as a command: begun, its accesses corrected, its cells run one after another, completed. Where each
cell's step changes that cell's data only, and what it makes of them depends on them alone, every enabled cell ends up with what it
makes of the data before (R145, R148, R149, R205). -/

namespace Sys2Proof.Machine

open Sys2Proof

/-! ### The frame of an operation on registers and SRAM -/

/-- The part of a state that an operation of slot V or F of a die reads beside the data of its cells, and that it leaves alone. -/
structure UnitFrame where
  array : ArrayFrame
  cells : CellState
  acc : Memory
  dropKeys : AMap W64

/-- That part of a state. -/
def State.unitFrame (s : State) (d : DieId) : UnitFrame :=
  ⟨{ s.arrayFrame d with vregs := [], sram := [] }, { s.cells with vregs := [] }, s.mem.acc, (s.front d).dropKeys⟩

/-- It is a matter of the frame of array operations, the cells, the accumulators and the drop-out keys. -/
theorem unitFrame_of_arrayFrame {s t : State} {d : DieId} (h : t.arrayFrame d = s.arrayFrame d) (hc : t.cells = s.cells)
    (ha : t.mem.acc = s.mem.acc) (hk : (t.front d).dropKeys = (s.front d).dropKeys) : t.unitFrame d = s.unitFrame d := by
  unfold State.unitFrame
  rw [h, hc, ha, hk]

section
variable {s t : State} {d : DieId} (h : t.unitFrame d = s.unitFrame d)
include h

theorem array_of_unitFrame : { t.arrayFrame d with vregs := [], sram := [] } = { s.arrayFrame d with vregs := [], sram := [] } :=
  congrArg UnitFrame.array h

theorem job_of_unitFrame : t.job = s.job := congrArg ArrayFrame.job (array_of_unitFrame h)
theorem hbm_of_unitFrame : t.mem.hbm = s.mem.hbm := congrArg ArrayFrame.hbm (array_of_unitFrame h)
theorem lpddr_of_unitFrame : t.mem.lpddr = s.mem.lpddr := congrArg ArrayFrame.lpddr (array_of_unitFrame h)
theorem acc_of_unitFrame : t.mem.acc = s.mem.acc := congrArg UnitFrame.acc h
theorem dropKeys_of_unitFrame : (t.front d).dropKeys = (s.front d).dropKeys := congrArg UnitFrame.dropKeys h
theorem tiles_of_unitFrame : t.cells.tiles = s.cells.tiles := congrArg (fun x => x.cells.tiles) h
theorem totalRows_of_unitFrame : t.cells.totalRows = s.cells.totalRows := congrArg (fun x => x.cells.totalRows) h

theorem State.audit_of_unitFrame : t.audit = s.audit := by
  unfold State.audit; rw [job_of_unitFrame h]

theorem sameControl_of_unitFrame : SameControl s t := by
  have harr := array_of_unitFrame h
  exact ⟨congrArg ArrayFrame.pending harr, congrArg ArrayFrame.rind harr, congrArg ArrayFrame.beat harr,
    congrArg ArrayFrame.job harr, congrArg ArrayFrame.adm harr, congrArg ArrayFrame.kv harr, congrArg ArrayFrame.ten harr,
    congrArg ArrayFrame.res harr, congrArg ArrayFrame.boot harr⟩

/-- The draws of a die's conversions are named by what stays (R106, R133). -/
theorem State.convDraw_of_unitFrame (cell lane c p row : Nat) : t.convDraw d cell lane c p row = s.convDraw d cell lane c p row := by
  have harr := array_of_unitFrame h
  have hsite : (t.front d).drawSite = (s.front d).drawSite := congrArg ArrayFrame.site harr
  have hdev : t.param P.deviceId = s.param P.deviceId := congrArg ArrayFrame.deviceId harr
  simp only [FrontEnd.drawSite, Prod.mk.injEq] at hsite
  obtain ⟨hseed, hplan, hbeat, hstep⟩ := hsite
  unfold State.convDraw State.audit State.auditDrawAt State.roundingSite State.auditStep
  rw [job_of_unitFrame h, hdev, hseed, hplan, hbeat, hstep]

/-- Nothing but the vector registers of the cells can differ. -/
theorem cells_of_unitFrame (hv : t.cells.vregs = s.cells.vregs) : t.cells = s.cells := by
  have hcells : { t.cells with vregs := [] } = { s.cells with vregs := [] } := congrArg UnitFrame.cells h
  calc t.cells = { ({ t.cells with vregs := [] } : CellState) with vregs := t.cells.vregs } := rfl
    _ = { ({ s.cells with vregs := [] } : CellState) with vregs := s.cells.vregs } := by rw [hcells, hv]
    _ = s.cells := rfl

end

theorem unitFrame_setVreg (s : State) (d x : DieId) (c r : Nat) (v : List W32) :
    (s.setVreg d c r v).unitFrame x = s.unitFrame x := rfl

/-- Touching lines changes bytes and valid bits only. -/
theorem MemState.touchLines_keeps (m : MemState) (d : DieId) (c l n : Nat) :
    { m.touchLines d c l n with sram := m.sram, sramValid := m.sramValid } = m := by
  induction n generalizing m l with
  | zero => rfl
  | succ n ih =>
    have hone : { m.touchLine d c l with sram := m.sram, sramValid := m.sramValid } = m := by
      unfold MemState.touchLine
      split <;> rfl
    exact (congrArg (fun x : MemState => { x with sram := m.sram, sramValid := m.sramValid }) (ih (m.touchLine d c l) (l + 1))).trans
      hone

/-- A write of SRAM changes the bytes, the valid bits and the errors of SRAM only. -/
theorem State.sramWrite_mem (s : State) (d : DieId) (c a : Nat) (bs : List Byte) :
    { (s.sramWrite d c a bs).mem with sram := s.mem.sram, sramValid := s.mem.sramValid, sramDouble := s.mem.sramDouble,
                                      sramSingle := s.mem.sramSingle } = s.mem :=
  congrArg (fun x : MemState => { x with sramDouble := s.mem.sramDouble, sramSingle := s.mem.sramSingle })
    (s.mem.touchLines_keeps d c (a / 128) (lineCount a bs.length))

theorem unitFrame_sramWrite (s : State) (d x : DieId) (c a : Nat) (bs : List Byte) :
    (s.sramWrite d c a bs).unitFrame x = s.unitFrame x := by
  have hm := s.sramWrite_mem d c a bs
  have hhbm : (s.sramWrite d c a bs).mem.hbm = s.mem.hbm := (congrArg MemState.hbm hm :)
  have hlpddr : (s.sramWrite d c a bs).mem.lpddr = s.mem.lpddr := (congrArg MemState.lpddr hm :)
  have hacc : (s.sramWrite d c a bs).mem.acc = s.mem.acc := (congrArg MemState.acc hm :)
  unfold State.unitFrame State.arrayFrame
  rw [hhbm, hlpddr, hacc]
  rfl

/-- A change of a front end that keeps its drop-out keys keeps those of every die. -/
theorem dropKeys_modFront (s : State) (d e : DieId) {g : FrontEnd → FrontEnd}
    (h : (g (s.front e)).dropKeys = (s.front e).dropKeys) : ((s.modFront e g).front d).dropKeys = (s.front d).dropKeys := by
  by_cases hd : d = e
  · subst hd
    rw [State.front_modFront_self, h]
  · rw [State.front_modFront_ne _ _ _ _ hd]

theorem unitFrame_count (s : State) (d x : DieId) (n : Counts) : (s.count d n).unitFrame x = s.unitFrame x :=
  unitFrame_of_arrayFrame (arrayFrame_count s x d n) rfl rfl (dropKeys_modFront s x d rfl)

theorem State.cellData_count (s : State) (d e : DieId) (c : Nat) (n : Counts) : (s.count d n).cellData e c = s.cellData e c := rfl

/-! ### Start, accesses, completion -/

theorem unitFrame_beginOp (s : State) (d x : DieId) (sl : Slot) (e : QEntry) (n : Nat) :
    (s.beginOp d sl e n).unitFrame x = s.unitFrame x :=
  unitFrame_of_arrayFrame (arrayFrame_beginOp s d x sl e n) rfl rfl
    (dropKeys_modFront s x d (g := fun f => { f with running := f.running ++ [⟨s.fab.nextOp, sl, e, n, s.ten.epoch, 0⟩] }) rfl)

theorem dropKeys_ownSignal (s : State) (d x : DieId) (e : QEntry) :
    ((s.ownSignal d e).front x).dropKeys = (s.front x).dropKeys := by
  unfold State.ownSignal
  split
  · exact dropKeys_modFront s x d rfl
  · rfl

theorem dropKeys_nearSignal (s : State) (d x : DieId) (o : Op) :
    ((s.nearSignal d o).front x).dropKeys = (s.front x).dropKeys := by
  unfold State.nearSignal
  split
  · exact dropKeys_modFront s x _ rfl
  · rfl

theorem dropKeys_dropRunning (s : State) (d x : DieId) (id : Nat) :
    ((s.dropRunning d id).front x).dropKeys = (s.front x).dropKeys := by
  have h := dropKeys_modFront s x d (g := fun f => { f with running := f.running.filter (fun r => r.id ≠ id) }) rfl
  unfold State.dropRunning
  dsimp only
  split
  · exact h
  · exact h

/-- A completion keeps the frame. -/
theorem unitFrame_settle (s : State) (d x : DieId) (id : Nat) : (s.settle d id).unitFrame x = s.unitFrame x := by
  obtain ⟨hf, hm, hc⟩ := s.settle_keeps d x id
  refine unitFrame_of_arrayFrame hf hc (congrArg MemState.acc hm) ?_
  unfold State.settle
  split
  · split
    · split
      · exact (dropKeys_ownSignal _ d x _).trans (dropKeys_dropRunning s d x _)
      · exact (dropKeys_ownSignal _ d x _).trans ((dropKeys_nearSignal _ d x _).trans (dropKeys_dropRunning s d x _))
    · rfl
  · rfl

/-- Correcting errors leaves the front ends, the bytes and their valid bits alone. -/
theorem State.correctTouches_data (s : State) (d : DieId) (ts : List Touch) :
    (s.correctTouches d ts).fe = s.fe ∧ (s.correctTouches d ts).mem.sram = s.mem.sram ∧
      (s.correctTouches d ts).mem.sramValid = s.mem.sramValid := by
  have hone : ∀ (t : State) (c a n : Nat), (t.correctSram d c a n).fe = t.fe ∧ (t.correctSram d c a n).mem.sram = t.mem.sram ∧
      (t.correctSram d c a n).mem.sramValid = t.mem.sramValid := by
    intro t c a n
    unfold State.correctSram
    dsimp only
    split
    · exact ⟨rfl, rfl, rfl⟩
    · simp
  unfold State.correctTouches
  refine List.foldlRecOn _ _ (motive := fun (t : State) => t.fe = s.fe ∧ t.mem.sram = s.mem.sram ∧
    t.mem.sramValid = s.mem.sramValid) ⟨rfl, rfl, rfl⟩ (fun t ht y _ => ?_)
  split
  · exact ht
  · obtain ⟨hf, hm, hv⟩ := hone t y.cell y.addr y.len
    exact ⟨hf.trans ht.1, hm.trans ht.2.1, hv.trans ht.2.2⟩

theorem unitFrame_correctTouches (s : State) (d x : DieId) (ts : List Touch) :
    (s.correctTouches d ts).unitFrame x = s.unitFrame x := by
  obtain ⟨hf, ha, hc⟩ := s.correctTouches_keeps d x ts
  exact unitFrame_of_arrayFrame hf hc ha (by unfold State.front; rw [(s.correctTouches_data d ts).1])

theorem State.cellData_correctTouches (s : State) (d e : DieId) (ts : List Touch) (c : Nat) :
    (s.correctTouches d ts).cellData e c = s.cellData e c := by
  obtain ⟨-, hm, hv⟩ := s.correctTouches_data d ts
  exact State.cellData_congr (congrArg CellState.vregs (s.correctTouches_keeps d d ts).2.2) hm hv e c

/-! ### Accesses without a fault -/

/-- Where several accesses raise no fault, none of them does. -/
theorem touchTrip_of_touchesTrip {s : State} {d : DieId} {ts : List Touch} (h : s.touchesTrip d ts = none) {x : Touch}
    (hx : x ∈ ts) : s.touchTrip d x = none := by
  induction ts with
  | nil => simp at hx
  | cons y ys ih =>
    unfold State.touchesTrip at h
    cases hy : s.touchTrip d y with
    | some z => simp [hy] at h
    | none =>
      simp only [hy] at h
      rcases List.mem_cons.1 hx with rfl | hx
      · exact hy
      · exact ih h hx

/-- An access that raises no fault lies in the SRAM, on a line where it must. -/
theorem range_of_touchTrip {s : State} {d : DieId} {x : Touch} (h : s.touchTrip d x = none) :
    x.addr + x.len ≤ sramEnd ∧ (x.line = true → x.addr % 128 = 0) := by
  by_contra hcon
  have hrange : ((x.line && decide (x.addr % 128 ≠ 0)) || decide (sramEnd < x.addr + x.len)) = true := by
    simp only [Bool.or_eq_true, Bool.and_eq_true, decide_eq_true_eq]
    by_cases hend : sramEnd < x.addr + x.len
    · exact .inr hend
    · refine .inl ?_
      by_contra hline
      exact hcon ⟨Nat.le_of_not_lt hend, fun hl => by
        by_contra hmod
        exact hline ⟨hl, hmod⟩⟩
  unfold State.touchTrip at h
  rw [if_pos hrange] at h
  cases h

/-- One that reads meets no line that was never written. -/
theorem lineValid_of_touchTrip {s : State} {d : DieId} {x : Touch} (h : s.touchTrip d x = none) (hr : x.write = false) {l : Nat}
    (hl : touchesLine x.addr x.len l = true) : s.mem.lineValid d x.cell l = true := by
  unfold State.touchTrip at h
  split at h
  · cases h
  · rw [hr, if_neg Bool.false_ne_true] at h
    cases hu : s.firstUnwritten d x.cell x.addr x.len with
    | some a => simp [hu] at h
    | none =>
      unfold State.firstUnwritten at hu
      rw [Option.map_eq_none_iff, List.find?_eq_none] at hu
      unfold touchesLine at hl
      rw [decide_eq_true_eq] at hl
      have := hu (l - x.addr / 128) (List.mem_range.2 (by omega))
      rwa [Bool.not_eq_true, Bool.not_eq_false', show x.addr / 128 + (l - x.addr / 128) = l by omega] at this

/-- An operation without accesses to SRAM raises no fault by them, -/
theorem State.touchesTrip_none (s : State) (d : DieId) (cells : List Nat) :
    s.touchesTrip d (cells.flatMap (fun _ => [])) = none := by
  rw [List.flatMap_eq_nil_iff.2 (fun _ _ => rfl)]
  rfl

/-- and corrects nothing. -/
theorem State.correctTouches_none (s : State) (d : DieId) (cells : List Nat) :
    s.correctTouches d (cells.flatMap (fun _ => [])) = s := by
  rw [List.flatMap_eq_nil_iff.2 (fun _ _ => rfl)]
  rfl

/-! ### The cells of an operation -/

/-- A step of each of some cells of a die that keeps the frame, changes the data of its own cell only, and makes of them what
depends on the frame and on them alone. -/
structure CellStep (d : DieId) (cells : List Nat) (eff : State → Nat → State) (res : State → Nat → CellData) : Prop where
  frame : ∀ t c, (eff t c).unitFrame d = t.unitFrame d
  data : ∀ (t : State) (e : DieId) (c c' : Nat), c ∈ cells → c' < 64 →
    (eff t c).cellData e c' = if e = d ∧ c' = c then res t c else t.cellData e c'
  congr : ∀ (t u : State) (c : Nat), c ∈ cells → t.unitFrame d = u.unitFrame d → t.cellData d c = u.cellData d c → res t c = res u c

/-- Such steps, one after another: the frame is kept, and each of the cells has what its step makes of the data before. -/
theorem CellStep.foldl {d : DieId} {cells : List Nat} {eff : State → Nat → State} {res : State → Nat → CellData}
    (h : CellStep d cells eff res) (hnodup : cells.Nodup) (s : State) :
    (cells.foldl eff s).unitFrame d = s.unitFrame d ∧
      ∀ e c, c < 64 → (cells.foldl eff s).cellData e c = if e = d ∧ c ∈ cells then res s c else s.cellData e c := by
  have hpart : ∀ (l : List Nat) (s : State), (∀ c ∈ l, c ∈ cells) → l.Nodup → (l.foldl eff s).unitFrame d = s.unitFrame d ∧
      ∀ e c, c < 64 → (l.foldl eff s).cellData e c = if e = d ∧ c ∈ l then res s c else s.cellData e c := by
    intro l
    induction l with
    | nil => intro s _ _; exact ⟨rfl, fun e c _ => by simp⟩
    | cons x l ih =>
      intro s hl hnd
      obtain ⟨hx, hnd⟩ := List.nodup_cons.1 hnd
      have hxc := hl x List.mem_cons_self
      obtain ⟨hf, hd⟩ := ih (eff s x) (fun c hc => hl c (List.mem_cons_of_mem _ hc)) hnd
      refine ⟨hf.trans (h.frame s x), fun e c hc => ?_⟩
      rw [List.foldl_cons, hd e c hc, h.data s e x c hxc hc]
      by_cases hsame : c = x
      · subst hsame
        simp [hx]
      · by_cases hin : e = d ∧ c ∈ l
        · obtain ⟨rfl, hin⟩ := hin
          rw [if_pos ⟨rfl, hin⟩, if_pos ⟨rfl, List.mem_cons_of_mem _ hin⟩]
          refine h.congr _ _ c (hl c (List.mem_cons_of_mem _ hin)) (h.frame s x) ?_
          rw [h.data s e x c hxc hc, if_neg (fun h' => hsame h'.2)]
        · rw [if_neg hin, if_neg (fun h' => hsame h'.2), if_neg]
          intro h'
          rcases List.mem_cons.1 h'.2 with h'' | h''
          · exact hsame h''
          · exact hin ⟨h'.1, h''⟩
  exact hpart cells s (fun _ hc => hc) hnodup

theorem nodup_maskCells (m : W64) : (maskCells m).Nodup := List.nodup_range.filter _

/-! ### Registers in a row -/

/-- Registers r to r + n − 1 of a cell's data replaced. -/
def CellData.setRegs (x : CellData) (r n : Nat) (v : Nat → List W32) : CellData :=
  { x with regs := fun q => if r ≤ q.val ∧ q.val < r + n then (List.range 64).map (fun j => (v (q.val - r)).getD j 0) else x.regs q }

theorem CellData.setReg_setRegs (x : CellData) (r n : Nat) (v : Nat → List W32) :
    (x.setRegs r n v).setReg (r + n) (v n) = x.setRegs r (n + 1) v := by
  unfold CellData.setRegs CellData.setReg
  congr 1
  funext q
  by_cases hq : q.val = r + n
  · simp [hq]
  · simp only [if_neg hq, show r ≤ q.val ∧ q.val < r + (n + 1) ↔ r ≤ q.val ∧ q.val < r + n by omega]

/-- Steps that write one register of a cell each, one register after another. -/
theorem cellData_foldl_setReg {d : DieId} {c r n : Nat} {g : State → Nat → State} {v : Nat → List W32} (s : State)
    (hstep : ∀ (u : State) (k : Nat), k < n → u.unitFrame d = s.unitFrame d → (g u k).unitFrame d = s.unitFrame d ∧
      ∀ e c', c' < 64 → (g u k).cellData e c' =
        if e = d ∧ c' = c then (u.cellData d c).setReg (r + k) (v k) else u.cellData e c') (hc : c < 64) :
    ((List.range n).foldl g s).unitFrame d = s.unitFrame d ∧ ∀ e c', c' < 64 →
      ((List.range n).foldl g s).cellData e c' = if e = d ∧ c' = c then (s.cellData d c).setRegs r n v else s.cellData e c' := by
  induction n with
  | zero =>
    refine ⟨rfl, fun e c' _ => ?_⟩
    split
    · next h =>
      obtain ⟨rfl, rfl⟩ := h
      unfold CellData.setRegs
      simp [show ∀ q : Nat, ¬ (r ≤ q ∧ q < r) by omega]
    · rfl
  | succ n ih =>
    obtain ⟨hf, hd⟩ := ih (fun u k hk => hstep u k (by omega))
    obtain ⟨hf', hd'⟩ := hstep ((List.range n).foldl g s) n (by omega) hf
    rw [List.range_succ, List.foldl_append, List.foldl_cons, List.foldl_nil]
    refine ⟨hf', fun e c' hc' => ?_⟩
    rw [hd' e c' hc']
    by_cases hsame : e = d ∧ c' = c
    · rw [if_pos hsame, if_pos hsame, hd d c hc, if_pos ⟨rfl, rfl⟩, CellData.setReg_setRegs]
    · rw [if_neg hsame, if_neg hsame, hd e c' hc', if_neg hsame]

/-- A lane of a register is an entry of its list. -/
theorem getD_map_range_64 (v : List W32) {j : Nat} (hj : j < 64) :
    ((List.range 64).map (fun k => v.getD k 0)).getD j 0 = v.getD j 0 := by
  simp [List.getD_eq_getElem?_getD, hj]

/-! ### The operation as a command -/

/-- The state in which the cells of a broadcast operation begin: the operation begun, errors of its accesses corrected. -/
def State.unitBegun (s : State) (d : DieId) (sl : Slot) (i : Issue) (o : Op) (touches : Nat → List Touch) : State :=
  (s.beginOp d sl ⟨o, i, none, none⟩ 0).correctTouches d ((maskCells i.mask).flatMap touches)

/-- The state in which a broadcast operation ends. -/
def State.unitDone (s : State) (d : DieId) (sl : Slot) (i : Issue) (o : Op) (touches : Nat → List Touch) (eff : State → Nat → State) :
    State :=
  ((maskCells i.mask).foldl eff (s.unitBegun d sl i o touches)).drawn.settle d s.fab.nextOp

section
variable {s : State} {d : DieId} {sl : Slot} {i : Issue} {o : Op} {touches : Nat → List Touch} {eff : State → Nat → State}

/-- A broadcast operation that is not hollow and whose accesses raise no fault runs to its end. -/
theorem State.runOp_broadcast (hi : i.hollow = false) (hc : s.completesAtOnce d ⟨o, i, none, none⟩ = false)
    (heff : effOp (s.beginOp d sl ⟨o, i, none, none⟩ 0) d s.fab.nextOp i o =
      (s.beginOp d sl ⟨o, i, none, none⟩ 0).broadcast d i touches eff)
    (ht : s.touchesTrip d ((maskCells i.mask).flatMap touches) = none) :
    s.runOp d sl i o = .next (s.unitDone d sl i o touches eff) := by
  refine State.runOp_of_ok hi hc ?_
  have htrip := (State.touchesTrip_congr (s.beginOp_mem d sl ⟨o, i, none, none⟩ 0) d _).trans ht
  rw [heff, State.broadcast, htrip]
  rfl

/-- A part of the state that completion keeps, and every step, is at the end what it was when the cells began. -/
theorem State.unitDone_keeps {α : Type} (g : State → α) (hg : ∀ (u v : State), u.mem = v.mem → u.cells = v.cells → g u = g v)
    (heff : ∀ t c, g (eff t c) = g t) : g (s.unitDone d sl i o touches eff) = g (s.unitBegun d sl i o touches) := by
  obtain ⟨-, hm, hc⟩ := ((maskCells i.mask).foldl eff (s.unitBegun d sl i o touches)).drawn.settle_keeps d d s.fab.nextOp
  have hdrawn := hg ((maskCells i.mask).foldl eff (s.unitBegun d sl i o touches)).drawn
    ((maskCells i.mask).foldl eff (s.unitBegun d sl i o touches)) rfl rfl
  refine (hg _ _ hm hc).trans (hdrawn.trans ?_)
  exact List.foldlRecOn _ _ (motive := fun t => g t = g (s.unitBegun d sl i o touches)) rfl (fun t ht c _ => (heff t c).trans ht)

/-- An operation whose steps do not write SRAM leaves it alone. -/
theorem State.unitDone_sram (heff : ∀ t c, (eff t c).mem.sram = t.mem.sram) :
    (s.unitDone d sl i o touches eff).mem.sram = s.mem.sram :=
  (State.unitDone_keeps (fun t => t.mem.sram) (fun _ _ hm _ => congrArg MemState.sram hm) heff).trans
    (State.correctTouches_data _ _ _).2.1

/-- One whose steps do not write registers leaves them alone. -/
theorem State.unitDone_vregs (heff : ∀ t c, (eff t c).cells.vregs = t.cells.vregs) :
    (s.unitDone d sl i o touches eff).cells.vregs = s.cells.vregs :=
  (State.unitDone_keeps (fun t => t.cells.vregs) (fun _ _ _ hc => congrArg CellState.vregs hc) heff).trans
    (congrArg CellState.vregs (State.correctTouches_keeps _ d d _).2.2)

/-- At the end the frame is as before, and every enabled cell has what its step makes of the data before. -/
theorem CellStep.unitDone {res : State → Nat → CellData} (h : CellStep d (maskCells i.mask) eff res) :
    (s.unitDone d sl i o touches eff).unitFrame d = s.unitFrame d ∧
      ∀ e c, c < 64 → (s.unitDone d sl i o touches eff).cellData e c =
        if e = d ∧ i.mask.getLsbD c = true then res s c else s.cellData e c := by
  have hready : (s.unitBegun d sl i o touches).unitFrame d = s.unitFrame d :=
    (unitFrame_correctTouches _ d d _).trans (unitFrame_beginOp s d d sl _ 0)
  have hdata : ∀ e c, (s.unitBegun d sl i o touches).cellData e c = s.cellData e c := fun e c =>
    (State.cellData_correctTouches _ d e _ c).trans rfl
  obtain ⟨hframe, hcells⟩ := h.foldl (nodup_maskCells _) (s.unitBegun d sl i o touches)
  obtain ⟨-, hm, hc⟩ := ((maskCells i.mask).foldl eff (s.unitBegun d sl i o touches)).drawn.settle_keeps d d s.fab.nextOp
  refine ⟨(unitFrame_settle _ d d _).trans (hframe.trans hready), fun e c hlt => ?data⟩
  case data =>
    refine (State.cellData_congr (congrArg CellState.vregs hc) (congrArg MemState.sram hm) (congrArg MemState.sramValid hm)
      e c).trans ?_
    refine (hcells e c hlt).trans ?_
    by_cases hin : e = d ∧ i.mask.getLsbD c = true
    · rw [if_pos hin, if_pos ⟨hin.1, mem_maskCells.2 ⟨hlt, hin.2⟩⟩]
      exact h.congr _ _ c (mem_maskCells.2 ⟨hlt, hin.2⟩) hready (hdata d c)
    · rw [if_neg hin, if_neg (fun h' => hin ⟨h'.1, (mem_maskCells.1 h'.2).2⟩)]
      exact hdata e c

end

end Sys2Proof.Machine
end

section
/-! O14: a drain widens rows of totals into consecutive registers of every enabled cell (R183). -/

namespace Sys2Proof.Machine

open Sys2Proof

/-! ### One row -/

/-- The lanes that a drain makes of row k of a cell. -/
def State.drainLanes (s : State) (d : DieId) (f : DrainF) (c k : Nat) : List W32 :=
  (List.range 64).map (fun n => (drainTotal (s.drainA16 d f c k)
    (if (s.totalRow d c f.array.val f.tile.val f.colgrp.val (f.row.val + k)).mode != .closed then
      s.total d c f.array.val (totalAt f.tile.val f.shape (s.drainA16 d f c k) (f.row.val + k) (f.colgrp.val * 64 + n))
        (s.drainA16 d f c k) else 0)).1)

/-- They depend on the records of the rows and on the accumulators. -/
theorem State.drainLanes_of_unitFrame {s t : State} {d : DieId} (h : t.unitFrame d = s.unitFrame d) (f : DrainF) (c k : Nat) :
    t.drainLanes d f c k = s.drainLanes d f c k := by
  have hrow : ∀ r, t.totalRow d c f.array.val f.tile.val f.colgrp.val r = s.totalRow d c f.array.val f.tile.val f.colgrp.val r := by
    intro r
    unfold State.totalRow
    rw [totalRows_of_unitFrame h]
  simp only [State.drainLanes, State.drainA16, hrow, State.total_congr (acc_of_unitFrame h)]

theorem unitFrame_drainRow (s : State) (d x : DieId) (f : DrainF) (c k : Nat) :
    (s.drainRow d f c k).unitFrame x = s.unitFrame x :=
  (unitFrame_count _ d x _).trans (unitFrame_setVreg s d x c _ _)

/-- A row that is drained goes into one register of its cell. -/
theorem State.cellData_drainRow (s : State) {d e : DieId} (f : DrainF) {c c' k : Nat} (hc : c < 64) (hc' : c' < 64)
    (hk : f.dst.val + k < 64) : (s.drainRow d f c k).cellData e c' =
      if e = d ∧ c' = c then (s.cellData d c).setReg (f.dst.val + k) (s.drainLanes d f c k) else s.cellData e c' := by
  unfold State.drainRow
  dsimp only
  rw [State.cellData_count, State.cellData_setVreg _ _ hc hc' hk, List.map_map]
  rfl

/-- The lanes of a row as R183 gives them; a row that no operation has opened gives +0. -/
theorem getD_drainLanes (s : State) (d : DieId) (f : DrainF) (c k : Nat) {n : Nat} (hn : n < 64) :
    (s.drainLanes d f c k).getD n 0 =
      if (s.totalRow d c f.array.val f.tile.val f.colgrp.val (f.row.val + k)).mode = .closed then 0
      else moveF32 (decodeElem (if (s.totalRow d c f.array.val f.tile.val f.colgrp.val (f.row.val + k)).mode == .a16 then .bf16 else .f32)
        (s.total d c f.array.val (totalAt f.tile.val f.shape
          ((s.totalRow d c f.array.val f.tile.val f.colgrp.val (f.row.val + k)).mode == .a16) (f.row.val + k) (f.colgrp.val * 64 + n))
          ((s.totalRow d c f.array.val f.tile.val f.colgrp.val (f.row.val + k)).mode == .a16))) := by
  rw [State.drainLanes, List.getD_eq_getElem?_getD, List.getElem?_map, List.getElem?_range hn, Option.map_some, Option.getD_some]
  unfold State.drainA16
  generalize (s.totalRow d c f.array.val f.tile.val f.colgrp.val (f.row.val + k)).mode = mode
  cases mode with
  | closed => exact (by decide : (drainTotal true 0).1 = 0)
  | a32 => rfl
  | a32Sr => rfl
  | a16 => rfl

/-! ### The cells -/

/-- One cell's share of a drain. -/
def State.drainCell (d : DieId) (f : DrainF) (s : State) (c : Nat) : State :=
  (List.range (f.nrows.val + 1)).foldl (fun u k => u.drainRow d f c k) s

/-- The data of a cell after its share. -/
def State.drained (s : State) (d : DieId) (f : DrainF) (c : Nat) : CellData :=
  (s.cellData d c).setRegs f.dst.val (f.nrows.val + 1) (s.drainLanes d f c)

theorem cellStep_drain {d : DieId} {f : DrainF} {cells : List Nat} (hcells : ∀ c ∈ cells, c < 64)
    (hdst : f.dst.val + f.nrows.val ≤ 63) :
    CellStep d cells (State.drainCell d f) (fun t c => t.drained d f c) where
  frame t c := List.foldlRecOn _ _ (motive := fun (u : State) => u.unitFrame d = t.unitFrame d) rfl
    (fun u hu k _ => (unitFrame_drainRow u d d f c k).trans hu)
  data t e c c' hc hc' := by
    refine (cellData_foldl_setReg t (fun u k hk hu => ⟨(unitFrame_drainRow u d d f c k).trans hu, fun e c' hc' => ?_⟩)
      (hcells c hc)).2 e c' hc'
    rw [u.cellData_drainRow f (hcells c hc) hc' (by omega), State.drainLanes_of_unitFrame hu]
  congr t u c _ hf hd := by
    unfold State.drained
    rw [hd, funext fun k => State.drainLanes_of_unitFrame hf f c k]

/-- The memories are not written. -/
theorem State.drainCell_mem (d : DieId) (f : DrainF) (s : State) (c : Nat) : (s.drainCell d f c).mem = s.mem :=
  List.foldlRecOn _ _ (motive := fun (u : State) => u.mem = s.mem) rfl (fun _ hu _ _ => hu)

/-- Settles O14: each row goes into one register of its cell, and the rows of totals are read from what no row changes. -/
theorem drainWidensTotals : Obligations.DrainWidensTotals := by
  unfold Obligations.DrainWidensTotals
  intro d i f s hi hdef hfits
  have hdst : f.dst.val + f.nrows.val ≤ 63 := by
    simp only [drainDefined, Bool.and_eq_true, decide_eq_true_eq] at hdef
    exact hdef.2
  have hrun : s.runOp d .a i (.drain f) = .next (s.unitDone d .a i (.drain f) (fun _ => []) (State.drainCell d f)) := by
    refine State.runOp_broadcast hi (by simp [State.completesAtOnce, hi]) ?_ (s.touchesTrip_none d _)
    have hfits' : (s.beginOp d .a ⟨.drain f, i, none, none⟩ 0).drainFits d i f = true := hfits
    simp only [effOp, effDrain, hdef, hfits', Bool.and_self, if_true]
    rfl
  obtain ⟨hframe, hdata⟩ := (cellStep_drain (f := f) (fun c hc => (mem_maskCells.1 hc).1) hdst).unitDone
    (s := s) (sl := .a) (i := i) (o := .drain f) (touches := fun _ => [])
  refine ⟨_, hrun, fun c hc hm k n hk hn => ?lanes, fun e c q hc hq hne => ?others, ?tiles, ?mem, ?control⟩
  case lanes =>
    have hlane := congrFun (congrArg CellData.regs (hdata d c hc)) ⟨f.dst.val + k, by omega⟩
    rw [if_pos ⟨rfl, hm⟩] at hlane
    unfold lane
    rw [show State.vreg _ d c (f.dst.val + k) = _ from hlane]
    simp only [State.drained, CellData.setRegs]
    rw [if_pos (by omega), getD_map_range_64 _ hn, Nat.add_sub_cancel_left]
    exact getD_drainLanes s d f c k hn
  case others =>
    have hreg := congrFun (congrArg CellData.regs (hdata e c hc)) ⟨q, hq⟩
    refine Eq.trans hreg ?_
    split
    · next h =>
      obtain ⟨rfl, hm⟩ := h
      exact if_neg (fun h' => hne ⟨rfl, hm, h'.1, by have := h'.2; simp only [] at this; omega⟩)
    · rfl
  case tiles => exact tiles_of_unitFrame hframe
  case mem =>
    exact (State.unitDone_keeps State.mem (fun _ _ hm _ => hm) (State.drainCell_mem d f)).trans
      (congrArg State.mem (State.correctTouches_none (s.beginOp d .a ⟨.drain f, i, none, none⟩ 0) d _) :)
  case control => exact sameControl_of_unitFrame hframe

end Sys2Proof.Machine
end

section
/-! SUPPORT. Operations of slots V and F whose destination is a register or a row of SRAM: operands, packed rows, and what such an
operation leaves (R66, R173, R187). -/

namespace Sys2Proof.Machine

open Sys2Proof

/-! ### Bytes in a row -/

/-- The bytes of a number in two parts. -/
theorem leBytes_add (m n a b : Nat) (ha : a < 256 ^ m) : leBytes (m + n) (a + 256 ^ m * b) = leBytes m a ++ leBytes n b := by
  induction m generalizing a with
  | zero =>
    obtain rfl : a = 0 := by simpa using ha
    simp [leBytes]
  | succ m ih =>
    have hlow : BitVec.ofNat 8 (a + 256 ^ (m + 1) * b) = BitVec.ofNat 8 a := by
      apply BitVec.eq_of_toNat_eq
      rw [BitVec.toNat_ofNat, BitVec.toNat_ofNat, pow_succ, show 256 ^ m * 256 * b = 2 ^ 8 * (256 ^ m * b) by ring,
        Nat.add_mul_mod_self_left]
    have hhigh : (a + 256 ^ (m + 1) * b) / 256 = a / 256 + 256 ^ m * b := by
      rw [pow_succ, show 256 ^ m * 256 * b = 256 * (256 ^ m * b) by ring, Nat.add_mul_div_left _ _ (by decide)]
    rw [Nat.succ_add, leBytes, hlow, hhigh, ih _ (Nat.div_lt_of_lt_mul (by rwa [pow_succ, Nat.mul_comm] at ha)), leBytes,
      List.cons_append]

/-- A row of binary32 codes is their bytes, one after another. -/
theorem packRow_32 (v : List W32) : packRow 32 (v.map BitVec.toNat) = v.flatMap (fun w => leBytes 4 w.toNat) := by
  induction v with
  | nil => rfl
  | cons w v ih =>
    have hw : w.toNat % 2 ^ 32 = w.toNat := Nat.mod_eq_of_lt w.isLt
    have hlen : 32 * (v.length + 1) / 8 = 4 + 32 * v.length / 8 := by omega
    rw [List.flatMap_cons, ← ih]
    unfold packRow
    rw [List.map_cons, List.length_cons, List.length_map, packNat, hw, hlen]
    exact leBytes_add 4 _ _ _ w.isLt

theorem length_packRow (w : Nat) (codes : List Nat) : (packRow w codes).length = w * codes.length / 8 := length_leBytes _ _

/-- One of several parts of equal length. -/
theorem take_drop_flatMap {α β : Type} (g : α → List β) (w : Nat) (l : List α) (hg : ∀ x ∈ l, (g x).length = w) {j : Nat}
    (hj : j < l.length) : ((l.flatMap g).drop (w * j)).take w = g l[j] := by
  induction l generalizing j with
  | nil => simp at hj
  | cons x l ih =>
    have hx := hg x List.mem_cons_self
    rw [List.flatMap_cons]
    cases j with
    | zero => simp [← hx]
    | succ j =>
      rw [List.drop_append, List.drop_eq_nil_of_le (by rw [hx, Nat.mul_succ]; exact Nat.le_add_left _ _), List.nil_append, hx,
        Nat.mul_succ, Nat.add_sub_cancel]
      exact ih (fun y hy => hg y (List.mem_cons_of_mem _ hy)) (by simpa using hj)

/-! ### Reads of written data -/

/-- A part of the bytes written reads back. -/
theorem sramRead_of_write {t : State} {d : DieId} {c a : Nat} {x : CellData} {bs : List Byte} (h : t.cellData d c = x.write a bs)
    (ha : a + bs.length ≤ 2 ^ 22) {k n : Nat} (hk : k + n ≤ bs.length) : t.sramRead d c (a + k) n = (bs.drop k).take n := by
  rw [sramRead_eq_map]
  refine List.ext_getElem (by simp; omega) fun i h1 h2 => ?_
  have hi : i < n := by simpa using h1
  have hbyte := congrFun (congrArg CellData.bytes h) ⟨a + k + i, by omega⟩
  dsimp only [State.cellData, CellData.write] at hbyte
  rw [if_pos (by omega), show a + k + i - a = k + i by omega, List.getD_eq_getElem _ _ (by omega)] at hbyte
  simpa using hbyte

/-- A write of whole lines leaves the bytes of all others. -/
theorem CellData.bytes_write_apart (x : CellData) {a : Nat} {bs : List Byte} (ha : a % 128 = 0) (hn : bs.length % 128 = 0)
    {k : Fin (2 ^ 22)} (hk : ¬ (a ≤ k.val ∧ k.val < a + bs.length)) : (x.write a bs).bytes k = x.bytes k := by
  unfold CellData.write
  dsimp only
  rw [if_neg hk, if_neg]
  intro h
  have hl := h.1
  unfold touchesLine lineCount at hl
  rw [decide_eq_true_eq] at hl
  split at hl <;> omega

/-! ### Operands (R173) -/

/-- Accesses of the enabled cells raise no fault where the operation does not. -/
theorem touchTrip_of_cells {s : State} {d : DieId} {m : W64} {touches : Nat → List Touch}
    (h : s.touchesTrip d ((maskCells m).flatMap touches) = none) {c : Nat} (hc : c ∈ maskCells m) {x : Touch} (hx : x ∈ touches c) :
    s.touchTrip d x = none :=
  touchTrip_of_touchesTrip h (List.mem_flatMap.2 ⟨c, hc, hx⟩)

/-- An operand depends on the data of its cell. -/
theorem State.opnd_of_cellData {s t : State} {d : DieId} {c : Nat} (h : t.cellData d c = s.cellData d c) (ha : t.audit = s.audit)
    {f : Fmt} {o : Opnd} (hfits : ∀ x ∈ opndReads o f c, x.addr + x.len ≤ 2 ^ 22) : t.opnd d c f o = s.opnd d c f o := by
  cases o with
  | reg r => simp only [State.opnd, ha, State.vreg_of_cellData h r.isLt]
  | sram p off =>
    have := hfits _ (List.mem_singleton.2 rfl)
    simp only [State.opnd, ha, sramRead_of_cellData h this]
  | scalar w => simp only [State.opnd, ha]
  | none => rfl

theorem State.length_opnd (s : State) (d : DieId) (c : Nat) (f : Fmt) (o : Opnd) : (s.opnd d c f o).length = 64 := by
  cases o <;> simp [State.opnd, State.vreg, unpackRow]

theorem getD_map_opnd (s : State) (d : DieId) (c : Nat) (f : Fmt) (o : Opnd) (g : Num → W32) {j : Nat} (hj : j < 64) :
    ((s.opnd d c f o).map g).getD j 0 = g ((s.opnd d c f o).getD j numZero) := by
  have hlen : j < (s.opnd d c f o).length := by rwa [State.length_opnd]
  rw [List.getD_eq_getElem _ _ (by rwa [List.length_map]), List.getElem_map, List.getD_eq_getElem _ _ hlen]

/-! ### A register as destination -/

/-- What a state t holds after an operation whose destination is register r: new lanes in the enabled cells, and all else as in the
state s before. -/
structure RegisterDone (d : DieId) (m : W64) (r : Fin 64) (lanes : Nat → List W32) (s t : State) : Prop where
  lane : ∀ c, c < 64 → m.getLsbD c = true → ∀ j, j < 64 → lane t d c r.val j = (lanes c).getD j 0
  others : ∀ e c q, c < 64 → q < 64 → ¬ (e = d ∧ m.getLsbD c = true ∧ q = r.val) → t.vreg e c q = s.vreg e c q
  sram : t.mem.sram = s.mem.sram
  frame : t.unitFrame d = s.unitFrame d

/-- What it holds after one whose destination in each cell is n bytes of SRAM at an address. -/
structure RowDone (d : DieId) (m : W64) (addr : Nat → Nat) (n : Nat) (row : Nat → List Byte) (s t : State) : Prop where
  row : ∀ c, c < 64 → m.getLsbD c = true → ∀ k w, k + w ≤ n → t.sramRead d c (addr c + k) w = ((row c).drop k).take w
  others : ∀ e c a, c < 64 → a < 2 ^ 22 → ¬ (e = d ∧ m.getLsbD c = true ∧ addr c ≤ a ∧ a < addr c + n) →
    sramByte t e c a = sramByte s e c a
  cells : t.cells = s.cells
  frame : t.unitFrame d = s.unitFrame d

section
variable {s : State} {d : DieId} {sl : Slot} {i : Issue} {o : Op} {touches : Nat → List Touch} {eff : State → Nat → State}

/-- An operation whose cells each put lanes into a register that depend on the cell's own data. -/
theorem State.unitDone_register {r : Fin 64} {lanes : State → Nat → List W32} {counts : State → Nat → Counts}
    (heff : ∀ t c, eff t c = (t.setVreg d c r.val (lanes t c)).count d (counts t c))
    (hlanes : ∀ (t u : State) (c : Nat), c ∈ maskCells i.mask → t.unitFrame d = u.unitFrame d →
      t.cellData d c = u.cellData d c → lanes t c = lanes u c) :
    RegisterDone d i.mask r (lanes s) s (s.unitDone d sl i o touches eff) := by
  have hstep : CellStep d (maskCells i.mask) eff (fun t c => (t.cellData d c).setReg r.val (lanes t c)) := by
    refine ⟨fun t c => ?_, fun t e c c' hc hc' => ?_, fun t u c hc hf hd => ?_⟩
    · rw [heff, unitFrame_count, unitFrame_setVreg]
    · rw [heff, State.cellData_count, State.cellData_setVreg _ _ (mem_maskCells.1 hc).1 hc' r.isLt]
    · rw [hd, hlanes t u c hc hf hd]
  obtain ⟨hframe, hdata⟩ := hstep.unitDone (s := s) (sl := sl) (o := o) (touches := touches)
  refine ⟨fun c hc hm j hj => ?lane, fun e c q hc hq hne => ?others, ?sram, hframe⟩
  case lane =>
    have hreg := congrFun (congrArg CellData.regs (hdata d c hc)) r
    rw [if_pos ⟨rfl, hm⟩] at hreg
    dsimp only [CellData.setReg] at hreg
    rw [if_pos rfl] at hreg
    exact (congrArg (fun v => List.getD v j 0) hreg).trans (getD_map_range_64 _ hj)
  case others =>
    refine Eq.trans (congrFun (congrArg CellData.regs (hdata e c hc)) ⟨q, hq⟩) ?_
    split
    · next h =>
      obtain ⟨rfl, hm⟩ := h
      exact if_neg (fun h' => hne ⟨rfl, hm, h'⟩)
    · rfl
  case sram => exact State.unitDone_sram (fun t c => by rw [heff]; rfl)

/-- An operation whose cells each write whole lines of SRAM that depend on the cell's own data. -/
theorem State.unitDone_row {addr : Nat → Nat} {n : Nat} {row : State → Nat → List Byte} {counts : State → Nat → Counts}
    (heff : ∀ t c, eff t c = (t.sramWrite d c (addr c) (row t c)).count d (counts t c)) (hlen : ∀ t c, (row t c).length = n)
    (hn : n % 128 = 0) (haddr : ∀ c ∈ maskCells i.mask, addr c + n ≤ 2 ^ 22 ∧ addr c % 128 = 0)
    (hrow : ∀ (t u : State) (c : Nat), c ∈ maskCells i.mask → t.unitFrame d = u.unitFrame d →
      t.cellData d c = u.cellData d c → row t c = row u c) :
    RowDone d i.mask addr n (row s) s (s.unitDone d sl i o touches eff) := by
  have hstep : CellStep d (maskCells i.mask) eff (fun t c => (t.cellData d c).write (addr c) (row t c)) := by
    refine ⟨fun t c => ?_, fun t e c c' hc hc' => ?_, fun t u c hc hf hd => ?_⟩
    · rw [heff, unitFrame_count, unitFrame_sramWrite]
    · rw [heff, State.cellData_count,
        State.cellData_sramWrite _ (mem_maskCells.1 hc).1 hc' (by rw [hlen]; exact (haddr c hc).1)]
    · rw [hd, hrow t u c hc hf hd]
  obtain ⟨hframe, hdata⟩ := hstep.unitDone (s := s) (sl := sl) (o := o) (touches := touches)
  refine ⟨fun c hc hm k w hk => ?row, fun e c a hc ha hne => ?others, ?cells, hframe⟩
  case row =>
    have hcell := hdata d c hc
    rw [if_pos ⟨rfl, hm⟩] at hcell
    exact sramRead_of_write hcell (by rw [hlen]; exact (haddr c (mem_maskCells.2 ⟨hc, hm⟩)).1) (by rwa [hlen])
  case others =>
    refine Eq.trans (congrFun (congrArg CellData.bytes (hdata e c hc)) ⟨a, ha⟩) ?_
    split
    · next h =>
      obtain ⟨rfl, hm⟩ := h
      refine CellData.bytes_write_apart _ (haddr c (mem_maskCells.2 ⟨hc, hm⟩)).2 (by rwa [hlen]) (fun h' => ?_)
      rw [hlen] at h'
      exact hne ⟨rfl, hm, h'.1, h'.2⟩
    · rfl
  case cells => exact cells_of_unitFrame hframe (State.unitDone_vregs (fun t c => by rw [heff]; rfl))

end

end Sys2Proof.Machine
end

section
/-! O11: the function unit and drop-out masks, into registers and into SRAM (R125 to R127, R191, R192, R296). -/

namespace Sys2Proof.Machine

open Sys2Proof

/-! ### The function unit -/

/-- The operand of a slot F or V operation whose accesses raise no fault fits its cell. -/
theorem opndReads_fits {s : State} {d : DieId} {m : W64} {touches : Nat → List Touch}
    (h : s.touchesTrip d ((maskCells m).flatMap touches) = none) {c : Nat} (hc : c ∈ maskCells m) {o : Opnd} {f : Fmt}
    (hsub : ∀ x ∈ opndReads o f c, x ∈ touches c) : ∀ x ∈ opndReads o f c, x.addr + x.len ≤ 2 ^ 22 := fun x hx =>
  (range_of_touchTrip (touchTrip_of_cells h hc (hsub x hx))).1.trans (by decide)

/-- The binary32 lanes of a function operation. -/
def State.fnLanes (s : State) (d : DieId) (dv : Bool) (f : FnF) (c : Nat) : List W32 :=
  (s.opnd d c f.sfmt f.src).map (fun x => (fnLane s.audit dv f.func x).1)

/-- The codes of its result in the format of an SRAM destination. -/
def State.fnCodes (s : State) (d : DieId) (i : Issue) (dv : Bool) (f : FnF) (c : Nat) : List Nat :=
  (s.opnd d c f.sfmt f.src).zipIdx.map (fun x =>
    if f.ofmt = .f32 then (fnLane s.audit dv f.func x.1).1.toNat
    else (convertElem s.audit f.ofmt f.round f.ovf (s.convDraw d c x.2 (i.nominal + 8) 9 0)
      (readF32 s.audit (fnLane s.audit dv f.func x.1).1)).1)

/-- The counts of a function operation in one cell (R535). -/
def State.fnCounts (s : State) (d : DieId) (i : Issue) (dv : Bool) (f : FnF) (c : Nat) : Counts :=
  let rs := (s.opnd d c f.sfmt f.src).map (fnLane s.audit dv f.func)
  if fnTarget f = .f32 then rs.foldl (fun a x => a.add (Machine.fnCounts x.1 x.2)) {}
  else
    (rs.zipIdx.map (fun (x : (W32 × Bool) × Nat) =>
      let r := convertElem s.audit f.ofmt f.round f.ovf (s.convDraw d c x.2 (i.nominal + 8) 9 0) (readF32 s.audit x.1.1)
      (r.1, { r.2 with ovf := r.2.ovf + (if x.1.2 then 1 else 0) }))).foldl (fun a (x : Nat × Counts) => a.add x.2) {}

theorem State.fnCell_register {f : FnF} {r : Fin 64} (hdst : f.dst = .reg r) (s : State) (d : DieId) (i : Issue) (dv : Bool) (c : Nat) :
    s.fnCell d i dv f c = (s.setVreg d c r.val (s.fnLanes d dv f c)).count d (s.fnCounts d i dv f c) := by
  have htarget : fnTarget f = .f32 := by simp [fnTarget, hdst]
  unfold State.fnCell State.fnCounts
  simp only [htarget, if_true, hdst, State.putLanes, State.fnLanes, List.map_map]
  rfl

/-- In SRAM a function result is FP16, BF16 or binary32. -/
theorem ofmt_of_fnDefined {f : FnF} {p : Ptr} {off : BitVec 10} (hdef : fnDefined f = true) (hdst : f.dst = .sram p off) :
    f.ofmt = .f32 ∨ f.ofmt ≠ .f32 ∧ fmtWidth f.ofmt = 16 := by
  simp only [fnDefined, hdst, opndFmtOk, Bool.and_eq_true, Bool.or_eq_true, decide_eq_true_eq] at hdef
  rcases hdef.2 with (h | h) | h
  · exact .inr (by rw [h]; decide)
  · exact .inr (by rw [h]; decide)
  · exact .inl h

theorem State.fnCell_sram {f : FnF} {p : Ptr} {off : BitVec 10} (hdef : fnDefined f = true) (hdst : f.dst = .sram p off) (s : State)
    (d : DieId) (i : Issue) (dv : Bool) (c : Nat) : s.fnCell d i dv f c =
      (s.sramWrite d c (ptrSram p off c) (packRow (fmtWidth f.ofmt) (s.fnCodes d i dv f c))).count d (s.fnCounts d i dv f c) := by
  have htarget : fnTarget f = f.ofmt := by simp [fnTarget, hdst]
  unfold State.fnCell State.fnCounts
  rcases ofmt_of_fnDefined hdef hdst with hf | ⟨hf, hw⟩
  · have hcodes : s.fnCodes d i dv f c = (s.fnLanes d dv f c).map BitVec.toNat := by
      simp only [State.fnCodes, State.fnLanes, hf, if_true, List.map_map]
      conv_rhs => rw [← List.zipIdx_map_fst 0 (s.opnd d c f.sfmt f.src), List.map_map]
      rfl
    simp only [htarget, hf, if_true, hdst, State.putLanes, hcodes]
    rw [show fmtWidth .f32 = 32 from rfl, packRow_32]
    simp only [State.fnLanes, List.map_map]
    rfl
  · simp only [htarget, hf, if_false, hdst, opndAddr, hw, State.fnCodes, List.map_map, List.zipIdx_map]
    rfl

theorem exec_fn (dv : Bool) (d : DieId) (i : Issue) (f : FnF) (s : State) :
    exec (if dv then .fnd d i f else .fn d i f) s = s.runOp d .f i (.fn dv f) := by
  cases dv <;> rfl

/-- A function operation in a defined form, whose accesses raise no fault, runs to its end. -/
theorem exec_fn_of_noTrip {s : State} {d : DieId} {i : Issue} {f : FnF} (dv : Bool) (hi : i.hollow = false) (hdef : fnDefined f = true)
    (ht : s.touchesTrip d ((maskCells i.mask).flatMap (fun c => opndReads f.src f.sfmt c ++ opndWrites f.dst (fnTarget f) c)) = none) :
    exec (if dv then .fnd d i f else .fn d i f) s = .next (s.unitDone d .f i (.fn dv f)
      (fun c => opndReads f.src f.sfmt c ++ opndWrites f.dst (fnTarget f) c) (fun t c => t.fnCell d i dv f c)) :=
  (exec_fn dv d i f s).trans (State.runOp_broadcast hi (by simp only [State.completesAtOnce, hi, Bool.or_self])
    (by simp only [effOp, effFn, hdef, if_true]) ht)

/-! ### Drop-out masks -/

/-- The lanes of a drop-out mask (R296). -/
def State.dropLanes (s : State) (d : DieId) (f : VdropF) (c : Nat) : List W32 :=
  (s.opnd d c .f32 f.pos).map (fun x =>
    (dropLane ((s.front d).dropKeys.getD f.keyEntry.toNat 0) f.layer.toNat (ptrAt f.tok c) f.keep.toNat x).1)

/-- The counts of a drop-out mask in one cell. -/
def State.dropCounts (s : State) (d : DieId) (f : VdropF) (c : Nat) : Counts :=
  ((s.opnd d c .f32 f.pos).map (dropLane ((s.front d).dropKeys.getD f.keyEntry.toNat 0) f.layer.toNat (ptrAt f.tok c)
    f.keep.toNat)).foldl (fun a x => a.add x.2) {}

theorem State.vdropCell_register {f : VdropF} {r : Fin 64} (hdst : f.dst = .reg r) (s : State) (d : DieId) (c : Nat) :
    s.vdropCell d f c = (s.setVreg d c r.val (s.dropLanes d f c)).count d (s.dropCounts d f c) := by
  simp only [State.vdropCell, State.dropLanes, State.dropCounts, List.map_map, hdst, State.putLanes]
  rfl

theorem State.vdropCell_sram {f : VdropF} {p : Ptr} {off : BitVec 10} (hdst : f.dst = .sram p off) (s : State) (d : DieId) (c : Nat) :
    s.vdropCell d f c = (s.sramWrite d c (ptrSram p off c) ((s.dropLanes d f c).flatMap (fun w => leBytes 4 w.toNat))).count d
      (s.dropCounts d f c) := by
  simp only [State.vdropCell, State.dropLanes, State.dropCounts, List.map_map, hdst, State.putLanes]
  rfl

/-- A drop-out mask with a destination, whose accesses raise no fault, runs to its end. -/
theorem exec_vdrop_of_noTrip {s : State} {d : DieId} {i : Issue} {f : VdropF} (hi : i.hollow = false) (hk : f.keep ≠ 0)
    (hd : opndIsDest f.dst = true)
    (ht : s.touchesTrip d ((maskCells i.mask).flatMap (fun c => opndReads f.pos .f32 c ++ opndWrites f.dst .f32 c)) = none) :
    exec (.vdrop d i f) s = .next (s.unitDone d .v i (.vdrop f)
      (fun c => opndReads f.pos .f32 c ++ opndWrites f.dst .f32 c) (fun t c => t.vdropCell d f c)) :=
  State.runOp_broadcast hi (by simp only [State.completesAtOnce, hi, Bool.or_self])
    (by simp only [effOp, effVdrop, hd, bne_iff_ne.2 hk, Bool.and_self, if_true]) ht

/-- The lanes of a function operation and of a drop-out mask depend on their cells' data. -/
theorem State.fnLanes_congr {t u : State} {d : DieId} (hf : t.unitFrame d = u.unitFrame d) {c : Nat}
    (hd : t.cellData d c = u.cellData d c) (dv : Bool) {f : FnF}
    (hfits : ∀ x ∈ opndReads f.src f.sfmt c, x.addr + x.len ≤ 2 ^ 22) : t.fnLanes d dv f c = u.fnLanes d dv f c := by
  have ha := State.audit_of_unitFrame hf
  unfold State.fnLanes
  rw [State.opnd_of_cellData hd ha hfits, ha]

theorem State.fnCodes_congr {t u : State} {d : DieId} (hf : t.unitFrame d = u.unitFrame d) {c : Nat}
    (hd : t.cellData d c = u.cellData d c) (i : Issue) (dv : Bool) {f : FnF}
    (hfits : ∀ x ∈ opndReads f.src f.sfmt c, x.addr + x.len ≤ 2 ^ 22) : t.fnCodes d i dv f c = u.fnCodes d i dv f c := by
  have ha := State.audit_of_unitFrame hf
  simp only [State.fnCodes, State.opnd_of_cellData hd ha hfits, ha, State.convDraw_of_unitFrame hf]

theorem State.dropLanes_congr {t u : State} {d : DieId} (hf : t.unitFrame d = u.unitFrame d) {c : Nat}
    (hd : t.cellData d c = u.cellData d c) {f : VdropF} (hfits : ∀ x ∈ opndReads f.pos .f32 c, x.addr + x.len ≤ 2 ^ 22) :
    t.dropLanes d f c = u.dropLanes d f c := by
  unfold State.dropLanes
  rw [State.opnd_of_cellData hd (State.audit_of_unitFrame hf) hfits, dropKeys_of_unitFrame hf]

/-! ### The statement -/

/-- What R296 says of one element, written out. -/
theorem dropLane_eq (key : W64) (layer t keep : Nat) (v : Num) : (dropLane key layer t keep v).1 =
    match smallInt v with
    | none => 0x7FC00000
    | some e => if (mix64 (key ^^^ (BitVec.ofNat 64 (layer * 2 ^ 56) ||| BitVec.ofNat 64 (t * 2 ^ 16) ||| BitVec.ofNat 64 e)) >>> 56).toNat <
        keep then 0x3F800000 else 0 := by
  unfold dropLane
  cases smallInt v with
  | none => rfl
  | some e => dsimp only; split <;> rfl

/-- What R127 says of one input, written out. -/
theorem fnLane_eq (audit dv : Bool) (f : FnName) (x : Num) : (fnLane audit dv f x).1 =
    match (if dv then fndSpecial f x else fnSpecial f x) with
    | some v => moveF32 v
    | none => BitVec.ofNat 32 (flushCode audit .f32 (fnOrdinary dv f (Config.fnResult (fnCode f) dv (moveF32 x)) x).toNat) := by
  unfold fnLane
  cases (if dv then fndSpecial f x else fnSpecial f x) <;> rfl

/-- Settles O11: the lanes of each cell are a function of the cell's own operand, and go to a register or to a row of SRAM. -/
theorem functionAndDropOutResults : Obligations.FunctionAndDropOutResults := by
  unfold Obligations.FunctionAndDropOutResults
  refine ⟨?fnRegister, ?dropRegister, ?fnRow, ?dropRow⟩
  case fnRegister =>
    intro dv d i f s r hi hdef hdst ht
    have htouch : (fun c => opndReads f.src f.sfmt c ++ opndWrites f.dst (fnTarget f) c) = fun c => opndReads f.src f.sfmt c := by
      funext c
      rw [hdst]
      exact List.append_nil _
    have hexec := exec_fn_of_noTrip dv hi hdef (by rwa [htouch])
    have hdone := State.unitDone_register (s := s) (sl := .f) (i := i) (o := .fn dv f)
      (touches := fun c => opndReads f.src f.sfmt c ++ opndWrites f.dst (fnTarget f) c)
      (fun t c => t.fnCell_register hdst d i dv c)
      (fun t u c hc hf hd => State.fnLanes_congr hf hd dv (opndReads_fits ht hc (fun _ hx => hx)))
    refine ⟨_, hexec, fun c hc hm j hj => ?_, hdone.others, tiles_of_unitFrame hdone.frame, hdone.sram,
      hbm_of_unitFrame hdone.frame, lpddr_of_unitFrame hdone.frame, acc_of_unitFrame hdone.frame,
      sameControl_of_unitFrame hdone.frame⟩
    exact (hdone.lane c hc hm j hj).trans ((getD_map_opnd _ _ _ _ _ _ hj).trans (fnLane_eq _ _ _ _))
  case dropRegister =>
    intro d i f s r hi hk hdst ht
    have htouch : (fun c => opndReads f.pos .f32 c ++ opndWrites f.dst .f32 c) = fun c => opndReads f.pos .f32 c := by
      funext c
      rw [hdst]
      exact List.append_nil _
    have hexec := exec_vdrop_of_noTrip hi hk (by rw [hdst]; rfl) (by rwa [htouch])
    have hdone := State.unitDone_register (s := s) (sl := .v) (i := i) (o := .vdrop f)
      (touches := fun c => opndReads f.pos .f32 c ++ opndWrites f.dst .f32 c)
      (fun t c => t.vdropCell_register hdst d c)
      (fun t u c hc hf hd => State.dropLanes_congr hf hd (opndReads_fits ht hc (fun _ hx => hx)))
    refine ⟨_, hexec, fun c hc hm j hj => ?_, hdone.others, tiles_of_unitFrame hdone.frame, hdone.sram,
      hbm_of_unitFrame hdone.frame, lpddr_of_unitFrame hdone.frame, acc_of_unitFrame hdone.frame,
      sameControl_of_unitFrame hdone.frame⟩
    exact (hdone.lane c hc hm j hj).trans ((getD_map_opnd _ _ _ _ _ _ hj).trans (dropLane_eq _ _ _ _ _))
  case fnRow =>
    intro dv d i f s p off hi hdef hdst ht
    have htouch : (fun c => opndReads f.src f.sfmt c ++ opndWrites f.dst (fnTarget f) c) =
        fun c => opndReads f.src f.sfmt c ++ opndWrites f.dst f.ofmt c := by
      rw [fnTarget, hdst]
    have hwrite (c : Nat) (hc : c ∈ maskCells i.mask) := range_of_touchTrip (touchTrip_of_cells ht hc
      (x := ⟨c, ptrSram p off c, rowBytes f.ofmt, true, true⟩)
      (List.mem_append_right _ (by rw [hdst]; exact List.mem_singleton.2 rfl)))
    have hexec := exec_fn_of_noTrip dv hi hdef (by rwa [htouch])
    have hlen (t : State) (c : Nat) : (packRow (fmtWidth f.ofmt) (t.fnCodes d i dv f c)).length = rowBytes f.ofmt := by
      rw [length_packRow, State.fnCodes, List.length_map, List.length_zipIdx, State.length_opnd, rowBytes]
    have hlines : rowBytes f.ofmt % 128 = 0 := by
      unfold rowBytes
      rcases ofmt_of_fnDefined hdef hdst with h | ⟨-, h⟩
      · rw [h]
        rfl
      · rw [h]
    have hdone := State.unitDone_row (s := s) (sl := .f) (i := i) (o := .fn dv f)
      (touches := fun c => opndReads f.src f.sfmt c ++ opndWrites f.dst (fnTarget f) c)
      (fun t c => t.fnCell_sram hdef hdst d i dv c) hlen hlines
      (fun c hc => ⟨(hwrite c hc).1.trans (by decide), (hwrite c hc).2 rfl⟩)
      (fun t u c hc hf hd => congrArg _ (State.fnCodes_congr hf hd i dv
        (opndReads_fits ht hc (fun _ hx => List.mem_append_left _ hx))))
    refine ⟨_, hexec, fun c hc hm => ?_, hdone.others, hdone.cells, hbm_of_unitFrame hdone.frame, lpddr_of_unitFrame hdone.frame,
      acc_of_unitFrame hdone.frame, sameControl_of_unitFrame hdone.frame⟩
    have hread := hdone.row c hc hm 0 _ (by rw [Nat.zero_add])
    rwa [List.drop_zero, List.take_of_length_le (hlen s c).le] at hread
  case dropRow =>
    intro d i f s p off hi hk hdst ht
    have hwrite (c : Nat) (hc : c ∈ maskCells i.mask) := range_of_touchTrip (touchTrip_of_cells ht hc
      (x := ⟨c, ptrSram p off c, 256, true, true⟩)
      (List.mem_append_right _ (by rw [hdst]; exact List.mem_singleton.2 rfl)))
    have hexec := exec_vdrop_of_noTrip hi hk (by rw [hdst]; rfl) ht
    have hlanes (t : State) (c : Nat) : (t.dropLanes d f c).length = 64 := by
      rw [State.dropLanes, List.length_map, State.length_opnd]
    have hlen (t : State) (c : Nat) : ((t.dropLanes d f c).flatMap (fun w => leBytes 4 w.toNat)).length = 256 := by
      simp [List.length_flatMap, hlanes]
    have hdone := State.unitDone_row (s := s) (sl := .v) (i := i) (o := .vdrop f)
      (touches := fun c => opndReads f.pos .f32 c ++ opndWrites f.dst .f32 c)
      (fun t c => t.vdropCell_sram hdst d c) hlen (by decide)
      (fun c hc => ⟨(hwrite c hc).1.trans (by decide), (hwrite c hc).2 rfl⟩)
      (fun t u c hc hf hd => congrArg _ (State.dropLanes_congr hf hd
        (opndReads_fits ht hc (fun _ hx => List.mem_append_left _ hx))))
    refine ⟨_, hexec, fun c hc hm j hj => ?_, hdone.others, hdone.cells, hbm_of_unitFrame hdone.frame,
      lpddr_of_unitFrame hdone.frame, acc_of_unitFrame hdone.frame, sameControl_of_unitFrame hdone.frame⟩
    have hlane := (getD_map_opnd s d c .f32 f.pos (fun x => (dropLane ((s.front d).dropKeys.getD f.keyEntry.toNat 0) f.layer.toNat
      (ptrAt f.tok c) f.keep.toNat x).1) hj).symm
    rw [hdone.row c hc hm (4 * j) 4 (by omega), take_drop_flatMap _ 4 _ (fun _ _ => length_leBytes _ _) (by rwa [hlanes]), hlane,
      ← State.dropLanes, List.getD_eq_getElem _ _ (by rwa [hlanes])]

end Sys2Proof.Machine
end

section
/-! SUPPORT. A conversion's row and its scales, as they stand in a cell's SRAM (R66, R67, R71, R81, R188). -/

namespace Sys2Proof.Machine

open Sys2Proof

/-! ### Blocks of a row -/

theorem length_blocksOf (n k : Nat) (l : List Num) : (blocksOf n k l).length = k := by
  induction k generalizing l with
  | zero => rfl
  | succ k ih => simp [blocksOf, ih]

/-- Block j of a row. -/
theorem getElem_blocksOf (n k : Nat) (l : List Num) {j : Nat} (hj : j < (blocksOf n k l).length) :
    (blocksOf n k l)[j] = (l.drop (j * n)).take n := by
  induction k generalizing l j with
  | zero => simp [blocksOf] at hj
  | succ k ih =>
    cases j with
    | zero => simp [blocksOf]
    | succ j =>
      simp only [blocksOf, List.getElem_cons_succ]
      rw [ih, List.drop_drop, Nat.succ_mul, Nat.add_comm]

/-- One code for each element of a block. -/
theorem length_convertBlock (audit : Bool) (f : Fmt) (rule : Rule) (setCode : Nat) (mode : Rnd) (ovf : Ovf) {draws : List Nat}
    {block : List Num} (h : draws.length = block.length) :
    (convertBlock audit f rule setCode mode ovf draws block).2.1.length = block.length := by
  unfold convertBlock
  dsimp only
  split
  · exact List.length_replicate
  · rw [List.length_map, List.length_map, List.length_zip, h, Nat.min_self]

/-- The blocks of a conversion in a defined form make up its rows. -/
theorem blkSize_mul_cvtScales {f : CvtF} (h : (f.rows2 || f.blk != .b128) = true) : blkSize f.blk * cvtScales f = 64 * cvtRows f := by
  unfold cvtScales cvtRows
  cases hb : f.blk <;> cases hr : f.rows2 <;> simp_all [blkSize, blkPerRow]

/-- The codes of several blocks of n elements each. -/
theorem length_convertBlocks {f : CvtF} (audit : Bool) (sets : List Byte) {draws : List Nat} {vals : List Num}
    (hv : vals.length = blkSize f.blk * cvtScales f) (hd : draws.length = blkSize f.blk * cvtScales f) :
    (convertBlocks audit f sets draws vals).2.1.length = blkSize f.blk * cvtScales f := by
  have hblock : ∀ x ∈ (blocksOf (blkSize f.blk) (cvtScales f) vals).zipIdx,
      (convertBlock audit f.fmt f.rule (sets.getD x.2 0).toNat f.round f.ovf
        (draws.drop (x.2 * blkSize f.blk) |>.take (blkSize f.blk)) x.1).2.1.length = blkSize f.blk := by
    intro x hx
    obtain ⟨-, hlt, hx1⟩ := List.mem_zipIdx hx
    simp only [Nat.zero_add, length_blocksOf] at hlt
    have hfit : x.2 * blkSize f.blk + blkSize f.blk ≤ blkSize f.blk * cvtScales f := by
      rw [← Nat.succ_mul, Nat.mul_comm]
      exact Nat.mul_le_mul_left _ hlt
    have hlen : x.1.length = blkSize f.blk := by
      rw [hx1, getElem_blocksOf, List.length_take, List.length_drop, hv, Nat.sub_zero]
      omega
    rw [length_convertBlock _ _ _ _ _ _ (by rw [hlen, List.length_take, List.length_drop, hd]; omega), hlen]
  unfold convertBlocks
  dsimp only
  rw [List.flatMap_map, List.length_flatMap, List.map_congr_left hblock, List.map_const', List.sum_replicate, List.length_zipIdx,
    length_blocksOf, smul_eq_mul, Nat.mul_comm]

theorem length_scales_convertBlocks (audit : Bool) (f : CvtF) (sets : List Byte) (draws : List Nat) (vals : List Num) :
    (convertBlocks audit f sets draws vals).1.length = cvtScales f := by
  unfold convertBlocks
  dsimp only
  rw [List.length_map, List.length_map, List.length_zipIdx, length_blocksOf]

/-! ### Single bytes written -/

/-- Some of a row of bytes, written one by one: entry y of a list at the address of its place, where a condition holds. -/
def CellData.writeSome {β : Type} (x : CellData) (a : Nat) (cond : β → Bool) (byte : β → Byte) (l : List (β × Nat)) : CellData :=
  l.foldl (fun x y => if cond y.1 then x.write (a + y.2) [byte y.1] else x) x

theorem touchesLine_one (a l : Nat) : touchesLine a 1 l = decide (l = a / 128) := by
  unfold touchesLine lineCount
  rw [if_neg (by decide), Nat.add_sub_cancel, Nat.sub_self]
  congr 1
  exact propext (by omega)

/-- A byte written into a line that has been written before changes that byte alone. -/
theorem CellData.bytes_write_one (x : CellData) {a : Nat} (b : Byte) (ha : a < 2 ^ 22)
    (hv : x.valid ⟨a / 128, by omega⟩ = true) (k : Fin (2 ^ 22)) :
    (x.write a [b]).bytes k = if k.val = a then b else x.bytes k := by
  unfold CellData.write
  dsimp only [List.length_singleton]
  by_cases hk : k.val = a
  · rw [if_pos (by omega), if_pos hk, hk, Nat.sub_self]
    rfl
  · rw [if_neg (by omega), if_neg hk, if_neg]
    rw [touchesLine_one, decide_eq_true_eq]
    intro h
    have hline : x.valid ⟨k.val / 128, by omega⟩ = true := by
      rw [← hv]
      congr 1
      exact Fin.ext h.1
    rw [hline] at h
    exact absurd h.2 (by decide)

theorem CellData.valid_write_of_valid {x : CellData} {l : Fin (2 ^ 15)} (h : x.valid l = true) (a : Nat) (bs : List Byte) :
    (x.write a bs).valid l = true := by
  unfold CellData.write
  dsimp only
  rw [h, Bool.true_or]

/-- Bytes written one by one into lines that have been written before. -/
theorem CellData.bytes_writeSome {β : Type} {a : Nat} (cond : β → Bool) (byte : β → Byte) (l : List β) (m : Nat) (x : CellData)
    (ha : a + m + l.length ≤ 2 ^ 22) (hv : ∀ p : Fin (2 ^ 22), a + m ≤ p.val → p.val < a + m + l.length →
      x.valid ⟨p.val / 128, by omega⟩ = true) (k : Fin (2 ^ 22)) :
    (x.writeSome a cond byte (l.zipIdx m)).bytes k =
      match l[k.val - (a + m)]? with
      | some y => if a + m ≤ k.val ∧ cond y = true then byte y else x.bytes k
      | none => x.bytes k := by
  induction l generalizing m x with
  | nil => rfl
  | cons y l ih =>
    rw [List.length_cons] at ha hv
    have hstep : ∀ q : Fin (2 ^ 22), (if cond y then x.write (a + m) [byte y] else x).bytes q =
        if q.val = a + m ∧ cond y = true then byte y else x.bytes q := by
      intro q
      split
      · next hc => rw [x.bytes_write_one _ (by omega) (hv ⟨a + m, by omega⟩ le_rfl (by simp)) q]; simp [hc]
      · next hc => simp [hc]
    have hvalid : ∀ p : Fin (2 ^ 22), a + (m + 1) ≤ p.val → p.val < a + (m + 1) + l.length →
        (if cond y then x.write (a + m) [byte y] else x).valid ⟨p.val / 128, by omega⟩ = true := by
      intro p h1 h2
      have := hv p (by omega) (by omega)
      split
      · exact CellData.valid_write_of_valid this _ _
      · exact this
    have hrec := ih (m + 1) (if cond y then x.write (a + m) [byte y] else x) (by omega) hvalid
    rw [List.zipIdx_cons]
    refine Eq.trans hrec ?_
    rw [hstep]
    rcases Nat.lt_trichotomy k.val (a + m) with h | h | h
    · rw [show k.val - (a + m) = 0 by omega, show k.val - (a + (m + 1)) = 0 by omega]
      cases l <;> simp [show ¬ a + m ≤ k.val by omega, show ¬ a + (m + 1) ≤ k.val by omega, show ¬ k.val = a + m by omega]
    · rw [show k.val - (a + m) = 0 by omega, show k.val - (a + (m + 1)) = 0 by omega]
      cases l <;> simp [h]
    · rw [show k.val - (a + m) = k.val - (a + (m + 1)) + 1 by omega, List.getElem?_cons_succ]
      cases l[k.val - (a + (m + 1))]? <;>
        simp [show a + m ≤ k.val by omega, show a + (m + 1) ≤ k.val by omega, show ¬ k.val = a + m by omega]

end Sys2Proof.Machine
end

section
/-! SUPPORT. A conversion as a command: what it leaves in every enabled cell (R188). -/

namespace Sys2Proof.Machine

open Sys2Proof

/-! ### A cell's share -/

/-- Whether a block is made NaN under SET, and the scale byte that it gets then. -/
def makesNan (f : CvtF) (x : List Num × Byte) : Bool := fmtNanless f.fmt && x.1.any Num.isNan

/-- The scale bytes of a conversion written into a cell's data (R81, R188). -/
def CellData.putScales (x : CellData) (a : Nat) (f : CvtF) (vals : List Num) (scales : List Byte) : CellData :=
  if f.rule = .set then
    x.writeSome a (makesNan f) Prod.snd ((blocksOf (blkSize f.blk) (cvtScales f) vals).zip scales).zipIdx
  else x.write a scales

theorem length_blocks_zip_scales (f : CvtF) (vals : List Num) {scales : List Byte} (h : scales.length = cvtScales f) :
    ((blocksOf (blkSize f.blk) (cvtScales f) vals).zip scales).length = cvtScales f := by
  rw [List.length_zip, length_blocksOf, h, Nat.min_self]

theorem State.cellData_putScales (s : State) {d e : DieId} {c c' : Nat} (f : CvtF) (vals : List Num) {scales : List Byte}
    (hc : c < 64) (hc' : c' < 64) (hlen : scales.length = cvtScales f) (ha : opndAddr f.scale c + cvtScales f ≤ 2 ^ 22) :
    (s.putScales d c f vals scales).cellData e c' =
      if e = d ∧ c' = c then (s.cellData d c).putScales (opndAddr f.scale c) f vals scales else s.cellData e c' := by
  unfold State.putScales CellData.putScales
  split
  · have hpart : ∀ (l : List ((List Num × Byte) × Nat)) (s : State), (∀ x ∈ l, x.2 < cvtScales f) →
        (l.foldl (fun (t : State) (x : (List Num × Byte) × Nat) =>
          if fmtNanless f.fmt && x.1.1.any Num.isNan then t.sramWrite d c (opndAddr f.scale c + x.2) [x.1.2] else t) s).cellData e c' =
        if e = d ∧ c' = c then (s.cellData d c).writeSome (opndAddr f.scale c) (makesNan f) Prod.snd l else s.cellData e c' := by
      intro l
      induction l with
      | nil =>
        intro s _
        split
        · next h => rw [h.1, h.2]; rfl
        · rfl
      | cons x l ih =>
        intro s hl
        have hx := hl x List.mem_cons_self
        rw [List.foldl_cons, ih _ (fun y hy => hl y (List.mem_cons_of_mem _ hy))]
        have hone : ∀ (e : DieId) (c' : Nat), c' < 64 →
            (if fmtNanless f.fmt && x.1.1.any Num.isNan then s.sramWrite d c (opndAddr f.scale c + x.2) [x.1.2] else s).cellData e c' =
              if e = d ∧ c' = c then
                (if makesNan f x.1 then (s.cellData d c).write (opndAddr f.scale c + x.2) [x.1.2] else s.cellData d c)
              else s.cellData e c' := by
          intro e c' hc'
          unfold makesNan
          split
          · exact s.cellData_sramWrite hc hc' (by rw [List.length_singleton]; omega)
          · split
            · next h => rw [h.1, h.2]
            · rfl
        rw [hone e c' hc', hone d c hc]
        by_cases hcell : e = d ∧ c' = c
        · rw [if_pos hcell, if_pos hcell, if_pos ⟨rfl, rfl⟩]
          rfl
        · rw [if_neg hcell, if_neg hcell, if_neg hcell]
    refine hpart _ s fun x hx => ?_
    have := (List.mem_zipIdx hx).2.1
    rwa [Nat.zero_add, length_blocks_zip_scales f vals hlen] at this
  · exact s.cellData_sramWrite hc hc' (by rwa [hlen])

theorem unitFrame_putScales (s : State) (d x : DieId) (c : Nat) (f : CvtF) (vals : List Num) (scales : List Byte) :
    (s.putScales d c f vals scales).unitFrame x = s.unitFrame x := by
  unfold State.putScales
  split
  · refine List.foldlRecOn _ _ (motive := fun (t : State) => t.unitFrame x = s.unitFrame x) rfl (fun t ht y _ => ?_)
    split
    · exact (unitFrame_sramWrite t d x c _ _).trans ht
    · exact ht
  · exact unitFrame_sramWrite s d x c _ _

theorem State.putScales_cells (s : State) (d : DieId) (c : Nat) (f : CvtF) (vals : List Num) (scales : List Byte) :
    (s.putScales d c f vals scales).cells = s.cells := by
  unfold State.putScales
  split
  · refine List.foldlRecOn _ _ (motive := fun (t : State) => t.cells = s.cells) rfl (fun t ht y _ => ?_)
    split
    · exact ht
    · exact ht
  · rfl

/-- The scale codes that a conversion under SET is given. -/
def State.givenScales (s : State) (d : DieId) (f : CvtF) (c : Nat) : List Byte :=
  if f.rule = .set then s.sramRead d c (opndAddr f.scale c) (cvtScales f) else []

/-- What a conversion makes of the blocks of one cell. -/
def State.cvtBlocks (s : State) (d : DieId) (i : Issue) (f : CvtF) (c : Nat) : List Byte × List Nat × Counts :=
  convertBlocks s.audit f (s.givenScales d f c) (s.cvtDraws d i f c) (s.cvtSource d f c)

/-- The codes that a conversion makes of the elements of one cell, for a format that is not block-scaled. -/
def State.cvtElems (s : State) (d : DieId) (i : Issue) (f : CvtF) (c : Nat) : List Nat :=
  ((s.cvtSource d f c).zip (s.cvtDraws d i f c)).map (fun x => (convertElem s.audit f.fmt f.round f.ovf x.2 x.1).1)

/-- The data of a cell after its share of a conversion. -/
def State.converted (s : State) (d : DieId) (i : Issue) (f : CvtF) (c : Nat) : CellData :=
  if fmtBlocked f.fmt then
    ((s.cellData d c).write (opndAddr f.dst c) (packRow (fmtWidth f.fmt) (s.cvtBlocks d i f c).2.1)).putScales (opndAddr f.scale c) f
      (s.cvtSource d f c) (s.cvtBlocks d i f c).1
  else (s.cellData d c).write (opndAddr f.dst c) (packRow (fmtWidth f.fmt) (s.cvtElems d i f c))

/-! ### Sources and draws -/

theorem State.length_cvtDraws (s : State) (d : DieId) (i : Issue) (f : CvtF) (c : Nat) :
    (s.cvtDraws d i f c).length = 64 * cvtRows f := by
  simp [State.cvtDraws, List.length_flatMap, Nat.mul_comm]

theorem State.length_cvtSource {f : CvtF} (h : cvtDefined f = true) (s : State) (d : DieId) (c : Nat) :
    (s.cvtSource d f c).length = 64 * cvtRows f := by
  cases hsrc : f.src with
  | reg r => simp [State.cvtSource, hsrc, State.vreg, List.length_flatMap, Nat.mul_comm]
  | sram p off => simp [cvtDefined, hsrc] at h
  | scalar w => simp [cvtDefined, hsrc] at h
  | none => simp [cvtDefined, hsrc] at h

theorem State.cvtDraws_congr {t u : State} {d : DieId} (hf : t.unitFrame d = u.unitFrame d) (i : Issue) (f : CvtF) (c : Nat) :
    t.cvtDraws d i f c = u.cvtDraws d i f c := by
  simp only [State.cvtDraws, State.convDraw_of_unitFrame hf]

theorem State.cvtSource_congr {t u : State} {d : DieId} {f : CvtF} (h : cvtDefined f = true) (hf : t.unitFrame d = u.unitFrame d)
    {c : Nat} (hd : t.cellData d c = u.cellData d c) : t.cvtSource d f c = u.cvtSource d f c := by
  cases hsrc : f.src with
  | reg r =>
    have hrows : r.val + cvtRows f ≤ 64 := by
      simp only [cvtDefined, hsrc, Bool.and_eq_true, decide_eq_true_eq] at h
      exact h.1.1.1.2
    simp only [State.cvtSource, hsrc, State.audit_of_unitFrame hf]
    refine List.flatMap_congr fun k hk => ?_
    have := List.mem_range.1 hk
    rw [State.vreg_of_cellData hd (by omega)]
  | sram p off => simp only [State.cvtSource, hsrc]
  | scalar w => simp only [State.cvtSource, hsrc]
  | none => simp only [State.cvtSource, hsrc]

/-! ### The addresses of a conversion -/

/-- What a conversion asks of its accesses in one cell (R174, R431). -/
structure CvtAccess (s : State) (d : DieId) (f : CvtF) (c : Nat) : Prop where
  dst : opndAddr f.dst c + cvtRows f * rowBytes f.fmt ≤ sramEnd
  line : opndAddr f.dst c % 128 = 0
  scale : fmtBlocked f.fmt = true → opndAddr f.scale c + cvtScales f ≤ sramEnd
  given : fmtBlocked f.fmt = true → f.rule = .set → ∀ l, touchesLine (opndAddr f.scale c) (cvtScales f) l = true →
    s.mem.lineValid d c l = true

theorem cvtAccess_of_noTrip {s : State} {d : DieId} {m : W64} {f : CvtF}
    (h : s.touchesTrip d ((maskCells m).flatMap (cvtTouches f)) = none) {c : Nat} (hc : c ∈ maskCells m) : CvtAccess s d f c := by
  have hdst := range_of_touchTrip (touchTrip_of_cells h hc (x := ⟨c, opndAddr f.dst c, cvtRows f * rowBytes f.fmt, true, true⟩)
    (List.mem_append_left _ (List.mem_singleton.2 rfl)))
  have hscale : fmtBlocked f.fmt = true → s.touchTrip d ⟨c, opndAddr f.scale c, cvtScales f, f.rule != .set, false⟩ = none :=
    fun hb => touchTrip_of_cells h hc (List.mem_append_right _ (by rw [if_pos hb]; exact List.mem_singleton.2 rfl))
  exact ⟨hdst.1, hdst.2 rfl, fun hb => (range_of_touchTrip (hscale hb)).1,
    fun hb hset l hl => lineValid_of_touchTrip (hscale hb) (by simp [hset]) hl⟩

/-- The row of a conversion in a defined form has the length of its destination. -/
theorem length_cvtRow_blocked {f : CvtF} (hdef : cvtDefined f = true) (s : State) (d : DieId) (i : Issue) (c : Nat) :
    (packRow (fmtWidth f.fmt) (s.cvtBlocks d i f c).2.1).length = cvtRows f * rowBytes f.fmt := by
  have hblk : (f.rows2 || f.blk != .b128) = true := by
    simp only [cvtDefined, Bool.and_eq_true] at hdef
    exact hdef.2
  have hrows := blkSize_mul_cvtScales hblk
  rw [length_packRow, State.cvtBlocks, length_convertBlocks _ _ (by rw [s.length_cvtSource hdef, hrows])
    (by rw [s.length_cvtDraws, hrows]), hrows, rowBytes, show fmtWidth f.fmt * (64 * cvtRows f) = fmtWidth f.fmt * cvtRows f * 8 * 8 by ring,
    show fmtWidth f.fmt * 64 = fmtWidth f.fmt * 8 * 8 by ring, Nat.mul_div_cancel _ (by decide), Nat.mul_div_cancel _ (by decide)]
  ring

theorem length_cvtRow_plain {f : CvtF} (hdef : cvtDefined f = true) (s : State) (d : DieId) (i : Issue) (c : Nat) :
    (packRow (fmtWidth f.fmt) (s.cvtElems d i f c)).length = cvtRows f * rowBytes f.fmt := by
  rw [length_packRow, State.cvtElems, List.length_map, List.length_zip, s.length_cvtSource hdef, s.length_cvtDraws, Nat.min_self,
    rowBytes, show fmtWidth f.fmt * (64 * cvtRows f) = fmtWidth f.fmt * cvtRows f * 8 * 8 by ring,
    show fmtWidth f.fmt * 64 = fmtWidth f.fmt * 8 * 8 by ring, Nat.mul_div_cancel _ (by decide), Nat.mul_div_cancel _ (by decide)]
  ring

/-! ### The cells -/

theorem State.cvtCell_cells (s : State) (d : DieId) (i : Issue) (f : CvtF) (c : Nat) : (s.cvtCell d i f c).cells = s.cells := by
  unfold State.cvtCell
  dsimp only
  split
  · exact State.putScales_cells _ d c f _ _
  · rfl

theorem cellStep_cvt {s : State} {d : DieId} (i : Issue) {f : CvtF} {cells : List Nat} (hcells : ∀ c ∈ cells, c < 64)
    (hdef : cvtDefined f = true) (hacc : ∀ c ∈ cells, CvtAccess s d f c) :
    CellStep d cells (fun t c => t.cvtCell d i f c) (fun t c => t.converted d i f c) where
  frame t c := by
    unfold State.cvtCell
    dsimp only
    split
    · exact (unitFrame_count _ d d _).trans ((unitFrame_putScales _ d d c f _ _).trans (unitFrame_sramWrite t d d c _ _))
    · exact (unitFrame_count _ d d _).trans (unitFrame_sramWrite t d d c _ _)
  data t e c c' hc hc' := by
    have hrow : opndAddr f.dst c + cvtRows f * rowBytes f.fmt ≤ 2 ^ 22 := (hacc c hc).dst.trans (by decide)
    unfold State.cvtCell State.converted
    dsimp only
    split
    · next hb =>
      have hwrite (e : DieId) (c' : Nat) (hc' : c' < 64) :=
        t.cellData_sramWrite (d := d) (e := e) (c' := c') (hcells c hc) hc'
          (bs := packRow (fmtWidth f.fmt) (t.cvtBlocks d i f c).2.1) (by rwa [length_cvtRow_blocked hdef])
      refine (State.cellData_putScales _ f _ (hcells c hc) hc' (length_scales_convertBlocks _ _ _ _ _)
        (((hacc c hc).scale hb).trans (by decide))).trans ?_
      refine (congrArg₂ (fun x y => if e = d ∧ c' = c then CellData.putScales x _ f _ _ else y) (hwrite d c (hcells c hc))
        (hwrite e c' hc')).trans ?_
      by_cases hcell : e = d ∧ c' = c
      · rw [if_pos hcell, if_pos hcell, if_pos ⟨rfl, rfl⟩]
        rfl
      · rw [if_neg hcell, if_neg hcell, if_neg hcell]
    · rw [List.map_map]
      exact t.cellData_sramWrite (bs := packRow (fmtWidth f.fmt) (t.cvtElems d i f c)) (hcells c hc) hc'
        (by rwa [length_cvtRow_plain hdef])
  congr t u c hc hf hd := by
    have ha := State.audit_of_unitFrame hf
    have hsrc := State.cvtSource_congr hdef hf hd
    have hdraws := State.cvtDraws_congr hf i f c
    unfold State.converted State.cvtBlocks State.cvtElems State.givenScales
    split
    · next hb =>
      have hread := sramRead_of_cellData hd (((hacc c hc).scale hb).trans (by decide) : opndAddr f.scale c + cvtScales f ≤ 2 ^ 22)
      rw [hd, ha, hsrc, hdraws, hread]
    · rw [hd, ha, hsrc, hdraws]

end Sys2Proof.Machine
end

section
/-! O10: a conversion leaves its row and its scales in SRAM (R188), an expansion its lanes in registers (R189). -/

namespace Sys2Proof.Machine

open Sys2Proof

/-! ### The bytes of a conversion -/

/-- n bytes of scales at address a lie in lines apart from those of w bytes at address b. -/
def LinesApart (a n b w : Nat) : Prop := a + n ≤ b / 128 * 128 ∨ (b + w + 127) / 128 * 128 ≤ a / 128 * 128

/-- Writing bytes leaves the bytes of every line apart from theirs. -/
theorem CellData.bytes_write_apart_line (x : CellData) {a : Nat} {bs : List Byte} {k : Fin (2 ^ 22)}
    (hk : ¬ (a ≤ k.val ∧ k.val < a + bs.length)) (hl : touchesLine a bs.length (k.val / 128) = false) :
    (x.write a bs).bytes k = x.bytes k := by
  unfold CellData.write
  dsimp only
  rw [if_neg hk, if_neg]
  rw [hl]
  exact fun h => Bool.false_ne_true h.1

/-- The scales of a conversion leave the row alone. -/
theorem CellData.bytes_putScales_row (x : CellData) (f : CvtF) (vals : List Num) {scales : List Byte} {a b w : Nat}
    (hlen : scales.length = cvtScales f) (ha : a + cvtScales f ≤ 2 ^ 22) (hapart : LinesApart a (cvtScales f) b w)
    (hv : f.rule = .set → ∀ l : Fin (2 ^ 15), touchesLine a (cvtScales f) l.val = true → x.valid l = true) {k : Fin (2 ^ 22)}
    (hk : b ≤ k.val ∧ k.val < b + w) : (x.putScales a f vals scales).bytes k = x.bytes k := by
  unfold LinesApart at hapart
  have hzip := length_blocks_zip_scales f vals hlen
  unfold CellData.putScales
  split
  · next hset =>
    rw [CellData.bytes_writeSome _ _ _ 0 x (by rw [hzip]; omega)]
    · split
      · next y hy =>
        have hlt := (List.getElem?_eq_some_iff.1 hy).1
        rw [hzip] at hlt
        rw [if_neg (by omega)]
      · rfl
    · intro p h1 h2
      rw [hzip] at h2
      refine hv hset _ ?_
      unfold touchesLine lineCount
      rw [decide_eq_true_eq]
      dsimp only
      split <;> omega
  · refine x.bytes_write_apart_line (by rw [hlen]; omega) ?_
    unfold touchesLine lineCount
    rw [decide_eq_false_iff_not, hlen]
    split <;> omega

/-- The scale bytes of a conversion: given ones stay under SET, but for those of a block made NaN. -/
theorem CellData.bytes_putScales_scale (x : CellData) (f : CvtF) (vals : List Num) {scales : List Byte} {a k : Nat}
    (hlen : scales.length = cvtScales f) (ha : a + cvtScales f ≤ 2 ^ 22)
    (hv : f.rule = .set → ∀ l : Fin (2 ^ 15), touchesLine a (cvtScales f) l.val = true → x.valid l = true) (hk : k < cvtScales f) :
    (x.putScales a f vals scales).bytes ⟨a + k, by omega⟩ =
      if f.rule = .set ∧ ¬ (fmtNanless f.fmt = true ∧
          ((vals.drop (k * blkSize f.blk)).take (blkSize f.blk)).any Num.isNan = true) then x.bytes ⟨a + k, by omega⟩
      else scales.getD k 0 := by
  have hzip := length_blocks_zip_scales f vals hlen
  unfold CellData.putScales
  by_cases hset : f.rule = .set
  · rw [if_pos hset, CellData.bytes_writeSome _ _ _ 0 x (by rw [hzip]; omega)]
    · have hget : ((blocksOf (blkSize f.blk) (cvtScales f) vals).zip scales)[a + k - (a + 0)]? =
          some ((vals.drop (k * blkSize f.blk)).take (blkSize f.blk), scales.getD k 0) := by
        rw [Nat.add_zero, Nat.add_sub_cancel_left, List.getElem?_eq_getElem (by omega), List.getElem_zip, getElem_blocksOf,
          List.getD_eq_getElem _ _ (by omega)]
      simp only [hget, hset, true_and, makesNan, Bool.and_eq_true]
      by_cases hnan : fmtNanless f.fmt = true ∧ ((vals.drop (k * blkSize f.blk)).take (blkSize f.blk)).any Num.isNan = true
      · rw [if_pos ⟨by omega, hnan⟩, if_neg (not_not.2 hnan)]
      · rw [if_neg (fun h => hnan h.2), if_pos hnan]
    · intro p h1 h2
      rw [hzip] at h2
      refine hv hset _ ?_
      unfold touchesLine lineCount
      rw [decide_eq_true_eq]
      dsimp only
      split <;> omega
  · rw [if_neg hset, if_neg (fun h => hset h.1)]
    unfold CellData.write
    dsimp only
    rw [if_pos (by omega), Nat.add_sub_cancel_left]

/-- A read is the bytes that stand there. -/
theorem sramRead_of_bytes {t : State} {d : DieId} {c a : Nat} {bs : List Byte}
    (h : ∀ i, i < bs.length → sramByte t d c (a + i) = bs.getD i 0) : t.sramRead d c a bs.length = bs := by
  rw [sramRead_eq_map]
  refine List.ext_getElem (by simp) fun i h1 h2 => ?_
  rw [List.getElem_map, List.getElem_range, h i h2, List.getD_eq_getElem _ _ h2]

/-- A conversion in a defined form, whose accesses raise no fault, runs to its end. -/
theorem exec_cvt_of_noTrip {s : State} {d : DieId} {i : Issue} {f : CvtF} (hi : i.hollow = false) (hdef : cvtDefined f = true)
    (ht : s.touchesTrip d ((maskCells i.mask).flatMap (cvtTouches f)) = none) :
    exec (.cvt d i f) s = .next (s.unitDone d .v i (.cvt f) (cvtTouches f) (fun t c => t.cvtCell d i f c)) :=
  State.runOp_broadcast hi (by simp only [State.completesAtOnce, hi, Bool.or_self]) (by simp only [effOp, effCvt, hdef, if_true]) ht

/-! ### Expansion -/

/-- The lanes that an expansion makes of a stored row, one after another (R189). -/
def State.unpLanes (s : State) (d : DieId) (f : CvtF) (c : Nat) : List W32 :=
  let codes := unpackRow (fmtWidth f.fmt) (64 * cvtRows f) (s.sramRead d c (opndAddr f.src c) (cvtRows f * rowBytes f.fmt))
  let scs := if fmtBlocked f.fmt then s.sramRead d c (opndAddr f.scale c) (cvtScales f) else []
  (codes.zipIdx.map (fun (x : Nat × Nat) =>
    expandLane s.audit (if fmtBlocked f.fmt then
      scaledElem s.audit f.fmt x.1 (scs.getD (x.2 / blkSize f.blk) 0).toNat else readElem s.audit f.fmt x.1))).map Prod.fst

/-- Lane m of an expansion. -/
theorem getD_unpLanes (s : State) (d : DieId) {f : CvtF} (hblk : (f.rows2 || f.blk != .b128) = true) (c : Nat) {m : Nat}
    (hm : m < 64 * cvtRows f) : (s.unpLanes d f c).getD m 0 = (expandLane s.audit
      (if fmtBlocked f.fmt then
        scaledElem s.audit f.fmt (elemAt (fmtWidth f.fmt) (s.sramRead d c (opndAddr f.src c) (cvtRows f * rowBytes f.fmt)) m)
          (sramByte s d c (opndAddr f.scale c + m / blkSize f.blk)).toNat
      else readElem s.audit f.fmt
        (elemAt (fmtWidth f.fmt) (s.sramRead d c (opndAddr f.src c) (cvtRows f * rowBytes f.fmt)) m))).1 := by
  have hcode : (unpackRow (fmtWidth f.fmt) (64 * cvtRows f)
      (s.sramRead d c (opndAddr f.src c) (cvtRows f * rowBytes f.fmt)))[m]? =
        some (elemAt (fmtWidth f.fmt) (s.sramRead d c (opndAddr f.src c) (cvtRows f * rowBytes f.fmt)) m) := by
    rw [unpackRow, List.getElem?_map, List.getElem?_range hm]
    rfl
  unfold State.unpLanes
  simp only [List.getD_eq_getElem?_getD, List.getElem?_map, List.getElem?_zipIdx, hcode, Option.map_some, Option.getD_some,
    Nat.zero_add]
  split
  · have hscale : m / blkSize f.blk < cvtScales f := by
      refine Nat.div_lt_of_lt_mul ?_
      rwa [blkSize_mul_cvtScales hblk]
    rw [← List.getD_eq_getElem?_getD, getD_sramRead s d c _ hscale]
  · rfl

/-- One cell's share of an expansion: its rows of lanes, one register after another. -/
theorem State.unpCell_eq {f : CvtF} {r : Fin 64} (hdst : f.dst = .reg r) (s : State) (d : DieId) (c : Nat) :
    ∃ n, s.unpCell d f c = ((List.range (cvtRows f)).foldl (fun (t : State) k =>
      t.setVreg d c (r.val + k) (((s.unpLanes d f c).drop (64 * k)).take 64)) s).count d n := by
  unfold State.unpCell
  simp only [hdst]
  exact ⟨_, rfl⟩

/-- What an expansion asks of its accesses in one cell. -/
theorem unpAccess_of_noTrip {s : State} {d : DieId} {m : W64} {f : CvtF}
    (h : s.touchesTrip d ((maskCells m).flatMap (unpTouches f)) = none) {c : Nat} (hc : c ∈ maskCells m) :
    opndAddr f.src c + cvtRows f * rowBytes f.fmt ≤ 2 ^ 22 ∧
      (fmtBlocked f.fmt = true → opndAddr f.scale c + cvtScales f ≤ 2 ^ 22) := by
  refine ⟨?_, fun hb => ?_⟩
  · exact (range_of_touchTrip (touchTrip_of_cells h hc (x := ⟨c, opndAddr f.src c, cvtRows f * rowBytes f.fmt, false, true⟩)
      (List.mem_append_left _ (List.mem_singleton.2 rfl)))).1.trans (by decide)
  · exact (range_of_touchTrip (touchTrip_of_cells h hc (x := ⟨c, opndAddr f.scale c, cvtScales f, false, false⟩)
      (List.mem_append_right _ (by rw [if_pos hb]; exact List.mem_singleton.2 rfl)))).1.trans (by decide)

theorem State.unpLanes_congr {t u : State} {d : DieId} (hf : t.unitFrame d = u.unitFrame d) {f : CvtF} {c : Nat}
    (hd : t.cellData d c = u.cellData d c) (hsrc : opndAddr f.src c + cvtRows f * rowBytes f.fmt ≤ 2 ^ 22)
    (hscale : fmtBlocked f.fmt = true → opndAddr f.scale c + cvtScales f ≤ 2 ^ 22) : t.unpLanes d f c = u.unpLanes d f c := by
  unfold State.unpLanes
  rw [sramRead_of_cellData hd hsrc, State.audit_of_unitFrame hf]
  split
  · next hb => rw [sramRead_of_cellData hd (hscale hb)]
  · rfl

theorem cellStep_unp {d : DieId} {f : CvtF} {r : Fin 64} {cells : List Nat} (hcells : ∀ c ∈ cells, c < 64) (hdst : f.dst = .reg r)
    (hrows : r.val + cvtRows f ≤ 64) (hacc : ∀ c ∈ cells, opndAddr f.src c + cvtRows f * rowBytes f.fmt ≤ 2 ^ 22 ∧
      (fmtBlocked f.fmt = true → opndAddr f.scale c + cvtScales f ≤ 2 ^ 22)) :
    CellStep d cells (fun t c => t.unpCell d f c) (fun t c =>
      (t.cellData d c).setRegs r.val (cvtRows f) (fun k => ((t.unpLanes d f c).drop (64 * k)).take 64)) where
  frame t c := by
    obtain ⟨n, hn⟩ := t.unpCell_eq hdst d c
    rw [hn, unitFrame_count]
    exact List.foldlRecOn _ _ (motive := fun (u : State) => u.unitFrame d = t.unitFrame d) rfl (fun _ hu _ _ => hu)
  data t e c c' hc hc' := by
    obtain ⟨n, hn⟩ := t.unpCell_eq hdst d c
    rw [hn, State.cellData_count]
    exact (cellData_foldl_setReg t
      (g := fun u k => u.setVreg d c (r.val + k) (((t.unpLanes d f c).drop (64 * k)).take 64))
      (v := fun k => ((t.unpLanes d f c).drop (64 * k)).take 64)
      (fun u k hk hu => ⟨hu, fun e c' hc' => u.cellData_setVreg _ (hcells c hc) hc' (by omega)⟩) (hcells c hc)).2 e c' hc'
  congr t u c hc hf hd := by rw [hd, State.unpLanes_congr hf hd (hacc c hc).1 (hacc c hc).2]

/-- An expansion writes no memory. -/
theorem State.unpCell_sram {f : CvtF} {r : Fin 64} (hdst : f.dst = .reg r) (s : State) (d : DieId) (c : Nat) :
    (s.unpCell d f c).mem.sram = s.mem.sram := by
  obtain ⟨n, hn⟩ := s.unpCell_eq hdst d c
  rw [hn]
  exact List.foldlRecOn _ _ (motive := fun (u : State) => u.mem.sram = s.mem.sram) rfl (fun _ hu _ _ => hu)

/-- An expansion in a defined form has a register as its destination, with room for its rows. -/
theorem dst_of_unpDefined {f : CvtF} (h : unpDefined f = true) :
    (∃ r, f.dst = .reg r ∧ r.val + cvtRows f ≤ 64) ∧ (f.rows2 || f.blk != .b128) = true := by
  simp only [unpDefined, Bool.and_eq_true] at h
  obtain ⟨⟨⟨⟨⟨⟨⟨-, hdst⟩, -⟩, -⟩, hblk⟩, -⟩, -⟩, -⟩ := h
  refine ⟨?_, hblk⟩
  cases hd : f.dst with
  | reg r => exact ⟨r, rfl, by simpa [hd] using hdst⟩
  | sram p off => simp [hd] at hdst
  | scalar w => simp [hd] at hdst
  | none => simp [hd] at hdst

/-! ### The statement -/

/-- Settles O10: a cell's row and scales stand in lines apart, so that neither write touches the other; the registers of an
expansion are written one after another. -/
theorem conversionsWriteTheirCodes : Obligations.ConversionsWriteTheirCodes := by
  unfold Obligations.ConversionsWriteTheirCodes
  refine ⟨?cvt, ?unp⟩
  case cvt =>
    intro d i f s hi hdef htrip hapart
    have hacc : ∀ c ∈ maskCells i.mask, CvtAccess s d f c := fun c hc => cvtAccess_of_noTrip htrip hc
    obtain ⟨hframe, hdata⟩ := (cellStep_cvt (s := s) i (fun c hc => (mem_maskCells.1 hc).1) hdef hacc).unitDone
      (s := s) (sl := .v) (o := .cvt f) (touches := cvtTouches f)
    have hcells := cells_of_unitFrame hframe (State.unitDone_vregs (fun t c => by rw [t.cvtCell_cells]))
    refine ⟨_, exec_cvt_of_noTrip hi hdef htrip, fun c hc hm hb => ?plain, fun c hc hm hb => ?blocked, hcells, hbm_of_unitFrame hframe,
      lpddr_of_unitFrame hframe, acc_of_unitFrame hframe, sameControl_of_unitFrame hframe⟩
    case plain =>
      have hdst := (hacc c (mem_maskCells.2 ⟨hc, hm⟩)).dst
      have hrow := length_cvtRow_plain hdef s d i c
      have hcell := hdata d c hc
      rw [if_pos ⟨rfl, hm⟩, State.converted, if_neg (by rw [hb]; exact Bool.false_ne_true)] at hcell
      have hread := sramRead_of_write hcell (by rw [hrow]; exact hdst.trans (by decide)) (k := 0) (by rw [Nat.zero_add])
      rwa [List.drop_zero, List.take_length, Nat.add_zero, hrow] at hread
    case blocked =>
      have haccess := hacc c (mem_maskCells.2 ⟨hc, hm⟩)
      have hrow := length_cvtRow_blocked hdef s d i c
      have hscales : (s.cvtBlocks d i f c).1.length = cvtScales f := length_scales_convertBlocks _ _ _ _ _
      have hdst : opndAddr f.dst c + cvtRows f * rowBytes f.fmt ≤ 2 ^ 22 := haccess.dst.trans (by decide)
      have hscale : opndAddr f.scale c + cvtScales f ≤ 2 ^ 22 := (haccess.scale hb).trans (by decide)
      have hlines : LinesApart (opndAddr f.scale c) (cvtScales f) (opndAddr f.dst c) (cvtRows f * rowBytes f.fmt) := hapart hb c hc
      have hvalid : f.rule = .set → ∀ l : Fin (2 ^ 15), touchesLine (opndAddr f.scale c) (cvtScales f) l.val = true →
          ((s.cellData d c).write (opndAddr f.dst c) (packRow (fmtWidth f.fmt) (s.cvtBlocks d i f c).2.1)).valid l = true :=
        fun hset l hl => CellData.valid_write_of_valid (haccess.given hb hset l.val hl) _ _
      have hcell := hdata d c hc
      rw [if_pos ⟨rfl, hm⟩, State.converted, if_pos hb] at hcell
      have hbyte (k : Fin (2 ^ 22)) := congrFun (congrArg CellData.bytes hcell) k
      refine ⟨_, _, _, rfl, ?row, fun k hk => ?scale⟩
      case row =>
        refine Eq.trans (congrArg _ hrow.symm) (sramRead_of_bytes fun j hj => ?_)
        refine (hbyte ⟨opndAddr f.dst c + j, by omega⟩).trans ?_
        rw [CellData.bytes_putScales_row _ f _ hscales hscale hlines hvalid (k := ⟨opndAddr f.dst c + j, by omega⟩)
          ⟨Nat.le_add_right _ _, by dsimp only; omega⟩]
        dsimp only [CellData.write]
        rw [if_pos ⟨Nat.le_add_right _ _, by omega⟩, Nat.add_sub_cancel_left]
      case scale =>
        refine (hbyte ⟨opndAddr f.scale c + k, by omega⟩).trans ?_
        rw [CellData.bytes_putScales_scale _ f _ hscales hscale hvalid hk]
        split
        · refine CellData.bytes_write_apart_line _ ?_ ?_
          · rw [hrow]
            unfold LinesApart at hlines
            dsimp only
            omega
          · unfold LinesApart at hlines
            unfold touchesLine lineCount
            rw [decide_eq_false_iff_not, hrow]
            dsimp only
            split <;> omega
        · rfl
  case unp =>
    intro d i f s hi hdef htrip
    obtain ⟨⟨r, hdst, hrows⟩, hblk⟩ := dst_of_unpDefined hdef
    have hexec : exec (.unp d i f) s = .next (s.unitDone d .v i (.unp f) (unpTouches f) (fun t c => t.unpCell d f c)) :=
      State.runOp_broadcast hi (by simp only [State.completesAtOnce, hi, Bool.or_self])
        (by simp only [effOp, effUnp, hdef, if_true]) htrip
    obtain ⟨hframe, hdata⟩ := (cellStep_unp (d := d) (fun c hc => (mem_maskCells.1 hc).1) hdst hrows
      (fun c hc => unpAccess_of_noTrip htrip hc)).unitDone (s := s) (sl := .v) (i := i) (o := .unp f) (touches := unpTouches f)
    refine ⟨_, hexec, fun r' hr' c hc hm k hk j hj => ?lanes, fun e c q hc hq hne => ?others, tiles_of_unitFrame hframe,
      State.unitDone_sram (fun t c => t.unpCell_sram hdst d c), hbm_of_unitFrame hframe, lpddr_of_unitFrame hframe,
      acc_of_unitFrame hframe, sameControl_of_unitFrame hframe⟩
    case lanes =>
      obtain rfl : r' = r := Opnd.reg.inj (hr'.symm.trans hdst)
      have hreg := congrFun (congrArg CellData.regs (hdata d c hc)) ⟨r'.val + k, by omega⟩
      rw [if_pos ⟨rfl, hm⟩] at hreg
      dsimp only [CellData.setRegs] at hreg
      rw [if_pos (by omega), Nat.add_sub_cancel_left] at hreg
      refine (congrArg (fun v => List.getD v j 0) hreg).trans ((getD_map_range_64 _ hj).trans ?_)
      have hm : 64 * k + j < 64 * cvtRows f := by omega
      rw [← getD_unpLanes s d hblk c hm]
      simp [List.getD_eq_getElem?_getD, hj]
    case others =>
      refine Eq.trans (congrFun (congrArg CellData.regs (hdata e c hc)) ⟨q, hq⟩) ?_
      split
      · next h =>
        obtain ⟨rfl, hm⟩ := h
        exact if_neg (fun h' => hne ⟨rfl, hm, r, hdst, h'⟩)
      · rfl

end Sys2Proof.Machine
end

section
/-! SUPPORT. What counters, events and the writes of external blocks leave alone, and the state in which an operation run by itself
ends (R225, R420, R486 to R488). -/

namespace Sys2Proof.Machine

open Sys2Proof

/-! ### Counters and events -/

/-- What the hub's counters and events leave alone. -/
structure CalmFrame where
  net : NetFrame
  fab : FabState
  dict : DictState
  param : Nat → Nat
  snoops : List SnoopBlock

/-- That part of a state. -/
def State.calmFrame (s : State) : CalmFrame :=
  ⟨s.netFrame, s.fab, { s.dict with params := [] }, s.dict.beyondHub, s.host.snoops⟩

theorem calmFrame_congr {s t : State} (hn : t.netFrame = s.netFrame) (hh : t.hubFrame = s.hubFrame)
    (hd : { t.dict with params := [] } = { s.dict with params := [] }) (hs : t.host.snoops = s.host.snoops) :
    t.calmFrame = s.calmFrame := by
  have hfab : t.fab = s.fab := congrArg HubFrame.fab hh
  have hparam : t.dict.beyondHub = s.dict.beyondHub := congrArg HubFrame.param hh
  unfold State.calmFrame
  rw [hn, hfab, hd, hparam, hs]

theorem State.logRecord_snoops (s : State) (x : EventRec) : (s.logRecord x).host.snoops = s.host.snoops := by
  have hsig : ∀ t : State, t.signalEvent.host.snoops = t.host.snoops := by
    intro t
    unfold State.signalEvent State.signal
    split
    · rfl
    · split <;> rfl
  unfold State.logRecord
  dsimp only
  split
  · rw [hsig]
    split <;> rfl
  · split <;> rfl

theorem calmFrame_log' (s : State) (code source : Nat) (l : List Byte) : (s.log' code source l).calmFrame = s.calmFrame := by
  refine calmFrame_congr (netFrame_log' s code source l) (hubFrame_log' s code source l) ?_ (s.logRecord_snoops _)
  unfold State.log'
  rw [State.logRecord_dict]
  rfl

theorem calmFrame_dieEvent (s : State) (d : DieId) (code : Nat) (l : List (Nat × Nat)) :
    (s.dieEvent d code l).calmFrame = s.calmFrame := calmFrame_log' s code _ _

theorem calmFrame_bump (s : State) {k : Nat} (n : Nat) (hk : k ∈ hubCounters) : (s.bump k n).calmFrame = s.calmFrame :=
  calmFrame_congr (netFrame_bump s k n) (hubFrame_bump s n hk) rfl rfl

theorem calmFrame_limited (s : State) (code source sub n : Nat) (l : Nat → List (Nat × Nat)) :
    (s.limited code source sub n l).calmFrame = s.calmFrame := by
  unfold State.limited
  dsimp only
  split
  · split
    · exact calmFrame_log' _ _ _ _
    · rfl
  · exact calmFrame_log' _ _ _ _

/-- Corrected errors of external blocks are counted and logged only (R225). -/
theorem calmFrame_correctMem (s : State) (lp : Bool) (d : DieId) (b n : Nat) :
    (s.correctMem lp d b n).calmFrame = s.calmFrame := by
  have hone : ∀ (t : State) (c : Nat), (t.correctCtrl lp d b n c).calmFrame = t.calmFrame := by
    intro t c
    unfold State.correctCtrl
    dsimp only
    split
    · rfl
    · rw [calmFrame_limited, calmFrame_bump _ _ (by decide)]
  unfold State.correctMem
  split
  · rfl
  · exact List.foldlRecOn _ _ (motive := fun t : State => t.calmFrame = s.calmFrame) rfl (fun t ht c _ => (hone t c).trans ht)

section
variable {s t : State} (h : t.calmFrame = s.calmFrame)
include h

theorem net_of_calmFrame : t.netFrame = s.netFrame := congrArg CalmFrame.net h
theorem mem_of_calmFrame : t.mem = s.mem := congrArg NetFrame.mem (net_of_calmFrame h)
theorem cells_of_calmFrame : t.cells = s.cells := congrArg NetFrame.cells (net_of_calmFrame h)
theorem fe_of_calmFrame : t.fe = s.fe := congrArg NetFrame.fe (net_of_calmFrame h)
theorem rind_of_calmFrame : t.rind = s.rind := congrArg NetFrame.rind (net_of_calmFrame h)
theorem kv_of_calmFrame : t.kv = s.kv := congrArg NetFrame.kv (net_of_calmFrame h)
theorem adm_of_calmFrame : t.adm = s.adm := congrArg NetFrame.adm (net_of_calmFrame h)
theorem job_of_calmFrame : t.job = s.job := congrArg NetFrame.job (net_of_calmFrame h)
theorem fab_of_calmFrame : t.fab = s.fab := congrArg CalmFrame.fab h
theorem snoops_of_calmFrame : t.host.snoops = s.host.snoops := congrArg CalmFrame.snoops h

theorem State.param_of_calmFrame {k : Nat} (hk : k ∉ hubCounters) : t.param k = s.param k := by
  have hp : t.dict.beyondHub k = s.dict.beyondHub k := congrFun (congrArg CalmFrame.param h) k
  unfold DictState.beyondHub at hp
  rwa [if_neg hk, if_neg hk] at hp

end

/-! ### Writes of external blocks -/

theorem State.takeSweep_eq (slot gen e n : Nat) (s : State) : ∃ r, s.takeSweep slot gen e n = { s with rind := r } := by
  induction n generalizing s with
  | zero => exact ⟨s.rind, rfl⟩
  | succ n ih =>
    unfold State.takeSweep
    split
    · exact ih _
    · exact ⟨s.rind, rfl⟩

/-- A block written under a new key is recorded in the Rind engines only (R420, R422). -/
theorem State.markDone_eq (s : State) (frame block : Nat) : ∃ r, s.markDone frame block = { s with rind := r } := by
  unfold State.markDone
  split
  · exact ⟨s.rind, rfl⟩
  · dsimp only
    split
    · split
      · unfold State.keyedPage
        dsimp only
        split
        · exact ⟨_, rfl⟩
        · unfold State.fillSweeps
          refine List.foldlRecOn _ _ (motive := fun t : State => ∃ r, t = { s with rind := r }) ⟨_, rfl⟩ fun t ht w _ => ?_
          obtain ⟨r, rfl⟩ := ht
          exact State.takeSweep_eq _ _ _ _ _
      · unfold State.leaveSweep
        dsimp only
        split
        · exact State.takeSweep_eq _ _ _ _ _
        · exact ⟨_, rfl⟩
    · exact ⟨_, rfl⟩

/-- The memories after bytes of one block of a tier have been written. -/
def MemState.put (m : MemState) (lp : Bool) (d : DieId) (b : Nat) (bytes : List Byte) : MemState :=
  (if lp then { m with lpddr := m.lpddr.writeBytes (extKey d b) bytes }
    else { m with hbm := m.hbm.writeBytes (extKey d b) bytes }).clearBlocks (frameOf lp d (b / 65536)) (b / 256 % 256) 1

/-- A write within one block changes the tier's bytes, the errors of the block and the Rind engines. -/
theorem State.extWriteBlock_eq (s : State) (lp : Bool) (d : DieId) (b : Nat) (bytes : List Byte) :
    ∃ r, s.extWriteBlock lp d b bytes = { s with mem := s.mem.put lp d b bytes, rind := r } := by
  unfold State.extWriteBlock
  dsimp only
  cases lp
  · exact State.markDone_eq _ _ _
  · exact State.markDone_eq _ _ _

/-- The memories of a device but for its HBM and the errors of external blocks. -/
def MemState.beyondHbm (m : MemState) : MemState := { m with hbm := [], memDouble := [], memSingle := [], tagBad := [] }

/-- A write of HBM changes that and the Rind engines only. -/
def WritesHbm (s t : State) : Prop := ∃ m r, m.beyondHbm = s.mem.beyondHbm ∧ t = { s with mem := m, rind := r }

theorem writesHbm_refl (s : State) : WritesHbm s s := ⟨s.mem, s.rind, rfl, rfl⟩

theorem WritesHbm.trans {s t u : State} (h : WritesHbm s t) (h' : WritesHbm t u) : WritesHbm s u := by
  obtain ⟨m, r, hm, rfl⟩ := h
  obtain ⟨m', r', hm', rfl⟩ := h'
  exact ⟨m', r', hm'.trans hm, rfl⟩

theorem writesHbm_extWriteBlock (s : State) (d : DieId) (b : Nat) (bytes : List Byte) :
    WritesHbm s (s.extWriteBlock false d b bytes) := by
  obtain ⟨r, h⟩ := s.extWriteBlock_eq false d b bytes
  exact ⟨s.mem.put false d b bytes, r, rfl, h⟩

theorem writesHbm_extWrite (d : DieId) (fuel b : Nat) (bytes : List Byte) (s : State) :
    WritesHbm s (s.extWrite false d b bytes fuel) := by
  induction fuel generalizing s b bytes with
  | zero => exact writesHbm_refl s
  | succ n ih =>
    unfold State.extWrite
    split
    · exact writesHbm_refl s
    · exact (writesHbm_extWriteBlock s d b _).trans (ih _ _ _)

/-- A flush's write of HBM, raced or not (R221). -/
theorem writesHbm_racePut (s : State) (d : DieId) (b : Nat) (bytes : List Byte) : WritesHbm s (s.racePut false d b bytes) := by
  unfold State.racePut
  split
  · exact writesHbm_extWrite d _ b bytes s
  · refine List.foldlRecOn _ _ (motive := WritesHbm s) (writesHbm_refl s) fun t ht x _ => ?_
    split
    · exact ht
    · exact ht.trans (writesHbm_extWriteBlock t d _ _)

/-! ### An operation run by itself -/

/-- An operation that is not hollow ends with the memories, the cells and the rest that its effect leaves; completion changes tallies
and running operations alone. -/
theorem State.runOp_effect {s t : State} {d : DieId} {sl : Slot} {i : Issue} {o : Op} (hi : i.hollow = false)
    (heff : effOp (s.beginOp d sl ⟨o, i, none, none⟩ 0) d s.fab.nextOp i o = .ok t) :
    ∃ u, s.runOp d sl i o = .next u ∧ u.arrayFrame d = t.arrayFrame d ∧ u.mem = t.mem ∧ u.cells = t.cells := by
  obtain ⟨hf, hm, hc⟩ := t.settle_keeps d d s.fab.nextOp
  unfold State.runOp State.launch
  dsimp only
  rw [hi, if_neg Bool.false_ne_true, heff]
  dsimp only
  split
  · obtain ⟨hf', hm', hc'⟩ := (t.settle d s.fab.nextOp).settle_keeps d d s.fab.nextOp
    exact ⟨_, rfl, hf'.trans hf, hm'.trans hm, hc'.trans hc⟩
  · exact ⟨_, rfl, hf, hm, hc⟩

end Sys2Proof.Machine
end

section
/-! SUPPORT. What the translation through the page tables reads, and what table faults, flushes and their fold over slots and cells
do (R131, R198, R307 to R313). -/

namespace Sys2Proof.Machine

open Sys2Proof

/-! ### The tables as read -/

/-- What the reading of the page tables depends on. -/
structure KvRead where
  views : Quad (List KvTables)
  live : KvTables
  dict : DictState
  heads : Nat

/-- That part of a state. -/
def State.kvRead (s : State) : KvRead := ⟨s.kv.views, s.kv.live, { s.dict with params := [] }, s.param P.kvHeads⟩

section
variable {s t : State} (h : t.kvRead = s.kvRead)
include h

theorem State.tablesOf_of_kvRead (d : DieId) : t.tablesOf d = s.tablesOf d := by
  have hviews : t.kv.views = s.kv.views := congrArg KvRead.views h
  have hlive : t.kv.live = s.kv.live := congrArg KvRead.live h
  unfold State.tablesOf
  rw [hviews, hlive]

theorem State.seq?_of_kvRead (d : DieId) (q : Nat) : t.seq? d q = s.seq? d q := by
  unfold State.seq?; rw [State.tablesOf_of_kvRead h]

theorem State.pte_of_kvRead (d : DieId) (n : Nat) : t.pte d n = s.pte d n := by
  unfold State.pte; rw [State.tablesOf_of_kvRead h]

theorem State.pteOf_of_kvRead (r : SeqRec) (layer head page : Nat) : t.pteOf r layer head page = s.pteOf r layer head page := by
  have hheads : t.param P.kvHeads = s.param P.kvHeads := congrArg KvRead.heads h
  unfold State.pteOf; rw [hheads]

theorem State.pteFault_of_kvRead (d : DieId) (r : Option SeqRec) (p : Pte) (after : Bool) :
    t.pteFault d r p after = s.pteFault d r p after := by
  have hlayout : t.dict.layout = s.dict.layout := congrArg (fun x : KvRead => x.dict.layout) h
  unfold State.pteFault State.isKvFrame State.kvFirstFrame State.kvEndFrame State.layoutOf State.regionFirst State.regionPages
  rw [hlayout]

theorem State.appendFault_of_kvRead (d : DieId) (r : Option SeqRec) (p : Pte) :
    t.appendFault d r p = s.appendFault d r p := by
  unfold State.appendFault; rw [State.pteFault_of_kvRead h]

/-- The scale table is in the dictionary's byte strings (R303). -/
theorem State.kvScale_of_kvRead (layer head : Nat) (v : Bool) : t.kvScale layer head v = s.kvScale layer head v := by
  have hheads : t.param P.kvHeads = s.param P.kvHeads := congrArg KvRead.heads h
  have hblobs : t.dict.blobs = s.dict.blobs := congrArg (fun x : KvRead => x.dict.blobs) h
  unfold State.kvScale State.scaleByte State.blob
  rw [hheads, hblobs]

end

/-! ### Table faults -/

/-- What a table fault, a counter and an event leave alone of what the walkers work on. -/
structure KvFrame where
  mem : MemState
  cells : CellState
  fe : Quad FrontEnd
  fab : FabState
  job : JobState
  device : Nat
  added : List AddUsed
  read : KvRead

/-- That part of a state. -/
def State.kvFrame (s : State) : KvFrame :=
  ⟨s.mem, s.cells, s.fe, s.fab, s.job, s.param P.deviceId, s.kv.added, s.kvRead⟩

theorem kvFrame_of_calmFrame {s t : State} (h : t.calmFrame = s.calmFrame) : t.kvFrame = s.kvFrame := by
  have hdict : { t.dict with params := [] } = { s.dict with params := [] } := congrArg CalmFrame.dict h
  unfold State.kvFrame State.kvRead
  rw [mem_of_calmFrame h, cells_of_calmFrame h, fe_of_calmFrame h, fab_of_calmFrame h, job_of_calmFrame h, kv_of_calmFrame h,
    hdict, State.param_of_calmFrame h (by decide), State.param_of_calmFrame h (by decide)]

/-- A table fault is reported to the hub, and changes nothing that the walkers work on (R312). -/
theorem kvFrame_tableFault (s : State) (d : DieId) (q layer head page cause : Nat) :
    (s.tableFault d q layer head page cause).kvFrame = s.kvFrame := by
  have hbump : ∀ t : State, (t.bump P.kvWalkFaults 1).kvFrame = t.kvFrame := by
    intro t
    unfold State.kvFrame State.kvRead
    rw [State.param_bump_ne t 1 (by decide), State.param_bump_ne t 1 (by decide)]
    rfl
  have hadm : ∀ (t : State) (a : AdmState), State.kvFrame { t with adm := a } = t.kvFrame := fun _ _ => rfl
  have hfirst : ∀ t : State, (if t.adm.faultedSeqs.contains q then t
      else { t with adm := { t.adm with faultedSeqs := t.adm.faultedSeqs ++ [q] } }).kvFrame = t.kvFrame := by
    intro t
    split
    · rfl
    · exact hadm t _
  unfold State.tableFault
  dsimp only
  generalize hu : (if s.adm.faultedSeqs.contains q = true then s
      else { s with adm := { s.adm with faultedSeqs := s.adm.faultedSeqs ++ [q] } }) = u
  have hs : u.kvFrame = s.kvFrame := by rw [← hu]; exact hfirst s
  split
  · exact hs
  · exact (kvFrame_of_calmFrame (calmFrame_dieEvent _ _ _ _)).trans ((hbump _).trans hs)

/-! ### Flushes -/

/-- What a flush leaves alone. -/
structure FlushFrame where
  mem : MemState
  vregs : AMap (List W32)
  tiles : AMap (List Num)
  fe : Quad FrontEnd
  job : JobState
  device : Nat
  read : KvRead

/-- That part of a state. -/
def State.flushFrame (s : State) : FlushFrame :=
  ⟨s.mem.beyondHbm, s.cells.vregs, s.cells.tiles, s.fe, s.job, s.param P.deviceId, s.kvRead⟩

theorem flushFrame_of_kvFrame {s t : State} (h : t.kvFrame = s.kvFrame) : t.flushFrame = s.flushFrame :=
  congrArg (fun x : KvFrame => FlushFrame.mk x.mem.beyondHbm x.cells.vregs x.cells.tiles x.fe x.job x.device x.read) h

/-- The index of the entry under which a slot's rows are stored. -/
def State.slotEntry (s : State) (x : StageSlot) (q : SeqRec) : Nat := s.pteOf q x.layer x.head x.page

/-- The entry of a slot of a sequence is sound. -/
def State.slotSound (s : State) (x : StageSlot) (q : SeqRec) : Prop :=
  s.seq? x.die x.seq = some q ∧ s.appendFault x.die (some q) (s.pte x.die (s.slotEntry x q)) = none

/-- What a flush of a slot tells the hub of its rows (R313). -/
def State.slotAdded (s : State) (x : StageSlot) (q : SeqRec) : AddUsed :=
  ⟨x.die, s.slotEntry x q, (s.pte x.die (s.slotEntry x q)).frame, x.rows.length⟩

/-- The record of a slot's rows as flushed in this plan (R310). -/
def slotFlushed (x : StageSlot) : FlushRec := ⟨x.die, x.head, x.layer, x.seq, x.page, x.rows.map (·.pos)⟩

/-- Some slots have been flushed, one after another: they are closed, and the rows of those with a sound entry are reported. -/
structure FlushTo (l : List StageSlot) (s t : State) : Prop where
  frame : t.flushFrame = s.flushFrame
  staging : t.cells.staging = s.cells.staging.diff l
  flushed : s.cells.flushed ⊆ t.cells.flushed
  added : s.kv.added ⊆ t.kv.added
  recorded : ∀ x ∈ l, ∀ q, s.slotSound x q → s.slotAdded x q ∈ t.kv.added ∧ slotFlushed x ∈ t.cells.flushed

theorem flushTo_nil (s : State) : FlushTo [] s s :=
  ⟨rfl, rfl, List.Subset.refl _, List.Subset.refl _, fun _ hx => absurd hx List.not_mem_nil⟩

theorem FlushTo.trans {l l' : List StageSlot} {s t u : State} (h : FlushTo l s t) (h' : FlushTo l' t u) :
    FlushTo (l ++ l') s u where
  frame := h'.frame.trans h.frame
  staging := by rw [h'.staging, h.staging, List.diff_append]
  flushed := fun _ hy => h'.flushed (h.flushed hy)
  added := fun _ hy => h'.added (h.added hy)
  recorded := fun x hx q hq => by
    have hread : t.kvRead = s.kvRead := congrArg FlushFrame.read h.frame
    rcases List.mem_append.1 hx with hx | hx
    · obtain ⟨ha, hf⟩ := h.recorded x hx q hq
      exact ⟨h'.added ha, h'.flushed hf⟩
    · have hentry : t.slotEntry x q = s.slotEntry x q := State.pteOf_of_kvRead hread _ _ _ _
      have hsound : t.slotSound x q := by
        unfold State.slotSound
        rw [State.seq?_of_kvRead hread, hentry, State.pte_of_kvRead hread, State.appendFault_of_kvRead hread]
        exact hq
      have hadded : t.slotAdded x q = s.slotAdded x q := by
        unfold State.slotAdded
        rw [hentry, State.pte_of_kvRead hread]
      rw [← hadded]
      exact h'.recorded x hx q hsound

theorem flushFrame_of_writesHbm {s t : State} (h : WritesHbm s t) : t.flushFrame = s.flushFrame := by
  obtain ⟨m, r, hm, rfl⟩ := h
  exact congrArg (fun x : MemState => { s.flushFrame with mem := x }) hm

/-- A slot closed, and the corrected errors of the blocks that it merges into counted. -/
def State.slotClosed (s : State) (x : StageSlot) : State :=
  (s.mergeBlocks x).foldl (fun (t : State) b => t.correctMem false x.die b 1)
    { s with cells := { s.cells with staging := s.cells.staging.erase x } }

theorem State.slotClosed_frame (s : State) (x : StageSlot) :
    (s.slotClosed x).kvFrame = { s.kvFrame with cells := { s.cells with staging := s.cells.staging.erase x } } :=
  kvFrame_of_calmFrame (List.foldlRecOn (s.mergeBlocks x) (fun (t : State) b => t.correctMem false x.die b 1)
    (motive := fun t : State => t.calmFrame =
      State.calmFrame { s with cells := { s.cells with staging := s.cells.staging.erase x } })
    rfl (fun t ht b _ => (calmFrame_correctMem t false x.die b 1).trans ht))

/-- The rows of a slot written into their page. -/
def State.rowsWritten (s : State) (x : StageSlot) (fmt base : Nat) : State :=
  x.rows.foldl (fun (t : State) row =>
    (t.racePut false x.die (base + row.pos % kvTpp fmt * kvStride fmt) row.k).racePut false x.die
      (base + 32768 + row.pos % kvTpp fmt * kvStride fmt) row.v) s

theorem writesHbm_rowsWritten (s : State) (x : StageSlot) (fmt base : Nat) : WritesHbm s (s.rowsWritten x fmt base) :=
  List.foldlRecOn _ _ (motive := WritesHbm s) (writesHbm_refl s) fun _ ht _ _ =>
    ht.trans ((writesHbm_racePut _ _ _ _).trans (writesHbm_racePut _ _ _ _))

/-- The entry of a slot as a flush finds it. -/
def State.slotPte (s : State) (x : StageSlot) : Pte :=
  if (s.seq? x.die x.seq).isSome then
    s.pte x.die (((s.seq? x.die x.seq).map (fun q => s.pteOf q x.layer x.head x.page)).getD 0)
  else Pte.none

/-- The rows of a closed slot with a sound entry, written, recorded and reported. -/
def State.slotStored (s : State) (x : StageSlot) : State :=
  let r := s.seq? x.die x.seq
  let u := s.rowsWritten x ((r.map (·.fmt)).getD 0) (framePage (s.slotPte x).frame * 65536)
  { u with cells := { u.cells with flushed := u.cells.flushed ++ [slotFlushed x] },
           kv := { u.kv with added := u.kv.added ++ [⟨x.die, (r.map (fun q => s.pteOf q x.layer x.head x.page)).getD 0,
             (s.slotPte x).frame, x.rows.length⟩] } }

/-- A flush closes its slot, and then stores its rows or reports its table fault. -/
theorem State.flushSlot_eq (s : State) (x : StageSlot) : s.flushSlot x =
    match (s.slotClosed x).appendFault x.die ((s.slotClosed x).seq? x.die x.seq) ((s.slotClosed x).slotPte x) with
    | some cause => (s.slotClosed x).tableFault x.die x.seq x.layer x.head x.page cause
    | none => (s.slotClosed x).slotStored x := rfl

/-- A slot is flushed: its rows are written and reported, or its table fault is (R312, R313). -/
theorem flushTo_flushSlot (s : State) (x : StageSlot) : FlushTo [x] s (s.flushSlot x) := by
  have hclosed := s.slotClosed_frame x
  have hflush : (s.slotClosed x).flushFrame = s.flushFrame :=
    congrArg (fun y : KvFrame => FlushFrame.mk y.mem.beyondHbm y.cells.vregs y.cells.tiles y.fe y.job y.device y.read) hclosed
  have hread : (s.slotClosed x).kvRead = s.kvRead := congrArg KvFrame.read hclosed
  have hcells : (s.slotClosed x).cells = { s.cells with staging := s.cells.staging.erase x } := congrArg KvFrame.cells hclosed
  have hstaging : (s.slotClosed x).cells.staging = s.cells.staging.diff [x] := by
    rw [hcells, List.diff_cons, List.diff_nil]
  have hflushed : (s.slotClosed x).cells.flushed = s.cells.flushed := (congrArg CellState.flushed hcells :)
  have hadd : (s.slotClosed x).kv.added = s.kv.added := congrArg KvFrame.added hclosed
  have hpte : ∀ q, s.seq? x.die x.seq = some q → (s.slotClosed x).slotPte x = s.pte x.die (s.slotEntry x q) := by
    intro q hq
    unfold State.slotPte State.slotEntry
    rw [State.seq?_of_kvRead hread, hq, Option.isSome_some, if_pos rfl, Option.map_some, Option.getD_some,
      State.pteOf_of_kvRead hread, State.pte_of_kvRead hread]
  cases hfault : (s.slotClosed x).appendFault x.die ((s.slotClosed x).seq? x.die x.seq) ((s.slotClosed x).slotPte x) with
  | some cause =>
    rw [State.flushSlot_eq, hfault]
    have htab := kvFrame_tableFault (s.slotClosed x) x.die x.seq x.layer x.head x.page cause
    have htcells := congrArg KvFrame.cells htab
    have htadd : ((s.slotClosed x).tableFault x.die x.seq x.layer x.head x.page cause).kv.added = s.kv.added :=
      (congrArg KvFrame.added htab).trans hadd
    refine ⟨(flushFrame_of_kvFrame htab).trans hflush, (congrArg CellState.staging htcells).trans hstaging, fun y hy => ?_,
      fun y hy => ?_, fun y hy q hq => ?_⟩
    · exact ((congrArg CellState.flushed htcells).trans hflushed).symm ▸ hy
    · exact htadd.symm ▸ hy
    · obtain rfl := List.mem_singleton.1 hy
      obtain ⟨hseq, hnone⟩ := hq
      rw [State.appendFault_of_kvRead hread, State.seq?_of_kvRead hread, hseq, hpte q hseq, hnone] at hfault
      cases hfault
  | none =>
    rw [State.flushSlot_eq, hfault]
    unfold State.slotStored
    dsimp only
    have hwrites := writesHbm_rowsWritten (s.slotClosed x) x ((((s.slotClosed x).seq? x.die x.seq).map (·.fmt)).getD 0)
      (framePage ((s.slotClosed x).slotPte x).frame * 65536)
    generalize (s.slotClosed x).rowsWritten x _ _ = u at hwrites ⊢
    have hframe := (flushFrame_of_writesHbm hwrites).trans hflush
    obtain ⟨m, r, hm, rfl⟩ := hwrites
    refine ⟨hframe, hstaging, fun y hy => ?_, fun y hy => ?_, fun y hy q hq => ?_⟩
    · exact List.mem_append_left _ (hflushed.symm ▸ hy)
    · exact List.mem_append_left _ (hadd.symm ▸ hy)
    · obtain rfl := List.mem_singleton.1 hy
      obtain ⟨hseq, -⟩ := hq
      refine ⟨List.mem_append_right _ (List.mem_singleton.2 ?_), List.mem_append_right _ List.mem_cons_self⟩
      rw [hpte q hseq, State.seq?_of_kvRead hread, hseq, Option.map_some, Option.getD_some, State.pteOf_of_kvRead hread]
      rfl

theorem flushTo_foldl (l : List StageSlot) (s : State) : FlushTo l s (l.foldl State.flushSlot s) := by
  induction l generalizing s with
  | nil => exact flushTo_nil s
  | cons x l ih => exact (flushTo_flushSlot s x).trans (ih _)

/-! ### The open slots of the cells -/

/-- No entry that a list is filtered for is left after those have been taken out. -/
theorem filter_diff_filter {α : Type} [BEq α] [LawfulBEq α] (l : List α) (p : α → Bool) : (l.diff (l.filter p)).filter p = [] := by
  refine List.filter_eq_nil_iff.2 fun x hx hp => ?_
  have hcount : (l.diff (l.filter p)).count x = 0 := by
    rw [List.count_diff, List.count_filter hp, Nat.sub_self]
  exact List.count_eq_zero.1 hcount hx

theorem mem_openSlots {s : State} {d : DieId} {c q head layer : Nat} {x : StageSlot} :
    x ∈ s.openSlots d c q head layer ↔
      x ∈ s.cells.staging ∧ x.die = d ∧ x.cell.val = c ∧ x.seq = q ∧ x.head = head ∧ x.layer = layer := by
  unfold State.openSlots
  simp [and_assoc]

/-- A tail flush of several cells, one after another: the slots of each are flushed, and none is left open. -/
theorem flushTo_cells (d : DieId) (f : FlushF) (cells : List Nat) (hnd : cells.Nodup) (s : State) :
    ∃ l, FlushTo l s (cells.foldl (fun t c => t.flushCell d f c) s) ∧ ∀ c ∈ cells,
      (cells.foldl (fun t c => t.flushCell d f c) s).openSlots d c (ptrAt f.seq c) (ptrAt f.head c) f.layer.toNat = [] ∧
      ∀ x ∈ s.openSlots d c (ptrAt f.seq c) (ptrAt f.head c) f.layer.toNat, x ∈ l := by
  induction cells generalizing s with
  | nil => exact ⟨[], flushTo_nil s, fun c hc => absurd hc List.not_mem_nil⟩
  | cons c cs ih =>
    obtain ⟨hc, hnd⟩ := List.nodup_cons.1 hnd
    have hfirst : FlushTo (s.openSlots d c (ptrAt f.seq c) (ptrAt f.head c) f.layer.toNat) s (s.flushCell d f c) :=
      flushTo_foldl _ s
    obtain ⟨l, hl, hrest⟩ := ih hnd (s.flushCell d f c)
    refine ⟨_, hfirst.trans hl, fun c' hc' => ?_⟩
    rw [List.foldl_cons]
    rcases List.mem_cons.1 hc' with rfl | hc'
    · refine ⟨?_, fun x hx => List.mem_append_left _ hx⟩
      have hnone : (s.flushCell d f c').openSlots d c' (ptrAt f.seq c') (ptrAt f.head c') f.layer.toNat = [] := by
        unfold State.openSlots
        rw [hfirst.staging]
        exact filter_diff_filter _ _
      refine List.eq_nil_iff_forall_not_mem.2 fun x hx => ?_
      obtain ⟨hmem, hkey⟩ := mem_openSlots.1 hx
      rw [hl.staging] at hmem
      exact List.not_mem_nil (hnone ▸ mem_openSlots.2 ⟨List.diff_subset _ _ hmem, hkey⟩)
    · obtain ⟨hnone, hin⟩ := hrest c' hc'
      refine ⟨hnone, fun x hx => List.mem_append_right _ (hin x ?_)⟩
      obtain ⟨hmem, hkey⟩ := mem_openSlots.1 hx
      refine mem_openSlots.2 ⟨?_, hkey⟩
      rw [hfirst.staging]
      refine List.mem_diff_of_mem hmem fun hx' => hc ?_
      rw [← (mem_openSlots.1 hx').2.2.1, hkey.2.1]
      exact hc'

/-! ### FLUSH.TAIL -/

/-- A tail flush whose merges raise no fault flushes the slots of its cells. -/
theorem effFlush_of_mergeTrip {s : State} {d : DieId} {i : Issue} {f : FlushF}
    (h : ∀ c, c < 64 → i.mask.getLsbD c = true →
      ∀ x ∈ s.openSlots d c (ptrAt f.seq c) (ptrAt f.head c) f.layer.toNat, s.mergeTrip x = none) :
    effFlush s d i f = .ok ((maskCells i.mask).foldl (fun t c => t.flushCell d f c) s).drawn := by
  have hnone : (maskCells i.mask).findSome? (fun c => (s.openSlots d c (ptrAt f.seq c) (ptrAt f.head c)
      f.layer.toNat).findSome? s.mergeTrip) = none := by
    rw [List.findSome?_eq_none_iff]
    intro c hc
    obtain ⟨hlt, hbit⟩ := mem_maskCells.1 hc
    exact List.findSome?_eq_none_iff.2 (h c hlt hbit)
  unfold effFlush
  rw [hnone]
  dsimp only
  rw [State.broadcast, State.touchesTrip_none, State.correctTouches_none]

/-- Settles O19: the slots of each enabled cell are flushed one after another; a flush closes its slot, and reads of the tables only
what no flush changes, so each of them reports for the entry that was there before. -/
theorem tailFlushClosesSlots : Obligations.TailFlushClosesSlots := by
  unfold Obligations.TailFlushClosesSlots
  intro d i f s hi htrip
  obtain ⟨l, hl, hcells⟩ :=
    flushTo_cells d f (maskCells i.mask) (nodup_maskCells _) (s.beginOp d .m1 ⟨.flushTail f, i, none, none⟩ 0)
  obtain ⟨u, hu, harr, hmem, hcell⟩ := State.runOp_effect (sl := .m1) (o := .flushTail f) hi
    (effFlush_of_mergeTrip (s := s.beginOp d .m1 ⟨.flushTail f, i, none, none⟩ 0) htrip)
  have hframe := hl.frame
  have hkv : u.kv.added = _ := congrArg (fun x : ArrayFrame => x.kv.added) harr
  have hbeyond := congrArg FlushFrame.mem hframe
  refine ⟨u, hu, fun c hlt hbit => ?_, fun c hlt hbit x hx q hseq hnone => ?_, ?_, ?_, ?_, ?_, ?_⟩
  · unfold State.openSlots
    rw [hcell]
    exact (hcells c (mem_maskCells.2 ⟨hlt, hbit⟩)).1
  · obtain ⟨-, rfl, -⟩ := mem_openSlots.1 hx
    rw [hkv, hcell]
    exact hl.recorded x ((hcells c (mem_maskCells.2 ⟨hlt, hbit⟩)).2 x hx) q ⟨hseq, hnone⟩
  · rw [hmem]
    exact (congrArg MemState.sram hbeyond :)
  · rw [hmem]
    exact (congrArg MemState.lpddr hbeyond :)
  · rw [hmem]
    exact (congrArg MemState.acc hbeyond :)
  · rw [hcell]
    exact congrArg FlushFrame.vregs hframe
  · rw [hcell]
    exact congrArg FlushFrame.tiles hframe

end Sys2Proof.Machine
end

section
/-! SUPPORT. A STAGE cell by cell: what a cell's share makes of the cell's staging slots depends on those slots and on what no cell
changes, and leaves the slots of other cells alone (R130, R131, R190, R303). -/

namespace Sys2Proof.Machine

open Sys2Proof

/-! ### The slots of one cell -/

/-- The staging slots of one cell. -/
def slotsOf (l : List StageSlot) (d : DieId) (c : Nat) : List StageSlot := l.filter (fun x => x.die == d && x.cell.val == c)

theorem filter_erase_eq {α : Type} [BEq α] [LawfulBEq α] (l : List α) (p : α → Bool) (y : α) :
    (l.erase y).filter p = if p y then (l.filter p).erase y else l.filter p := by
  induction l with
  | nil => simp
  | cons x l ih =>
    by_cases hxy : x = y
    · subst hxy
      by_cases hp : p x <;> simp [hp]
    · rw [List.erase_cons_tail (by simpa using hxy), List.filter_cons, ih, List.filter_cons]
      by_cases hx : p x <;> by_cases hy : p y <;> simp [hx, hy, List.erase_cons_tail, hxy]

/-- A slot taken out is taken out of its own cell's. -/
theorem slotsOf_erase_self (l : List StageSlot) {d : DieId} {c : Nat} {y : StageSlot} (hd : y.die = d) (hc : y.cell.val = c) :
    slotsOf (l.erase y) d c = (slotsOf l d c).erase y := by
  unfold slotsOf
  rw [filter_erase_eq, if_pos (by simp [hd, hc])]

theorem slotsOf_erase_ne (l : List StageSlot) {d : DieId} {c : Nat} {y : StageSlot} (hc : y.cell.val ≠ c) :
    slotsOf (l.erase y) d c = slotsOf l d c := by
  unfold slotsOf
  rw [filter_erase_eq, if_neg (by simp [hc])]

section
variable (l : List StageSlot) (d : DieId) {c : Nat} (q head layer page : Nat) (row : StageRow)

/-- The slot that takes a row, before it does. -/
def openSlot? (c : Nat) : Option StageSlot :=
  l.find? (fun x => x.die == d && x.cell.val == c && x.seq == q && x.head == head && x.layer == layer && x.page == page)

theorem addRow_of_open {x : StageSlot} (h : openSlot? l d q head layer page c = some x) :
    addRow l d c q head layer page row =
      (l.map (fun z => if z = x then { x with rows := x.rows ++ [row] } else z), { x with rows := x.rows ++ [row] }) := by
  unfold addRow
  rw [show List.find? _ l = some x from h]

theorem addRow_of_none (h : openSlot? l d q head layer page c = none) :
    addRow l d c q head layer page row =
      (l ++ [⟨d, cellOf c, q, head, layer, page, [row]⟩], ⟨d, cellOf c, q, head, layer, page, [row]⟩) := by
  unfold addRow
  rw [show List.find? _ l = none from h]

theorem openSlot?_slotsOf : openSlot? (slotsOf l d c) d q head layer page c = openSlot? l d q head layer page c := by
  unfold openSlot? slotsOf
  rw [List.find?_filter]
  congr 1
  funext x
  rw [Bool.eq_iff_iff]
  simp only [Bool.and_eq_true, decide_eq_true_eq, beq_iff_eq, and_assoc]
  exact ⟨fun ⟨_, _, h⟩ => h, fun h => ⟨h.1, h.2.1, h⟩⟩

variable {l d q head layer page} in
/-- The slot that takes a row is one of its cell, sequence, head, layer and page. -/
theorem key_of_openSlot? {x : StageSlot} (h : openSlot? l d q head layer page c = some x) :
    x ∈ l ∧ x.die = d ∧ x.cell.val = c ∧ x.seq = q ∧ x.head = head ∧ x.layer = layer ∧ x.page = page := by
  have hkey := List.find?_some h
  simp only [Bool.and_eq_true, beq_iff_eq, and_assoc] at hkey
  exact ⟨List.mem_of_find?_eq_some h, hkey⟩

/-- The slot with the added row is one of its cell, sequence, head, layer and page, and holds the row. -/
theorem addRow_slot (hc : c < 64) :
    let y := (addRow l d c q head layer page row).2
    y ∈ (addRow l d c q head layer page row).1 ∧ y.die = d ∧ y.cell.val = c ∧ y.seq = q ∧ y.head = head ∧ y.layer = layer ∧
      y.page = page ∧ row ∈ y.rows := by
  cases h : openSlot? l d q head layer page c with
  | some x =>
    obtain ⟨hmem, hd, hcell, hq, hh, hl, hp⟩ := key_of_openSlot? h
    rw [addRow_of_open l d q head layer page row h]
    exact ⟨List.mem_map.2 ⟨x, hmem, if_pos rfl⟩, hd, hcell, hq, hh, hl, hp, List.mem_append_right _ List.mem_cons_self⟩
  | none =>
    rw [addRow_of_none l d q head layer page row h]
    exact ⟨List.mem_append_right _ List.mem_cons_self, rfl, Nat.mod_eq_of_lt hc, rfl, rfl, rfl, rfl, List.mem_cons_self⟩

/-- How many rows the slot then holds does not depend on the row. -/
theorem length_addRow_rows (row' : StageRow) : (addRow l d c q head layer page row).2.rows.length =
    (addRow l d c q head layer page row').2.rows.length := by
  cases h : openSlot? l d q head layer page c with
  | some x =>
    rw [addRow_of_open l d q head layer page row h, addRow_of_open l d q head layer page row' h]
    simp
  | none =>
    rw [addRow_of_none l d q head layer page row h, addRow_of_none l d q head layer page row' h]
    rfl

/-- Whether a slot belongs to a cell is kept when the slot is exchanged for one of the same cell. -/
theorem slotsOf_map (x y : StageSlot) (hd : y.die = x.die) (hc : y.cell = x.cell) (e : DieId) (c : Nat) :
    slotsOf (l.map (fun z => if z = x then y else z)) e c = (slotsOf l e c).map (fun z => if z = x then y else z) := by
  unfold slotsOf
  rw [List.filter_map]
  congr 1
  refine List.filter_congr fun z _ => ?_
  simp only [Function.comp_apply]
  split
  · next hz => rw [hd, hc, hz]
  · rfl

/-- A row is added within its cell's slots, -/
theorem slotsOf_addRow_self (hc : c < 64) : slotsOf (addRow l d c q head layer page row).1 d c =
    (addRow (slotsOf l d c) d c q head layer page row).1 := by
  have hown := openSlot?_slotsOf l d (c := c) q head layer page
  cases h : openSlot? l d q head layer page c with
  | some x =>
    rw [h] at hown
    rw [addRow_of_open l d q head layer page row h, addRow_of_open (slotsOf l d c) d q head layer page row hown]
    exact slotsOf_map l x { x with rows := x.rows ++ [row] } rfl rfl d c
  | none =>
    rw [h] at hown
    rw [addRow_of_none l d q head layer page row h, addRow_of_none (slotsOf l d c) d q head layer page row hown]
    unfold slotsOf
    rw [List.filter_append, List.filter_cons_of_pos (by simp [cellOf, Nat.mod_eq_of_lt hc])]
    rfl

theorem addRow_slotsOf_snd : (addRow (slotsOf l d c) d c q head layer page row).2 = (addRow l d c q head layer page row).2 := by
  have hown := openSlot?_slotsOf l d (c := c) q head layer page
  cases h : openSlot? l d q head layer page c with
  | some x =>
    rw [h] at hown
    rw [addRow_of_open l d q head layer page row h, addRow_of_open (slotsOf l d c) d q head layer page row hown]
  | none =>
    rw [h] at hown
    rw [addRow_of_none l d q head layer page row h, addRow_of_none (slotsOf l d c) d q head layer page row hown]

/-- and leaves those of other cells alone. -/
theorem slotsOf_addRow_ne (hc : c < 64) {c' : Nat} (hne : c' ≠ c) :
    slotsOf (addRow l d c q head layer page row).1 d c' = slotsOf l d c' := by
  cases h : openSlot? l d q head layer page c with
  | some x =>
    obtain ⟨-, -, hcell, -⟩ := key_of_openSlot? h
    rw [addRow_of_open l d q head layer page row h]
    refine (slotsOf_map l x { x with rows := x.rows ++ [row] } rfl rfl d c').trans ?_
    refine (List.map_congr_left fun z hz => if_neg ?_).trans (List.map_id _)
    rintro rfl
    have hkey := (List.mem_filter.1 hz).2
    simp only [Bool.and_eq_true, beq_iff_eq] at hkey
    exact hne (hkey.2.symm.trans hcell)
  | none =>
    rw [addRow_of_none l d q head layer page row h]
    unfold slotsOf
    rw [List.filter_append, List.filter_cons_of_neg (by simp [cellOf, Nat.mod_eq_of_lt hc, hne.symm]), List.filter_nil,
      List.append_nil]

/-- Whether the slots of a cell fit its buffer depends on them alone. -/
theorem stagingFits_slotsOf (c : Nat) : stagingFits (slotsOf l d c) d c = stagingFits l d c := by
  unfold stagingFits slotsOf
  rw [List.filter_filter]
  simp only [Bool.and_self]

end

end Sys2Proof.Machine
end

section
/-! SUPPORT. A STAGE as a command, cell by cell (R130, R131, R190, R303, R312). -/

namespace Sys2Proof.Machine

open Sys2Proof

/-! ### What the cells of a STAGE share -/

/-- What a STAGE reads beside the staging slots, and leaves alone. -/
structure StageFrame where
  mem : MemState
  vregs : AMap (List W32)
  tiles : AMap (List Num)
  job : JobState
  device : Nat
  site : W64 × Nat × Nat × Nat
  read : KvRead

/-- That part of a state. -/
def State.stageFrame (s : State) (d : DieId) : StageFrame :=
  ⟨s.mem.beyondHbm, s.cells.vregs, s.cells.tiles, s.job, s.param P.deviceId, (s.front d).drawSite, s.kvRead⟩

theorem stageFrame_of_flushFrame {s t : State} (h : t.flushFrame = s.flushFrame) (d : DieId) :
    t.stageFrame d = s.stageFrame d :=
  congrArg (fun x : FlushFrame => StageFrame.mk x.mem x.vregs x.tiles x.job x.device (x.fe.get d).drawSite x.read) h

theorem stageFrame_of_kvFrame {s t : State} (h : t.kvFrame = s.kvFrame) (d : DieId) : t.stageFrame d = s.stageFrame d :=
  stageFrame_of_flushFrame (flushFrame_of_kvFrame h) d

theorem stageFrame_count (s : State) (d : DieId) (n : Counts) : (s.count d n).stageFrame d = s.stageFrame d := by
  have hsite : ((s.count d n).front d).drawSite = (s.front d).drawSite :=
    (congrArg ArrayFrame.site (arrayFrame_count s d d n) :)
  unfold State.stageFrame
  rw [hsite]
  rfl

/-- The conversion of the source registers depends on what stays. -/
theorem State.stageHalf_of_stageFrame {s t : State} {d : DieId} (h : t.stageFrame d = s.stageFrame d) (i : Issue) (f : StageF)
    (c : Nat) (v : Bool) : t.stageHalf d i f c v = s.stageHalf d i f c v := by
  have hvregs : t.cells.vregs = s.cells.vregs := congrArg StageFrame.vregs h
  have hjob : t.job = s.job := congrArg StageFrame.job h
  have hdev : t.param P.deviceId = s.param P.deviceId := congrArg StageFrame.device h
  have hsite : (t.front d).drawSite = (s.front d).drawSite := congrArg StageFrame.site h
  have hread : t.kvRead = s.kvRead := congrArg StageFrame.read h
  simp only [FrontEnd.drawSite, Prod.mk.injEq] at hsite
  obtain ⟨hseed, hplan, hbeat, hstep⟩ := hsite
  unfold State.stageHalf State.vreg State.convDraw State.audit State.auditDrawAt State.roundingSite State.auditStep
  rw [State.kvScale_of_kvRead hread, hvregs, hjob, hdev, hseed, hplan, hbeat, hstep]

/-! ### One cell's share -/

section
variable (s : State) (d : DieId) (i : Issue) (f : StageF) (c : Nat)

/-- The sequence record, the page and the entry of a cell's token. -/
def State.stageSeq : Option SeqRec := s.seq? d (ptrAt f.seq c)
def State.stageTpp : Nat := kvTpp (((s.stageSeq d f c).map (·.fmt)).getD 0)
def State.stagePage : Nat := ptrAt f.pos c / s.stageTpp d f c
def State.stageEntry : Pte :=
  match s.stageSeq d f c with
  | some q => s.pte d (s.pteOf q f.layer.toNat (ptrAt f.head c) (s.stagePage d f c))
  | none => Pte.none

/-- The row that a cell stages. -/
def State.stageRow : StageRow := ⟨ptrAt f.pos c, (s.stageHalf d i f c false).1, (s.stageHalf d i f c true).1⟩

/-- Some slots with a cell's row added. -/
def State.stageAdd (l : List StageSlot) (row : StageRow) : List StageSlot × StageSlot :=
  addRow l d c (ptrAt f.seq c) (ptrAt f.head c) f.layer.toNat (s.stagePage d f c) row

/-- The row fills the tail page of its slot among those given. -/
def State.stageFills (l : List StageSlot) : Bool :=
  decide (s.stageTpp d f c ≤ (s.stageEntry d f c).used + (s.stageAdd d f c l ⟨ptrAt f.pos c, [], []⟩).2.rows.length)

/-- What a cell's share makes of the cell's staging slots. -/
def State.stageSlots (l : List StageSlot) : List StageSlot :=
  match s.appendFault d (s.stageSeq d f c) (s.stageEntry d f c) with
  | some _ => l
  | none =>
    let a := s.stageAdd d f c l (s.stageRow d i f c)
    if !stagingFits a.1 d c then l else if s.stageFills d f c l then a.1.erase a.2 else a.1

/-- The counts of a cell's conversions. -/
def State.stageCounted : State := s.count d ((s.stageHalf d i f c false).2.add (s.stageHalf d i f c true).2)

/-- A cell's share: a table fault, a row for which there is no room, a row that fills its page, or a row that joins its slot. -/
theorem State.stageCell_eq : s.stageCell d i f c =
    match s.appendFault d (s.stageSeq d f c) (s.stageEntry d f c) with
    | some cause => (s.stageCounted d i f c).tableFault d (ptrAt f.seq c) f.layer.toNat (ptrAt f.head c) (s.stagePage d f c) cause
    | none =>
      let a := s.stageAdd d f c s.cells.staging (s.stageRow d i f c)
      let t : State := { s.stageCounted d i f c with cells := { s.cells with staging := a.1 } }
      if !stagingFits a.1 d c then s.stageCounted d i f c
      else if s.stageFills d f c s.cells.staging then t.flushSlot a.2 else t := by
  have hfills : decide (s.stageTpp d f c ≤ (s.stageEntry d f c).used +
      (s.stageAdd d f c s.cells.staging (s.stageRow d i f c)).2.rows.length) = s.stageFills d f c s.cells.staging := by
    unfold State.stageFills State.stageAdd
    rw [length_addRow_rows]
  rw [← hfills]
  simp only [decide_eq_true_eq]
  rfl

end

section
variable {s t : State} {d : DieId} (h : t.stageFrame d = s.stageFrame d) (i : Issue) (f : StageF) (c : Nat)
include h

theorem State.stageSeq_of_stageFrame : t.stageSeq d f c = s.stageSeq d f c :=
  State.seq?_of_kvRead (congrArg StageFrame.read h) d _

theorem State.stagePage_of_stageFrame : t.stagePage d f c = s.stagePage d f c := by
  unfold State.stagePage State.stageTpp
  rw [State.stageSeq_of_stageFrame h]

theorem State.stageEntry_of_stageFrame : t.stageEntry d f c = s.stageEntry d f c := by
  have hread : t.kvRead = s.kvRead := congrArg StageFrame.read h
  unfold State.stageEntry
  rw [State.stageSeq_of_stageFrame h, State.stagePage_of_stageFrame h]
  split
  · rw [State.pteOf_of_kvRead hread, State.pte_of_kvRead hread]
  · rfl

theorem State.stageFills_of_stageFrame (l : List StageSlot) : t.stageFills d f c l = s.stageFills d f c l := by
  unfold State.stageFills State.stageTpp State.stageAdd
  rw [State.stageSeq_of_stageFrame h, State.stagePage_of_stageFrame h, State.stageEntry_of_stageFrame h]

theorem State.stageSlots_of_stageFrame (l : List StageSlot) : t.stageSlots d i f c l = s.stageSlots d i f c l := by
  unfold State.stageSlots State.stageAdd State.stageRow
  rw [State.stageFills_of_stageFrame h, State.stageSeq_of_stageFrame h, State.stagePage_of_stageFrame h,
    State.stageEntry_of_stageFrame h, State.appendFault_of_kvRead (congrArg StageFrame.read h),
    State.stageHalf_of_stageFrame h, State.stageHalf_of_stageFrame h]

end

/-- One cell's share keeps the frame, exchanges the staging slots, and writes memory only where its row fills a page. -/
theorem State.stageCell_step (s : State) (d : DieId) (i : Issue) (f : StageF) (c : Nat) :
    (s.stageCell d i f c).stageFrame d = s.stageFrame d ∧
      (s.stageCell d i f c).cells.staging = s.stageSlots d i f c s.cells.staging ∧
      (s.stageFills d f c s.cells.staging = false → (s.stageCell d i f c).mem = s.mem) := by
  have hcount : (s.stageCounted d i f c).stageFrame d = s.stageFrame d := stageFrame_count s d _
  rw [State.stageCell_eq]
  unfold State.stageSlots
  cases s.appendFault d (s.stageSeq d f c) (s.stageEntry d f c) with
  | some cause =>
    have htab := kvFrame_tableFault (s.stageCounted d i f c) d (ptrAt f.seq c) f.layer.toNat (ptrAt f.head c)
      (s.stagePage d f c) cause
    exact ⟨(stageFrame_of_kvFrame htab d).trans hcount, (congrArg (fun x : KvFrame => x.cells.staging) htab :),
      fun _ => (congrArg KvFrame.mem htab :)⟩
  | none =>
    dsimp only
    generalize hl : (s.stageAdd d f c s.cells.staging (s.stageRow d i f c)).1 = l
    by_cases hfit : (!stagingFits l d c) = true
    · rw [if_pos hfit, if_pos hfit]
      exact ⟨hcount, rfl, fun _ => rfl⟩
    · rw [if_neg hfit, if_neg hfit]
      by_cases hfill : s.stageFills d f c s.cells.staging = true
      · rw [if_pos hfill, if_pos hfill]
        have hflush := flushTo_flushSlot { s.stageCounted d i f c with cells := { s.cells with staging := l } }
          (s.stageAdd d f c s.cells.staging (s.stageRow d i f c)).2
        refine ⟨(stageFrame_of_flushFrame hflush.frame d).trans hcount, ?_, fun hno => absurd (hfill.symm.trans hno) (by decide)⟩
        rw [hflush.staging, List.diff_cons, List.diff_nil]
      · rw [if_neg hfill, if_neg hfill]
        exact ⟨hcount, rfl, fun _ => rfl⟩

/-! ### The slots of each cell -/

theorem State.stageFills_slotsOf (s : State) (d : DieId) (f : StageF) (c : Nat) (l : List StageSlot) :
    s.stageFills d f c (slotsOf l d c) = s.stageFills d f c l := by
  unfold State.stageFills State.stageAdd
  rw [addRow_slotsOf_snd]

section
variable (s : State) (d : DieId) (i : Issue) (f : StageF) {c : Nat} (hc : c < 64) (l : List StageSlot)
include hc

/-- What a cell's share makes of the cell's own slots depends on them, -/
theorem State.slotsOf_stageSlots_self : slotsOf (s.stageSlots d i f c l) d c = s.stageSlots d i f c (slotsOf l d c) := by
  obtain ⟨-, hdie, hcell, -⟩ := addRow_slot l d (ptrAt f.seq c) (ptrAt f.head c) f.layer.toNat (s.stagePage d f c)
    (s.stageRow d i f c) hc
  have hself := slotsOf_addRow_self l d (ptrAt f.seq c) (ptrAt f.head c) f.layer.toNat (s.stagePage d f c) (s.stageRow d i f c) hc
  have hslot := addRow_slotsOf_snd l d (c := c) (ptrAt f.seq c) (ptrAt f.head c) f.layer.toNat (s.stagePage d f c)
    (s.stageRow d i f c)
  unfold State.stageSlots
  cases s.appendFault d (s.stageSeq d f c) (s.stageEntry d f c) with
  | some cause => rfl
  | none =>
    dsimp only
    rw [State.stageFills_slotsOf]
    unfold State.stageAdd
    rw [hslot, ← hself, stagingFits_slotsOf]
    split
    · rfl
    · split
      · exact slotsOf_erase_self _ hdie hcell
      · rfl

/-- and those of the other cells stay. -/
theorem State.slotsOf_stageSlots_ne {c' : Nat} (hne : c' ≠ c) : slotsOf (s.stageSlots d i f c l) d c' = slotsOf l d c' := by
  obtain ⟨-, -, hcell, -⟩ := addRow_slot l d (ptrAt f.seq c) (ptrAt f.head c) f.layer.toNat (s.stagePage d f c)
    (s.stageRow d i f c) hc
  have hother := slotsOf_addRow_ne l d (ptrAt f.seq c) (ptrAt f.head c) f.layer.toNat (s.stagePage d f c) (s.stageRow d i f c) hc hne
  unfold State.stageSlots
  split
  · rfl
  · dsimp only
    split
    · rfl
    · split
      · exact (slotsOf_erase_ne _ (fun h => hne (h.symm.trans hcell))).trans hother
      · exact hother

end

/-- The cells of a STAGE one after another: each makes of its slots what it would make of those before. -/
theorem stageCells (d : DieId) (i : Issue) (f : StageF) (cells : List Nat) (hlt : ∀ c ∈ cells, c < 64) (hnd : cells.Nodup)
    (s : State) :
    (cells.foldl (fun t c => t.stageCell d i f c) s).stageFrame d = s.stageFrame d ∧
      (∀ c, slotsOf (cells.foldl (fun t c => t.stageCell d i f c) s).cells.staging d c =
        if c ∈ cells then s.stageSlots d i f c (slotsOf s.cells.staging d c) else slotsOf s.cells.staging d c) ∧
      ((∀ c ∈ cells, s.stageFills d f c s.cells.staging = false) →
        (cells.foldl (fun t c => t.stageCell d i f c) s).mem = s.mem) := by
  induction cells generalizing s with
  | nil => exact ⟨rfl, fun c => by simp, fun _ => rfl⟩
  | cons x l ih =>
    obtain ⟨hx, hnd⟩ := List.nodup_cons.1 hnd
    have hx64 := hlt x List.mem_cons_self
    obtain ⟨hframe, hslots, hmem⟩ := s.stageCell_step d i f x
    obtain ⟨ihframe, ihslots, ihmem⟩ := ih (fun c hc => hlt c (List.mem_cons_of_mem _ hc)) hnd (s.stageCell d i f x)
    have hother : ∀ c, c ≠ x → slotsOf (s.stageCell d i f x).cells.staging d c = slotsOf s.cells.staging d c := fun c hne => by
      rw [hslots, State.slotsOf_stageSlots_ne s d i f hx64 _ hne]
    rw [List.foldl_cons]
    refine ⟨ihframe.trans hframe, fun c => ?_, fun hfills => ?_⟩
    · rw [ihslots c]
      by_cases hcx : c = x
      · subst hcx
        rw [if_neg hx, if_pos List.mem_cons_self, hslots, State.slotsOf_stageSlots_self s d i f hx64]
      · rw [hother c hcx]
        by_cases hcl : c ∈ l
        · rw [if_pos hcl, if_pos (List.mem_cons_of_mem _ hcl), State.stageSlots_of_stageFrame hframe]
        · rw [if_neg hcl, if_neg (fun h => (List.mem_cons.1 h).elim hcx hcl)]
    · refine (ihmem fun c hc => ?_).trans (hmem (hfills x List.mem_cons_self))
      have hcx : c ≠ x := fun h => hx (h ▸ hc)
      rw [State.stageFills_of_stageFrame hframe, ← State.stageFills_slotsOf,
        hother c hcx, State.stageFills_slotsOf]
      exact hfills c (List.mem_cons_of_mem _ hc)

/-! ### STAGE -/

/-- A STAGE whose flushes raise no fault runs its cells. -/
theorem effStage_of_stageTrip {s : State} {d : DieId} {i : Issue} {f : StageF} (hdef : stageDefined f = true)
    (h : ∀ c, c < 64 → i.mask.getLsbD c = true → s.stageTrip d f c = none) :
    effStage s d i f = .ok ((maskCells i.mask).foldl (fun t c => t.stageCell d i f c) s).drawn := by
  have hnone : (maskCells i.mask).findSome? (fun c => s.stageTrip d f c) = none := by
    rw [List.findSome?_eq_none_iff]
    intro c hc
    obtain ⟨hlt, hbit⟩ := mem_maskCells.1 hc
    exact h c hlt hbit
  unfold effStage
  rw [if_pos hdef, hnone]
  dsimp only
  rw [State.broadcast, State.touchesTrip_none, State.correctTouches_none]

/-- The slots of a cell where its row joins a slot: that slot holds the row. -/
theorem State.stageSlots_row (s : State) (d : DieId) (i : Issue) (f : StageF) {c : Nat} (hc : c < 64) (l : List StageSlot)
    (hfault : s.appendFault d (s.stageSeq d f c) (s.stageEntry d f c) = none)
    (hroom : stagingFits (s.stageAdd d f c l (s.stageRow d i f c)).1 d c = true) (hfill : s.stageFills d f c l = false) :
    ∃ x ∈ slotsOf (s.stageSlots d i f c l) d c, x.die = d ∧ x.cell.val = c ∧ x.seq = ptrAt f.seq c ∧ x.head = ptrAt f.head c ∧
      x.layer = f.layer.toNat ∧ x.page = s.stagePage d f c ∧ s.stageRow d i f c ∈ x.rows := by
  obtain ⟨hmem, hkey⟩ := addRow_slot l d (ptrAt f.seq c) (ptrAt f.head c) f.layer.toNat (s.stagePage d f c)
    (s.stageRow d i f c) hc
  refine ⟨_, ?_, hkey⟩
  unfold State.stageSlots
  rw [hfault]
  dsimp only
  rw [hroom, hfill]
  exact List.mem_filter.2 ⟨hmem, by simp [hkey.1, hkey.2.1]⟩

/-- Settles O17: what each cell's share makes of the cell's slots depends on those slots and on what no share changes, so that every
cell adds its row to the slots that it had, and memory is written only where a row fills its page. -/
theorem stageAddsOneRow : Obligations.StageAddsOneRow := by
  unfold Obligations.StageAddsOneRow
  intro d i f s hi hdef htrip
  obtain ⟨hframe, hslots, hmem⟩ := stageCells d i f (maskCells i.mask) (fun c hc => (mem_maskCells.1 hc).1) (nodup_maskCells _)
    (s.beginOp d .v ⟨.stage f, i, none, none⟩ 0)
  obtain ⟨u, hu, -, humem, hucells⟩ := State.runOp_effect (sl := .v) (o := .stage f) hi
    (effStage_of_stageTrip (s := s.beginOp d .v ⟨.stage f, i, none, none⟩ 0) hdef htrip)
  have hbegun : (s.beginOp d .v ⟨.stage f, i, none, none⟩ 0).stageFrame d = s.stageFrame d := by
    have hsite : ((s.beginOp d .v ⟨.stage f, i, none, none⟩ 0).front d).drawSite = (s.front d).drawSite :=
      (congrArg ArrayFrame.site (arrayFrame_beginOp s d d .v ⟨.stage f, i, none, none⟩ 0) :)
    unfold State.stageFrame
    rw [hsite]
    rfl
  have hcell : ∀ c, c < 64 → i.mask.getLsbD c = true →
      slotsOf u.cells.staging d c = slotsOf (s.stageSlots d i f c s.cells.staging) d c := by
    intro c hlt hbit
    rw [hucells, State.slotsOf_stageSlots_self s d i f hlt, ← State.stageSlots_of_stageFrame hbegun]
    exact (hslots c).trans (if_pos (mem_maskCells.2 ⟨hlt, hbit⟩))
  dsimp only
  refine ⟨u, hu, fun c hlt hbit hfault hroom hfill => ?_, fun c hlt hbit hno => ?_, fun hfills => ?_, ?_, ?_, ?_⟩
  · obtain ⟨x, hx, hdie, hcx, hseq, hhead, hlayer, hpage, hrow⟩ :=
      s.stageSlots_row d i f hlt s.cells.staging hfault hroom hfill
    rw [← hcell c hlt hbit] at hx
    exact ⟨x, (List.mem_filter.1 hx).1, hdie, hcx, hseq, hhead, hlayer, hpage, _, hrow, rfl, rfl, rfl⟩
  · refine (hcell c hlt hbit).trans ?_
    unfold State.stageSlots
    split
    · rfl
    · next hfault =>
      have hroom : stagingFits (s.stageAdd d f c s.cells.staging (s.stageRow d i f c)).1 d c = false :=
        hno.resolve_left (fun h => h hfault)
      dsimp only
      rw [hroom]
      rfl
  · rw [humem]
    refine hmem fun c hc => ?_
    obtain ⟨hlt, hbit⟩ := mem_maskCells.1 hc
    rw [State.stageFills_of_stageFrame hbegun]
    exact hfills c hlt hbit
  · rw [humem]
    exact (congrArg (fun x : StageFrame => x.mem.sram) hframe :)
  · rw [hucells]
    exact (congrArg StageFrame.vregs hframe :)
  · rw [hucells]
    exact (congrArg StageFrame.tiles hframe :)

end Sys2Proof.Machine
end

section
/-! SUPPORT. A WALK cell by cell: each cell's share writes what depends on the tables, the staging buffers and the HBM, which no share
changes (R128, R129, R197, R310 to R312). -/

namespace Sys2Proof.Machine

open Sys2Proof

/-! ### Corrected errors of SRAM, and races -/

/-- Correcting errors of SRAM changes the errors, and counts and logs them (R121). -/
theorem calmFrame_correctTouches (s : State) (d : DieId) (ts : List Touch) : (s.correctTouches d ts).calmFrame =
    State.calmFrame { s with mem := { s.mem with sramSingle := (s.correctTouches d ts).mem.sramSingle } } := by
  have hone : ∀ (t : State) (c a n : Nat), (t.correctSram d c a n).calmFrame =
      State.calmFrame { t with mem := { t.mem with sramSingle := (t.correctSram d c a n).mem.sramSingle } } := by
    intro t c a n
    unfold State.correctSram
    dsimp only
    split
    · rfl
    · rw [calmFrame_limited, State.limited_mem]
  unfold State.correctTouches
  refine List.foldlRecOn _ _ (motive := fun t : State => t.calmFrame =
    State.calmFrame { s with mem := { s.mem with sramSingle := t.mem.sramSingle } }) rfl fun t ht x _ => ?_
  split
  · exact ht
  · exact (hone t _ _ _).trans (congrArg (fun y : CalmFrame => { y with net := { y.net with mem :=
      { y.net.mem with sramSingle := (t.correctSram d x.cell x.addr x.len).mem.sramSingle } } }) ht)

/-- No running operation has written external memory (R221). -/
def State.NoRace (s : State) : Prop := ∀ lp d b, s.openWrites lp d b = []

theorem noRace_of_noOpenWrites {s : State} (h : NoOpenWrites s) : s.NoRace := by
  intro lp d b
  refine List.filter_eq_nil_iff.2 fun w hw hp => ?_
  simp only [Bool.and_eq_true, List.any_eq_true, beq_iff_eq] at hp
  obtain ⟨-, r, hr, hid⟩ := hp
  exact h w hw r hr hid

/-- A new operation has written nothing. -/
theorem noOpenWrites_beginOp {s : State} (hf : OpsFresh s) (h : NoOpenWrites s) (d : DieId) (sl : Slot) (e : QEntry) (n : Nat) :
    NoOpenWrites (s.beginOp d sl e n) := by
  obtain ⟨-, -, -, -, -, hwrites⟩ := hf
  intro w hw r hr
  have hmem : ∀ r ∈ ((s.beginOp d sl e n).front w.owner.1).running,
      r ∈ (s.front w.owner.1).running ∨ r.id = s.fab.nextOp := by
    intro r hr
    by_cases hd : w.owner.1 = d
    · rw [hd] at hr ⊢
      have hrun : ((s.beginOp d sl e n).front d).running =
          (s.front d).running ++ [⟨s.fab.nextOp, sl, e, n, s.ten.epoch, 0⟩] :=
        congrArg FrontEnd.running (State.front_modFront_self s d
          (fun f => { f with running := f.running ++ [⟨s.fab.nextOp, sl, e, n, s.ten.epoch, 0⟩] }))
      rw [hrun, List.mem_append, List.mem_singleton] at hr
      exact hr.imp_right (fun h => congrArg Running.id h)
    · refine .inl ?_
      have hrun : (s.beginOp d sl e n).front w.owner.1 = s.front w.owner.1 := State.front_modFront_ne s _ _
        (fun f => { f with running := f.running ++ [⟨s.fab.nextOp, sl, e, n, s.ten.epoch, 0⟩] }) hd
      rwa [hrun] at hr
  rcases hmem r hr with hold | hnew
  · exact h w hw r hold
  · rw [hnew]
    exact (hwrites w hw).ne'

/-- Without races an operation reads what memory holds. -/
theorem State.raceBlock_of_noRace {s : State} (h : s.NoRace) (lp : Bool) (d : DieId) (b : Nat) :
    s.raceBlock lp d b = s.extRead lp d (b * 256) 256 := by
  unfold State.raceBlock
  rw [h]
  rfl

theorem drop_take_readBytes (m : Memory) (a k n l : Nat) (h : k + n ≤ l) :
    ((m.readBytes a l).drop k).take n = m.readBytes (a + k) n := by
  refine List.ext_getElem (by simp; omega) fun i h1 h2 => ?_
  simp [Memory.getElem_readBytes, Nat.add_assoc]

theorem State.raceBytes_of_noRace {s : State} (h : s.NoRace) (lp : Bool) (d : DieId) {a n : Nat} (hn : a % 256 + n ≤ 256) :
    s.raceBytes lp d a n = s.extRead lp d a n := by
  unfold State.raceBytes
  split
  · rfl
  · rw [State.raceBlock_of_noRace h]
    unfold State.extRead
    rw [drop_take_readBytes _ _ _ _ _ hn]
    rw [show extKey d (a / 256 * 256) + a % 256 = extKey d a by unfold extKey; omega]

theorem State.raceBytes_congr {s t : State} (hfab : t.fab = s.fab) (hfe : t.fe = s.fe) (hhbm : t.mem.hbm = s.mem.hbm) (d : DieId)
    (a n : Nat) : t.raceBytes false d a n = s.raceBytes false d a n := by
  unfold State.raceBytes State.raceBlock State.openWrites State.front State.extRead State.tier
  rw [hfab, hfe, if_neg Bool.false_ne_true, if_neg Bool.false_ne_true, hhbm]

/-! ### What the cells of a walk share -/

/-- What a walk reads, and leaves alone: all that a table fault does, but the bytes of SRAM and the translation lists. -/
def State.walkFrame (s : State) : KvFrame :=
  { s.kvFrame with mem := { s.mem with sram := [], sramValid := [], sramDouble := [], sramSingle := [] },
                   cells := { s.cells with xlat := [] } }

theorem State.walkEntries_of_kvRead {s t : State} (h : t.kvRead = s.kvRead) (d : DieId) (r : Option SeqRec) (layer head n page : Nat)
    (after : Bool) : t.walkEntries d r layer head page n after = s.walkEntries d r layer head page n after := by
  induction n generalizing page after with
  | zero => rfl
  | succ n ih =>
    unfold State.walkEntries
    dsimp only
    rw [ih, State.pteFault_of_kvRead h]
    cases r with
    | none => rfl
    | some q =>
      simp only [State.pte_of_kvRead h, State.pteOf_of_kvRead h]

theorem State.walkList_of_kvRead {s t : State} (h : t.kvRead = s.kvRead) (d : DieId) (f : WalkF) (c : Nat) :
    t.walkList d f c = s.walkList d f c := by
  unfold State.walkList
  rw [State.seq?_of_kvRead h]
  exact State.walkEntries_of_kvRead h _ _ _ _ _ _ _

theorem State.length_walkEntries (s : State) (d : DieId) (r : Option SeqRec) (layer head n page : Nat) (after : Bool) :
    (s.walkEntries d r layer head page n after).length = n := by
  induction n generalizing page after with
  | zero => rfl
  | succ n ih =>
    unfold State.walkEntries
    dsimp only
    rw [List.length_cons, ih]

theorem State.length_walkList (s : State) (d : DieId) (f : WalkF) (c : Nat) : (s.walkList d f c).length = f.npage.val + 1 :=
  s.length_walkEntries _ _ _ _ _ _ _

/-- Format of the pages that a cell walks. -/
def State.walkFmt (s : State) (d : DieId) (f : WalkF) (c : Nat) : Nat := ((s.seq? d (ptrAt f.seq c)).map (·.fmt)).getD 0

/-- What a cell's share writes. -/
def State.walkData (s : State) (d : DieId) (f : WalkF) (c : Nat) : List Byte :=
  (s.walkList d f c).flatMap (s.walkPage d f c (s.walkFmt d f c))

theorem State.walkPage_of_walkFrame {s t : State} (h : t.walkFrame = s.walkFrame) (d : DieId) (f : WalkF) (c fmt : Nat)
    (e : Nat × Pte × Option Nat) : t.walkPage d f c fmt e = s.walkPage d f c fmt e := by
  have hstaging : t.cells.staging = s.cells.staging := congrArg (fun x : KvFrame => x.cells.staging) h
  have hflushed : t.cells.flushed = s.cells.flushed := congrArg (fun x : KvFrame => x.cells.flushed) h
  have hhbm : t.mem.hbm = s.mem.hbm := congrArg (fun x : KvFrame => x.mem.hbm) h
  have hfab : t.fab = s.fab := congrArg KvFrame.fab h
  have hfe : t.fe = s.fe := congrArg KvFrame.fe h
  unfold State.walkPage State.walkHalf State.stagedRow State.flushedToken
  simp only [hstaging, hflushed, State.raceBytes_congr hfab hfe hhbm]

theorem State.walkData_of_walkFrame {s t : State} (h : t.walkFrame = s.walkFrame) (d : DieId) (f : WalkF) (c : Nat) :
    t.walkData d f c = s.walkData d f c := by
  have hread : t.kvRead = s.kvRead := congrArg KvFrame.read h
  unfold State.walkData State.walkFmt
  rw [State.walkList_of_kvRead hread, State.seq?_of_kvRead hread]
  exact congrArg (fun g => (s.walkList d f c).flatMap g) (funext fun e => State.walkPage_of_walkFrame h d f c _ e)

/-! ### One cell's share -/

/-- The translation lists with that of a cell taken down (R128). -/
def State.walkLists (s : State) (d : DieId) (f : WalkF) (c : Nat) (m : AMap (List Nat)) : AMap (List Nat) :=
  AMap.set [] m (d.val * 64 + c) ((s.walkList d f c).map (fun e => e.2.1.frame))

/-- A cell's share of a walk, but for the table faults that it reports. -/
def State.walkWritten (s : State) (d : DieId) (f : WalkF) (c : Nat) : State :=
  let t := (s.walkMet d f c).sramWrite d c (ptrSram f.dst f.dstOff c) (s.walkData d f c)
  { t with cells := { t.cells with xlat := s.walkLists d f c t.cells.xlat } }

/-- The table faults of a walk reported. -/
def State.walkFault (d : DieId) (f : WalkF) (c : Nat) (t : State) (e : Nat × Pte × Option Nat) : State :=
  match e.2.2 with
  | some cause => t.tableFault d (ptrAt f.seq c) f.layer.toNat (ptrAt f.head c) e.1 cause
  | none => t

theorem State.walkCell_eq (s : State) (d : DieId) (f : WalkF) (c : Nat) :
    s.walkCell d f c = (s.walkList d f c).foldl (State.walkFault d f c) (s.walkWritten d f c) := rfl

/-- The bytes of SRAM after a write depend on the memories before. -/
theorem State.sramWrite_mem_congr {s t : State} (h : t.mem = s.mem) (d : DieId) (c a : Nat) (bs : List Byte) :
    (t.sramWrite d c a bs).mem = (s.sramWrite d c a bs).mem := by
  unfold State.sramWrite
  dsimp only
  rw [h]

theorem State.kvFrame_walkCell (s : State) (d : DieId) (f : WalkF) (c : Nat) : (s.walkCell d f c).kvFrame =
    { s.kvFrame with
      mem := (s.sramWrite d c (ptrSram f.dst f.dstOff c) (s.walkData d f c)).mem,
      cells := { s.cells with xlat := s.walkLists d f c s.cells.xlat } } := by
  have hmet : (s.walkMet d f c).kvFrame = s.kvFrame := by
    unfold State.walkMet
    split
    · rfl
    · exact kvFrame_of_calmFrame (List.foldlRecOn _ _ (motive := fun t : State => t.calmFrame = s.calmFrame) rfl
        fun t ht b _ => (calmFrame_correctMem t false d b 1).trans ht)
  have hwritten : (s.walkWritten d f c).kvFrame = { (s.walkMet d f c).kvFrame with
      mem := ((s.walkMet d f c).sramWrite d c (ptrSram f.dst f.dstOff c) (s.walkData d f c)).mem,
      cells := { (s.walkMet d f c).cells with xlat := s.walkLists d f c (s.walkMet d f c).cells.xlat } } := rfl
  have hcells : (s.walkMet d f c).cells = s.cells := congrArg KvFrame.cells hmet
  rw [hmet, hcells, State.sramWrite_mem_congr (congrArg KvFrame.mem hmet)] at hwritten
  rw [State.walkCell_eq]
  refine List.foldlRecOn _ _ (motive := fun t : State => t.kvFrame = _) hwritten fun t ht e _ => ?_
  unfold State.walkFault
  split
  · exact (kvFrame_tableFault _ _ _ _ _ _ _).trans ht
  · exact ht

/-! ### The cells one after another -/

/-- The cells of a walk, one after another: each writes what it would write before, and takes down its frames. -/
theorem walkCells (d : DieId) (f : WalkF) (cells : List Nat) (hnd : cells.Nodup) (s : State)
    (hfit : ∀ c ∈ cells, c < 64 ∧ ptrSram f.dst f.dstOff c + (s.walkData d f c).length ≤ 2 ^ 22) :
    (cells.foldl (fun t c => t.walkCell d f c) s).walkFrame = s.walkFrame ∧
      (∀ c, c < 64 → (cells.foldl (fun t c => t.walkCell d f c) s).cellData d c =
        if c ∈ cells then (s.cellData d c).write (ptrSram f.dst f.dstOff c) (s.walkData d f c) else s.cellData d c) ∧
      (∀ c, c < 64 → (cells.foldl (fun t c => t.walkCell d f c) s).cells.xlat.getD (d.val * 64 + c) [] =
        if c ∈ cells then (s.walkList d f c).map (fun e => e.2.1.frame) else s.cells.xlat.getD (d.val * 64 + c) []) := by
  induction cells generalizing s with
  | nil => exact ⟨rfl, fun c _ => by simp, fun c _ => by simp⟩
  | cons x l ih =>
    obtain ⟨hx, hnd⟩ := List.nodup_cons.1 hnd
    obtain ⟨hx64, hxfit⟩ := hfit x List.mem_cons_self
    have hkv := s.kvFrame_walkCell d f x
    have hframe : (s.walkCell d f x).walkFrame = s.walkFrame := by
      refine (congrArg (fun y : KvFrame => { y with
        mem := { y.mem with sram := [], sramValid := [], sramDouble := [], sramSingle := [] },
        cells := { y.cells with xlat := [] } }) hkv).trans ?_
      have hmem := congrArg (fun y : MemState => { y with sram := [], sramValid := [], sramDouble := [], sramSingle := [] })
        (s.sramWrite_mem d x (ptrSram f.dst f.dstOff x) (s.walkData d f x))
      exact congrArg (fun y : MemState => { s.walkFrame with mem := y }) hmem
    have hmem := congrArg KvFrame.mem hkv
    have hcells := congrArg KvFrame.cells hkv
    have hdata : ∀ c, c < 64 → (s.walkCell d f x).cellData d c =
        if c = x then (s.cellData d x).write (ptrSram f.dst f.dstOff x) (s.walkData d f x) else s.cellData d c := by
      intro c hc
      refine (State.cellData_congr (s := s.sramWrite d x (ptrSram f.dst f.dstOff x) (s.walkData d f x))
        (congrArg CellState.vregs hcells :) (congrArg MemState.sram hmem :) (congrArg MemState.sramValid hmem :) d c).trans ?_
      rw [State.cellData_sramWrite s hx64 hc hxfit]
      simp only [true_and]
    have hxlat : ∀ c, c < 64 → (s.walkCell d f x).cells.xlat.getD (d.val * 64 + c) [] =
        if c = x then (s.walkList d f x).map (fun e => e.2.1.frame) else s.cells.xlat.getD (d.val * 64 + c) [] := by
      intro c hc
      have hset : (s.walkCell d f x).cells.xlat = s.walkLists d f x s.cells.xlat := congrArg CellState.xlat hcells
      rw [hset, State.walkLists]
      split
      · next h => rw [h, AMap.getD_set_self]
      · next h => rw [AMap.getD_set_ne _ _ _ _ (by omega)]
    have hread : (s.walkCell d f x).kvRead = s.kvRead := congrArg KvFrame.read hframe
    obtain ⟨ihf, ihd, ihx⟩ := ih hnd (s.walkCell d f x) (fun c hc => by
      rw [State.walkData_of_walkFrame hframe]
      exact hfit c (List.mem_cons_of_mem _ hc))
    rw [List.foldl_cons]
    refine ⟨ihf.trans hframe, fun c hc => ?_, fun c hc => ?_⟩
    · rw [ihd c hc, hdata c hc, State.walkData_of_walkFrame hframe]
      by_cases hcx : c = x
      · subst hcx
        simp [hx]
      · simp [hcx]
    · rw [ihx c hc, hxlat c hc, State.walkList_of_kvRead hread]
      by_cases hcx : c = x
      · subst hcx
        simp [hx]
      · simp [hcx]

end Sys2Proof.Machine
end

section
/-! SUPPORT. The bytes that a WALK delivers, token by token, and WALK as a command (R197, R225, R310 to R312). -/

namespace Sys2Proof.Machine

open Sys2Proof

/-! ### Tokens -/

/-- What a walk delivers for token k of a page, of its K or of its V. -/
def State.walkToken (s : State) (d : DieId) (c q head layer page fmt : Nat) (p : Pte) (v : Bool) (k : Nat) : List Byte :=
  match s.stagedRow d c q head layer page (kvTpp fmt) k with
  | some r => ((if v then r.v else r.k) ++ List.replicate (kvStride fmt) 0).take (kvStride fmt)
  | none =>
    if decide (k < p.used) || s.flushedToken d q head layer page (kvTpp fmt) k then
      s.raceBytes false d (framePage p.frame * 65536 + (if v then 32768 else 0) + k * kvStride fmt) (kvStride fmt)
    else List.replicate (kvStride fmt) 0

theorem State.walkHalf_eq (s : State) (d : DieId) (c q head layer page fmt : Nat) (p : Pte) (v : Bool) :
    s.walkHalf d c q head layer page fmt p v =
      (List.range (kvTpp fmt)).flatMap (s.walkToken d c q head layer page fmt p v) := rfl

/-- A row lies within one block. -/
theorem row_in_block (fmt b k : Nat) (v : Bool) :
    (b * 65536 + (if v then 32768 else 0) + k * kvStride fmt) % 256 + kvStride fmt ≤ 256 := by
  unfold kvStride
  by_cases hf : fmt < 2 <;> cases v <;> simp only [hf, if_true, Bool.false_eq_true, if_false] <;> omega

theorem State.length_walkToken {s : State} (hrace : s.NoRace) (d : DieId) (c q head layer page fmt : Nat) (p : Pte) (v : Bool)
    (k : Nat) : (s.walkToken d c q head layer page fmt p v k).length = kvStride fmt := by
  unfold State.walkToken
  split
  · simp
  · split
    · rw [State.raceBytes_of_noRace hrace _ _ (row_in_block _ _ _ _)]
      simp [State.extRead]
    · simp

theorem length_flatMap_const {α β : Type} (g : α → List β) (w : Nat) (l : List α) (hg : ∀ x ∈ l, (g x).length = w) :
    (l.flatMap g).length = w * l.length := by
  rw [List.length_flatMap, List.map_congr_left hg, List.map_const', List.sum_replicate, smul_eq_mul, Nat.mul_comm]

/-- The rows of half a page fill it. -/
theorem kvStride_mul_kvTpp (fmt : Nat) : kvStride fmt * kvTpp fmt = 32768 := by
  unfold kvStride kvTpp
  split <;> rfl

theorem State.length_walkHalf {s : State} (hrace : s.NoRace) (d : DieId) (c q head layer page fmt : Nat) (p : Pte) (v : Bool) :
    (s.walkHalf d c q head layer page fmt p v).length = 32768 := by
  rw [State.walkHalf_eq, length_flatMap_const _ _ _ (fun k _ => State.length_walkToken hrace d c q head layer page fmt p v k),
    List.length_range, kvStride_mul_kvTpp]

theorem partBytes_eq (p : Part) : partBytes p = 32768 * (partHalves p).length := by cases p <;> rfl

theorem State.length_walkPage {s : State} (hrace : s.NoRace) (d : DieId) (f : WalkF) (c fmt : Nat) (e : Nat × Pte × Option Nat) :
    (s.walkPage d f c fmt e).length = partBytes f.part := by
  unfold State.walkPage
  split
  · exact List.length_replicate
  · rw [length_flatMap_const _ _ _ (fun v _ => State.length_walkHalf hrace _ _ _ _ _ _ _ _ v), partBytes_eq]

theorem State.length_walkData {s : State} (hrace : s.NoRace) (d : DieId) (f : WalkF) (c : Nat) :
    (s.walkData d f c).length = (f.npage.val + 1) * partBytes f.part := by
  unfold State.walkData
  rw [length_flatMap_const _ _ _ (fun e _ => State.length_walkPage hrace d f c _ e), State.length_walkList, Nat.mul_comm]

/-- A part of a part. -/
theorem take_drop_within {α : Type} (l : List α) {a b m n : Nat} (h : b + m ≤ n) :
    (l.drop (a + b)).take m = (((l.drop a).take n).drop b).take m := by
  rw [List.drop_take, List.take_take, List.drop_drop, Nat.min_eq_left (by omega)]

theorem row_in_half {fmt k : Nat} (hk : k < kvTpp fmt) : kvStride fmt * k + kvStride fmt ≤ 32768 := by
  rw [← kvStride_mul_kvTpp fmt, ← Nat.mul_succ]
  exact Nat.mul_le_mul_left _ hk

theorem row_in_part {p : Part} {fmt h k : Nat} (hh : h < (partHalves p).length) (hk : k < kvTpp fmt) :
    32768 * h + kvStride fmt * k + kvStride fmt ≤ partBytes p := by
  have hrow := row_in_half hk
  rw [partBytes_eq]
  omega

/-- What a cell's share delivers for token k of half h of entry m. -/
theorem State.take_drop_walkData {s : State} (hrace : s.NoRace) (d : DieId) (f : WalkF) (c : Nat) {m h k : Nat}
    {e : Nat × Pte × Option Nat} {v : Bool} (he : (s.walkList d f c)[m]? = some e) (hv : (partHalves f.part)[h]? = some v)
    (hk : k < kvTpp (s.walkFmt d f c)) :
    ((s.walkData d f c).drop (m * partBytes f.part + h * 32768 + k * kvStride (s.walkFmt d f c))).take
        (kvStride (s.walkFmt d f c)) =
      if e.2.2.isSome = true ∨ e.2.1.valid = false then List.replicate (kvStride (s.walkFmt d f c)) 0
      else s.walkToken d c (ptrAt f.seq c) (ptrAt f.head c) f.layer.toNat e.1 (s.walkFmt d f c) e.2.1 v k := by
  obtain ⟨hm, rfl⟩ := List.getElem?_eq_some_iff.1 he
  obtain ⟨hh, rfl⟩ := List.getElem?_eq_some_iff.1 hv
  have hpage := take_drop_flatMap (s.walkPage d f c (s.walkFmt d f c)) (partBytes f.part) (s.walkList d f c)
    (fun e _ => State.length_walkPage hrace d f c _ e) hm
  change ((s.walkData d f c).drop (partBytes f.part * m)).take (partBytes f.part) = _ at hpage
  generalize s.walkFmt d f c = fmt at hk hpage ⊢
  generalize (s.walkList d f c)[m] = e at hpage ⊢
  have hrow := row_in_part hh hk
  rw [show m * partBytes f.part + h * 32768 + k * kvStride fmt = partBytes f.part * m + (32768 * h + kvStride fmt * k) by ring,
    take_drop_within _ hrow, hpage]
  unfold State.walkPage
  by_cases hzero : e.2.2.isSome = true ∨ e.2.1.valid = false
  · rw [if_pos (by simpa using hzero), if_pos hzero, List.drop_replicate, List.take_replicate, Nat.min_eq_left (by omega)]
  · rw [if_neg (by simpa using hzero), if_neg hzero, take_drop_within _ (row_in_half hk),
      take_drop_flatMap _ 32768 _ (fun v _ => State.length_walkHalf hrace _ _ _ _ _ _ _ _ v) hh, State.walkHalf_eq,
      take_drop_flatMap _ (kvStride fmt) _ (fun j _ => State.length_walkToken hrace _ _ _ _ _ _ _ _ _ j)
        (by rwa [List.length_range]), List.getElem_range]

/-! ### WALK -/

theorem walkFrame_correctTouches (s : State) (d : DieId) (ts : List Touch) : (s.correctTouches d ts).walkFrame = s.walkFrame :=
  (congrArg (fun y : KvFrame => { y with
    mem := { y.mem with sram := [], sramValid := [], sramDouble := [], sramSingle := [] },
    cells := { y.cells with xlat := [] } }) (kvFrame_of_calmFrame (calmFrame_correctTouches s d ts)) :)

theorem State.walkTrip_beginOp (s : State) (d e : DieId) (sl : Slot) (q : QEntry) (n : Nat) (f : WalkF) (c : Nat) :
    (s.beginOp e sl q n).walkTrip d f c = s.walkTrip d f c := by
  unfold State.walkTrip State.walkBlocks
  rw [State.walkList_of_kvRead (show (s.beginOp e sl q n).kvRead = s.kvRead from rfl)]
  rfl

/-- A walk whose accesses raise no fault runs its cells. -/
theorem effWalk_of_walkTrip {s : State} {d : DieId} {i : Issue} {f : WalkF} (hnom : f.nom ≠ 0)
    (h : ∀ c, c < 64 → i.mask.getLsbD c = true → s.walkTrip d f c = none) {ts : List Touch}
    (hts : ts = (maskCells i.mask).map (fun c =>
      ⟨c, ptrSram f.dst f.dstOff c, (f.npage.val + 1) * partBytes f.part, true, true⟩))
    (htouch : s.touchesTrip d ts = none) :
    effWalk s d i f = .ok ((maskCells i.mask).foldl (fun t c => t.walkCell d f c) (s.correctTouches d ts)).drawn := by
  have hnone : (maskCells i.mask).findSome? (fun c => s.walkTrip d f c) = none := by
    rw [List.findSome?_eq_none_iff]
    intro c hc
    obtain ⟨hlt, hbit⟩ := mem_maskCells.1 hc
    exact h c hlt hbit
  rw [List.map_eq_flatMap] at hts
  unfold effWalk
  rw [if_neg (by simpa using hnom), hnone]
  dsimp only
  rw [State.broadcast, ← hts, htouch]

/-- Settles O18: no share changes what another reads, so that each cell writes the pages that it finds before, with the rows
staged for it, and a block read without races is what memory holds. -/
theorem walkDeliversPages : Obligations.WalkDeliversPages := by
  unfold Obligations.WalkDeliversPages
  intro d i f s hi hnom hfresh hopen htrip htouch
  generalize hts : (maskCells i.mask).map (fun c => (⟨c, ptrSram f.dst f.dstOff c, (f.npage.val + 1) * partBytes f.part, true,
    true⟩ : Touch)) = ts at htouch
  have hbrace : (s.beginOp d .m1 ⟨.walk f, i, none, none⟩ 0).NoRace :=
    noRace_of_noOpenWrites (noOpenWrites_beginOp hfresh hopen d .m1 _ 0)
  have hlist := fun c => State.walkList_of_kvRead (show (s.beginOp d .m1 ⟨.walk f, i, none, none⟩ 0).kvRead = s.kvRead from rfl) d f c
  have hframe := walkFrame_correctTouches (s.beginOp d .m1 ⟨.walk f, i, none, none⟩ 0) d ts
  have hfit : ∀ c ∈ maskCells i.mask, c < 64 ∧ ptrSram f.dst f.dstOff c + (((s.beginOp d .m1 ⟨.walk f, i, none, none⟩ 0).correctTouches
      d ts).walkData d f c).length ≤ 2 ^ 22 := by
    intro c hc
    have hmem : (⟨c, ptrSram f.dst f.dstOff c, (f.npage.val + 1) * partBytes f.part, true, true⟩ : Touch) ∈ ts :=
      hts ▸ List.mem_map_of_mem hc
    obtain ⟨hrange, -⟩ := range_of_touchTrip (touchTrip_of_touchesTrip htouch hmem)
    rw [State.walkData_of_walkFrame hframe, State.length_walkData hbrace]
    exact ⟨(mem_maskCells.1 hc).1, hrange.trans (by decide)⟩
  obtain ⟨hwalk, hdata, hxlat⟩ := walkCells d f (maskCells i.mask) (nodup_maskCells _) _ hfit
  obtain ⟨u, hu, -, hmem, hcells⟩ := State.runOp_effect (sl := .m1) (o := .walk f) hi
    (effWalk_of_walkTrip (s := s.beginOp d .m1 ⟨.walk f, i, none, none⟩ 0) hnom
      (fun c hlt hbit => (State.walkTrip_beginOp s d d .m1 _ 0 f c).trans (htrip c hlt hbit)) hts.symm
      ((State.touchesTrip_congr (s.beginOp_mem d .m1 _ 0) d ts).trans htouch))
  have hkept := hwalk.trans hframe
  dsimp only
  refine ⟨u, hu, fun c hlt hbit m e he h v hv k hk => ?_, fun c hlt hbit => ?_, ?_, ?_, ?_, ?_, ?_, ?_⟩
  · have hin := mem_maskCells.2 ⟨hlt, hbit⟩
    have hcell := (State.cellData_congr (congrArg CellState.vregs hcells) (congrArg MemState.sram hmem)
      (congrArg MemState.sramValid hmem) d c).trans ((hdata c hlt).trans (if_pos hin))
    rw [State.walkData_of_walkFrame hframe] at hcell
    have hfitc := (hfit c hin).2
    rw [State.walkData_of_walkFrame hframe] at hfitc
    have hm : m < f.npage.val + 1 := s.length_walkList d f c ▸ (List.getElem?_eq_some_iff.1 he).1
    have hrow := row_in_part (List.getElem?_eq_some_iff.1 hv).1 hk
    have hpages := Nat.mul_le_mul_right (partBytes f.part) (Nat.succ_le_of_lt hm)
    have hshare := State.take_drop_walkData hbrace d f c ((congrArg (fun l => l[m]?) (hlist c)).trans he) hv hk
    rw [Nat.add_assoc, Nat.add_assoc, ← Nat.add_assoc (m * _), sramRead_of_write hcell hfitc (by
      rw [State.length_walkData hbrace]
      rw [Nat.succ_mul] at hpages
      linarith)]
    refine hshare.trans (if_congr Iff.rfl rfl ?_)
    unfold State.walkToken
    rw [State.raceBytes_of_noRace hbrace _ _ (row_in_block _ _ _ _)]
    simp only [Bool.or_eq_true, decide_eq_true_eq]
    rfl
  · rw [hcells]
    refine (hxlat c hlt).trans ((if_pos (mem_maskCells.2 ⟨hlt, hbit⟩)).trans ?_)
    rw [State.walkList_of_kvRead (congrArg KvFrame.read hframe), hlist]
  · rw [hmem]
    exact (congrArg (fun x : KvFrame => x.mem.hbm) hkept :)
  · rw [hmem]
    exact (congrArg (fun x : KvFrame => x.mem.lpddr) hkept :)
  · rw [hmem]
    exact (congrArg (fun x : KvFrame => x.mem.acc) hkept :)
  · rw [hcells]
    exact (congrArg (fun x : KvFrame => x.cells.vregs) hkept :)
  · rw [hcells]
    exact (congrArg (fun x : KvFrame => x.cells.tiles) hkept :)
  · rw [hcells]
    exact (congrArg (fun x : KvFrame => x.cells.staging) hkept :)

end Sys2Proof.Machine
end

section
/-! SUPPORT. Blocks stored at a place of this device: which bytes of which memory they are, and what a store leaves alone (R174,
R175, R194, R217, R221). -/

namespace Sys2Proof.Machine

open Sys2Proof

/-! ### Places as bytes of a memory -/

/-- The memory of a place: cell SRAM, or a tier. -/
def Loc.mem : Loc → Option Bool
  | .sram .. => none
  | .ext lp _ _ => some lp
  | .remote .. => none

/-- The key of its first byte. -/
def Loc.key : Loc → Nat
  | .sram d c a => sramKey d c a
  | .ext _ d b => extKey d (b * 256)
  | .remote .. => 0

/-- A byte of a memory is among the n blocks of a place. -/
def Loc.holds (n : Nat) (x : Loc) (m : Option Bool) (k : Nat) : Prop := x.mem = m ∧ x.key ≤ k ∧ k < x.key + 256 * n

/-- The n blocks at a place lie within a memory of this device, on a line where it is SRAM. -/
def Loc.Near (n : Nat) : Loc → Prop
  | .sram _ c a => c < 64 ∧ a % 128 = 0 ∧ a + 256 * n ≤ 2 ^ 22
  | .ext _ _ b => b + n ≤ 2 ^ 30
  | .remote .. => False

/-- The memory of a place. -/
def State.bytesOf (s : State) : Option Bool → Memory
  | none => s.mem.sram
  | some lp => s.tier lp

theorem State.readLoc_eq (s : State) {n : Nat} {x : Loc} (hx : x.Near n) :
    s.readLoc n x = (s.bytesOf x.mem).readBytes x.key (256 * n) := by
  cases x with
  | sram d c a => rfl
  | ext lp d b => rfl
  | remote => exact hx.elim

theorem State.readLoc_congr {s t : State} {n : Nat} {x : Loc} (hx : x.Near n)
    (h : ∀ k, x.holds n x.mem k → (t.bytesOf x.mem).read k = (s.bytesOf x.mem).read k) : t.readLoc n x = s.readLoc n x := by
  rw [State.readLoc_eq t hx, State.readLoc_eq s hx]
  refine List.ext_getElem (by simp) fun i h1 _ => ?_
  rw [Memory.length_readBytes] at h1
  rw [Memory.getElem_readBytes, Memory.getElem_readBytes]
  exact h _ ⟨rfl, by omega, by omega⟩

/-- Places that do not overlap share no byte. -/
theorem not_holds_of_overlaps {n : Nat} {x y : Loc} (hx : x.Near n) (hy : y.Near n) (h : overlaps n x y = false)
    {m : Option Bool} {k : Nat} (hk : x.holds n m k) : ¬ y.holds n m k := by
  obtain ⟨rfl, h1, h2⟩ := hk
  rintro ⟨hm, h3, h4⟩
  cases x with
  | sram d c a =>
    cases y with
    | sram e c' b =>
      obtain ⟨hc, -, ha⟩ := hx
      obtain ⟨hc', -, hb⟩ := hy
      have hno : ¬ (d = e ∧ c = c' ∧ a < b + 256 * n ∧ b < a + 256 * n) := by
        intro hyes
        simp [overlaps, hyes] at h
      simp only [Loc.key, sramKey] at h1 h2 h3 h4
      rw [Fin.ext_iff] at hno
      omega
    | ext lp e b => cases hm
    | remote => exact hy
  | ext lp d a =>
    cases y with
    | sram e c' b => cases hm
    | ext lp' e b =>
      obtain rfl : lp' = lp := Option.some.inj hm
      unfold Loc.Near at hx hy
      have hno : ¬ (d = e ∧ a < b + n ∧ b < a + n) := by
        intro hyes
        simp [overlaps, hyes] at h
      simp only [Loc.key, extKey] at h1 h2 h3 h4
      rw [Fin.ext_iff] at hno
      omega
    | remote => exact hy
  | remote => exact hx

/-! ### What a move of blocks leaves alone -/

/-- The memories of a device but for SRAM and the tiers. -/
def MemState.beyondData (m : MemState) : MemState :=
  { m with sram := [], sramValid := [], sramDouble := [], sramSingle := [], hbm := [], lpddr := [], memDouble := [],
           memSingle := [], tagBad := [] }

/-- What a move leaves alone. -/
def State.moveFrame (s : State) : CalmFrame :=
  { s.calmFrame with net := { s.netFrame with mem := s.mem.beyondData, rind := {} }, fab := { s.fab with writes := [] } }

theorem moveFrame_of_calmFrame {s t : State} (h : t.calmFrame = s.calmFrame) : t.moveFrame = s.moveFrame :=
  congrArg (fun x : CalmFrame => { x with net := { x.net with mem := x.net.mem.beyondData, rind := {} },
                                          fab := { x.fab with writes := [] } }) h

section
variable {s t : State} (h : t.moveFrame = s.moveFrame)
include h

theorem fe_of_moveFrame : t.fe = s.fe := congrArg (fun x : CalmFrame => x.net.fe) h
theorem cells_of_moveFrame : t.cells = s.cells := congrArg (fun x : CalmFrame => x.net.cells) h
theorem snoops_of_moveFrame : t.host.snoops = s.host.snoops := congrArg CalmFrame.snoops h
theorem layout_of_moveFrame : t.dict.layout = s.dict.layout := congrArg (fun x : CalmFrame => x.dict.layout) h
theorem acc_of_moveFrame : t.mem.acc = s.mem.acc := (congrArg (fun x : CalmFrame => x.net.mem.acc) h :)
theorem plan_of_moveFrame : t.mem.plan = s.mem.plan := (congrArg (fun x : CalmFrame => x.net.mem.plan) h :)
theorem flash_of_moveFrame : t.mem.flash = s.mem.flash := (congrArg (fun x : CalmFrame => x.net.mem.flash) h :)

theorem State.param_of_moveFrame {k : Nat} (hk : k ∉ hubCounters) : t.param k = s.param k := by
  have hp : t.dict.beyondHub k = s.dict.beyondHub k := congrFun (congrArg CalmFrame.param h) k
  unfold DictState.beyondHub at hp
  rwa [if_neg hk, if_neg hk] at hp

theorem State.inRegion_of_moveFrame (r : Region) (lp : Bool) (page : Nat) : t.inRegion r lp page = s.inRegion r lp page := by
  unfold State.inRegion State.regionFirst State.regionPages
  rw [layout_of_moveFrame h]

end

/-! ### Writes of one block or of a line -/

/-- Lines touched elsewhere leave a byte alone. -/
theorem MemState.read_touchLines_out (m : MemState) (d : DieId) (c l n : Nat) {k : Nat}
    (h : k < sramKey d c (l * 128) ∨ sramKey d c ((l + n) * 128) ≤ k) : (m.touchLines d c l n).sram.read k = m.sram.read k := by
  have hbase : ∀ j, sramKey d c (j * 128) = sramKey d c 0 + j * 128 := fun j => by simp [sramKey]
  induction n generalizing m l with
  | zero => rfl
  | succ n ih =>
    have hrest : k < sramKey d c ((l + 1) * 128) ∨ sramKey d c ((l + 1 + n) * 128) ≤ k := by
      rw [hbase (l + _)] at h
      rw [hbase l] at h
      rw [hbase (l + 1), hbase (l + 1 + n)]
      omega
    rw [MemState.touchLines, ih _ _ hrest]
    have hline : k < sramKey d c (l * 128) ∨ sramKey d c (l * 128) + 128 ≤ k := by
      rw [hbase (l + _)] at h
      rw [hbase l] at h ⊢
      omega
    unfold MemState.touchLine
    split
    · rfl
    · exact Memory.read_clearRange_out _ _ _ _ hline

/-- Bytes of SRAM after whole lines have been written. -/
theorem State.read_sramWrite (s : State) (d : DieId) {c a : Nat} {bs : List Byte} (ha : a % 128 = 0) (hn : bs.length % 128 = 0)
    (k : Nat) : (s.sramWrite d c a bs).mem.sram.read k =
      if sramKey d c a ≤ k ∧ k < sramKey d c a + bs.length then bs.getD (k - sramKey d c a) 0 else s.mem.sram.read k := by
  have hwrite : (s.sramWrite d c a bs).mem.sram =
      (s.mem.touchLines d c (a / 128) (lineCount a bs.length)).sram.writeBytes (sramKey d c a) bs := rfl
  rw [hwrite]
  by_cases hin : sramKey d c a ≤ k ∧ k < sramKey d c a + bs.length
  · rw [if_pos hin]
    obtain ⟨i, rfl⟩ := Nat.exists_eq_add_of_le hin.1
    rw [Memory.read_writeBytes_in _ _ _ _ (by omega), Nat.add_sub_cancel_left, List.getD_eq_getElem _ _ (by omega)]
  · rw [if_neg hin, Memory.read_writeBytes_out _ _ _ _ (by omega)]
    refine MemState.read_touchLines_out _ _ _ _ _ ?_
    have hlines : (a / 128 + lineCount a bs.length) * 128 = a + bs.length := by
      unfold lineCount
      split <;> omega
    rw [hlines]
    unfold sramKey at hin ⊢
    omega

/-- Bytes of a memory after a write within one block of a tier. -/
theorem State.read_put (s : State) (lp : Bool) (d : DieId) (b : Nat) (bs : List Byte) (r : RindState) (m : Option Bool) (k : Nat) :
    (State.bytesOf { s with mem := s.mem.put lp d b bs, rind := r } m).read k =
      if some lp = m ∧ extKey d b ≤ k ∧ k < extKey d b + bs.length then bs.getD (k - extKey d b) 0 else (s.bytesOf m).read k := by
  have hbytes : State.bytesOf { s with mem := s.mem.put lp d b bs, rind := r } m =
      if some lp = m then (s.bytesOf m).writeBytes (extKey d b) bs else s.bytesOf m := by
    cases m with
    | none => cases lp <;> rfl
    | some lp' => cases lp <;> cases lp' <;> rfl
  rw [hbytes]
  by_cases hm : some lp = m
  · rw [if_pos hm]
    by_cases hin : extKey d b ≤ k ∧ k < extKey d b + bs.length
    · rw [if_pos ⟨hm, hin⟩]
      obtain ⟨i, rfl⟩ := Nat.exists_eq_add_of_le hin.1
      rw [Memory.read_writeBytes_in _ _ _ _ (by omega), Nat.add_sub_cancel_left, List.getD_eq_getElem _ _ (by omega)]
    · rw [if_neg (fun h => hin h.2), Memory.read_writeBytes_out _ _ _ _ (by omega)]
  · rw [if_neg hm, if_neg (fun h => hm h.1)]

end Sys2Proof.Machine
end

section
/-! SUPPORT. Passes that move blocks from place to place of this device, none over another: each destination ends up with what its
source held before (R194 to R196, R217, R221). -/

namespace Sys2Proof.Machine

open Sys2Proof

/-! ### A store at a place -/

/-- Blocks with data have been stored at a place for an operation: the bytes of the place, and what stays. -/
structure StoreTo (o : DieId × Nat) (n : Nat) (y : Loc) (data : List Byte) (s t : State) : Prop where
  frame : t.moveFrame = s.moveFrame
  inside : ∀ k, y.holds n y.mem k → (t.bytesOf y.mem).read k = data.getD (k - y.key) 0
  outside : ∀ m k, ¬ y.holds n m k → (t.bytesOf m).read k = (s.bytesOf m).read k
  writes : ∀ lp e b, ∀ w ∈ t.openWrites lp e b, w ∈ s.openWrites lp e b ∨
    w.owner = o ∧ ∃ b', y = .ext lp e b' ∧ b' ≤ b ∧ b < b' + n
  lpddr : y.mem ≠ some true → t.mem.lpddr = s.mem.lpddr
  tiers : y.mem = none → t.mem.hbm = s.mem.hbm ∧ t.rind = s.rind

/-- Writes that the operation o may still race with are its own (R221). -/
def State.OwnOnly (s : State) (o : DieId × Nat) : Prop := ∀ lp e b, ∀ w ∈ s.openWrites lp e b, w.owner = o

theorem StoreTo.ownOnly {o : DieId × Nat} {n : Nat} {y : Loc} {data : List Byte} {s t : State} (h : StoreTo o n y data s t)
    (hs : s.OwnOnly o) : t.OwnOnly o := fun lp e b w hw => (h.writes lp e b w hw).elim (hs lp e b w) And.left

theorem storeTo_sramWrite (s : State) (o : DieId × Nat) (d : DieId) {c a n : Nat} {bs : List Byte} (ha : a % 128 = 0)
    (hn : bs.length = 256 * n) : StoreTo o n (.sram d c a) bs s (s.sramWrite d c a bs) where
  frame := by
    have hm := congrArg MemState.beyondData (s.sramWrite_mem d c a bs)
    exact congrArg (fun m : MemState => { s.moveFrame with net := { s.moveFrame.net with mem := m } }) hm
  inside := fun k hk => by
    obtain ⟨-, h1, h2⟩ := hk
    exact (State.read_sramWrite s d ha (by omega) k).trans (if_pos ⟨h1, hn ▸ h2⟩)
  outside := fun m k hk => by
    cases m with
    | none =>
      exact (State.read_sramWrite s d ha (by omega) k).trans (if_neg (fun h => hk ⟨rfl, h.1, hn ▸ h.2⟩))
    | some lp =>
      have hhbm : (s.sramWrite d c a bs).mem.hbm = s.mem.hbm := (congrArg MemState.hbm (s.sramWrite_mem d c a bs) :)
      have hlpddr : (s.sramWrite d c a bs).mem.lpddr = s.mem.lpddr := (congrArg MemState.lpddr (s.sramWrite_mem d c a bs) :)
      unfold State.bytesOf State.tier
      dsimp only
      rw [hhbm, hlpddr]
  writes := fun _ _ _ _ hw => .inl hw
  lpddr := fun _ => (congrArg MemState.lpddr (s.sramWrite_mem d c a bs) :)
  tiers := fun _ => ⟨(congrArg MemState.hbm (s.sramWrite_mem d c a bs) :), rfl⟩

/-- A block written for the operation that alone writes. -/
theorem State.raceStore_eq {s : State} {o : DieId × Nat} (h : s.OwnOnly o) (lp : Bool) (d : DieId) (b : Nat) (data : List Byte) :
    ∃ r, s.raceStore o lp d b data = { s with
      mem := s.mem.put lp d (b * 256) data, rind := r,
      fab := { s.fab with writes := s.fab.writes ++ [⟨lp, d, b, o, s.extRead lp d (b * 256) 256⟩] } } := by
  have hlost : s.raceLost (some o) lp d b = false := by
    unfold State.raceLost
    rw [List.any_eq_false.2 (fun w hw => by simp [h lp d b w hw]), Bool.false_and]
  obtain ⟨r, hr⟩ := s.extWriteBlock_eq lp d (b * 256) data
  refine ⟨r, ?_⟩
  unfold State.raceStore
  dsimp only
  rw [hlost, if_neg Bool.false_ne_true, hr]

theorem storeTo_raceStore {s : State} {o : DieId × Nat} (h : s.OwnOnly o) (lp : Bool) (d : DieId) (b : Nat) {data : List Byte}
    (hn : data.length = 256) : StoreTo o 1 (.ext lp d b) data s (s.raceStore o lp d b data) := by
  obtain ⟨r, hr⟩ := State.raceStore_eq h lp d b data
  rw [hr]
  have hread := s.read_put lp d (b * 256) data r
  refine ⟨?frame, fun k hk => ?inside, fun m k hk => ?outside, fun lp' e b' w hw => ?writes, fun hlp => ?lpddr,
    fun hm => by cases hm⟩
  case frame => cases lp <;> rfl
  case inside =>
    obtain ⟨-, h1, h2⟩ := hk
    exact (hread (some lp) k).trans (if_pos ⟨rfl, h1, by rw [hn]; exact h2⟩)
  case outside =>
    refine (hread m k).trans (if_neg fun hin => hk ⟨hin.1, hin.2.1, ?_⟩)
    have := hin.2.2
    rw [hn] at this
    exact this
  case writes =>
    obtain ⟨hmem, hkey⟩ := List.mem_filter.1 hw
    rcases List.mem_append.1 hmem with hold | hnew
    · exact .inl (List.mem_filter.2 ⟨hold, hkey⟩)
    · obtain rfl := List.mem_singleton.1 hnew
      simp only [Bool.and_eq_true, beq_iff_eq, and_assoc] at hkey
      obtain ⟨rfl, rfl, rfl, -⟩ := hkey
      exact .inr ⟨rfl, b, rfl, le_rfl, Nat.lt_succ_self b⟩
  case lpddr =>
    cases lp with
    | true => exact absurd rfl hlp
    | false => rfl

theorem Loc.key_ext_succ (lp : Bool) (d : DieId) (b : Nat) : (Loc.ext lp d (b + 1)).key = (Loc.ext lp d b).key + 256 := by
  simp only [Loc.key, extKey]
  omega

/-- The blocks of a place are its first and those after it, which share no byte. -/
theorem Loc.holds_ext_succ (lp : Bool) (d : DieId) (b n : Nat) (m : Option Bool) (k : Nat) :
    ((Loc.ext lp d b).holds (n + 1) m k ↔ (Loc.ext lp d b).holds 1 m k ∨ (Loc.ext lp d (b + 1)).holds n m k) ∧
      ¬ ((Loc.ext lp d b).holds 1 m k ∧ (Loc.ext lp d (b + 1)).holds n m k) := by
  unfold Loc.holds
  rw [Loc.key_ext_succ]
  generalize (Loc.ext lp d b).key = a
  simp only [Loc.mem]
  by_cases hm : some lp = m
  · simp only [hm, true_and]
    omega
  · simp [hm]

/-- A store of one block and then of those after it. -/
theorem StoreTo.cons {o : DieId × Nat} {lp : Bool} {d : DieId} {b n : Nat} {data : List Byte} {s t u : State}
    (h : StoreTo o 1 (.ext lp d b) (data.take 256) s t) (h' : StoreTo o n (.ext lp d (b + 1)) (data.drop 256) t u) :
    StoreTo o (n + 1) (.ext lp d b) data s u where
  frame := h'.frame.trans h.frame
  inside := fun k hk => by
    obtain ⟨hsplit, hnot⟩ := Loc.holds_ext_succ lp d b n (some lp) k
    rcases hsplit.1 hk with hk | hk
    · refine (h'.outside _ k fun hin => hnot ⟨hk, hin⟩).trans ((h.inside k hk).trans ?_)
      obtain ⟨-, h1, h2⟩ := hk
      generalize (Loc.ext lp d b).key = a at h1 h2 ⊢
      rw [List.getD_eq_getElem?_getD, List.getD_eq_getElem?_getD, List.getElem?_take_of_lt (by omega)]
    · refine (h'.inside k hk).trans ?_
      obtain ⟨-, h1, h2⟩ := hk
      rw [Loc.key_ext_succ] at h1 h2 ⊢
      generalize (Loc.ext lp d b).key = a at h1 h2 ⊢
      rw [List.getD_eq_getElem?_getD, List.getD_eq_getElem?_getD, List.getElem?_drop,
        show 256 + (k - (a + 256)) = k - a by omega]
  outside := fun m k hk => by
    obtain ⟨hsplit, -⟩ := Loc.holds_ext_succ lp d b n m k
    rw [h'.outside m k fun hin => hk (hsplit.2 (.inr hin)), h.outside m k fun hin => hk (hsplit.2 (.inl hin))]
  writes := fun lp' e b' w hw => by
    rcases h'.writes lp' e b' w hw with hw | ⟨ho, b'', heq, h1, h2⟩
    · rcases h.writes lp' e b' w hw with hw | ⟨ho, b'', heq, h1, h2⟩
      · exact .inl hw
      · exact .inr ⟨ho, b'', heq, h1, by omega⟩
    · cases heq
      exact .inr ⟨ho, b, rfl, by omega, by omega⟩
  lpddr := fun hm => (h'.lpddr hm).trans (h.lpddr hm)
  tiers := fun hm => by cases hm

/-- Blocks stored in a tier outside the host's window. -/
theorem storeTo_storeExt (od : DieId) (id : Nat) (lp : Bool) (d : DieId) (n : Nat) {b : Nat} {data : List Byte} {s : State}
    (hown : s.OwnOnly (od, id)) (hn : data.length = 256 * n)
    (hhdm : ∀ j, j < n → s.inRegion .hdm lp ((b + j) / 256) = false) :
    StoreTo (od, id) n (.ext lp d b) data s (s.storeExt (.op od id) lp d b data n) := by
  induction n generalizing s b data with
  | zero => exact ⟨rfl, fun k hk => by have := hk.2; omega, fun _ _ _ => rfl, fun _ _ _ _ hw => .inl hw, fun _ => rfl,
      fun _ => ⟨rfl, rfl⟩⟩
  | succ n ih =>
    have hfirst := storeTo_raceStore hown lp d b (data := data.take 256) (by rw [List.length_take]; omega)
    have hhere : s.inRegion .hdm lp (b / 256) = false := hhdm 0 (Nat.succ_pos n)
    unfold State.storeExt
    rw [hhere, if_neg Bool.false_ne_true]
    refine hfirst.cons (ih (hfirst.ownOnly hown) (by rw [List.length_drop]; omega) fun j hj => ?_)
    rw [State.inRegion_of_moveFrame hfirst.frame, Nat.add_assoc, Nat.add_comm 1 j]
    exact hhdm (j + 1) (by omega)

/-- No block of a place lies in the host's window. -/
def State.OutsideHdm (s : State) (n : Nat) (y : Loc) : Prop :=
  ∀ lp e b, y = .ext lp e b → s.touchesRegion .hdm lp b n = false

theorem State.inRegion_of_outsideHdm {s : State} {n : Nat} {lp : Bool} {e : DieId} {b : Nat}
    (h : s.OutsideHdm n (.ext lp e b)) {j : Nat} (hj : j < n) : s.inRegion .hdm lp ((b + j) / 256) = false := by
  have ht := h lp e b rfl
  by_contra hcon
  rw [Bool.not_eq_false] at hcon
  unfold State.inRegion at hcon
  simp only [Bool.and_eq_true, beq_iff_eq, decide_eq_true_eq] at hcon
  obtain ⟨⟨hlp, h1⟩, h2⟩ := hcon
  unfold State.touchesRegion at ht
  simp only [hlp, beq_self_eq_true, Bool.true_and, Bool.and_eq_false_iff, decide_eq_false_iff_not] at ht
  omega

/-- Blocks stored at a place of this device. -/
theorem storeTo_storeLoc {od : DieId} {id n : Nat} {y : Loc} {data : List Byte} {s : State} (hy : y.Near n)
    (hown : s.OwnOnly (od, id)) (hn : data.length = 256 * n) (hhdm : s.OutsideHdm n y) :
    StoreTo (od, id) n y data s (s.storeLoc (.op od id) y data) := by
  cases y with
  | sram d c a => exact storeTo_sramWrite s _ d hy.2.1 hn
  | ext lp d b =>
    unfold State.storeLoc
    dsimp only
    rw [show data.length / 256 = n by omega]
    exact storeTo_storeExt od id lp d n hown hn fun j hj => State.inRegion_of_outsideHdm hhdm hj
  | remote => exact hy.elim

/-! ### One pass -/

/-- Counting the errors that a read meets changes no byte. -/
structure ReadMet (s t : State) : Prop where
  frame : t.moveFrame = s.moveFrame
  fab : t.fab = s.fab
  bytes : ∀ m, t.bytesOf m = s.bytesOf m
  rind : t.rind = s.rind

theorem readMet_of_calmFrame {s t : State} (h : t.calmFrame = s.calmFrame) : ReadMet s t :=
  ⟨moveFrame_of_calmFrame h, fab_of_calmFrame h, fun m => by
    unfold State.bytesOf State.tier
    rw [mem_of_calmFrame h], rind_of_calmFrame h⟩

theorem ReadMet.trans {s t u : State} (h : ReadMet s t) (h' : ReadMet t u) : ReadMet s u :=
  ⟨h'.frame.trans h.frame, h'.fab.trans h.fab, fun m => (h'.bytes m).trans (h.bytes m), h'.rind.trans h.rind⟩

theorem readMet_sramSingle (s : State) (l : AMap Bool) : ReadMet s { s with mem := { s.mem with sramSingle := l } } :=
  ⟨rfl, rfl, fun m => by cases m <;> rfl, rfl⟩

theorem readMet_correctSram (s : State) (d : DieId) (c a n : Nat) : ReadMet s (s.correctSram d c a n) := by
  unfold State.correctSram
  dsimp only
  split
  · exact readMet_of_calmFrame rfl
  · exact (readMet_sramSingle s _).trans (readMet_of_calmFrame (calmFrame_limited _ _ _ _ _ _))

theorem readMet_correctLoc (s : State) (n : Nat) (x : Loc) : ReadMet s (s.correctLoc n x) := by
  cases x with
  | sram d c a => exact readMet_correctSram s d c a _
  | ext lp d b => exact readMet_of_calmFrame (calmFrame_correctMem s lp d b n)
  | remote => exact readMet_of_calmFrame rfl

theorem ReadMet.openWrites {s t : State} (h : ReadMet s t) (lp : Bool) (e : DieId) (b : Nat) :
    t.openWrites lp e b = s.openWrites lp e b := by
  unfold State.openWrites State.front
  rw [h.fab, fe_of_moveFrame h.frame]

theorem ReadMet.readLoc {s t : State} (h : ReadMet s t) {n : Nat} {x : Loc} (hx : x.Near n) : t.readLoc n x = s.readLoc n x :=
  State.readLoc_congr hx fun k _ => by rw [h.bytes]

/-- No running operation has written a block of a place (R221). -/
def State.Unwritten (s : State) (n : Nat) (x : Loc) : Prop :=
  ∀ lp e b, x = .ext lp e b → ∀ j, j < n → s.openWrites lp e (b + j) = []

theorem readBytes_blocks (m : Memory) (a n : Nat) :
    m.readBytes a (256 * n) = (List.range n).flatMap (fun k => m.readBytes (a + 256 * k) 256) := by
  induction n with
  | zero => rfl
  | succ n ih =>
    rw [List.range_succ, List.flatMap_append, ← ih, List.flatMap_cons, List.flatMap_nil, List.append_nil, Nat.mul_succ]
    refine List.ext_getElem (by simp) fun i h1 h2 => ?_
    rw [List.getElem_append]
    simp only [Memory.getElem_readBytes, Memory.length_readBytes]
    split
    · rfl
    · congr 1
      omega

/-- Such a place is read as it stands. -/
theorem State.raceLoc_of_unwritten {s : State} {n : Nat} {x : Loc} (h : s.Unwritten n x) : s.raceLoc n x = s.readLoc n x := by
  cases x with
  | sram => rfl
  | remote => rfl
  | ext lp d b =>
    show s.raceRead lp d b n = s.extRead lp d (b * 256) (256 * n)
    unfold State.raceRead
    split
    · rfl
    · unfold State.extRead
      rw [readBytes_blocks]
      refine List.flatMap_congr fun k hk => ?_
      unfold State.raceBlock
      rw [h lp d b rfl k (List.mem_range.1 hk)]
      unfold State.extRead
      dsimp only [List.find?_nil]
      rw [show extKey d (b * 256) + 256 * k = extKey d ((b + k) * 256) by unfold extKey; omega]

/-- One pass within the device, over nothing of its own. -/
theorem storeTo_move {d : DieId} {id n : Nat} {x y : Loc} {s : State} (hx : x.Near n) (hy : y.Near n)
    (hxy : overlaps n x y = false) (hown : s.OwnOnly (d, id)) (hun : s.Unwritten n x) (hhdm : s.OutsideHdm n y) :
    StoreTo (d, id) n y (s.readLoc n x) s (s.move (.op d id) x y n) := by
  have hmet := readMet_correctLoc s n x
  have hlen : (s.readLoc n x).length = 256 * n := by rw [State.readLoc_eq s hx, Memory.length_readBytes]
  have hdata : (s.correctLoc n x).raceLoc n x = s.readLoc n x := by
    rw [State.raceLoc_of_unwritten fun lp e b hb j hj => (hmet.openWrites lp e _).trans (hun lp e b hb j hj), hmet.readLoc hx]
  have hstore := storeTo_storeLoc (s := s.correctLoc n x) (data := s.readLoc n x) hy
    (fun lp e b w hw => hown lp e b w (hmet.openWrites lp e b ▸ hw)) hlen (fun lp e b hb => by
      have := hhdm lp e b hb
      unfold State.touchesRegion State.regionFirst State.regionPages at this ⊢
      rwa [layout_of_moveFrame hmet.frame])
  unfold State.move
  dsimp only
  rw [hxy, if_neg Bool.false_ne_true, hdata]
  exact ⟨hstore.frame.trans hmet.frame, hstore.inside, fun m k hk => (hstore.outside m k hk).trans (by rw [hmet.bytes]),
    fun lp e b w hw => (hstore.writes lp e b w hw).imp_left fun h => hmet.openWrites lp e b ▸ h,
    fun hm => (hstore.lpddr hm).trans (hmet.bytes (some true)),
    fun hm => ⟨(hstore.tiers hm).1.trans (hmet.bytes (some false)), (hstore.tiers hm).2.trans hmet.rind⟩⟩

/-- It is what a transfer between places of this device is. -/
theorem State.transfer_near {s : State} {d : DieId} {id n : Nat} {dsig : Option (BitVec 13)} {last : Bool} {x y : Loc}
    (hx : x.Near n) (hy : y.Near n) : s.transfer d id n dsig last x y = s.move (.op d id) x y n := by
  cases x with
  | remote => exact hx.elim
  | sram | ext =>
    cases y with
    | remote => exact hy.elim
    | sram | ext => rfl

/-! ### Passes in order -/

/-- Passes have moved their blocks: each destination holds what its source held, and the rest is as before. -/
structure Moved (n : Nat) (ps : List (Nat × Loc × Loc)) (s t : State) : Prop where
  frame : t.moveFrame = s.moveFrame
  data : ∀ p ∈ ps, t.readLoc n p.2.2 = s.readLoc n p.2.1
  rest : ∀ m k, (∀ p ∈ ps, ¬ p.2.2.holds n m k) → (t.bytesOf m).read k = (s.bytesOf m).read k
  lpddr : (∀ p ∈ ps, p.2.2.mem ≠ some true) → t.mem.lpddr = s.mem.lpddr
  tiers : (∀ p ∈ ps, p.2.2.mem = none) → t.mem.hbm = s.mem.hbm ∧ t.rind = s.rind

/-- Passes between places of this device, no destination over a source or another destination, none in the host's window. -/
structure ApartPasses (s : State) (n : Nat) (ps : List (Nat × Loc × Loc)) : Prop where
  near : ∀ p ∈ ps, p.2.1.Near n ∧ p.2.2.Near n
  sources : ∀ p ∈ ps, ∀ q ∈ ps, overlaps n p.2.1 q.2.2 = false
  apart : ps.Pairwise (fun p q => overlaps n p.2.2 q.2.2 = false)
  hdm : ∀ p ∈ ps, s.OutsideHdm n p.2.2

theorem moved_runPasses {d : DieId} {id n : Nat} {dsig : Option (BitVec 13)} (ps : List (Nat × Loc × Loc)) {s : State}
    (h : ApartPasses s n ps) (hown : s.OwnOnly (d, id)) (hun : ∀ p ∈ ps, s.Unwritten n p.2.1) :
    Moved n ps s (s.runPasses d id n dsig ps) := by
  induction ps generalizing s with
  | nil => exact ⟨rfl, fun _ hp => absurd hp List.not_mem_nil, fun _ _ _ => rfl, fun _ => rfl, fun _ => ⟨rfl, rfl⟩⟩
  | cons p ps ih =>
    obtain ⟨c, x, y⟩ := p
    obtain ⟨hx, hy⟩ := h.near _ List.mem_cons_self
    obtain ⟨hfirst, hpairs⟩ := List.pairwise_cons.1 h.apart
    have htail : ∀ {q}, q ∈ ps → q ∈ (c, x, y) :: ps := fun hq => List.mem_cons_of_mem _ hq
    have hstore := storeTo_move (d := d) (id := id) hx hy (h.sources _ List.mem_cons_self _ List.mem_cons_self) hown
      (hun _ List.mem_cons_self) (h.hdm _ List.mem_cons_self)
    unfold State.runPasses
    rw [State.transfer_near hx hy]
    generalize s.move (.op d id) x y n = t at hstore ⊢
    have hsrc : ∀ q ∈ ps, t.readLoc n q.2.1 = s.readLoc n q.2.1 := fun q hq =>
      State.readLoc_congr (h.near q (htail hq)).1 fun k hk =>
        hstore.outside _ k (not_holds_of_overlaps (h.near q (htail hq)).1 hy (h.sources q (htail hq) _ List.mem_cons_self) hk)
    have hrest := ih (s := t) ⟨fun q hq => h.near q (htail hq), fun q hq r hr => h.sources q (htail hq) r (htail hr), hpairs,
      fun q hq lp e b hb => by
        have := h.hdm q (htail hq) lp e b hb
        unfold State.touchesRegion State.regionFirst State.regionPages at this ⊢
        rwa [layout_of_moveFrame hstore.frame]⟩ (hstore.ownOnly hown) (fun q hq lp e b hb j hj => by
          refine List.eq_nil_iff_forall_not_mem.2 fun w hw => ?_
          rcases hstore.writes lp e _ w hw with hw | ⟨-, b', hyb, h1, h2⟩
          · rw [hun q (htail hq) lp e b hb j hj] at hw
            exact List.not_mem_nil hw
          · have hover := h.sources q (htail hq) _ List.mem_cons_self
            rw [hb, hyb] at hover
            simp [overlaps] at hover
            omega)
    refine ⟨hrest.frame.trans hstore.frame, fun q hq => ?_, fun m k hk => ?_, fun hm => ?_, fun hm => ?_⟩
    · rcases List.mem_cons.1 hq with rfl | hq
      · have hkeep : (t.runPasses d id n dsig ps).readLoc n y = t.readLoc n y :=
          State.readLoc_congr hy fun k hk => hrest.rest _ k fun q hq =>
            not_holds_of_overlaps hy (h.near q (htail hq)).2 (hfirst q hq) hk
        have hlen : (s.readLoc n x).length = 256 * n := by rw [State.readLoc_eq s hx, Memory.length_readBytes]
        refine hkeep.trans ?_
        rw [State.readLoc_eq t hy]
        refine List.ext_getElem (by rw [Memory.length_readBytes, hlen]) fun i h1 h2 => ?_
        rw [Memory.length_readBytes] at h1
        rw [Memory.getElem_readBytes, hstore.inside _ ⟨rfl, by omega, by omega⟩, Nat.add_sub_cancel_left,
          List.getD_eq_getElem _ _ h2]
      · exact (hrest.data q hq).trans (hsrc q hq)
    · exact (hrest.rest m k fun q hq => hk q (htail hq)).trans (hstore.outside m k (hk _ List.mem_cons_self))
    · exact (hrest.lpddr fun q hq => hm q (htail hq)).trans (hstore.lpddr (hm _ List.mem_cons_self))
    · obtain ⟨h1, h2⟩ := hrest.tiers fun q hq => hm q (htail hq)
      obtain ⟨h3, h4⟩ := hstore.tiers (hm _ List.mem_cons_self)
      exact ⟨h1.trans h3, h2.trans h4⟩

end Sys2Proof.Machine
end

section
/-! SUPPORT. A mover that has every answer completes: its record leaves the running list and its destination signal is applied (R149,
R195); and what a mover without a run-time fault says of its places (R174, R175, R205). -/

namespace Sys2Proof.Machine

open Sys2Proof

/-! ### Completion with a destination signal -/

/-- The count that a destination signal to a die of this device adds to a tally. -/
def signalGain (sg : Option (BitVec 13)) (y e : DieId) (n : Nat) : W32 :=
  if e = y ∧ ∃ g, sg = some g ∧ g.toNat = n then 1 else 0

theorem State.tally_addTally (s : State) (y e : DieId) (t k n : Nat) :
    (s.addTally y t k).tally e n = s.tally e n + if e = y ∧ t = n then BitVec.ofNat 32 k else 0 := by
  unfold State.tally State.addTally
  by_cases he : e = y
  · subst he
    rw [State.front_modFront_self]
    by_cases ht : t = n
    · subst ht
      simp
    · rw [if_neg (fun h => ht h.2), AMap.getD_set_ne _ _ _ _ (Ne.symm ht)]
      exact (BitVec.add_zero _).symm
  · rw [State.front_modFront_ne _ _ _ _ he, if_neg (fun h => he h.1)]
    exact (BitVec.add_zero _).symm

theorem State.running_addTally (s : State) (y e : DieId) (t k : Nat) :
    ((s.addTally y t k).front e).running = (s.front e).running := by
  unfold State.addTally
  by_cases he : e = y
  · subst he
    rw [State.front_modFront_self]
  · rw [State.front_modFront_ne _ _ _ _ he]

/-- An operation taken off the running list. -/
theorem State.dropRunning_fe (s : State) (d : DieId) (id : Nat) : (s.dropRunning d id).fe =
    (s.modFront d (fun f => { f with running := f.running.filter (fun r => r.id ≠ id) })).fe := by
  unfold State.dropRunning
  dsimp only
  split <;> rfl

theorem State.opSignal_of_deviceId {s t : State} (h : t.param P.deviceId = s.param P.deviceId) (d : DieId) (o : Op) :
    t.opSignal d o = s.opSignal d o := by
  unfold State.opSignal State.spacePlace
  rw [h]

theorem State.dropRunning_deviceId (s : State) (d : DieId) (id : Nat) :
    (s.dropRunning d id).param P.deviceId = s.param P.deviceId := by
  unfold State.dropRunning
  dsimp only
  split <;> rfl

/-- The one operation of its number completes when it awaits nothing. -/
theorem State.settle_finish {t : State} {d : DieId} {id : Nat} {rs : List Running} {r : Running} {sg : Option (BitVec 13)} {y : DieId}
    (hrun : (t.front d).running = rs ++ [r]) (hid : r.id = id) (hold : ∀ x ∈ rs, x.id ≠ id) (haw : r.awaiting = 0)
    (hsn : ∀ b ∈ t.host.snoops, b.owner ≠ .op d id) (hh : r.entry.issue.hollow = false) (hsig : r.entry.sig = none)
    (hsg : t.opSignal d r.entry.op = sg.map (fun g => (g, .here y))) :
    ((t.settle d id).front d).running = rs ∧ (∀ e, e ≠ d → ((t.settle d id).front e).running = (t.front e).running) ∧
      ∀ e n, (t.settle d id).tally e n = t.tally e n + signalGain sg y e n := by
  have hfind : t.running? d id = some r := by
    unfold State.running?
    rw [hrun, List.find?_append, List.find?_eq_none.2 (fun x hx => by simpa using hold x hx), Option.none_or]
    simp [hid]
  have hsettled : t.settled d r = true := by
    unfold State.settled
    rw [haw, List.any_eq_false.2 (fun b hb => by simpa [hid] using hsn b hb)]
    rfl
  have hdrop : ((t.dropRunning d r.id).front d).running = rs := by
    unfold State.front
    rw [State.dropRunning_fe]
    refine (congrArg FrontEnd.running (State.front_modFront_self t d
      (fun f => { f with running := f.running.filter (fun x => x.id ≠ r.id) }))).trans ?_
    dsimp only
    rw [hrun, List.filter_append, List.filter_eq_self.2 (fun x hx => by simpa [hid] using hold x hx)]
    simp
  have hother : ∀ e, e ≠ d → (t.dropRunning d r.id).front e = t.front e := fun e he => by
    unfold State.front
    rw [State.dropRunning_fe]
    exact State.front_modFront_ne t _ _ _ he
  have htally : ∀ e n, (t.dropRunning d r.id).tally e n = t.tally e n := fun e n => by
    unfold State.tally
    by_cases he : e = d
    · subst he
      unfold State.front
      rw [State.dropRunning_fe]
      exact (congrArg (fun f : FrontEnd => f.tallies.getD n 0) (State.front_modFront_self t e
        (fun f => { f with running := f.running.filter (fun x => x.id ≠ r.id) })) :)
    · rw [hother e he]
  have hsettle : t.settle d id = (t.dropRunning d r.id).nearSignal d r.entry.op := by
    unfold State.settle
    rw [hfind]
    dsimp only
    rw [hsettled, hh, if_pos rfl, if_neg Bool.false_ne_true, State.finish, State.ownSignal, hsig]
  have hplace := (State.opSignal_of_deviceId (t.dropRunning_deviceId d r.id) d r.entry.op).trans hsg
  rw [hsettle]
  unfold State.nearSignal
  rw [hplace]
  cases sg with
  | none => exact ⟨hdrop, fun e he => congrArg FrontEnd.running (hother e he), fun e n => by simp [htally, signalGain]⟩
  | some g =>
    refine ⟨(State.running_addTally _ _ _ _ _).trans hdrop,
      fun e he => (State.running_addTally _ _ _ _ _).trans (congrArg FrontEnd.running (hother e he)), fun e n => ?_⟩
    refine (State.tally_addTally _ _ _ _ _ _).trans ?_
    rw [htally]
    unfold signalGain
    simp

/-- A mover whose answers are all there runs by itself to its completion. -/
theorem State.runOp_finish {s t : State} {d : DieId} {sl : Slot} {i : Issue} {o : Op} {sg : Option (BitVec 13)} {y : DieId}
    (hi : i.hollow = false) (hc : s.completesAtOnce d ⟨o, i, none, none⟩ = false) (hfresh : OpsFresh s)
    (heff : effOp (s.beginOp d sl ⟨o, i, none, none⟩ 0) d s.fab.nextOp i o = .ok t)
    (hfe : t.fe = (s.beginOp d sl ⟨o, i, none, none⟩ 0).fe) (hsn : t.host.snoops = s.host.snoops)
    (hsg : t.opSignal d o = sg.map (fun g => (g, .here y))) :
    ∃ u, s.runOp d sl i o = .next u ∧ u.arrayFrame d = t.arrayFrame d ∧ u.mem = t.mem ∧ u.cells = t.cells ∧
      (u.front d).running = (s.front d).running ∧ ∀ e n, u.tally e n = s.tally e n + signalGain sg y e n := by
  obtain ⟨hrunning, hsnoops, -⟩ := hfresh
  have hfront : (t.front d) = { s.front d with running :=
      (s.front d).running ++ [⟨s.fab.nextOp, sl, ⟨o, i, none, none⟩, 0, s.ten.epoch, 0⟩] } := by
    unfold State.front
    rw [hfe]
    exact State.front_modFront_self s d
      (fun f => { f with running := f.running ++ [⟨s.fab.nextOp, sl, ⟨o, i, none, none⟩, 0, s.ten.epoch, 0⟩] })
  have htally : ∀ e n, t.tally e n = s.tally e n := fun e n => by
    unfold State.tally
    by_cases he : e = d
    · subst he
      rw [hfront]
    · unfold State.front
      rw [hfe]
      exact congrArg (fun f : FrontEnd => f.tallies.getD n 0) (State.front_modFront_ne s d e
        (fun f => { f with running := f.running ++ [⟨s.fab.nextOp, sl, ⟨o, i, none, none⟩, 0, s.ten.epoch, 0⟩] }) he)
  obtain ⟨hrun, -, hgain⟩ := State.settle_finish (t := t) (d := d) (id := s.fab.nextOp) (congrArg FrontEnd.running hfront) rfl
    (fun x hx => (hrunning d x hx).ne) rfl
    (fun b hb hown => (hsnoops b (hsn ▸ hb) d _ hown).ne rfl) hi rfl hsg
  obtain ⟨hf, hm, hcells⟩ := t.settle_keeps d d s.fab.nextOp
  exact ⟨_, State.runOp_of_ok hi hc heff, hf, hm, hcells, hrun, fun e n => by rw [hgain, htally]⟩

/-! ### Places without a run-time fault -/

/-- A place of this device, in a cell that exists. -/
def Loc.Here : Loc → Prop
  | .sram _ c _ => c < 64
  | .ext .. => True
  | .remote .. => False

theorem sramLoc_here (d : DieId) (v : Nat) {cell : Option Nat} (hcell : ∀ c, cell = some c → c < 64) :
    (sramLoc d v cell).Here := by
  unfold sramLoc
  cases cell with
  | none => exact Nat.mod_lt _ (by decide)
  | some c => exact hcell c rfl

/-- A space that is one of this device names places of it. -/
theorem State.place_here {s : State} {d x : DieId} {sp : Space} {target : DieId} {dev : W32}
    (h : s.spacePlace d sp target dev = .here x) (v : Nat) {cell : Option Nat} (hcell : ∀ c, cell = some c → c < 64) :
    (s.place d sp v cell target dev).Here := by
  have hdev : spaceDev sp = true → dev.toNat = s.param P.deviceId := by
    intro hsp
    by_contra hne
    cases sp <;> simp [spaceDev, State.spacePlace, hne] at hsp h
  cases sp with
  | sram | dieSram => exact sramLoc_here _ v hcell
  | hbm | lpddr | dieHbm | dieLpddr => exact trivial
  | devHbm | devLpddr =>
    unfold State.place
    dsimp only
    rw [if_pos (hdev rfl)]
    exact trivial
  | devSram =>
    unfold State.place
    dsimp only
    rw [if_pos (hdev rfl)]
    exact sramLoc_here _ v hcell

theorem near_of_readTrip {s : State} {c n : Nat} {x : Loc} (hx : x.Here) (h : s.readTrip c n x = none) : x.Near n := by
  cases x with
  | sram d k a =>
    obtain ⟨hrange, hline⟩ := range_of_touchTrip (x := ⟨k, a, 256 * n, false, true⟩) h
    exact ⟨hx, hline rfl, hrange.trans (by decide)⟩
  | ext lp d b =>
    have hfit : ¬ tierPages lp * 256 < b + n := fun hlt => by simp [State.readTrip, hlt] at h
    have hpages : tierPages lp * 256 ≤ 2 ^ 30 := by cases lp <;> decide
    exact (Nat.le_of_not_lt hfit).trans hpages
  | remote => exact hx.elim

theorem near_of_writeTrip {s : State} {c n : Nat} {y : Loc} (hy : y.Here) (h : s.writeTrip c n y = none) : y.Near n := by
  cases y with
  | sram d k a =>
    obtain ⟨hrange, hline⟩ := range_of_touchTrip (x := ⟨k, a, 256 * n, true, true⟩) h
    exact ⟨hy, hline rfl, hrange.trans (by decide)⟩
  | ext lp d b =>
    have hfit : ¬ tierPages lp * 256 < b + n := fun hlt => by simp [State.writeTrip, hlt] at h
    have hpages : tierPages lp * 256 ≤ 2 ^ 30 := by cases lp <;> decide
    exact (Nat.le_of_not_lt hfit).trans hpages
  | remote => exact hy.elim

/-- Where passes raise no fault, none of their reads and writes does. -/
theorem trips_of_passesTrip {s : State} {n : Nat} {ps : List (Nat × Loc × Loc)} (h : s.passesTrip n ps = none)
    {p : Nat × Loc × Loc} (hp : p ∈ ps) : s.readTrip p.1 n p.2.1 = none ∧ s.writeTrip p.1 n p.2.2 = none := by
  induction ps with
  | nil => exact absurd hp List.not_mem_nil
  | cons q ps ih =>
    obtain ⟨c, x, y⟩ := q
    unfold State.passesTrip at h
    cases hr : s.readTrip c n x with
    | some t => simp [hr] at h
    | none =>
      cases hw : s.writeTrip c n y with
      | some t => simp [hr, hw] at h
      | none =>
        simp only [hr, hw] at h
        rcases List.mem_cons.1 hp with rfl | hp
        · exact ⟨hr, hw⟩
        · exact ih h hp

/-- The faults of passes depend on the errors, the valid bits, the Rind engines and the layout of memory. -/
theorem State.passesTrip_congr {s t : State} (hm : { t.mem with sramSingle := [] } = { s.mem with sramSingle := [] })
    (hr : t.rind = s.rind) (hl : t.dict.layout = s.dict.layout) (n : Nat) (ps : List (Nat × Loc × Loc)) :
    t.passesTrip n ps = s.passesTrip n ps := by
  have hvalid : t.mem.sramValid = s.mem.sramValid := (congrArg MemState.sramValid hm :)
  have hdouble : t.mem.sramDouble = s.mem.sramDouble := (congrArg MemState.sramDouble hm :)
  have hmemd : t.mem.memDouble = s.mem.memDouble := (congrArg MemState.memDouble hm :)
  have htag : t.mem.tagBad = s.mem.tagBad := (congrArg MemState.tagBad hm :)
  have htouch : ∀ d x, t.touchTrip d x = s.touchTrip d x := fun d x => by
    unfold State.touchTrip State.firstUnwritten State.firstDouble
    rw [hvalid, hdouble]
  have hblock : ∀ lp d b, t.blockTrip lp d b = s.blockTrip lp d b := fun lp d b => by
    unfold State.blockTrip State.blockFail State.attr State.keyingOf State.hasKey State.genOf State.keySlot
    rw [hmemd, htag, hr]
  have hblocks : ∀ lp d k b, t.blocksTrip lp d b k = s.blocksTrip lp d b k := fun lp d k => by
    induction k with
    | zero => exact fun _ => rfl
    | succ k ih =>
      intro b
      unfold State.blocksTrip
      rw [hblock, ih]
  have hread : ∀ c x, t.readTrip c n x = s.readTrip c n x := fun c x => by
    cases x with
    | sram => exact htouch _ _
    | ext lp d b =>
      unfold State.readTrip
      dsimp only
      rw [hblocks]
    | remote => rfl
  have hwrite : ∀ c y, t.writeTrip c n y = s.writeTrip c n y := fun c y => by
    cases y with
    | sram => exact htouch _ _
    | ext lp d b =>
      unfold State.writeTrip State.touchesRegion State.regionFirst State.regionPages
      rw [hl]
    | remote => rfl
  induction ps with
  | nil => rfl
  | cons p ps ih =>
    obtain ⟨c, x, y⟩ := p
    unfold State.passesTrip
    rw [hread, hwrite, ih]

end Sys2Proof.Machine
end

section
/-! SUPPORT. COPY as a command: within the device its passes move their blocks and it completes; with another device it awaits
answers (R194, R195, R217, R371, R373). -/

namespace Sys2Proof.Machine

open Sys2Proof

/-! ### Bytes outside the destinations -/

/-- A byte of cell SRAM among the blocks of a place is one of that place's cell. -/
theorem Loc.sram_of_holds {n : Nat} {y : Loc} (hy : y.Near n) {e : DieId} {c a : Nat} (hc : c < 64) (ha : a < 2 ^ 22)
    (h : y.holds n none (sramKey e c a)) : ∃ b, y = .sram e c b ∧ b ≤ a ∧ a < b + 256 * n := by
  obtain ⟨hm, h1, h2⟩ := h
  cases y with
  | sram d k b =>
    obtain ⟨hk, -, hb⟩ := hy
    simp only [Loc.key, sramKey] at h1 h2
    obtain ⟨hde, hck⟩ : d.val = e.val ∧ k = c := by omega
    obtain rfl := Fin.ext hde
    obtain rfl := hck
    exact ⟨b, rfl, by omega, by omega⟩
  | ext => cases hm
  | remote => exact hy.elim

/-- A byte of a tier among the blocks of a place lies in one of them. -/
theorem Loc.ext_of_holds {n : Nat} {y : Loc} (hy : y.Near n) {lp : Bool} {e : DieId} {b i : Nat} (hb : b < 2 ^ 30) (hi : i < 256)
    (h : y.holds n (some lp) (extKey e (b * 256) + i)) : ∃ k, y = .ext lp e k ∧ k ≤ b ∧ b < k + n := by
  obtain ⟨hm, h1, h2⟩ := h
  cases y with
  | sram => cases hm
  | ext lp' d k =>
    obtain rfl := Option.some.inj hm
    unfold Loc.Near at hy
    simp only [Loc.key, extKey] at h1 h2
    have hde : d.val = e.val := by omega
    obtain rfl := Fin.ext hde
    exact ⟨k, rfl, by omega, by omega⟩
  | remote => exact hy.elim

section
variable {n : Nat} {ps : List (Nat × Loc × Loc)} {s t : State} (h : Moved n ps s t) (hnear : ∀ p ∈ ps, p.2.2.Near n)
include h hnear

/-- A byte of cell SRAM outside the destinations is as before, -/
theorem Moved.sramByte {e : DieId} {c a : Nat} (hc : c < 64) (ha : a < 2 ^ 22)
    (hout : ∀ p ∈ ps, ∀ b, p.2.2 = .sram e c b → ¬ (b ≤ a ∧ a < b + 256 * n)) : sramByte t e c a = sramByte s e c a :=
  h.rest none _ fun p hp hin => by
    obtain ⟨b, hb, h1, h2⟩ := Loc.sram_of_holds (hnear p hp) hc ha hin
    exact hout p hp b hb ⟨h1, h2⟩

/-- and so is a block of a tier. -/
theorem Moved.extRead {lp : Bool} {e : DieId} {b : Nat} (hb : b < 2 ^ 30)
    (hout : ∀ p ∈ ps, ∀ k, p.2.2 = .ext lp e k → ¬ (k ≤ b ∧ b < k + n)) :
    t.extRead lp e (b * 256) 256 = s.extRead lp e (b * 256) 256 := by
  show (t.tier lp).readBytes (extKey e (b * 256)) 256 = (s.tier lp).readBytes (extKey e (b * 256)) 256
  refine List.ext_getElem (by simp) fun i h1 _ => ?_
  have hi : i < 256 := by simpa using h1
  rw [Memory.getElem_readBytes, Memory.getElem_readBytes]
  refine h.rest (some lp) _ fun p hp hin => ?_
  obtain ⟨k, hk, h3, h4⟩ := Loc.ext_of_holds (hnear p hp) hb hi hin
  exact hout p hp k hk ⟨h3, h4⟩

end

/-! ### Within the device -/

theorem State.passesTrip_beginOp (s : State) (d : DieId) (sl : Slot) (e : QEntry) (k n : Nat) (ps : List (Nat × Loc × Loc)) :
    (s.beginOp d sl e k).passesTrip n ps = s.passesTrip n ps :=
  State.passesTrip_congr (s := s) (t := s.beginOp d sl e k) rfl rfl rfl n ps

theorem State.bytesOf_of_mem {s t : State} (h : t.mem = s.mem) (m : Option Bool) : t.bytesOf m = s.bytesOf m := by
  unfold State.bytesOf State.tier
  rw [h]

theorem ownOnly_of_noRace {s : State} (h : s.NoRace) (o : DieId × Nat) : s.OwnOnly o := fun lp e b w hw => by
  rw [h lp e b] at hw
  exact absurd hw List.not_mem_nil

theorem mem_passCells {x : Bool} {m : W64} {c : Nat} (h : c ∈ passCells x m) : c < 64 := by
  unfold passCells at h
  split at h
  · exact (mem_maskCells.1 h).1
  · rw [List.mem_singleton.1 h]
    decide

/-- The passes of a copy within the device are between places of it. -/
theorem copyPasses_near {s : State} {d : DieId} {i : Issue} {f : CopyF} {x y : DieId}
    (hx : s.spacePlace d f.srcSpace f.targetDie f.dev = .here x) (hy : s.spacePlace d f.dstSpace f.targetDie f.dev = .here y)
    (htrip : s.passesTrip (f.len.toNat + 1) (s.copyPasses d i f) = none) :
    ∀ p ∈ s.copyPasses d i f, p.2.1.Near (f.len.toNat + 1) ∧ p.2.2.Near (f.len.toNat + 1) := by
  intro p hp
  obtain ⟨hr, hw⟩ := trips_of_passesTrip htrip hp
  obtain ⟨c, hc, rfl⟩ := List.mem_map.1 hp
  have hcell : ∀ k, (if f.expand then some c else none) = some k → k < 64 := by
    intro k hk
    split at hk
    · cases hk
      exact mem_passCells hc
    · cases hk
  exact ⟨near_of_readTrip (State.place_here hx _ hcell) hr, near_of_writeTrip (State.place_here hy _ hcell) hw⟩

/-- A copy within the device is its passes. -/
theorem effCopy_within {s : State} {d : DieId} {id : Nat} {i : Issue} {f : CopyF} {y : DieId} (hdef : copyDefined f = true)
    (hsrc : s.devTrip d f.srcSpace f.dev = none) (hdst : s.devTrip d f.dstSpace f.dev = none)
    (hy : s.spacePlace d f.dstSpace f.targetDie f.dev = .here y)
    (htrip : s.passesTrip (f.len.toNat + 1) (s.copyPasses d i f) = none) :
    effCopy s d id i f = .ok (s.runPasses d id (f.len.toNat + 1) f.dsig (s.copyPasses d i f)) := by
  unfold effCopy
  dsimp only
  rw [hdef, hsrc, hdst, htrip]
  cases hps : s.copyPasses d i f with
  | nil =>
    have hbare : s.bareSignal d id (.copy f) = s := by
      unfold State.bareSignal State.opSignal
      dsimp only
      rw [hy]
      cases f.dsig <;> rfl
    rw [hbare]
    rfl
  | cons p ps => rfl

theorem copyWithinDevice {d : DieId} {i : Issue} {f : CopyF} {s : State} {x y : DieId} (hi : i.hollow = false)
    (hdef : copyDefined f = true) (hfresh : OpsFresh s) (hopen : NoOpenWrites s) (hsrc : s.devTrip d f.srcSpace f.dev = none)
    (hdst : s.devTrip d f.dstSpace f.dev = none) (hx : s.spacePlace d f.srcSpace f.targetDie f.dev = .here x)
    (hy : s.spacePlace d f.dstSpace f.targetDie f.dev = .here y)
    (htrip : s.passesTrip (f.len.toNat + 1) (s.copyPasses d i f) = none)
    (hsources : ∀ p ∈ s.copyPasses d i f, ∀ q ∈ s.copyPasses d i f, overlaps (f.len.toNat + 1) p.2.1 q.2.2 = false)
    (hapart : (s.copyPasses d i f).Pairwise (fun p q => overlaps (f.len.toNat + 1) p.2.2 q.2.2 = false))
    (hhdm : ∀ p ∈ s.copyPasses d i f, s.OutsideHdm (f.len.toNat + 1) p.2.2) :
    ∃ t u, exec (.copy d i f) s = .next u ∧
      Moved (f.len.toNat + 1) (s.copyPasses d i f) (s.beginOp d (moverSlot i) ⟨.copy f, i, none, none⟩ 0) t ∧
      u.arrayFrame d = t.arrayFrame d ∧ u.mem = t.mem ∧ u.cells = t.cells ∧
      (u.front d).running = (s.front d).running ∧ ∀ e n, u.tally e n = s.tally e n + signalGain f.dsig y e n := by
  have hnear := copyPasses_near hx hy htrip
  have hrace : (s.beginOp d (moverSlot i) ⟨.copy f, i, none, none⟩ 0).NoRace :=
    noRace_of_noOpenWrites (noOpenWrites_beginOp hfresh hopen d (moverSlot i) _ 0)
  have hmoved := moved_runPasses (d := d) (id := s.fab.nextOp) (dsig := f.dsig) (s.copyPasses d i f)
    (s := s.beginOp d (moverSlot i) ⟨.copy f, i, none, none⟩ 0) ⟨hnear, hsources, hapart, hhdm⟩
    (ownOnly_of_noRace hrace _) (fun _ _ lp e b _ j _ => hrace lp e (b + j))
  have heff : effOp (s.beginOp d (moverSlot i) ⟨.copy f, i, none, none⟩ 0) d s.fab.nextOp i (.copy f) =
      .ok ((s.beginOp d (moverSlot i) ⟨.copy f, i, none, none⟩ 0).runPasses d s.fab.nextOp (f.len.toNat + 1) f.dsig
        (s.copyPasses d i f)) :=
    effCopy_within hdef hsrc hdst hy ((State.passesTrip_beginOp s d (moverSlot i) _ 0 _ _).trans htrip)
  obtain ⟨u, hu, hrest⟩ := State.runOp_finish (sl := moverSlot i) (o := .copy f) hi (Bool.or_eq_false_iff.2 ⟨hi, rfl⟩) hfresh heff
    (fe_of_moveFrame hmoved.frame) (snoops_of_moveFrame hmoved.frame :) (sg := f.dsig) (y := y) (by
      rw [State.opSignal_of_deviceId (s := s) (State.param_of_moveFrame hmoved.frame (by decide))]
      unfold State.opSignal
      dsimp only
      rw [hy])
  exact ⟨_, u, hu, hmoved, hrest⟩

/-! ### With another device -/

/-- An operation in progress, the last in its die's list, awaits at least k answers, and the bytes of memory and the tallies are
as in a state before. -/
structure Awaiting (s : State) (d : DieId) (rs : List Running) (r : Running) (k : Nat) (t : State) : Prop where
  bytes : ∀ m, t.bytesOf m = s.bytesOf m
  tally : ∀ e n, t.tally e n = s.tally e n
  running : ∃ j, k ≤ j ∧ (t.front d).running = rs ++ [{ r with awaiting := j }]

section
variable {s t : State} {d : DieId} {rs : List Running} {r : Running} {k : Nat} (h : Awaiting s d rs r k t)
include h

theorem Awaiting.congr {u : State} (hb : ∀ m, u.bytesOf m = t.bytesOf m) (hf : u.fe = t.fe) : Awaiting s d rs r k u := by
  obtain ⟨hbytes, htally, hrun⟩ := h
  refine ⟨fun m => (hb m).trans (hbytes m), fun e n => ?_, ?_⟩
  · rw [← htally]
    unfold State.tally State.front
    rw [hf]
  · unfold State.front
    rw [hf]
    exact hrun

theorem Awaiting.request (p : Pending) (m : Message) : Awaiting s d rs r k (t.request p m) := by
  have hnet := netFrame_request t p m
  generalize t.request p m = u at hnet ⊢
  exact h.congr (State.bytesOf_of_mem (congrArg NetFrame.mem hnet)) (congrArg NetFrame.fe hnet)

theorem Awaiting.requestLast (p : Pending) (m : Message) : Awaiting s d rs r k (t.requestLast p m) := by
  unfold State.requestLast
  split
  · exact h.request p m
  · exact h.congr (fun m => by cases m <;> rfl) rfl

theorem Awaiting.correctLoc (n : Nat) (x : Loc) : Awaiting s d rs r k (t.correctLoc n x) :=
  h.congr (readMet_correctLoc t n x).bytes (fe_of_moveFrame (readMet_correctLoc t n x).frame)

variable (hold : ∀ x ∈ rs, x.id ≠ r.id)
include hold

theorem Awaiting.awaitMore : Awaiting s d rs r (k + 1) (t.awaitMore d r.id 1) := by
  obtain ⟨hbytes, htally, j, hj, hrun⟩ := h
  refine ⟨fun m => hbytes m, fun e n => ?_, j + 1, Nat.succ_le_succ hj, ?_⟩
  · rw [← htally]
    unfold State.tally State.awaitMore State.modRunning
    by_cases he : e = d
    · subst he
      rw [State.front_modFront_self]
    · rw [State.front_modFront_ne _ _ _ _ he]
  · unfold State.awaitMore State.modRunning
    rw [State.front_modFront_self, hrun]
    dsimp only
    rw [List.map_append, List.map_congr_left (fun x hx => if_neg (hold x hx)), List.map_id', List.map_singleton, if_pos rfl]

theorem Awaiting.sendRead (dev : Nat) (die : DieId) (addr n : Nat) (dest : Option Loc) :
    Awaiting s d rs r (k + 1) (t.sendRead d r.id dev die addr n dest) := by
  unfold State.sendRead
  exact (h.awaitMore hold).request _ _

theorem Awaiting.sendWrite (dev : Nat) (die : DieId) (addr n : Nat) (dsig : Option (BitVec 13)) (data : List Byte) :
    Awaiting s d rs r (k + 1) (t.sendWrite d r.id dev die addr n dsig data) := by
  unfold State.sendWrite
  dsimp only
  split
  · exact (h.awaitMore hold).requestLast _ _
  · exact (h.awaitMore hold).request _ _

omit h hold in
/-- Messages one after another are awaited each. -/
theorem Awaiting.foldl {α : Type} (g : State → α → State) (hg : ∀ k t p, Awaiting s d rs r k t → Awaiting s d rs r (k + 1) (g t p))
    (l : List α) : ∀ k t, Awaiting s d rs r k t → Awaiting s d rs r (k + l.length) (l.foldl g t) := by
  induction l with
  | nil => exact fun _ _ h => h
  | cons p l ih =>
    intro k t h
    have := ih (k + 1) _ (hg k t p h)
    rwa [Nat.add_assoc, Nat.add_comm 1] at this

/-- A pass with another device at one end sends at least one message. -/
theorem Awaiting.transfer {n : Nat} (hn : n ≠ 0) (dsig : Option (BitVec 13)) (last : Bool) {x y : Loc}
    (hxy : (∃ dev e tier c b, x = .remote dev e tier c b) ∨ ∃ dev e tier c b, y = .remote dev e tier c b) :
    Awaiting s d rs r (k + 1) (t.transfer d r.id n dsig last x y) := by
  have hcuts : ∀ b, 1 ≤ (cuts (n + 1) b 0 n).length := fun b => by
    unfold cuts
    rw [if_neg hn]
    exact Nat.succ_pos _
  have hweak : ∀ {j u}, k + 1 ≤ j → Awaiting s d rs r j u → Awaiting s d rs r (k + 1) u := fun hj hu =>
    ⟨hu.bytes, hu.tally, by obtain ⟨i, hi, hrun⟩ := hu.running; exact ⟨i, hj.trans hi, hrun⟩⟩
  have hread : ∀ dev e tier c b, Awaiting s d rs r (k + 1) (t.transfer d r.id n dsig last (.remote dev e tier c b) y) := by
    intro dev e tier c b
    refine hweak (Nat.add_le_add_left (hcuts b) k) (Awaiting.foldl _ (fun j u p hu => ?_) _ k t h)
    split
    · exact hu.awaitMore hold
    · exact hu.sendRead hold _ _ _ _ _
  cases x with
  | remote dev e tier c b => exact hread dev e tier c b
  | sram | ext =>
    rcases hxy with ⟨_, _, _, _, _, hx⟩ | ⟨dev, e, tier, c, b, rfl⟩
    · cases hx
    · refine hweak (Nat.add_le_add_left (hcuts b) k) (Awaiting.foldl _ (fun j u p hu => ?_) _ k _ (h.correctLoc n _))
      split
      · exact hu.awaitMore hold
      · exact hu.sendWrite hold _ _ _ _ _ _

omit h in
theorem Awaiting.runPasses {n : Nat} (hn : n ≠ 0) (dsig : Option (BitVec 13)) (ps : List (Nat × Loc × Loc))
    (hps : ∀ p ∈ ps, (∃ dev e tier c b, p.2.1 = .remote dev e tier c b) ∨ ∃ dev e tier c b, p.2.2 = .remote dev e tier c b) :
    ∀ k t, Awaiting s d rs r k t → Awaiting s d rs r (k + ps.length) (t.runPasses d r.id n dsig ps) := by
  induction ps with
  | nil => exact fun _ _ h => h
  | cons p ps ih =>
    intro k t h
    obtain ⟨c, x, y⟩ := p
    have := ih (fun q hq => hps q (List.mem_cons_of_mem _ hq)) (k + 1) _
      (h.transfer hold hn dsig ps.isEmpty (hps _ List.mem_cons_self))
    rwa [Nat.add_assoc, Nat.add_comm 1] at this

end

/-- A copy with another device is its passes as well, -/
theorem effCopy_away {s : State} {d : DieId} {id : Nat} {i : Issue} {f : CopyF} (hdef : copyDefined f = true)
    (hsrc : s.devTrip d f.srcSpace f.dev = none) (hdst : s.devTrip d f.dstSpace f.dev = none) (hps : s.copyPasses d i f ≠ [])
    (htrip : s.passesTrip (f.len.toNat + 1) (s.copyPasses d i f) = none) :
    effCopy s d id i f = .ok (s.runPasses d id (f.len.toNat + 1) f.dsig (s.copyPasses d i f)) := by
  unfold effCopy
  dsimp only
  rw [hdef, hsrc, hdst, htrip]
  cases hp : s.copyPasses d i f with
  | nil => exact absurd hp hps
  | cons p ps => rfl

/-- and it stays in progress while it awaits an answer. -/
theorem State.settle_awaiting {t : State} {d : DieId} {rs : List Running} {r : Running} (hrun : (t.front d).running = rs ++ [r])
    (hold : ∀ x ∈ rs, x.id ≠ r.id) (haw : 0 < r.awaiting) : t.settle d r.id = t := by
  have hfind : t.running? d r.id = some r := by
    unfold State.running?
    rw [hrun, List.find?_append, List.find?_eq_none.2 (fun x hx => by simpa using hold x hx), Option.none_or]
    simp
  have hsettled : t.settled d r = false := by
    unfold State.settled
    rw [beq_eq_false_iff_ne.2 haw.ne', Bool.false_and]
  unfold State.settle
  rw [hfind]
  dsimp only
  rw [hsettled, if_neg Bool.false_ne_true]

theorem copyWithAnotherDevice {d : DieId} {i : Issue} {f : CopyF} {s : State} (hi : i.hollow = false) (hdef : copyDefined f = true)
    (hfresh : OpsFresh s) (hsrc : s.devTrip d f.srcSpace f.dev = none) (hdst : s.devTrip d f.dstSpace f.dev = none)
    (hps : s.copyPasses d i f ≠ [])
    (haway : ∀ p ∈ s.copyPasses d i f,
      (∃ dev e tier c b, p.2.1 = .remote dev e tier c b) ∨ ∃ dev e tier c b, p.2.2 = .remote dev e tier c b)
    (htrip : s.passesTrip (f.len.toNat + 1) (s.copyPasses d i f) = none) :
    ∃ t, exec (.copy d i f) s = .next t ∧
      Awaiting s d (s.front d).running ⟨s.fab.nextOp, moverSlot i, ⟨.copy f, i, none, none⟩, 0, s.ten.epoch, 0⟩ 1 t := by
  obtain ⟨hrunning, -⟩ := hfresh
  have hold : ∀ x ∈ (s.front d).running, x.id ≠ s.fab.nextOp := fun x hx => (hrunning d x hx).ne
  have hbegun : Awaiting s d (s.front d).running ⟨s.fab.nextOp, moverSlot i, ⟨.copy f, i, none, none⟩, 0, s.ten.epoch, 0⟩ 0
      (s.beginOp d (moverSlot i) ⟨.copy f, i, none, none⟩ 0) := by
    refine ⟨fun m => by cases m <;> rfl, fun e n => ?_, 0, le_rfl, ?_⟩
    · unfold State.tally
      by_cases he : e = d
      · subst he
        exact (congrArg (fun g : FrontEnd => g.tallies.getD n 0) (State.front_modFront_self s e (fun g => { g with running :=
          g.running ++ [⟨s.fab.nextOp, moverSlot i, ⟨.copy f, i, none, none⟩, 0, s.ten.epoch, 0⟩] })) :)
      · exact (congrArg (fun g : FrontEnd => g.tallies.getD n 0) (State.front_modFront_ne s d e (fun g => { g with running :=
          g.running ++ [⟨s.fab.nextOp, moverSlot i, ⟨.copy f, i, none, none⟩, 0, s.ten.epoch, 0⟩] }) he) :)
    · exact (congrArg FrontEnd.running (State.front_modFront_self s d (fun g => { g with running :=
        g.running ++ [⟨s.fab.nextOp, moverSlot i, ⟨.copy f, i, none, none⟩, 0, s.ten.epoch, 0⟩] })) :)
  have hrun := Awaiting.runPasses hold (Nat.succ_ne_zero f.len.toNat) f.dsig (s.copyPasses d i f) haway 0 _ hbegun
  have heff : effOp (s.beginOp d (moverSlot i) ⟨.copy f, i, none, none⟩ 0) d s.fab.nextOp i (.copy f) =
      .ok ((s.beginOp d (moverSlot i) ⟨.copy f, i, none, none⟩ 0).runPasses d s.fab.nextOp (f.len.toNat + 1) f.dsig
        (s.copyPasses d i f)) :=
    effCopy_away hdef hsrc hdst hps ((State.passesTrip_beginOp s d (moverSlot i) _ 0 _ _).trans htrip)
  have hpos : 1 ≤ 0 + (s.copyPasses d i f).length := by
    rw [Nat.zero_add]
    exact List.length_pos_iff.2 hps
  obtain ⟨hbytes, htally, j, hj, hlist⟩ := hrun
  have hsettle := State.settle_awaiting hlist hold (Nat.lt_of_lt_of_le hpos hj)
  refine ⟨_, State.runOp_of_ok (sl := moverSlot i) hi (Bool.or_eq_false_iff.2 ⟨hi, rfl⟩) heff, ?_⟩
  rw [show State.settle _ d s.fab.nextOp = _ from hsettle]
  exact ⟨hbytes, htally, j, hpos.trans hj, hlist⟩

/-! ### COPY -/

/-- Settles O15: within the device every pass stores what its source holds, where no other pass reads or writes, so that the passes
commute with one another; then the copy has every answer and completes. With another device each pass awaits a message's answer. -/
theorem copyMovesBlocks : Obligations.CopyMovesBlocks := by
  unfold Obligations.CopyMovesBlocks
  refine ⟨fun d i f s x y hi hdef hfresh hopen hsrc hdst hx hy htrip hsources hapart hhdm => ?within,
    fun d i f s hi hdef hfresh hsrc hdst hps haway htrip => ?away⟩
  case within =>
    obtain ⟨t, u, hu, hmoved, harr, hmem, hcells, hrun, htally⟩ :=
      copyWithinDevice hi hdef hfresh hopen hsrc hdst hx hy htrip hsources hapart hhdm
    have hnear := copyPasses_near hx hy htrip
    have hbytes : ∀ m, u.bytesOf m = t.bytesOf m := State.bytesOf_of_mem hmem
    have hframe := hmoved.frame
    refine ⟨u, hu, fun p hp => ?_, hrun, htally, fun e c a hc ha hout => ?_, fun lp e b hb hout => ?_,
      ?_, ?_, ?_, ?_, ?_, ?_, ?_, ?_, ?_, ?_⟩
    · exact (State.readLoc_congr (hnear p hp).2 fun k _ => by rw [hbytes]).trans (hmoved.data p hp)
    · refine Eq.trans ?_ (hmoved.sramByte (fun p hp => (hnear p hp).2) hc ha hout)
      unfold sramByte
      rw [hmem]
    · refine Eq.trans ?_ (hmoved.extRead (fun p hp => (hnear p hp).2) hb hout)
      unfold State.extRead State.tier
      rw [hmem]
    · exact (congrArg CellState.vregs hcells).trans (congrArg CellState.vregs (cells_of_moveFrame hframe) :)
    · exact (congrArg CellState.tiles hcells).trans (congrArg CellState.tiles (cells_of_moveFrame hframe) :)
    · exact (congrArg MemState.acc hmem).trans (acc_of_moveFrame hframe :)
    · exact (congrArg MemState.plan hmem).trans (plan_of_moveFrame hframe :)
    · exact (congrArg MemState.flash hmem).trans (flash_of_moveFrame hframe :)
    · exact (congrArg ArrayFrame.beat harr).trans (congrArg (fun z : CalmFrame => z.net.beat) hframe :)
    · exact (congrArg ArrayFrame.job harr).trans (congrArg (fun z : CalmFrame => z.net.job) hframe :)
    · exact (congrArg ArrayFrame.adm harr).trans (congrArg (fun z : CalmFrame => z.net.adm) hframe :)
    · exact (congrArg ArrayFrame.kv harr).trans (congrArg (fun z : CalmFrame => z.net.kv) hframe :)
    · exact (congrArg ArrayFrame.ten harr).trans (congrArg (fun z : CalmFrame => z.net.ten) hframe :)
  case away =>
    obtain ⟨t, ht, hbytes, htally, j, hj, hlist⟩ := copyWithAnotherDevice hi hdef hfresh hsrc hdst hps haway htrip
    refine ⟨t, ht, ?_, hbytes none, hbytes (some false), hbytes (some true), htally⟩
    rw [hlist]
    exact ⟨_, List.mem_append_right _ List.mem_cons_self, rfl, rfl, hj⟩

end Sys2Proof.Machine
end

section
/-! SUPPORT. GATHER as a command: its rows are passes within the device (R174, R196, R226 to R228). -/

namespace Sys2Proof.Machine

open Sys2Proof

/-! ### The rows of a gather -/

/-- The places at which a gather's table and its destination begin for a cell. -/
def State.gatherSrc (s : State) (d : DieId) (f : GatherF) (c : Nat) : Loc := s.place d f.srcSpace (ptrAt f.src c) none d 0
def State.gatherDst (s : State) (d : DieId) (f : GatherF) (c : Nat) : Loc :=
  s.place d f.dstSpace (ptrAt f.dst c) (if f.expand then some c else none) d 0

/-- The row of entry k of the list, with its index. -/
def State.gatherRow (s : State) (d : DieId) (f : GatherF) (c : Nat) (x : Nat × Nat) : Nat × Loc × Loc :=
  (c, (s.gatherSrc d f c).skip (x.1 * (f.rowBlocks.toNat + 1)), (s.gatherDst d f c).skip (x.2 * (f.rowBlocks.toNat + 1)))

theorem State.gatherRows_eq (s : State) (d : DieId) (f : GatherF) (c : Nat) : s.gatherRows d f c =
    ((s.gatherIndices d f c).zipIdx.filter (fun x => decide (x.1 ≠ 0xFFFFFFFF))).map (s.gatherRow d f c) := rfl

theorem State.mem_gatherRows {s : State} {d : DieId} {f : GatherF} {c : Nat} {p : Nat × Loc × Loc} :
    p ∈ s.gatherRows d f c ↔
      ∃ x k, (s.gatherIndices d f c)[k]? = some x ∧ x ≠ 0xFFFFFFFF ∧ s.gatherRow d f c (x, k) = p := by
  rw [State.gatherRows_eq, List.mem_map]
  constructor
  · rintro ⟨⟨x, k⟩, hx, rfl⟩
    obtain ⟨hmem, hne⟩ := List.mem_filter.1 hx
    exact ⟨x, k, List.mem_zipIdx_iff_getElem?.1 hmem, by simpa using hne, rfl⟩
  · rintro ⟨x, k, hx, hne, rfl⟩
    exact ⟨(x, k), List.mem_filter.2 ⟨List.mem_zipIdx_iff_getElem?.2 hx, by simpa using hne⟩, rfl⟩

theorem Loc.Here.skip {x : Loc} (h : x.Here) (k : Nat) : (x.skip k).Here := by
  cases x with
  | sram => exact h
  | ext => exact trivial
  | remote => exact h

/-- A defined gather reads a tier and writes SRAM or HBM of its die. -/
theorem spaces_of_gatherDefined {f : GatherF} (h : gatherDefined f = true) :
    (f.srcSpace = .hbm ∨ f.srcSpace = .lpddr) ∧ (f.dstSpace = .sram ∨ f.dstSpace = .hbm) := by
  unfold gatherDefined at h
  simp only [Bool.and_eq_true, Bool.or_eq_true, beq_iff_eq] at h
  exact ⟨h.1.2, h.2⟩

/-- The rows of a gather without a run-time fault lie between places of this device, with their destinations in SRAM or HBM. -/
theorem gatherRows_near {s : State} {d : DieId} {i : Issue} {f : GatherF} (hdef : gatherDefined f = true)
    (htrip : s.passesTrip (f.rowBlocks.toNat + 1) ((passCells f.expand i.mask).flatMap (s.gatherRows d f)) = none) :
    ∀ p ∈ (passCells f.expand i.mask).flatMap (s.gatherRows d f),
      (p.2.1.Near (f.rowBlocks.toNat + 1) ∧ p.2.2.Near (f.rowBlocks.toNat + 1)) ∧ p.2.2.mem ≠ some true := by
  intro p hp
  obtain ⟨hr, hw⟩ := trips_of_passesTrip htrip hp
  obtain ⟨c, hc, hp⟩ := List.mem_flatMap.1 hp
  obtain ⟨x, k, -, -, rfl⟩ := State.mem_gatherRows.1 hp
  obtain ⟨hsrc, hdst⟩ := spaces_of_gatherDefined hdef
  have hcell : ∀ k, (if f.expand then some c else none) = some k → k < 64 := by
    intro k hk
    split at hk
    · cases hk
      exact mem_passCells hc
    · cases hk
  have hs : s.spacePlace d f.srcSpace d 0 = .here d := by rcases hsrc with h | h <;> rw [h] <;> rfl
  have hd : s.spacePlace d f.dstSpace d 0 = .here d := by rcases hdst with h | h <;> rw [h] <;> rfl
  refine ⟨⟨near_of_readTrip ((State.place_here hs _ (fun _ h => by cases h)).skip _) hr,
    near_of_writeTrip ((State.place_here hd _ hcell).skip _) hw⟩, ?_⟩
  unfold State.gatherRow State.gatherDst
  rcases hdst with h | h <;> rw [h] <;> exact fun hm => by cases hm

/-- No row of a gather is stored in the host's window, which lies in LPDDR. -/
theorem outsideHdm_of_mem {s : State} {n : Nat} {y : Loc} (h : y.mem ≠ some true) : s.OutsideHdm n y := by
  rintro lp e b rfl
  cases lp with
  | true => exact absurd rfl h
  | false => rfl

/-! ### The effect -/

/-- Passes after a read that has met corrected errors. -/
theorem Moved.of_readMet {n : Nat} {ps : List (Nat × Loc × Loc)} {s t u : State} (h : ReadMet s t) (hm : Moved n ps t u)
    (hnear : ∀ p ∈ ps, p.2.1.Near n) : Moved n ps s u where
  frame := hm.frame.trans h.frame
  data := fun p hp => (hm.data p hp).trans (h.readLoc (hnear p hp))
  rest := fun m k hk => (hm.rest m k hk).trans (by rw [h.bytes])
  lpddr := fun hp => (hm.lpddr hp).trans (h.bytes (some true))
  tiers := fun hp => ⟨(hm.tiers hp).1.trans (h.bytes (some false)), (hm.tiers hp).2.trans h.rind⟩

/-- The corrected errors of the index lists counted. -/
def State.listsMet (s : State) (d : DieId) (f : GatherF) (cells : List Nat) : State :=
  cells.foldl (fun (t : State) c => t.correctSram d (gatherList f c).1 (gatherList f c).2.1 (4 * (f.count.toNat + 1))) s

theorem readMet_listsMet (s : State) (d : DieId) (f : GatherF) (cells : List Nat) : ReadMet s (s.listsMet d f cells) :=
  List.foldlRecOn _ _ (motive := ReadMet s) (readMet_of_calmFrame rfl) fun t ht _ _ => ht.trans (readMet_correctSram t _ _ _ _)

theorem State.listsMet_mem (s : State) (d : DieId) (f : GatherF) (cells : List Nat) :
    { (s.listsMet d f cells).mem with sramSingle := [] } = { s.mem with sramSingle := [] } := by
  unfold State.listsMet
  refine List.foldlRecOn cells (fun (t : State) c => t.correctSram d (gatherList f c).1 (gatherList f c).2.1
    (4 * (f.count.toNat + 1))) (motive := fun t : State => { t.mem with sramSingle := [] } = { s.mem with sramSingle := [] })
    rfl fun t ht c _ => Eq.trans ?_ ht
  unfold State.correctSram
  dsimp only
  split
  · rfl
  · rw [State.limited_mem]

theorem State.gatherRows_of_readMet {s t : State} (h : ReadMet s t) (d : DieId) (f : GatherF) (c : Nat) :
    t.gatherRows d f c = s.gatherRows d f c := by
  have hsram : t.mem.sram = s.mem.sram := h.bytes none
  have hdev : t.param P.deviceId = s.param P.deviceId := State.param_of_moveFrame h.frame (by decide)
  unfold State.gatherRows State.gatherIndices State.sramRead State.place
  rw [hsram, hdev]

theorem effGather_eq {s : State} {d : DieId} {id : Nat} {i : Issue} {f : GatherF} (hdef : gatherDefined f = true)
    (htouch : s.touchesTrip d ((passCells f.expand i.mask).map (fun c =>
      ⟨(gatherList f c).1, (gatherList f c).2.1, 4 * (f.count.toNat + 1), false, false⟩)) = none)
    (htrip : s.passesTrip (f.rowBlocks.toNat + 1) ((passCells f.expand i.mask).flatMap (s.gatherRows d f)) = none) :
    effGather s d id i f = .ok ((s.listsMet d f (passCells f.expand i.mask)).runPasses d id (f.rowBlocks.toNat + 1) f.dsig
      ((passCells f.expand i.mask).flatMap (s.gatherRows d f))) := by
  have hmet := readMet_listsMet s d f (passCells f.expand i.mask)
  have hrows : (passCells f.expand i.mask).flatMap ((s.listsMet d f (passCells f.expand i.mask)).gatherRows d f) =
      (passCells f.expand i.mask).flatMap (s.gatherRows d f) :=
    List.flatMap_congr fun c _ => State.gatherRows_of_readMet hmet d f c
  have htrip' := (State.passesTrip_congr (s.listsMet_mem d f (passCells f.expand i.mask)) hmet.rind (layout_of_moveFrame hmet.frame)
    (f.rowBlocks.toNat + 1) _).trans htrip
  unfold effGather
  dsimp only
  rw [hdef, htouch]
  dsimp only
  rw [show List.foldl _ s _ = s.listsMet d f (passCells f.expand i.mask) from rfl, hrows, htrip']
  rfl

/-- A gather whose rows do not overlap moves them and completes. -/
theorem gatherMoves {d : DieId} {i : Issue} {f : GatherF} {s : State} {rows : List (Nat × Loc × Loc)} (hi : i.hollow = false)
    (hdef : gatherDefined f = true) (hfresh : OpsFresh s) (hopen : NoOpenWrites s)
    (htouch : s.touchesTrip d ((passCells f.expand i.mask).map (fun c =>
      ⟨(gatherList f c).1, (gatherList f c).2.1, 4 * (f.count.toNat + 1), false, false⟩)) = none)
    (hrows : rows = (passCells f.expand i.mask).flatMap (s.gatherRows d f))
    (htrip : s.passesTrip (f.rowBlocks.toNat + 1) rows = none)
    (hsources : ∀ p ∈ rows, ∀ q ∈ rows, overlaps (f.rowBlocks.toNat + 1) p.2.1 q.2.2 = false)
    (hapart : rows.Pairwise (fun p q => overlaps (f.rowBlocks.toNat + 1) p.2.2 q.2.2 = false)) :
    ∃ t u, exec (.gather d i f) s = .next u ∧
      Moved (f.rowBlocks.toNat + 1) rows (s.beginOp d (moverSlot i) ⟨.gather f, i, none, none⟩ 0) t ∧
      u.arrayFrame d = t.arrayFrame d ∧ u.mem = t.mem ∧ u.cells = t.cells ∧
      (u.front d).running = (s.front d).running ∧ ∀ e n, u.tally e n = s.tally e n + signalGain f.dsig d e n := by
  subst hrows
  have hnear := gatherRows_near hdef htrip
  have hrace : (s.beginOp d (moverSlot i) ⟨.gather f, i, none, none⟩ 0).NoRace :=
    noRace_of_noOpenWrites (noOpenWrites_beginOp hfresh hopen d (moverSlot i) _ 0)
  have hmet := readMet_listsMet (s.beginOp d (moverSlot i) ⟨.gather f, i, none, none⟩ 0) d f (passCells f.expand i.mask)
  have hrace' : ((s.beginOp d (moverSlot i) ⟨.gather f, i, none, none⟩ 0).listsMet d f (passCells f.expand i.mask)).NoRace :=
    fun lp e b => (hmet.openWrites lp e b).trans (hrace lp e b)
  have hmoved := (moved_runPasses (d := d) (id := s.fab.nextOp) (dsig := f.dsig)
    ((passCells f.expand i.mask).flatMap (s.gatherRows d f)) ⟨fun p hp => (hnear p hp).1, hsources, hapart,
      fun p hp => outsideHdm_of_mem (hnear p hp).2⟩ (ownOnly_of_noRace hrace' _)
    (fun _ _ lp e b _ j _ => hrace' lp e (b + j))).of_readMet hmet fun p hp => (hnear p hp).1.1
  have heff : effOp (s.beginOp d (moverSlot i) ⟨.gather f, i, none, none⟩ 0) d s.fab.nextOp i (.gather f) =
      .ok (((s.beginOp d (moverSlot i) ⟨.gather f, i, none, none⟩ 0).listsMet d f (passCells f.expand i.mask)).runPasses d
        s.fab.nextOp (f.rowBlocks.toNat + 1) f.dsig ((passCells f.expand i.mask).flatMap (s.gatherRows d f))) :=
    effGather_eq hdef ((State.touchesTrip_congr (s.beginOp_mem d (moverSlot i) _ 0) d _).trans htouch)
      ((State.passesTrip_beginOp s d (moverSlot i) _ 0 _ _).trans htrip)
  obtain ⟨u, hu, hrest⟩ := State.runOp_finish (sl := moverSlot i) (o := .gather f) hi (Bool.or_eq_false_iff.2 ⟨hi, rfl⟩) hfresh
    heff (fe_of_moveFrame hmoved.frame) (snoops_of_moveFrame hmoved.frame :) (sg := f.dsig) (y := d) rfl
  exact ⟨_, u, hu, hmoved, hrest⟩

/-! ### One list into SRAM -/

/-- The rows of one list stand one after another. -/
theorem gatherRows_pairwise (s : State) (d : DieId) (f : GatherF) (c : Nat) :
    (s.gatherRows d f c).Pairwise (fun p q => overlaps (f.rowBlocks.toNat + 1) p.2.2 q.2.2 = false) := by
  have hidx : (s.gatherIndices d f c).zipIdx.Pairwise (fun x y => x.2 < y.2) := by
    rw [← List.pairwise_map, List.zipIdx_map_snd]
    exact List.pairwise_lt_range'
  rw [State.gatherRows_eq, List.pairwise_map]
  refine (hidx.filter _).imp fun {x y} hxy => ?_
  have hmul := Nat.mul_le_mul_right (f.rowBlocks.toNat + 1) (Nat.succ_le_of_lt hxy)
  rw [Nat.succ_mul] at hmul
  unfold State.gatherRow
  dsimp only
  cases s.gatherDst d f c with
  | sram e k a =>
    simp only [Loc.skip, overlaps, Bool.and_eq_false_iff, decide_eq_false_iff_not]
    omega
  | ext lp e b =>
    simp only [Loc.skip, overlaps, Bool.and_eq_false_iff, decide_eq_false_iff_not]
    omega
  | remote => rfl

section
variable (s : State) (d : DieId) {f : GatherF}

theorem State.gatherSrc_tier (h : f.srcSpace = .hbm ∨ f.srcSpace = .lpddr) (c : Nat) :
    s.gatherSrc d f c = .ext (f.srcSpace == .lpddr) d (ptrAt f.src c) := by
  unfold State.gatherSrc
  rcases h with h | h <;> rw [h] <;> rfl

theorem State.gatherDst_sram (h : f.dstSpace = .sram) (hexp : f.expand = false) (c : Nat) :
    s.gatherDst d f c = .sram d (ptrAt f.dst c / 2 ^ 22 % 64) (ptrAt f.dst c % 2 ^ 22) := by
  unfold State.gatherDst
  rw [h, hexp]
  rfl

end

/-! ### GATHER -/

/-- Settles O16: the indices are read before any row is moved; the rows of one list stand one after another in its destination, a
skipped one among them untouched, and rows that do not overlap move as passes do. -/
theorem gatherCollectsRows : Obligations.GatherCollectsRows := by
  unfold Obligations.GatherCollectsRows
  refine ⟨fun d i f s hi hexp hnom hfresh hopen hsrc hdst htouch htrip => ?one,
    fun d i f s rows hi hdef hfresh hopen htouch hrows htrip hsources hapart => ?many⟩
  case many =>
    obtain ⟨t, u, hu, hmoved, harr, hmem, hcells, hrun, htally⟩ :=
      gatherMoves hi hdef hfresh hopen htouch hrows htrip hsources hapart
    have hnear : ∀ p ∈ rows, _ := hrows ▸ gatherRows_near hdef (hrows ▸ htrip)
    have hframe := hmoved.frame
    refine ⟨u, hu, fun p hp => ?_, hrun, htally, fun e c a hc ha hout => ?_, ?_, ?_, ?_, ?_⟩
    · exact (State.readLoc_congr (hnear p hp).1.2 fun k _ => by rw [State.bytesOf_of_mem hmem]).trans (hmoved.data p hp)
    · refine Eq.trans ?_ (hmoved.sramByte (fun p hp => (hnear p hp).1.2) hc ha hout)
      unfold sramByte
      rw [hmem]
    · exact (congrArg MemState.lpddr hmem).trans (hmoved.lpddr fun p hp => (hnear p hp).2)
    · exact (congrArg MemState.acc hmem).trans (acc_of_moveFrame hframe :)
    · exact (congrArg CellState.vregs hcells).trans (congrArg CellState.vregs (cells_of_moveFrame hframe) :)
    · exact (congrArg CellState.tiles hcells).trans (congrArg CellState.tiles (cells_of_moveFrame hframe) :)
  case one =>
    have hdef : gatherDefined f = true := by
      unfold gatherDefined
      simp only [Bool.and_eq_true, Bool.or_eq_true, beq_iff_eq, bne_iff_ne]
      exact ⟨⟨hnom, hsrc⟩, .inl hdst⟩
    have hrows : s.gatherRows d f 0 = (passCells f.expand i.mask).flatMap (s.gatherRows d f) := by
      rw [hexp]
      exact (List.append_nil _).symm
    have hplaces : ∀ p ∈ s.gatherRows d f 0, ∃ x k, (s.gatherIndices d f 0)[k]? = some x ∧ x ≠ 0xFFFFFFFF ∧
        p.2.1 = .ext (f.srcSpace == .lpddr) d (ptrAt f.src 0 + x * (f.rowBlocks.toNat + 1)) ∧
        p.2.2 = .sram d (ptrAt f.dst 0 / 2 ^ 22 % 64) (ptrAt f.dst 0 % 2 ^ 22 + 256 * (k * (f.rowBlocks.toNat + 1))) := by
      intro p hp
      obtain ⟨x, k, hx, hne, rfl⟩ := State.mem_gatherRows.1 hp
      unfold State.gatherRow
      rw [State.gatherSrc_tier s d hsrc, State.gatherDst_sram s d hdst hexp]
      exact ⟨x, k, hx, hne, rfl, rfl⟩
    obtain ⟨t, u, hu, hmoved, harr, hmem, hcells, -⟩ := gatherMoves hi hdef hfresh hopen (by rw [hexp]; exact htouch) hrows
      htrip (fun p hp q hq => by
        obtain ⟨_, _, -, -, hp, -⟩ := hplaces p hp
        obtain ⟨_, _, -, -, -, hq⟩ := hplaces q hq
        rw [hp, hq]
        rfl) (gatherRows_pairwise s d f 0)
    have hnear : ∀ p ∈ s.gatherRows d f 0, _ := hrows ▸ gatherRows_near hdef (hrows ▸ htrip)
    have hnone : ∀ p ∈ s.gatherRows d f 0, p.2.2.mem = none := fun p hp => by
      obtain ⟨_, _, -, -, -, hp⟩ := hplaces p hp
      rw [hp]
      rfl
    have hframe := hmoved.frame
    obtain ⟨hhbm, hrind⟩ := hmoved.tiers hnone
    refine ⟨u, hu, fun k hk hne => ?row, fun k hk hskip => ?skipped, ?_, ?_, ?_, ?_, ?_, ?_⟩
    case row =>
      have hlen : k < (s.gatherIndices d f 0).length := by
        simpa [State.gatherIndices, gatherList] using Nat.lt_succ_of_le hk
      have hp := State.mem_gatherRows.2 ⟨(s.gatherIndices d f 0).getD k 0, k, by
        rw [List.getD_eq_getElem _ _ hlen, List.getElem?_eq_getElem hlen], hne, rfl⟩
      have hdata := (State.readLoc_congr (s := t) (t := u) (hnear _ hp).1.2
        fun k _ => by rw [State.bytesOf_of_mem hmem]).trans (hmoved.data _ hp)
      unfold State.gatherRow at hdata
      rw [State.gatherSrc_tier s d hsrc, State.gatherDst_sram s d hdst hexp] at hdata
      exact hdata
    case skipped =>
      have hlen : k < (s.gatherIndices d f 0).length := by
        simpa [State.gatherIndices, gatherList] using Nat.lt_succ_of_le hk
      refine List.ext_getElem (by simp [State.sramRead]) fun j h1 h2 => ?_
      have hj : j < 256 * (f.rowBlocks.toNat + 1) := by simpa [State.sramRead] using h1
      simp only [State.sramRead, Memory.getElem_readBytes]
      rw [hmem]
      refine hmoved.rest none _ fun p hp hin => ?_
      obtain ⟨x, k', hx, hx', -, hp⟩ := hplaces p hp
      have hkk : k ≠ k' := by
        rintro rfl
        rw [List.getD_eq_getElem?_getD, hx] at hskip
        exact hx' hskip
      obtain ⟨-, h3, h4⟩ := hin
      rw [hp] at h3 h4
      simp only [Loc.key, sramKey] at h3 h4
      rcases Nat.lt_or_gt_of_ne hkk with hlt | hlt
      · have hmul := Nat.mul_le_mul_right (f.rowBlocks.toNat + 1) (Nat.succ_le_of_lt hlt)
        rw [Nat.succ_mul] at hmul
        omega
      · have hmul := Nat.mul_le_mul_right (f.rowBlocks.toNat + 1) (Nat.succ_le_of_lt hlt)
        rw [Nat.succ_mul] at hmul
        omega
    · exact (congrArg MemState.hbm hmem).trans hhbm
    · exact (congrArg MemState.lpddr hmem).trans (hmoved.lpddr fun p hp => by rw [hnone p hp]; exact fun h => by cases h)
    · exact (congrArg MemState.acc hmem).trans (acc_of_moveFrame hframe :)
    · exact (congrArg CellState.vregs hcells).trans (congrArg CellState.vregs (cells_of_moveFrame hframe) :)
    · exact (congrArg CellState.tiles hcells).trans (congrArg CellState.tiles (cells_of_moveFrame hframe) :)
    · exact ⟨(congrArg ArrayFrame.pending harr).trans (congrArg (fun z : CalmFrame => z.net.pending) hframe :),
        (congrArg ArrayFrame.rind harr).trans hrind,
        (congrArg ArrayFrame.beat harr).trans (congrArg (fun z : CalmFrame => z.net.beat) hframe :),
        (congrArg ArrayFrame.job harr).trans (congrArg (fun z : CalmFrame => z.net.job) hframe :),
        (congrArg ArrayFrame.adm harr).trans (congrArg (fun z : CalmFrame => z.net.adm) hframe :),
        (congrArg ArrayFrame.kv harr).trans (congrArg (fun z : CalmFrame => z.net.kv) hframe :),
        (congrArg ArrayFrame.ten harr).trans (congrArg (fun z : CalmFrame => z.net.ten) hframe :),
        (congrArg ArrayFrame.res harr).trans (congrArg (fun z : CalmFrame => z.net.res) hframe :),
        (congrArg ArrayFrame.boot harr).trans (congrArg (fun z : CalmFrame => z.net.boot) hframe :)⟩

end Sys2Proof.Machine
end

section
/-! SUPPORT. One block dealt with by a Press unit: which bytes it writes, and what it leaves alone (R393 to R395, R407, R408, R424). -/

namespace Sys2Proof.Machine

open Sys2Proof

/-! ### Counting -/

/-- What a Press operation leaves alone beside the memories, the front ends and the links. -/
structure PressRest where
  cells : CellState
  rind : RindState
  beat : BeatState
  job : JobState
  adm : AdmState
  kv : KvState
  ten : TenantState
  snoops : List SnoopBlock
  device : Nat

/-- That part of a state. -/
def State.pressRest (s : State) : PressRest :=
  ⟨s.cells, s.rind, s.beat, s.job, s.adm, s.kv, s.ten, s.host.snoops, s.param P.deviceId⟩

/-- What of a front end the counts of an operation leave alone. -/
def FrontEnd.uncounted (f : FrontEnd) : FrontEnd := { f with nanNow := 0, infNow := 0, ovfNow := 0, accOvfNow := 0 }

/-- A step that counts and logs: only counters, events and corrected errors of SRAM differ. -/
structure CountsOnly (s t : State) : Prop where
  rest : t.pressRest = s.pressRest
  fab : t.fab = s.fab
  mem : { t.mem with sramSingle := [] } = { s.mem with sramSingle := [] }
  front : ∀ e, (t.front e).uncounted = (s.front e).uncounted

theorem CountsOnly.trans {s t u : State} (h : CountsOnly s t) (h' : CountsOnly t u) : CountsOnly s u :=
  ⟨h'.rest.trans h.rest, h'.fab.trans h.fab, h'.mem.trans h.mem, fun e => (h'.front e).trans (h.front e)⟩

theorem countsOnly_refl (s : State) : CountsOnly s s := ⟨rfl, rfl, rfl, fun _ => rfl⟩

theorem countsOnly_of_calmFrame {s t : State} (h : t.calmFrame = s.calmFrame) : CountsOnly s t := by
  have hnet := net_of_calmFrame h
  have hbeat : t.beat = s.beat := congrArg NetFrame.beat hnet
  have hten : t.ten = s.ten := congrArg NetFrame.ten hnet
  refine ⟨?_, fab_of_calmFrame h, by rw [mem_of_calmFrame h], fun e => by unfold State.front; rw [fe_of_calmFrame h]⟩
  unfold State.pressRest
  rw [cells_of_calmFrame h, rind_of_calmFrame h, hbeat, job_of_calmFrame h, adm_of_calmFrame h, kv_of_calmFrame h, hten,
    snoops_of_calmFrame h, State.param_of_calmFrame h (by decide)]

theorem countsOnly_bump (s : State) {k : Nat} (n : Nat) (hk : P.deviceId ≠ k) : CountsOnly s (s.bump k n) := by
  refine ⟨?_, rfl, rfl, fun _ => rfl⟩
  unfold State.pressRest
  rw [State.param_bump_ne s n hk]
  rfl

theorem countsOnly_count (s : State) (d : DieId) (n : Counts) : CountsOnly s (s.count d n) := by
  refine ⟨rfl, rfl, rfl, fun e => ?_⟩
  unfold State.count
  by_cases he : e = d
  · subst he
    rw [State.front_modFront_self]
    rfl
  · rw [State.front_modFront_ne _ _ _ _ he]

theorem countsOnly_limited (s : State) (c r k n : Nat) (g : Nat → List (Nat × Nat)) : CountsOnly s (s.limited c r k n g) :=
  countsOnly_of_calmFrame (calmFrame_limited s c r k n g)

theorem countsOnly_correctMem (s : State) (lp : Bool) (d : DieId) (b n : Nat) : CountsOnly s (s.correctMem lp d b n) :=
  countsOnly_of_calmFrame (calmFrame_correctMem s lp d b n)

theorem countsOnly_correctSram (s : State) (d : DieId) (c a n : Nat) : CountsOnly s (s.correctSram d c a n) := by
  unfold State.correctSram
  dsimp only
  split
  · exact countsOnly_refl s
  · refine CountsOnly.trans ?_ (countsOnly_limited _ _ _ _ _ _)
    exact ⟨rfl, rfl, rfl, fun _ => rfl⟩

theorem countsOnly_correctLoc (s : State) (n : Nat) (x : Loc) : CountsOnly s (s.correctLoc n x) := by
  cases x with
  | sram d c a => exact countsOnly_correctSram s d c a _
  | ext lp d b => exact countsOnly_correctMem s lp d b n
  | remote => exact countsOnly_refl s

theorem countsOnly_auxMet (s : State) (x : Loc) (n : Nat) : CountsOnly s (s.auxMet x n) := by
  cases x with
  | sram d c a => exact countsOnly_correctSram s d c a n
  | ext lp d b => exact countsOnly_correctMem s lp d b _
  | remote => exact countsOnly_refl s

theorem countsOnly_saturated (s : State) (d : DieId) (i : Issue) (n : Nat) : CountsOnly s (s.saturated d i n) := by
  unfold State.saturated
  split
  · exact countsOnly_refl s
  · exact (countsOnly_bump s n (by decide)).trans ((countsOnly_count _ d _).trans (countsOnly_limited _ _ _ _ _ _))

theorem countsOnly_heldMet (s : State) (x : PressBlock) : CountsOnly s (s.heldMet x) := by
  unfold State.heldMet
  refine CountsOnly.trans ?_ (countsOnly_correctMem _ _ _ _ _)
  split
  · exact countsOnly_refl s
  · exact countsOnly_correctMem s _ _ _ _

theorem countsOnly_pressCounts (s : State) (x : PressBlock) (a : Applied) : CountsOnly s (s.pressCounts x a) := by
  have hbf16 : ∀ t : State, CountsOnly t (if x.op = .addBf16 then t.bump P.pressBf16Applied 1 else t) := by
    intro t
    split
    · exact countsOnly_bump t 1 (by decide)
    · exact countsOnly_refl t
  have hcounted := (countsOnly_bump s 1 (k := P.pressApplied) (by decide)).trans
    ((countsOnly_bump _ a.poisoned (k := P.pressPoisonWritten) (by decide)).trans ((hbf16 _).trans
      ((countsOnly_bump _ a.overflows (k := P.pressI32Overflows) (by decide)).trans (countsOnly_count _ x.die a.counts))))
  unfold State.pressCounts
  dsimp only
  split
  · exact hcounted
  · exact hcounted.trans (countsOnly_limited _ _ _ _ _ _)

section
variable {s t : State} (h : CountsOnly s t)
include h

theorem CountsOnly.rind : t.rind = s.rind := congrArg PressRest.rind h.rest

theorem CountsOnly.running (e : DieId) : (t.front e).running = (s.front e).running :=
  (congrArg FrontEnd.running (h.front e) :)

theorem CountsOnly.bytesOf (m : Option Bool) : t.bytesOf m = s.bytesOf m := by
  have hsram : t.mem.sram = s.mem.sram := (congrArg MemState.sram h.mem :)
  have hhbm : t.mem.hbm = s.mem.hbm := (congrArg MemState.hbm h.mem :)
  have hlpddr : t.mem.lpddr = s.mem.lpddr := (congrArg MemState.lpddr h.mem :)
  unfold State.bytesOf State.tier
  rw [hsram, hhbm, hlpddr]

theorem CountsOnly.noRace (hs : s.NoRace) : t.NoRace := fun lp d b => by
  have hopen : t.openWrites lp d b = s.openWrites lp d b := by
    unfold State.openWrites
    rw [h.fab]
    simp only [h.running]
  rw [hopen, hs]

end

/-! ### Bytes that a Press unit writes -/

theorem State.raceLost_of_noRace {s : State} (h : s.NoRace) (o : Option (DieId × Nat)) (lp : Bool) (d : DieId) (b : Nat) :
    s.raceLost o lp d b = false := by
  unfold State.raceLost
  rw [h]
  rfl

/-- Bytes within one block of a page that is not being keyed. -/
theorem State.racePut_within {s : State} (hrace : s.NoRace) {lp : Bool} {d : DieId} {b : Nat} {bs : List Byte} (hne : bs ≠ [])
    (hfit : b % 256 + bs.length ≤ 256) (hkey : s.keyingOf (frameOf lp d (b / 65536)) = none) :
    s.racePut lp d b bs = { s with mem := s.mem.put lp d b bs } := by
  have hlen : 0 < bs.length := List.length_pos_iff.2 hne
  have hwrite : s.extWriteBlock lp d b bs = { s with mem := s.mem.put lp d b bs } := by
    have hmark : ∀ m : MemState, State.markDone { s with mem := m } (frameOf lp d (b / 65536)) (b / 256 % 256) =
        { s with mem := m } := fun m => by
      unfold State.markDone
      rw [show State.keyingOf { s with mem := m } (frameOf lp d (b / 65536)) = none from hkey]
    unfold State.extWriteBlock
    dsimp only
    cases lp
    · exact hmark _
    · exact hmark _
  have hput : s.extPut lp d b bs = s.extWriteBlock lp d b bs := by
    unfold State.extPut
    rw [State.extWrite]
    · rw [List.take_of_length_le (by omega), List.drop_of_length_le (by omega)]
      cases bs.length / 256 + 1 <;> rfl
    · exact hne
  have hparts : blockParts b bs.length = [(b, bs.length)] := by
    unfold blockParts
    rw [show ceilDiv (b % 256 + bs.length) 256 = 1 by unfold ceilDiv; omega]
    simp only [List.range_one, List.map_singleton, Nat.add_zero]
    rw [show max b (b / 256 * 256) = b by omega, show min (b + bs.length) ((b / 256 + 0 + 1) * 256) - b = bs.length by omega]
  unfold State.racePut
  split
  · rw [hput, hwrite]
  · rw [hparts]
    simp only [List.foldl_cons, List.foldl_nil]
    rw [State.raceLost_of_noRace hrace, if_neg Bool.false_ne_true, Nat.sub_self, List.drop_zero, List.take_length, hwrite]

/-- Bytes of a memory after such a write. -/
theorem State.read_put_mem (s : State) (lp : Bool) (d : DieId) (b : Nat) (bs : List Byte) (k : Nat) :
    (State.bytesOf { s with mem := s.mem.put lp d b bs } (some lp)).read k =
      if extKey d b ≤ k ∧ k < extKey d b + bs.length then bs.getD (k - extKey d b) 0 else (s.bytesOf (some lp)).read k := by
  refine (s.read_put lp d b bs s.rind (some lp) k).trans ?_
  simp only [true_and]

/-- No write makes an error. -/
theorem getD_clearBlocks (m : MemState) (frame first n k : Nat) :
    (m.memDouble.getD k false = false → (m.clearBlocks frame first n).memDouble.getD k false = false) ∧
      (m.tagBad.getD k false = false → (m.clearBlocks frame first n).tagBad.getD k false = false) := by
  have hfilter : ∀ (l : AMap Bool) (p : Nat → Bool), l.getD k false = false → AMap.getD (l.filter (fun x => p x.1)) k false = false := by
    intro l p hl
    have hfind : AMap.find? (l.filter (fun x => p x.1)) k = if p k then l.find? k else none := by
      clear hl
      induction l with
      | nil => simp
      | cons x l ih =>
        obtain ⟨a, v⟩ := x
        by_cases ha : a = k
        · subst ha
          by_cases hp : p a
          · simp [hp, AMap.find?]
          · simpa [List.filter_cons, hp, AMap.find?] using ih
        · by_cases hp : p a
          · simpa [List.filter_cons, hp, AMap.find?, ha] using ih
          · simpa [List.filter_cons, hp, AMap.find?, ha] using ih
    unfold AMap.getD at hl ⊢
    rw [hfind]
    split
    · exact hl
    · rfl
  exact ⟨hfilter _ (fun a => decide (a < frame * 256 + first ∨ frame * 256 + first + n ≤ a)),
    hfilter _ (fun a => decide (a < frame * 256 + first ∨ frame * 256 + first + n ≤ a))⟩

end Sys2Proof.Machine
end

section
/-! SUPPORT. Blocks of one operation dealt with by the Press units of a tier, one after another: each data block and its count are
combined as they were before, for no two blocks share a byte (R393 to R395). -/

namespace Sys2Proof.Machine

open Sys2Proof

/-! ### One block -/

/-- The memories of a device but for the tiers. -/
def MemState.beyondTiers (m : MemState) : MemState :=
  { m with sramSingle := [], hbm := [], lpddr := [], memDouble := [], memSingle := [], tagBad := [] }

/-- What the block of a PressBlock holds after the block has been applied. -/
def State.pressedData (s : State) (x : PressBlock) : List Byte :=
  if x.op = .clear then List.replicate 256 0
  else (applyBlock s.audit x.op (s.extRead x.lpddr x.die (pressBlockAt x.dataBlock * 256) 256) x.data).data

/-- And its count. -/
def State.pressedCount (s : State) (x : PressBlock) : Nat :=
  if x.op = .clear then 0 else satAdd32 (leNat (s.extRead x.lpddr x.die (pressCountAt x.dataBlock) 4)) 1

/-- The keys of a data block, and those of its count. -/
abbrev dataKeys (y : DieId) (dB k : Nat) : Prop := extKey y (pressBlockAt dB * 256) ≤ k ∧ k < extKey y (pressBlockAt dB * 256) + 256
abbrev countKeys (y : DieId) (dB k : Nat) : Prop := extKey y (pressCountAt dB) ≤ k ∧ k < extKey y (pressCountAt dB) + 4

/-- Data blocks and counts share no byte. -/
theorem keys_apart (y : DieId) {a b k : Nat} :
    (dataKeys y a k → ¬ countKeys y b k) ∧ (a ≠ b → dataKeys y a k → ¬ dataKeys y b k) ∧
      (a ≠ b → countKeys y a k → ¬ countKeys y b k) := by
  unfold dataKeys countKeys extKey pressBlockAt pressCountAt
  omega

/-- One block applied: its data, its count, and what stays. -/
structure AppliedTo (x : PressBlock) (s t : State) : Prop where
  rest : t.pressRest = s.pressRest
  fab : t.fab = s.fab
  front : ∀ e, (t.front e).uncounted = (s.front e).uncounted
  beyond : t.mem.beyondTiers = s.mem.beyondTiers
  data : ∀ k, dataKeys x.die x.dataBlock k → (t.bytesOf (some x.lpddr)).read k =
    (s.pressedData x).getD (k - extKey x.die (pressBlockAt x.dataBlock * 256)) 0
  count : ∀ k, countKeys x.die x.dataBlock k → (t.bytesOf (some x.lpddr)).read k =
    (leBytes 4 (s.pressedCount x)).getD (k - extKey x.die (pressCountAt x.dataBlock)) 0
  outside : ∀ k, ¬ dataKeys x.die x.dataBlock k → ¬ countKeys x.die x.dataBlock k →
    (t.bytesOf (some x.lpddr)).read k = (s.bytesOf (some x.lpddr)).read k
  double : ∀ k, s.mem.memDouble.getD k false = false → t.mem.memDouble.getD k false = false
  tags : ∀ k, s.mem.tagBad.getD k false = false → t.mem.tagBad.getD k false = false

theorem State.applyPress_eq (s : State) (x : PressBlock) :
    ∃ a, s.applyPress x = ((s.heldMet x).putPress x (s.pressedData x) (s.pressedCount x)).pressCounts x a := by
  unfold State.applyPress State.pressedData State.pressedCount
  split
  · exact ⟨_, rfl⟩
  · exact ⟨_, rfl⟩

theorem pressBlockAt_page (dB : Nat) : pressBlockAt dB * 256 / 65536 = dB / 252 ∧ pressBlockAt dB / 256 = dB / 252 := by
  unfold pressBlockAt
  omega

theorem pressCountAt_page (dB : Nat) : pressCountAt dB / 65536 = dB / 252 ∧ pressCountAt dB / 256 / 256 = dB / 252 ∧
    pressCountAt dB % 256 + 4 ≤ 256 := by
  unfold pressCountAt
  omega

/-- The memories with a data block and its count written. -/
def MemState.putPress (m : MemState) (x : PressBlock) (data : List Byte) (n : Nat) : MemState :=
  (m.put x.lpddr x.die (pressBlockAt x.dataBlock * 256) data).put x.lpddr x.die (pressCountAt x.dataBlock) (leBytes 4 n)

/-- The bytes of a block and of its count written in a page that is not being keyed. -/
theorem State.putPress_eq {s : State} (hrace : s.NoRace) {x : PressBlock} {data : List Byte} {n : Nat} (hlen : data.length = 256)
    (hkey : s.keyingOf (frameOf x.lpddr x.die (x.dataBlock / 252)) = none) :
    s.putPress x data n = { s with mem := s.mem.putPress x data n } := by
  obtain ⟨hpage, -⟩ := pressBlockAt_page x.dataBlock
  obtain ⟨hcount, -, hfit⟩ := pressCountAt_page x.dataBlock
  unfold State.putPress
  rw [State.racePut_within hrace (by intro h; simp [h] at hlen) (by omega) (by rwa [hpage])]
  exact State.racePut_within (s := { s with mem := s.mem.put x.lpddr x.die (pressBlockAt x.dataBlock * 256) data }) hrace
    (by intro h; simpa using congrArg List.length h) (by simpa using hfit) (by rw [hcount]; exact hkey)

theorem MemState.put_beyondTiers (m : MemState) (lp : Bool) (d : DieId) (b : Nat) (bs : List Byte) :
    (m.put lp d b bs).beyondTiers = m.beyondTiers := by
  cases lp <;> rfl

theorem MemState.put_errors (m : MemState) (lp : Bool) (d : DieId) (b : Nat) (bs : List Byte) (k : Nat) :
    (m.memDouble.getD k false = false → (m.put lp d b bs).memDouble.getD k false = false) ∧
      (m.tagBad.getD k false = false → (m.put lp d b bs).tagBad.getD k false = false) := by
  cases lp
  · exact getD_clearBlocks { m with hbm := m.hbm.writeBytes (extKey d b) bs } _ _ _ k
  · exact getD_clearBlocks { m with lpddr := m.lpddr.writeBytes (extKey d b) bs } _ _ _ k

theorem appliedTo_applyPress {s : State} (hrace : s.NoRace) {x : PressBlock} (hlen : (s.pressedData x).length = 256)
    (hkey : s.keyingOf (frameOf x.lpddr x.die (x.dataBlock / 252)) = none) : AppliedTo x s (s.applyPress x) := by
  obtain ⟨a, ha⟩ := s.applyPress_eq x
  have hmet := countsOnly_heldMet s x
  have hkey' : (s.heldMet x).keyingOf (frameOf x.lpddr x.die (x.dataBlock / 252)) = none := by
    unfold State.keyingOf at hkey ⊢
    rwa [hmet.rind]
  rw [State.putPress_eq (hmet.noRace hrace) hlen hkey'] at ha
  have hcounts := countsOnly_pressCounts
    { s.heldMet x with mem := (s.heldMet x).mem.putPress x (s.pressedData x) (s.pressedCount x) } x a
  rw [← ha] at hcounts
  have hread : ∀ k, ((s.applyPress x).bytesOf (some x.lpddr)).read k =
      if countKeys x.die x.dataBlock k then (leBytes 4 (s.pressedCount x)).getD (k - extKey x.die (pressCountAt x.dataBlock)) 0
      else if dataKeys x.die x.dataBlock k then (s.pressedData x).getD (k - extKey x.die (pressBlockAt x.dataBlock * 256)) 0
      else (s.bytesOf (some x.lpddr)).read k := fun k => by
    rw [hcounts.bytesOf]
    refine (State.read_put_mem
      { s.heldMet x with mem := (s.heldMet x).mem.put x.lpddr x.die (pressBlockAt x.dataBlock * 256) (s.pressedData x) }
      x.lpddr x.die _ _ k).trans ?_
    rw [State.read_put_mem (s.heldMet x), hmet.bytesOf, hlen, length_leBytes]
  have herr := fun k => (s.heldMet x).mem.put_errors x.lpddr x.die (pressBlockAt x.dataBlock * 256) (s.pressedData x) k
  have herr' := fun k => ((s.heldMet x).mem.put x.lpddr x.die (pressBlockAt x.dataBlock * 256) (s.pressedData x)).put_errors
    x.lpddr x.die (pressCountAt x.dataBlock) (leBytes 4 (s.pressedCount x)) k
  have hdouble : (s.heldMet x).mem.memDouble = s.mem.memDouble := (congrArg MemState.memDouble hmet.mem :)
  have htag : (s.heldMet x).mem.tagBad = s.mem.tagBad := (congrArg MemState.tagBad hmet.mem :)
  have hdouble' := (congrArg MemState.memDouble hcounts.mem :)
  have htag' := (congrArg MemState.tagBad hcounts.mem :)
  refine ⟨hcounts.rest.trans hmet.rest, hcounts.fab.trans hmet.fab, fun e => (hcounts.front e).trans (hmet.front e), ?_,
    fun k hk => ?_, fun k hk => ?_, fun k h1 h2 => ?_, fun k hk => ?_, fun k hk => ?_⟩
  · refine (congrArg MemState.beyondTiers hcounts.mem :).trans ((MemState.put_beyondTiers _ _ _ _ _).trans ((MemState.put_beyondTiers _ _ _ _ _).trans ?_))
    exact (congrArg MemState.beyondTiers hmet.mem :)
  · rw [hread, if_neg ((keys_apart x.die).1 hk), if_pos hk]
  · rw [hread, if_pos hk]
  · rw [hread, if_neg h2, if_neg h1]
  · rw [← hdouble] at hk
    exact hdouble' ▸ (herr' k).1 ((herr k).1 hk)
  · rw [← htag] at hk
    exact htag' ▸ (herr' k).2 ((herr k).2 hk)

end Sys2Proof.Machine
end

section
/-! SUPPORT. The queues of the Press units emptied: every block of an operation is applied once, and with the last one the operation
completes (R199, R373, R394, R395, R405). -/

namespace Sys2Proof.Machine

open Sys2Proof

/-! ### Blocks that have been dealt with -/

/-- A block that a Press unit can apply: it comes from operation id of die d, of the epoch in force; its page is not being keyed
and what it reads holds no fault. -/
structure PressBlock.Sound (b : State) (lp : Bool) (y d : DieId) (id : Nat) (x : PressBlock) : Prop where
  tier : x.lpddr = lp
  die : x.die = y
  epoch : x.epoch = b.ten.epoch
  owner : x.op' = some (d, id)
  answer : x.answer = none
  keying : b.keyingOf (frameOf lp y (x.dataBlock / 252)) = none
  held : x.op ≠ .clear → b.blockTrip lp y (pressBlockAt x.dataBlock) = none
  counted : b.blockTrip lp y (pressCountAt x.dataBlock / 256) = none
  data : (b.pressedData x).length = 256

/-- Some blocks have been applied to a tier as it was before. -/
structure Pressed (b : State) (lp : Bool) (y : DieId) (dn : List PressBlock) (t : State) : Prop where
  rest : t.pressRest = b.pressRest
  beyond : t.mem.beyondTiers = b.mem.beyondTiers
  outside : ∀ k, (∀ x ∈ dn, ¬ dataKeys y x.dataBlock k ∧ ¬ countKeys y x.dataBlock k) →
    (t.bytesOf (some lp)).read k = (b.bytesOf (some lp)).read k
  done : ∀ x ∈ dn, t.extRead lp y (pressBlockAt x.dataBlock * 256) 256 = b.pressedData x ∧
    t.extRead lp y (pressCountAt x.dataBlock) 4 = leBytes 4 (b.pressedCount x)
  double : ∀ k, b.mem.memDouble.getD k false = false → t.mem.memDouble.getD k false = false
  tags : ∀ k, b.mem.tagBad.getD k false = false → t.mem.tagBad.getD k false = false

/-- Bytes of a tier byte by byte. -/
theorem State.extRead_eq_of_read {s : State} {lp : Bool} {y : DieId} {a : Nat} {bs : List Byte}
    (h : ∀ k, extKey y a ≤ k → k < extKey y a + bs.length → (s.bytesOf (some lp)).read k = bs.getD (k - extKey y a) 0) :
    s.extRead lp y a bs.length = bs := by
  show (s.tier lp).readBytes (extKey y a) bs.length = bs
  refine List.ext_getElem (by simp) fun i h1 h2 => ?_
  rw [Memory.getElem_readBytes]
  refine (h (extKey y a + i) (by omega) (by omega)).trans ?_
  rw [Nat.add_sub_cancel_left, List.getD_eq_getElem _ _ h2]

theorem State.extRead_congr {s t : State} {lp : Bool} {y : DieId} {a n : Nat}
    (h : ∀ k, extKey y a ≤ k → k < extKey y a + n → (t.bytesOf (some lp)).read k = (s.bytesOf (some lp)).read k) :
    t.extRead lp y a n = s.extRead lp y a n := by
  show (t.tier lp).readBytes (extKey y a) n = (s.tier lp).readBytes (extKey y a) n
  refine List.ext_getElem (by simp) fun i h1 _ => ?_
  rw [Memory.length_readBytes] at h1
  rw [Memory.getElem_readBytes, Memory.getElem_readBytes]
  exact h _ (by omega) (by omega)

section
variable {b t u : State} {lp : Bool} {y d : DieId} {id : Nat} {dn : List PressBlock} {x : PressBlock}

/-- A block that has not been dealt with is found as it was. -/
theorem Pressed.unread (h : Pressed b lp y dn t) (hx : x.Sound b lp y d id) (hnew : ∀ z ∈ dn, z.dataBlock ≠ x.dataBlock) :
    t.pressedData x = b.pressedData x ∧ t.pressedCount x = b.pressedCount x := by
  have hjob : t.job = b.job := congrArg PressRest.job h.rest
  have haudit : t.audit = b.audit := by unfold State.audit; rw [hjob]
  have hdata : t.extRead lp y (pressBlockAt x.dataBlock * 256) 256 = b.extRead lp y (pressBlockAt x.dataBlock * 256) 256 :=
    State.extRead_congr fun k h1 h2 => h.outside k fun z hz =>
      ⟨(keys_apart y).2.1 (hnew z hz).symm ⟨h1, h2⟩, (keys_apart y).1 ⟨h1, h2⟩⟩
  have hcount : t.extRead lp y (pressCountAt x.dataBlock) 4 = b.extRead lp y (pressCountAt x.dataBlock) 4 :=
    State.extRead_congr fun k h1 h2 => h.outside k fun z hz =>
      ⟨fun hk => (keys_apart y).1 hk ⟨h1, h2⟩, (keys_apart y).2.2 (hnew z hz).symm ⟨h1, h2⟩⟩
  unfold State.pressedData State.pressedCount
  rw [hx.tier, hx.die, haudit, hdata, hcount]
  exact ⟨rfl, rfl⟩

/-- A block of a page that is not being keyed fails by an error, a missing key or a tag. -/
theorem State.blockTrip_none_iff {s : State} {lp : Bool} {d : DieId} {n : Nat}
    (hkey : s.keyingOf (frameOf lp d (n / 256)) = none) : s.blockTrip lp d n = none ↔
      s.mem.memDouble.getD (frameOf lp d (n / 256) * 256 + n % 256) false = false ∧
      s.hasKey (attrSlot (s.attr (frameOf lp d (n / 256)))) (attrGen (s.attr (frameOf lp d (n / 256)))) = true ∧
      s.mem.tagBad.getD (frameOf lp d (n / 256) * 256 + n % 256) false = false := by
  unfold State.blockTrip State.blockFail
  dsimp only
  rw [hkey]
  dsimp only
  cases s.mem.memDouble.getD (frameOf lp d (n / 256) * 256 + n % 256) false <;>
    cases s.hasKey (attrSlot (s.attr (frameOf lp d (n / 256)))) (attrGen (s.attr (frameOf lp d (n / 256)))) <;>
      cases s.mem.tagBad.getD (frameOf lp d (n / 256) * 256 + n % 256) false <;> simp

/-- Applications make no fault. -/
theorem Pressed.blockTrip (h : Pressed b lp y dn t) {n : Nat} (hkey : b.keyingOf (frameOf lp y (n / 256)) = none)
    (hn : b.blockTrip lp y n = none) : t.blockTrip lp y n = none := by
  have hrind : t.rind = b.rind := congrArg PressRest.rind h.rest
  obtain ⟨h1, h2, h3⟩ := (State.blockTrip_none_iff hkey).1 hn
  refine (State.blockTrip_none_iff (by unfold State.keyingOf at hkey ⊢; rwa [hrind])).2 ⟨h.double _ h1, ?_, h.tags _ h3⟩
  unfold State.hasKey State.keySlot State.attr at h2 ⊢
  rwa [hrind]

theorem Pressed.heldTrip (h : Pressed b lp y dn t) (hx : x.Sound b lp y d id) : t.heldTrip x = none := by
  obtain ⟨-, hblock⟩ := pressBlockAt_page x.dataBlock
  obtain ⟨-, hcount, -⟩ := pressCountAt_page x.dataBlock
  have hlast : t.blockTrip lp y (pressCountAt x.dataBlock / 256) = none :=
    h.blockTrip (by rw [hcount]; exact hx.keying) hx.counted
  unfold State.heldTrip
  rw [hx.tier, hx.die, hlast]
  by_cases hc : x.op = .clear
  · rw [if_pos hc]
  · rw [if_neg hc, h.blockTrip (by rw [hblock]; exact hx.keying) (hx.held hc)]

/-- A step that leaves the memories alone applies nothing. -/
theorem Pressed.congr (h : Pressed b lp y dn t) (hrest : u.pressRest = t.pressRest) (hmem : u.mem = t.mem) :
    Pressed b lp y dn u := by
  have hbytes : u.bytesOf (some lp) = t.bytesOf (some lp) := State.bytesOf_of_mem hmem (some lp)
  refine ⟨hrest.trans h.rest, by rw [hmem]; exact h.beyond, fun k hk => by rw [hbytes]; exact h.outside k hk, fun x hx => ?_,
    fun k hk => by rw [hmem]; exact h.double k hk, fun k hk => by rw [hmem]; exact h.tags k hk⟩
  obtain ⟨h1, h2⟩ := h.done x hx
  refine ⟨Eq.trans ?_ h1, Eq.trans ?_ h2⟩
  · exact State.extRead_congr fun k _ _ => by rw [hbytes]
  · exact State.extRead_congr fun k _ _ => by rw [hbytes]

/-- One more block applied. -/
theorem Pressed.applied (h : Pressed b lp y dn t) (hx : x.Sound b lp y d id) (hnew : ∀ z ∈ dn, z.dataBlock ≠ x.dataBlock)
    (hu : AppliedTo x t u) : Pressed b lp y (x :: dn) u := by
  obtain ⟨hdata, hcount⟩ := h.unread hx hnew
  obtain ⟨hrest, -, -, hbeyond, hud, huc, hout, hdouble, htags⟩ := hu
  rw [hx.tier, hx.die] at hud huc hout
  rw [hdata] at hud
  rw [hcount] at huc
  refine ⟨hrest.trans h.rest, hbeyond.trans h.beyond, fun k hk => ?_, fun z hz => ?_, fun k hk => hdouble k (h.double k hk),
    fun k hk => htags k (h.tags k hk)⟩
  · obtain ⟨h1, h2⟩ := hk x List.mem_cons_self
    exact (hout k h1 h2).trans (h.outside k fun z hz => hk z (List.mem_cons_of_mem _ hz))
  · rcases List.mem_cons.1 hz with rfl | hz
    · refine ⟨?_, ?_⟩
      · have := State.extRead_eq_of_read (s := u) (lp := lp) (y := y) (a := pressBlockAt z.dataBlock * 256)
          (bs := b.pressedData z) fun k h1 h2 => hud k ⟨h1, hx.data ▸ h2⟩
        rwa [hx.data] at this
      · have := State.extRead_eq_of_read (s := u) (lp := lp) (y := y) (a := pressCountAt z.dataBlock)
          (bs := leBytes 4 (b.pressedCount z)) fun k h1 h2 => huc k ⟨h1, length_leBytes 4 _ ▸ h2⟩
        rwa [length_leBytes] at this
    · obtain ⟨h1, h2⟩ := h.done z hz
      refine ⟨Eq.trans (State.extRead_congr fun k h3 h4 => hout k ?_ ?_) h1,
        Eq.trans (State.extRead_congr fun k h3 h4 => hout k ?_ ?_) h2⟩
      · exact (keys_apart y).2.1 (hnew z hz) ⟨h3, h4⟩
      · exact (keys_apart y).1 ⟨h3, h4⟩
      · exact fun hk => (keys_apart y).1 hk ⟨h3, h4⟩
      · exact (keys_apart y).2.2 (hnew z hz) ⟨h3, h4⟩

end

end Sys2Proof.Machine
end

section
/-! SUPPORT. The answers that a Press operation awaits: each block dealt with is one, and with the last the operation completes
(R149, R195, R373, R394). -/

namespace Sys2Proof.Machine

open Sys2Proof

/-! ### What completion leaves alone -/

theorem State.addTally_links (s : State) (y : DieId) (t k : Nat) :
    (s.addTally y t k).host = s.host ∧ (s.addTally y t k).fab.pressQueues = s.fab.pressQueues := ⟨rfl, rfl⟩

theorem State.dropRunning_links (s : State) (d : DieId) (id : Nat) :
    (s.dropRunning d id).host = s.host ∧ (s.dropRunning d id).fab.pressQueues = s.fab.pressQueues := by
  unfold State.dropRunning
  dsimp only
  split
  · exact ⟨rfl, rfl⟩
  · exact ⟨rfl, rfl⟩

theorem State.ownSignal_links (s : State) (d : DieId) (e : QEntry) :
    (s.ownSignal d e).host = s.host ∧ (s.ownSignal d e).fab.pressQueues = s.fab.pressQueues := by
  unfold State.ownSignal
  split
  · exact s.addTally_links _ _ _
  · exact ⟨rfl, rfl⟩

theorem State.nearSignal_links (s : State) (d : DieId) (o : Op) :
    (s.nearSignal d o).host = s.host ∧ (s.nearSignal d o).fab.pressQueues = s.fab.pressQueues := by
  unfold State.nearSignal
  split
  · exact s.addTally_links _ _ _
  · exact ⟨rfl, rfl⟩

/-- A completion leaves the host and the queues of the Press units alone. -/
theorem State.settle_links (s : State) (d : DieId) (id : Nat) :
    (s.settle d id).host = s.host ∧ (s.settle d id).fab.pressQueues = s.fab.pressQueues := by
  unfold State.settle
  split
  · next r _ =>
    obtain ⟨hh, hq⟩ := s.dropRunning_links d r.id
    split
    · split
      · obtain ⟨hh', hq'⟩ := (s.dropRunning d r.id).ownSignal_links d r.entry
        exact ⟨hh'.trans hh, hq'.trans hq⟩
      · obtain ⟨hh', hq'⟩ := (s.dropRunning d r.id).nearSignal_links d r.entry.op
        obtain ⟨hh'', hq''⟩ := ((s.dropRunning d r.id).nearSignal d r.entry.op).ownSignal_links d r.entry
        exact ⟨hh''.trans (hh'.trans hh), hq''.trans (hq'.trans hq)⟩
    · exact ⟨rfl, rfl⟩
  · exact ⟨rfl, rfl⟩

/-- So it leaves alone what a Press operation does. -/
theorem State.settle_pressRest (s : State) (d : DieId) (id : Nat) : (s.settle d id).pressRest = s.pressRest := by
  obtain ⟨hf, -, hc⟩ := s.settle_keeps d d id
  obtain ⟨hh, -⟩ := s.settle_links d id
  unfold State.pressRest
  rw [hc, hh, show (s.settle d id).rind = s.rind from congrArg ArrayFrame.rind hf,
    show (s.settle d id).beat = s.beat from congrArg ArrayFrame.beat hf,
    show (s.settle d id).job = s.job from congrArg ArrayFrame.job hf,
    show (s.settle d id).adm = s.adm from congrArg ArrayFrame.adm hf,
    show (s.settle d id).kv = s.kv from congrArg ArrayFrame.kv hf,
    show (s.settle d id).ten = s.ten from congrArg ArrayFrame.ten hf,
    show (s.settle d id).param P.deviceId = s.param P.deviceId from congrArg ArrayFrame.deviceId hf]

/-! ### An operation that owes answers -/

/-- The record r of an operation of die d that starts in state b: not hollow, with no signal of its own, and with a destination signal
to die y if any. -/
structure Begins (b : State) (d : DieId) (r : Running) (sg : Option (BitVec 13)) (y : DieId) : Prop where
  fresh : OpsFresh b
  number : r.id = b.fab.nextOp
  whole : r.entry.issue.hollow = false
  silent : r.entry.sig = none
  signal : b.opSignal d r.entry.op = sg.map (fun g => (g, .here y))

/-- The operation awaits j answers; when it awaits none it has completed, and its destination signal has been applied. -/
structure Owes (b : State) (d : DieId) (r : Running) (sg : Option (BitVec 13)) (y : DieId) (j : Nat) (t : State) : Prop where
  own : (t.front d).running = (b.front d).running ++ if j = 0 then [] else [{ r with awaiting := j }]
  others : ∀ e, e ≠ d → (t.front e).running = (b.front e).running
  tally : ∀ e n, t.tally e n = b.tally e n + if j = 0 then signalGain sg y e n else 0
  links : j ≠ 0 → t.fab.writes = b.fab.writes ∧ t.fab.lastMsgs = b.fab.lastMsgs

section
variable {b t : State} {d : DieId} {r : Running} {sg : Option (BitVec 13)} {y : DieId} {j : Nat}

theorem Begins.others_older (h : Begins b d r sg y) : ∀ x ∈ (b.front d).running, x.id ≠ r.id := fun x hx =>
  h.number ▸ (h.fresh.1 d x hx).ne

/-- It has not written external memory itself. -/
theorem Begins.noRace (h : Begins b d r sg y) (hopen : NoOpenWrites b) (hwrites : t.fab.writes = b.fab.writes)
    (hown : ∀ x ∈ (t.front d).running, x ∈ (b.front d).running ∨ x.id = r.id)
    (hothers : ∀ e, e ≠ d → (t.front e).running = (b.front e).running) : t.NoRace := by
  obtain ⟨-, -, -, -, -, hfresh⟩ := h.fresh
  refine noRace_of_noOpenWrites fun w hw x hx => ?_
  rw [hwrites] at hw
  by_cases hd : w.owner.1 = d
  · rw [hd] at hx
    rcases hown x hx with hx | hx
    · exact hopen w hw x (hd ▸ hx)
    · rw [hx, h.number]
      exact (hfresh w hw).ne'
  · rw [hothers _ hd] at hx
    exact hopen w hw x hx

theorem Owes.noRace (ho : Owes b d r sg y j t) (h : Begins b d r sg y) (hopen : NoOpenWrites b) (hj : j ≠ 0) : t.NoRace := by
  refine h.noRace hopen (ho.links hj).1 (fun x hx => ?_) ho.others
  rw [ho.own, if_neg hj] at hx
  exact (List.mem_append.1 hx).elim .inl fun hx => .inr (congrArg Running.id (List.mem_singleton.1 hx) :)

/-- One answer more, before the operation is looked at for completion. -/
theorem Owes.counted (ho : Owes b d r sg y (j + 1) t) (h : Begins b d r sg y) :
    ((t.modRunning d r.id (fun x => { x with awaiting := x.awaiting - 1 })).front d).running =
        (b.front d).running ++ [{ r with awaiting := j }] ∧
      (∀ e, e ≠ d → (t.modRunning d r.id (fun x => { x with awaiting := x.awaiting - 1 })).front e = t.front e) ∧
      ∀ e n, (t.modRunning d r.id (fun x => { x with awaiting := x.awaiting - 1 })).tally e n = b.tally e n := by
  have hother : ∀ e, e ≠ d → (t.modRunning d r.id (fun x => { x with awaiting := x.awaiting - 1 })).front e = t.front e :=
    fun e he => State.front_modFront_ne _ _ _ _ he
  refine ⟨?_, hother, fun e n => ?_⟩
  · unfold State.modRunning
    rw [State.front_modFront_self]
    dsimp only
    rw [ho.own, if_neg (Nat.succ_ne_zero j), List.map_append, List.map_congr_left (fun x hx => if_neg (h.others_older x hx)),
      List.map_id', List.map_singleton, if_pos rfl]
    rfl
  · have ht := ho.tally e n
    rw [if_neg (Nat.succ_ne_zero j)] at ht
    refine Eq.trans ?_ (ht.trans (BitVec.add_zero _))
    unfold State.tally
    by_cases he : e = d
    · subst he
      exact (congrArg (fun f : FrontEnd => f.tallies.getD n 0) (State.front_modFront_self t e _) :)
    · rw [hother e he]

theorem Owes.answered (ho : Owes b d r sg y (j + 1) t) (h : Begins b d r sg y) (hrest : t.pressRest = b.pressRest) :
    Owes b d r sg y j (t.answered d r.id) ∧ (t.answered d r.id).pressRest = t.pressRest ∧
      (t.answered d r.id).mem = t.mem ∧ (t.answered d r.id).fab.pressQueues = t.fab.pressQueues := by
  obtain ⟨-, hsnoops, -, -, hlast, -⟩ := h.fresh
  obtain ⟨hown, hother, htally⟩ := ho.counted h
  obtain ⟨hwrites, hmsgs⟩ := ho.links (Nat.succ_ne_zero j)
  obtain ⟨-, hmem, -⟩ := (t.modRunning d r.id (fun x => { x with awaiting := x.awaiting - 1 })).settle_keeps d d r.id
  have hrel : t.answered d r.id = (t.modRunning d r.id (fun x => { x with awaiting := x.awaiting - 1 })).settle d r.id := by
    unfold State.answered State.releaseLast
    rw [List.find?_eq_none.2 fun p hp => ?_]
    have hp' : p ∈ b.fab.lastMsgs := hmsgs ▸ hp
    have hne := (hlast p hp').ne
    rw [← h.number] at hne
    simp [hne]
  have hkeep : (t.answered d r.id).pressRest = t.pressRest := by
    rw [hrel]
    exact State.settle_pressRest _ _ _
  have hqueues : (t.answered d r.id).fab.pressQueues = t.fab.pressQueues := by
    rw [hrel]
    exact (State.settle_links _ _ _).2
  refine ⟨?_, hkeep, by rw [hrel]; exact hmem, hqueues⟩
  rw [hrel]
  generalize hu : t.modRunning d r.id (fun x => { x with awaiting := x.awaiting - 1 }) = u at hown hother htally
  by_cases hj : j = 0
  · subst hj
    have hsn : u.host.snoops = b.host.snoops := by
      rw [← hu]
      exact congrArg PressRest.snoops hrest
    have hdev : u.param P.deviceId = b.param P.deviceId := by
      rw [← hu]
      exact congrArg PressRest.device hrest
    obtain ⟨hrun, hrun', hgain⟩ := State.settle_finish hown rfl h.others_older rfl
      (fun x hx ho => (hsnoops x (hsn ▸ hx) d _ ho).ne h.number) h.whole h.silent
      ((State.opSignal_of_deviceId hdev d r.entry.op).trans h.signal)
    refine ⟨hrun.trans (List.append_nil _).symm, fun e he => (hrun' e he).trans ?_, fun e n => ?_, fun h0 => absurd rfl h0⟩
    · rw [hother e he, ho.others e he]
    · rw [hgain, htally, if_pos rfl]
  · have hstay : u.settle d r.id = u :=
      State.settle_awaiting (r := { r with awaiting := j }) hown h.others_older (Nat.pos_of_ne_zero hj)
    rw [hstay]
    refine ⟨by rw [hown, if_neg hj], fun e he => by rw [hother e he, ho.others e he], fun e n => ?_, fun _ => ?_⟩
    · rw [htally, if_neg hj]
      exact (BitVec.add_zero _).symm
    · rw [← hu]
      exact ⟨hwrites, hmsgs⟩

/-- A step that only counts owes as much as before. -/
theorem Owes.congr {u : State} (ho : Owes b d r sg y j t) (hfab : u.fab.writes = t.fab.writes ∧ u.fab.lastMsgs = t.fab.lastMsgs)
    (hfront : ∀ e, (u.front e).uncounted = (t.front e).uncounted) : Owes b d r sg y j u := by
  have hrun : ∀ e, (u.front e).running = (t.front e).running := fun e => (congrArg FrontEnd.running (hfront e) :)
  have htally : ∀ e n, u.tally e n = t.tally e n := fun e n => (congrArg (fun f : FrontEnd => f.tallies.getD n 0) (hfront e) :)
  refine ⟨(hrun d).trans ho.own, fun e he => (hrun e).trans (ho.others e he), fun e n => (htally e n).trans (ho.tally e n),
    fun hj => ?_⟩
  obtain ⟨h1, h2⟩ := ho.links hj
  exact ⟨hfab.1.trans h1, hfab.2.trans h2⟩

end

end Sys2Proof.Machine
end

section
/-! SUPPORT. The queues of the Press units emptied: every block of an operation is applied once, and with the last one the operation
completes (R199, R394, R395, R405). -/

namespace Sys2Proof.Machine

open Sys2Proof

/-! ### A map without entries -/

/-- A canonical map in which every key reads as the default is empty. -/
theorem AMap.eq_nil_of_getD {α : Type} [DecidableEq α] {d : α} {m : AMap α} (hwf : AMap.wf d m = true)
    (h : ∀ k, m.getD k d = d) : m = [] := by
  cases m with
  | nil => rfl
  | cons p m =>
    obtain ⟨k, v⟩ := p
    have hv : v = d := by simpa [AMap.getD, AMap.find?] using h k
    simp [AMap.wf, hv] at hwf

/-! ### Blocks applied and blocks waiting -/

/-- The Press operation r of die d in progress on tier lp of die y: blocks dn have been applied, the blocks of `w` wait at the Press
units, and j answers are awaited. -/
structure Pressing (b : State) (lp : Bool) (y d : DieId) (r : Running) (sg : Option (BitVec 13)) (dn : List PressBlock)
    (w : Nat → List PressBlock) (j : Nat) (t : State) : Prop where
  applied : Pressed b lp y dn t
  owes : Owes b d r sg y j t
  queues : ∀ k, t.fab.pressQueues.getD k [] = w k
  canonical : AMap.wf [] t.fab.pressQueues = true

/-- Queues with one replaced. -/
def setQueue (w : Nat → List PressBlock) (key : Nat) (q : List PressBlock) : Nat → List PressBlock :=
  fun k => if k = key then q else w k

theorem setQueue_same (w : Nat → List PressBlock) (key : Nat) (q : List PressBlock) : setQueue w key q key = q := if_pos rfl

theorem setQueue_ne (w : Nat → List PressBlock) (q : List PressBlock) {key k : Nat} (h : k ≠ key) : setQueue w key q k = w k :=
  if_neg h

theorem setQueue_setQueue (w : Nat → List PressBlock) (key : Nat) (q q' : List PressBlock) :
    setQueue (setQueue w key q) key q' = setQueue w key q' := by
  funext k
  unfold setQueue
  split
  · rfl
  · rfl

theorem setQueue_self {w : Nat → List PressBlock} {key : Nat} {q : List PressBlock} (h : w key = q) : setQueue w key q = w := by
  funext k
  unfold setQueue
  split
  · next hk => rw [hk, h]
  · rfl

section
variable {b t : State} {lp : Bool} {y d : DieId} {r : Running} {sg : Option (BitVec 13)} {dn : List PressBlock}
  {w : Nat → List PressBlock} {j : Nat}

/-- The block at the front of a queue is applied, and its operation awaits one answer less. -/
theorem Pressing.front (ht : Pressing b lp y d r sg dn w (j + 1) t) (hb : Begins b d r sg y) (hopen : NoOpenWrites b) {key : Nat}
    {x : PressBlock} {q : List PressBlock} (hw : w key = x :: q) (hx : x.Sound b lp y d r.id)
    (hnew : ∀ z ∈ dn, z.dataBlock ≠ x.dataBlock) :
    Pressing b lp y d r sg (x :: dn) (setQueue w key q) j (t.pressFront key) := by
  obtain ⟨happ, howes, hqueues, hwf⟩ := ht
  generalize hs : ({ t with fab := { t.fab with pressQueues := AMap.set [] t.fab.pressQueues key q } } : State) = s
  have happ' : Pressed b lp y dn s := hs ▸ happ.congr rfl rfl
  have howes' : Owes b d r sg y (j + 1) s := hs ▸ howes.congr ⟨rfl, rfl⟩ fun _ => rfl
  have hrind : s.rind = b.rind := congrArg PressRest.rind happ'.rest
  have hkey : s.keyingOf (frameOf x.lpddr x.die (x.dataBlock / 252)) = none := by
    have := hx.keying
    unfold State.keyingOf at this ⊢
    rwa [hrind, hx.tier, hx.die]
  have hlen : (s.pressedData x).length = 256 := by rw [(happ'.unread hx hnew).1, hx.data]
  have hto := appliedTo_applyPress (howes'.noRace hb hopen (Nat.succ_ne_zero j)) hlen hkey
  have hnext := happ'.applied hx hnew hto
  have hanswer := (howes'.congr (u := s.applyPress x) (by rw [hto.fab]; exact ⟨rfl, rfl⟩) hto.front).answered hb hnext.rest
  have hfront : t.pressFront key = (s.applyPress x).answered d r.id := by
    have hepoch : ¬ x.epoch ≠ t.ten.epoch := fun h => h (hx.epoch.trans (congrArg (fun z : PressRest => z.ten.epoch) happ.rest).symm)
    unfold State.pressFront
    rw [hqueues key, hw]
    dsimp only
    rw [if_neg hepoch, hs, happ'.heldTrip hx]
    dsimp only
    unfold State.pressDone
    rw [hx.owner, hx.answer]
  rw [hfront]
  obtain ⟨ho, hrest, hmem, hq⟩ := hanswer
  have hq' : ((s.applyPress x).answered d r.id).fab.pressQueues = AMap.set [] t.fab.pressQueues key q := by
    rw [hq, hto.fab, ← hs]
  refine ⟨hnext.congr hrest hmem, ho, fun k => ?_, ?_⟩
  · rw [hq']
    by_cases hk : k = key
    · subst hk
      rw [AMap.getD_set_self, setQueue_same]
    · rw [AMap.getD_set_ne _ _ _ _ hk, hqueues, setQueue_ne _ _ hk]
  · rw [hq']
    exact AMap.wf_set _ _ _ _ hwf

/-- A whole queue is dealt with. -/
theorem Pressing.many (hb : Begins b d r sg y) (hopen : NoOpenWrites b) (key : Nat) (q : List PressBlock) :
    ∀ dn w t, Pressing b lp y d r sg dn w (q.length + j) t → w key = q → (∀ x ∈ q, x.Sound b lp y d r.id) →
      (q ++ dn).Pairwise (fun x z => z.dataBlock ≠ x.dataBlock) →
      Pressing b lp y d r sg (q.reverse ++ dn) (setQueue w key []) j (t.pressMany key q.length) := by
  induction q with
  | nil =>
    intro dn w t ht hw _ _
    rw [setQueue_self hw]
    rwa [List.length_nil, Nat.zero_add] at ht
  | cons x q ih =>
    intro dn w t ht hw hsound hnew
    obtain ⟨hx, hrest⟩ := List.pairwise_cons.1 hnew
    rw [List.length_cons, Nat.succ_add] at ht
    have hfirst := ht.front hb hopen hw (hsound x List.mem_cons_self) fun z hz => hx z (List.mem_append_right _ hz)
    have hpairs : (q ++ x :: dn).Pairwise (fun x z => z.dataBlock ≠ x.dataBlock) :=
      (List.pairwise_middle fun h => h.symm).2 hnew
    have := ih (x :: dn) (setQueue w key q) _ hfirst (setQueue_same _ _ _) (fun z hz => hsound z (List.mem_cons_of_mem _ hz)) hpairs
    rw [setQueue_setQueue] at this
    rw [List.reverse_cons, List.append_assoc]
    exact this

/-- Some queues are dealt with one after another. -/
theorem Pressing.units (hb : Begins b d r sg y) (hopen : NoOpenWrites b) (w : Nat → List PressBlock) (ks : List Nat)
    (hks : ks.Nodup) : ∀ dn v t, Pressing b lp y d r sg dn v ((ks.flatMap w).length + j) t → (∀ k ∈ ks, v k = w k) →
      (∀ x ∈ ks.flatMap w, x.Sound b lp y d r.id) →
      (ks.flatMap w ++ dn).Pairwise (fun x z => z.dataBlock ≠ x.dataBlock) →
      Pressing b lp y d r sg ((ks.flatMap w).reverse ++ dn) (fun k => if k ∈ ks then [] else v k) j
        (ks.foldl (fun (t : State) k => t.pressMany k (t.fab.pressQueues.getD k []).length) t) := by
  induction ks with
  | nil =>
    intro dn v t ht _ _ _
    simpa using ht
  | cons k ks ih =>
    intro dn v t ht hv hsound hnew
    obtain ⟨hk, hnd⟩ := List.nodup_cons.1 hks
    rw [List.flatMap_cons] at ht hsound hnew ⊢
    rw [List.length_append, Nat.add_assoc] at ht
    have hvk := hv k List.mem_cons_self
    rw [List.append_assoc] at hnew
    have hperm : (ks.flatMap w ++ ((w k).reverse ++ dn)).Pairwise (fun x z => z.dataBlock ≠ x.dataBlock) := by
      refine List.Perm.pairwise ?_ hnew fun h => h.symm
      rw [← List.append_assoc, ← List.append_assoc]
      exact (List.perm_append_comm.trans ((List.reverse_perm _).symm.append_left _)).append_right _
    have hfirst := Pressing.many hb hopen k (w k) dn v t ht hvk (fun x hx => hsound x (List.mem_append_left _ hx))
      (hnew.sublist (List.Sublist.append_left (List.sublist_append_right _ _) _))
    have := ih hnd ((w k).reverse ++ dn) (setQueue v k []) _ hfirst
      (fun k' hk' => (setQueue_ne _ _ fun (h : k' = k) => hk (h ▸ hk')).trans (hv k' (List.mem_cons_of_mem _ hk')))
      (fun x hx => hsound x (List.mem_append_right _ hx)) hperm
    rw [List.foldl_cons, ht.queues, hvk, List.reverse_append, List.append_assoc]
    refine (congrArg (fun u => Pressing b lp y d r sg _ u j _) (funext fun k' => ?_)).mp this
    unfold setQueue
    by_cases h1 : k' = k
    · simp [h1]
    · simp [h1]

end

/-! ### All the Press units of the device -/

/-- Blocks sorted by the keys of their queues. -/
theorem perm_flatMap_filter {α : Type} (key : α → Nat) (l : List α) (n : Nat) :
    ((List.range n).flatMap (fun k => l.filter (fun x => key x == k))).Perm (l.filter (fun x => decide (key x < n))) := by
  induction n with
  | zero => simp
  | succ n ih =>
    rw [List.range_succ, List.flatMap_append, List.flatMap_cons, List.flatMap_nil, List.append_nil]
    refine (ih.append_right _).trans ?_
    have hsplit := List.filter_append_perm (fun x => decide (key x < n)) (l.filter (fun x => decide (key x < n + 1)))
    rw [List.filter_filter, List.filter_filter] at hsplit
    refine Eq.subst (motive := fun m : List α => m.Perm _) ?_ hsplit
    congr 1
    · refine List.filter_congr fun x _ => ?_
      rw [Bool.eq_iff_iff]
      simp only [Bool.and_eq_true, decide_eq_true_eq]
      omega
    · refine List.filter_congr fun x _ => ?_
      rw [Bool.eq_iff_iff]
      simp only [Bool.and_eq_true, decide_eq_true_eq, Bool.not_eq_true', decide_eq_false_iff_not, beq_iff_eq]
      omega

theorem pressKey_lt (y : DieId) (lp : Bool) (dB : Nat) : pressKey y lp dB < 40 := by
  have hy := y.isLt
  unfold pressKey controllerOf
  split <;> omega

/-- The queue in which a block waits. -/
def PressBlock.key (x : PressBlock) : Nat := pressKey x.die x.lpddr x.dataBlock

theorem PressBlock.key_lt (x : PressBlock) : x.key < 40 := pressKey_lt _ _ _

/-- Once every Press unit has dealt with what waits, the blocks sent have been applied and the operation has completed. -/
theorem Pressing.all {b t : State} {lp : Bool} {y d : DieId} {r : Running} {sg : Option (BitVec 13)} {bs : List PressBlock}
    (hb : Begins b d r sg y) (hopen : NoOpenWrites b)
    (ht : Pressing b lp y d r sg [] (fun k => bs.filter (fun x => x.key == k)) bs.length t)
    (hsound : ∀ x ∈ bs, x.Sound b lp y d r.id) (hnew : bs.Pairwise (fun x z => z.dataBlock ≠ x.dataBlock)) :
    ∃ dn, bs ⊆ dn ∧ Pressed b lp y dn t.pressAll ∧ Owes b d r sg y 0 t.pressAll ∧ t.pressAll.fab.pressQueues = [] := by
  have hperm : ((List.range 40).flatMap (fun k => bs.filter (fun x => x.key == k))).Perm bs := by
    refine (perm_flatMap_filter PressBlock.key bs 40).trans ?_
    rw [List.filter_eq_self.2 fun x _ => decide_eq_true x.key_lt]
  generalize hks : List.range 40 = ks at hperm
  have hnd : ks.Nodup := hks ▸ List.nodup_range
  have hall := Pressing.units (j := 0) hb hopen (fun k => bs.filter (fun x => x.key == k)) ks hnd [] _ t
    (by rw [hperm.length_eq]; exact ht) (fun _ _ => rfl) (fun x hx => hsound x (hperm.mem_iff.1 hx))
    (by rw [List.append_nil]; exact hperm.symm.pairwise hnew fun h => h.symm)
  have heq : t.pressAll = ks.foldl (fun (t : State) k => t.pressMany k (t.fab.pressQueues.getD k []).length) t := by
    unfold State.pressAll
    rw [hks]
  rw [heq]
  refine ⟨_, fun x hx => List.mem_append_left _ (List.mem_reverse.2 (hperm.mem_iff.2 hx)), hall.applied, hall.owes,
    AMap.eq_nil_of_getD hall.canonical fun k => (hall.queues k).trans ?_⟩
  by_cases hk : k ∈ ks
  · rw [if_pos hk]
  · rw [if_neg hk]
    refine List.filter_eq_nil_iff.2 fun x _ hx => hk ?_
    rw [← eq_of_beq hx, ← hks]
    exact List.mem_range.2 x.key_lt

end Sys2Proof.Machine
end

section
/-! SUPPORT. The sender of a Press operation: every pass reads its source, quantises it where the operation says so, and puts its data
blocks into the queues of the Press units (R199, R200, R394, R398 to R400, R405). -/

namespace Sys2Proof.Machine

open Sys2Proof

/-! ### The blocks of a pass -/

/-- The blocks that a pass of operation o puts into the queues of tier lp of die y for the operation r of die d. -/
def State.sentBlocks (b : State) (d : DieId) (r : Running) (o : PressOp) (n : Nat) (lp : Bool) (y : DieId) (p : PressPass) :
    List PressBlock :=
  pressBlocks y lp p.dB o r.epoch (some (d, r.id)) none (b.pressData d o n p.dB p.src p.aux).1

theorem length_pressData (b : State) (d : DieId) (o : PressOp) (n dB : Nat) (x a : Loc) :
    (b.pressData d o n dB x a).1.length = n * pressPer o := by
  unfold State.pressData pressPer
  by_cases hc : o = .clear
  · subst hc
    simp [pressIsQadd]
  · by_cases hq : pressIsQadd o = true
    · simp [hc, hq, Nat.mul_comm]
    · simp [hc, hq]

theorem length_pressBlocks (y : DieId) (lp : Bool) (dB : Nat) (o : PressOp) (epoch : W16) (op' : Option (DieId × Nat))
    (answer : Option Message) (data : List (List Byte)) : (pressBlocks y lp dB o epoch op' answer data).length = data.length := by
  simp [pressBlocks]

/-- Blocks of one pass stand at consecutive data blocks. -/
theorem dataBlocks_pressBlocks (y : DieId) (lp : Bool) (dB : Nat) (o : PressOp) (epoch : W16) (op' : Option (DieId × Nat))
    (answer : Option Message) (data : List (List Byte)) :
    (pressBlocks y lp dB o epoch op' answer data).map PressBlock.dataBlock = (List.range data.length).map (dB + ·) := by
  unfold pressBlocks
  rw [List.map_map]
  have h : data.zipIdx.map (PressBlock.dataBlock ∘ fun (p : List Byte × Nat) =>
      (⟨y, lp, dB + p.2, o, p.1, epoch, op', answer, p.2 + 1 == data.length⟩ : PressBlock)) =
        (data.zipIdx.map Prod.snd).map (dB + ·) := by
    rw [List.map_map]
    rfl
  rw [h, List.zipIdx_map_snd, ← List.range_eq_range']

/-- A block of a pass. -/
theorem mem_sentBlocks {b : State} {d : DieId} {r : Running} {o : PressOp} {n : Nat} {lp : Bool} {y : DieId} {p : PressPass}
    {x : PressBlock} : x ∈ b.sentBlocks d r o n lp y p ↔ ∃ k, k < n * pressPer o ∧
      x = ⟨y, lp, p.dB + k, o, (b.pressData d o n p.dB p.src p.aux).1.getD k [], r.epoch, some (d, r.id), none,
        k + 1 == n * pressPer o⟩ := by
  unfold State.sentBlocks pressBlocks
  rw [List.mem_map]
  have hlen := length_pressData b d o n p.dB p.src p.aux
  constructor
  · rintro ⟨⟨v, k⟩, hv, rfl⟩
    obtain ⟨hk, hv⟩ := List.mem_zipIdx' hv
    exact ⟨k, hlen ▸ hk, by rw [hlen, List.getD_eq_getElem _ _ hk, ← hv]⟩
  · rintro ⟨k, hk, rfl⟩
    rw [← hlen] at hk
    refine ⟨((b.pressData d o n p.dB p.src p.aux).1[k], k), List.mk_mem_zipIdx_iff_getElem?.2 (List.getElem?_eq_getElem hk), ?_⟩
    rw [hlen, List.getD_eq_getElem _ _ hk]

/-- No two blocks of passes that lie apart share a data block. -/
theorem pairwise_sentBlocks (b : State) (d : DieId) (r : Running) (o : PressOp) (n : Nat) (lp : Bool) (y : DieId)
    {ps : List PressPass} (h : ps.Pairwise (fun p q => p.dB + n * pressPer o ≤ q.dB ∨ q.dB + n * pressPer o ≤ p.dB)) :
    (ps.flatMap (b.sentBlocks d r o n lp y)).Pairwise (fun x z => z.dataBlock ≠ x.dataBlock) := by
  refine List.pairwise_flatMap.2 ⟨fun p _ => ?_, h.imp fun hpq x hx z hz => ?_⟩
  · have hnd : ((b.sentBlocks d r o n lp y p).map PressBlock.dataBlock).Nodup := by
      unfold State.sentBlocks
      rw [dataBlocks_pressBlocks]
      exact List.nodup_range.map fun i j hij => Nat.add_left_cancel hij
    exact (List.pairwise_map.1 hnd).imp fun hne => hne.symm
  · obtain ⟨k, hk, rfl⟩ := mem_sentBlocks.1 hx
    obtain ⟨j, hj, rfl⟩ := mem_sentBlocks.1 hz
    dsimp only
    omega

/-! ### Queues -/

/-- One block put into its queue. -/
def State.enqueueBlock (s : State) (x : PressBlock) : State :=
  { s with fab := { s.fab with pressQueues := AMap.set [] s.fab.pressQueues x.key (s.fab.pressQueues.getD x.key [] ++ [x]) } }

/-- Blocks put into the queues follow those that wait there. -/
theorem State.pressEnqueue_eq (bs : List PressBlock) : ∀ s : State,
    ∃ q, s.pressEnqueue bs = { s with fab := { s.fab with pressQueues := q } } ∧
      (∀ k, q.getD k [] = s.fab.pressQueues.getD k [] ++ bs.filter (fun x => x.key == k)) ∧
      (AMap.wf [] s.fab.pressQueues = true → AMap.wf [] q = true) := by
  induction bs with
  | nil => exact fun s => ⟨s.fab.pressQueues, rfl, fun k => (List.append_nil _).symm, id⟩
  | cons x bs ih =>
    intro s
    obtain ⟨q, hq, hget, hwf⟩ := ih (s.enqueueBlock x)
    refine ⟨q, hq, fun k => (hget k).trans ?_, fun h => hwf (AMap.wf_set _ _ _ _ h)⟩
    by_cases hk : k = x.key
    · subst hk
      simp [State.enqueueBlock]
    · unfold State.enqueueBlock
      dsimp only
      rw [AMap.getD_set_ne _ _ _ _ hk, List.filter_cons_of_neg (by simpa using Ne.symm hk)]

/-! ### What the sender reads -/

/-- Blocks at a place depend on the bytes alone where nothing races. -/
theorem State.raceLoc_congr {s t : State} (hs : s.NoRace) (ht : t.NoRace) (h : ∀ m, t.bytesOf m = s.bytesOf m) (n : Nat) (x : Loc) :
    t.raceLoc n x = s.raceLoc n x := by
  rw [State.raceLoc_of_unwritten fun lp e b _ j _ => hs lp e (b + j), State.raceLoc_of_unwritten fun lp e b _ j _ => ht lp e (b + j)]
  cases x with
  | sram d c a => exact congrArg (fun m : Memory => m.readBytes (sramKey d c a) (256 * n)) (h none)
  | ext lp d b => exact congrArg (fun m : Memory => m.readBytes (extKey d (b * 256)) (256 * n)) (h (some lp))
  | remote => rfl

theorem State.auxBytes_congr {s t : State} (hs : s.NoRace) (ht : t.NoRace) (h : ∀ m, t.bytesOf m = s.bytesOf m) (x : Loc) (n : Nat) :
    t.auxBytes x n = s.auxBytes x n := by
  cases x with
  | sram d c a => exact congrArg (fun m : Memory => m.readBytes (sramKey d c a) n) (h none)
  | ext lp d b => exact congrArg (List.take n) (State.raceLoc_congr hs ht h (ceilDiv n 256) (.ext lp d b))
  | remote => rfl

/-- What a pass sends depends on the bytes, the audit mode, the device and the seed of the draws. -/
theorem State.pressData_congr {s t : State} (hs : s.NoRace) (ht : t.NoRace) (h : ∀ m, t.bytesOf m = s.bytesOf m)
    (hrest : t.pressRest = s.pressRest) {d : DieId} (hseed : (t.front d).seed = (s.front d).seed)
    (hstep : (t.front d).trainStep = (s.front d).trainStep) (o : PressOp) (n dB : Nat) (x a : Loc) :
    t.pressData d o n dB x a = s.pressData d o n dB x a := by
  have hjob : t.job = s.job := congrArg PressRest.job hrest
  have hdev : t.param P.deviceId = s.param P.deviceId := congrArg PressRest.device hrest
  unfold State.pressData State.quantBlock State.quantDraw State.audit
  rw [State.auxBytes_congr hs ht h]
  simp only [State.raceLoc_congr hs ht h, hjob, hdev, hseed, hstep]

/-! ### Passes in order -/

/-- A front end whose operation awaits more answers. -/
def FrontEnd.awaitMore (f : FrontEnd) (id n : Nat) : FrontEnd :=
  { f with running := f.running.map (fun x => if x.id = id then { x with awaiting := x.awaiting + n } else x) }

/-- The Press operation r of die d, begun in state b, has put the blocks bs into the queues and awaits an answer for each. -/
structure Sending (b : State) (d : DieId) (r : Running) (bs : List PressBlock) (t : State) : Prop where
  rest : t.pressRest = b.pressRest
  mem : { t.mem with sramSingle := [] } = { b.mem with sramSingle := [] }
  front : ∀ e, (t.front e).uncounted = { (b.front e).uncounted with running := (t.front e).running }
  own : (t.front d).running = (b.front d).running ++ [{ r with awaiting := bs.length }]
  others : ∀ e, e ≠ d → (t.front e).running = (b.front e).running
  links : t.fab.writes = b.fab.writes ∧ t.fab.lastMsgs = b.fab.lastMsgs
  queues : ∀ k, t.fab.pressQueues.getD k [] = bs.filter (fun x => x.key == k)
  canonical : AMap.wf [] t.fab.pressQueues = true

section
variable {b t : State} {d : DieId} {r : Running} {bs : List PressBlock} {sg : Option (BitVec 13)} {y : DieId}

theorem Sending.noRace (h : Sending b d r bs t) (hb : Begins b d r sg y) (hopen : NoOpenWrites b) : t.NoRace := by
  refine hb.noRace hopen h.links.1 (fun x hx => ?_) h.others
  rw [h.own] at hx
  exact (List.mem_append.1 hx).elim .inl fun hx => .inr (congrArg Running.id (List.mem_singleton.1 hx) :)

theorem Sending.bytesOf (h : Sending b d r bs t) (m : Option Bool) : t.bytesOf m = b.bytesOf m := by
  have hsram : t.mem.sram = b.mem.sram := (congrArg MemState.sram h.mem :)
  have hhbm : t.mem.hbm = b.mem.hbm := (congrArg MemState.hbm h.mem :)
  have hlpddr : t.mem.lpddr = b.mem.lpddr := (congrArg MemState.lpddr h.mem :)
  unfold State.bytesOf State.tier
  rw [hsram, hhbm, hlpddr]

/-- A step that only counts sends nothing. -/
theorem Sending.counts {u : State} (h : Sending b d r bs t) (hu : CountsOnly t u) : Sending b d r bs u :=
  ⟨hu.rest.trans h.rest, hu.mem.trans h.mem, fun e => by rw [hu.front, hu.running, h.front], (hu.running d).trans h.own,
    fun e he => (hu.running e).trans (h.others e he), by rw [hu.fab]; exact h.links, by rw [hu.fab]; exact h.queues,
    by rw [hu.fab]; exact h.canonical⟩

/-- Blocks are put into the queues, with an answer awaited for each. -/
theorem Sending.enqueue (h : Sending b d r bs t) (hb : Begins b d r sg y) (l : List PressBlock) :
    Sending b d r (bs ++ l) ((t.awaitMore d r.id l.length).pressEnqueue l) := by
  obtain ⟨q, hq, hget, hwf⟩ := State.pressEnqueue_eq l (t.awaitMore d r.id l.length)
  have hself : (t.awaitMore d r.id l.length).front d = (t.front d).awaitMore r.id l.length := State.front_modFront_self _ _ _
  have hother : ∀ e, e ≠ d → (t.awaitMore d r.id l.length).front e = t.front e := fun e he => State.front_modFront_ne _ _ _ _ he
  rw [hq]
  refine ⟨h.rest, h.mem, fun e => ?_, ?_, fun e he => ?_, h.links, fun k => ?_, hwf h.canonical⟩
  · show ((t.awaitMore d r.id l.length).front e).uncounted =
      { (b.front e).uncounted with running := ((t.awaitMore d r.id l.length).front e).running }
    by_cases he : e = d
    · subst he
      rw [hself]
      exact (congrArg (fun f : FrontEnd => f.awaitMore r.id l.length) (h.front e) :)
    · rw [hother e he, h.front]
  · show ((t.awaitMore d r.id l.length).front d).running = _
    rw [hself]
    unfold FrontEnd.awaitMore
    dsimp only
    rw [h.own, List.map_append, List.map_congr_left (fun x hx => if_neg (hb.others_older x hx)), List.map_id', List.map_singleton,
      if_pos rfl, List.length_append]
  · exact (congrArg FrontEnd.running (hother e he)).trans (h.others e he)
  · rw [hget, List.filter_append]
    exact congrArg (· ++ _) (h.queues k)

/-- A pass sends its blocks. -/
theorem Sending.pass (h : Sending b d r bs t) (hb : Begins b d r sg y) (hopen : NoOpenWrites b) {f : PressF}
    (hy : b.spacePlace d f.dstSpace f.targetDie f.dev = .here y) (i : Issue) (o : PressOp) (n : Nat) (last : Bool) (p : PressPass) :
    Sending b d r (bs ++ b.sentBlocks d r o n (spaceLp f.dstSpace) y p) (t.pressPass d r.id i o f n last p) := by
  have hepoch : t.opEpoch d r.id = r.epoch := by
    unfold State.opEpoch State.running?
    rw [h.own, List.find?_append, List.find?_eq_none.2 (fun x hx => by simpa using hb.others_older x hx), Option.none_or]
    simp
  unfold State.pressPass
  dsimp only
  generalize ht1 : (if o = .clear then t else t.correctLoc n p.src) = t1
  have h1 : Sending b d r bs t1 := by
    rw [← ht1]
    split
    · exact h
    · exact h.counts (countsOnly_correctLoc t n p.src)
  generalize ht2 : (if pressIsQadd o = true then t1.auxMet p.aux (2 * n) else t1) = t2
  have h2 : Sending b d r bs t2 := by
    rw [← ht2]
    split
    · exact h1.counts (countsOnly_auxMet t1 p.aux (2 * n))
    · exact h1
  have hdata : t2.pressData d o n p.dB p.src p.aux = b.pressData d o n p.dB p.src p.aux :=
    State.pressData_congr (noRace_of_noOpenWrites hopen) (h2.noRace hb hopen) h2.bytesOf h2.rest
      (congrArg FrontEnd.seed (h2.front d) :) (congrArg FrontEnd.trainStep (h2.front d) :) o n p.dB p.src p.aux
  rw [hdata]
  have h3 := h2.counts (countsOnly_saturated t2 d i (b.pressData d o n p.dB p.src p.aux).2)
  generalize t2.saturated d i (b.pressData d o n p.dB p.src p.aux).2 = t3 at h3
  have hplace : t3.spacePlace d f.dstSpace f.targetDie f.dev = .here y := by
    have hdev : t3.param P.deviceId = b.param P.deviceId := congrArg PressRest.device h3.rest
    unfold State.spacePlace at hy ⊢
    rwa [hdev]
  rw [hplace, hepoch]
  dsimp only
  have := h3.enqueue hb (b.sentBlocks d r o n (spaceLp f.dstSpace) y p)
  unfold State.sentBlocks at this ⊢
  rwa [length_pressBlocks] at this

/-- Passes send their blocks in order. -/
theorem Sending.passes (hb : Begins b d r sg y) (hopen : NoOpenWrites b) {f : PressF}
    (hy : b.spacePlace d f.dstSpace f.targetDie f.dev = .here y) (i : Issue) (o : PressOp) (n : Nat) (ps : List PressPass) :
    ∀ bs t, Sending b d r bs t →
      Sending b d r (bs ++ ps.flatMap (b.sentBlocks d r o n (spaceLp f.dstSpace) y)) (t.runPress d r.id i o f n ps) := by
  induction ps with
  | nil =>
    intro bs t h
    rw [List.flatMap_nil, List.append_nil]
    exact h
  | cons p ps ih =>
    intro bs t h
    rw [List.flatMap_cons, ← List.append_assoc]
    exact ih _ _ (h.pass hb hopen hy i o n ps.isEmpty p)

/-- An operation that has just begun has sent nothing. -/
theorem sending_beginOp (b : State) (d : DieId) (sl : Slot) (e : QEntry) (hq : b.fab.pressQueues = []) :
    Sending b d ⟨b.fab.nextOp, sl, e, 0, b.ten.epoch, 0⟩ [] (b.beginOp d sl e 0) := by
  have hself : (b.beginOp d sl e 0).front d = { b.front d with running :=
      (b.front d).running ++ [⟨b.fab.nextOp, sl, e, 0, b.ten.epoch, 0⟩] } :=
    State.front_modFront_self b d (fun f => { f with running := f.running ++ [⟨b.fab.nextOp, sl, e, 0, b.ten.epoch, 0⟩] })
  have hother : ∀ x, x ≠ d → (b.beginOp d sl e 0).front x = b.front x := fun x hx =>
    State.front_modFront_ne b d x (fun f => { f with running := f.running ++ [⟨b.fab.nextOp, sl, e, 0, b.ten.epoch, 0⟩] }) hx
  have hqueues : (b.beginOp d sl e 0).fab.pressQueues = [] := hq
  refine ⟨rfl, rfl, fun x => ?_, by rw [hself]; rfl, fun x hx => by rw [hother x hx], ⟨rfl, rfl⟩, fun k => ?_, ?_⟩
  · by_cases hx : x = d
    · subst hx
      rw [hself]
      rfl
    · rw [hother x hx]
      rfl
  · rw [hqueues]
    rfl
  · rw [hqueues]
    rfl

/-- Nothing has been applied yet, -/
theorem Sending.pressed (h : Sending b d r bs t) (lp : Bool) : Pressed b lp y [] t := by
  have hdouble : t.mem.memDouble = b.mem.memDouble := (congrArg MemState.memDouble h.mem :)
  have htag : t.mem.tagBad = b.mem.tagBad := (congrArg MemState.tagBad h.mem :)
  exact ⟨h.rest, (congrArg MemState.beyondTiers h.mem :), fun k _ => by rw [h.bytesOf], fun x hx => absurd hx List.not_mem_nil,
    fun k hk => hdouble ▸ hk, fun k hk => htag ▸ hk⟩

theorem Sending.tally (h : Sending b d r bs t) (e : DieId) (n : Nat) : t.tally e n = b.tally e n :=
  (congrArg (fun f : FrontEnd => f.tallies.getD n 0) (h.front e) :)

/-- and the Press units have the blocks before them. -/
theorem Sending.pressing (h : Sending b d r bs t) (lp : Bool) (hbs : bs ≠ []) :
    Pressing b lp y d r sg [] (fun k => bs.filter (fun x => x.key == k)) bs.length t := by
  have hlen : bs.length ≠ 0 := fun h0 => hbs (List.length_eq_zero_iff.1 h0)
  refine ⟨h.pressed lp, ⟨by rw [h.own, if_neg hlen], h.others, fun e n => ?_, fun _ => h.links⟩, h.queues, h.canonical⟩
  rw [if_neg hlen, h.tally]
  exact (BitVec.add_zero _).symm

end

end Sys2Proof.Machine
end

section
/-! SUPPORT. A Press operation as a command: its passes send their blocks, the Press units of this device apply them, and it completes
(R199, R394 to R399). -/

namespace Sys2Proof.Machine

open Sys2Proof

/-! ### Blocks that a Press unit can apply -/

theorem length_unpackRow (w n : Nat) (row : List Byte) : (unpackRow w n row).length = n := by
  simp [unpackRow]

/-- An application to a whole block gives a whole block. -/
theorem length_applyBlock (audit : Bool) {o : PressOp} {held arriving : List Byte} (hheld : held.length = 256)
    (harriving : o = .maxE8 → arriving.length = 256) : (applyBlock audit o held arriving).data.length = 256 := by
  cases o with
  | maxE8 => simp [applyBlock, hheld, harriving rfl]
  | addBf16 | addI32 | qaddFp16 | qaddBf16 => simp [applyBlock, length_packRow, length_unpackRow]
  | clear | finishFp16 | finishBf16 => exact List.length_replicate

theorem length_raceLoc {s : State} (h : s.NoRace) {n : Nat} {x : Loc} (hx : x.Here) : (s.raceLoc n x).length = 256 * n := by
  rw [State.raceLoc_of_unwritten fun lp e b _ j _ => h lp e (b + j)]
  cases x with
  | sram d c a => exact Memory.length_readBytes _ _ _
  | ext lp d b => exact Memory.length_readBytes _ _ _
  | remote => exact hx.elim

theorem Loc.here_skip {x : Loc} (hx : x.Here) (k : Nat) : (x.skip k).Here := by
  cases x with
  | sram => exact hx
  | ext => trivial
  | remote => exact hx.elim

/-- A pass reads places of this device. -/
theorem pressPasses_here {s : State} {d : DieId} {i : Issue} {f : PressF} (hsrc : spaceNear f.srcSpace = true) {p : PressPass}
    (hp : p ∈ s.pressPasses d i f) : p.src.Here := by
  have hplace : s.spacePlace d f.srcSpace d 0 = .here d := by
    cases hsp : f.srcSpace with
    | sram | hbm | lpddr => rfl
    | dieHbm | dieLpddr | dieSram | devHbm | devLpddr | devSram =>
      rw [hsp] at hsrc
      cases hsrc
  obtain ⟨c, hc, rfl⟩ := List.mem_map.1 hp
  refine State.place_here hplace _ fun k hk => ?_
  split at hk
  · exact Option.some.inj hk ▸ mem_passCells hc
  · cases hk

/-- Without quantisation a pass sends the blocks of its source. -/
theorem length_pressData_maxE8 {s : State} (h : s.NoRace) (d : DieId) {n dB : Nat} {x : Loc} (hx : x.Here) (a : Loc) {k : Nat}
    (hk : k < n) : ((s.pressData d .maxE8 n dB x a).1.getD k []).length = 256 := by
  have hdata : (s.pressData d .maxE8 n dB x a).1 = (List.range n).map (fun k => s.raceLoc 1 (x.skip k)) := rfl
  rw [hdata, List.getD_eq_getElem _ _ (by simpa using hk), List.getElem_map, length_raceLoc h (Loc.here_skip hx _)]

/-- The blocks of a pass can be applied where their destination holds no fault. -/
theorem sound_sentBlocks {s : State} (hrace : s.NoRace) {d y : DieId} {r : Running} {o : PressOp} {n : Nat} {lp : Bool}
    {p : PressPass} (hepoch : r.epoch = s.ten.epoch) (hsrc : p.src.Here)
    (hdst : ∀ k, k < n * pressPer o → s.keyingOf (frameOf lp y ((p.dB + k) / 252)) = none ∧
      (o ≠ .clear → s.blockTrip lp y (pressBlockAt (p.dB + k)) = none) ∧
      s.blockTrip lp y (pressCountAt (p.dB + k) / 256) = none) :
    ∀ x ∈ s.sentBlocks d r o n lp y p, x.Sound s lp y d r.id := by
  intro x hx
  obtain ⟨k, hk, rfl⟩ := mem_sentBlocks.1 hx
  obtain ⟨hkey, hheld, hcount⟩ := hdst k hk
  refine ⟨rfl, rfl, hepoch, rfl, rfl, hkey, hheld, hcount, ?_⟩
  unfold State.pressedData
  split
  · exact List.length_replicate
  · refine length_applyBlock _ (Memory.length_readBytes _ _ _) fun ho => ?_
    dsimp only at ho ⊢
    subst ho
    exact length_pressData_maxE8 hrace d hsrc p.aux (by simpa [pressPer, pressIsQadd] using hk)

/-! ### The operation's effect -/

theorem State.blocksTrip_beginOp (s : State) (d : DieId) (sl : Slot) (e : QEntry) (c : Nat) (lp : Bool) (x : DieId) (k : Nat) :
    ∀ b, (s.beginOp d sl e c).blocksTrip lp x b k = s.blocksTrip lp x b k := by
  induction k with
  | zero => exact fun _ => rfl
  | succ k ih =>
    intro b
    unfold State.blocksTrip
    rw [ih]
    rfl

/-- The faults of a pass are what they were before the operation began. -/
theorem State.pressTrip_beginOp (s : State) (d : DieId) (sl : Slot) (e : QEntry) (c : Nat) (o : PressOp) (f : PressF) (n : Nat)
    (near : Bool) (p : PressPass) : (s.beginOp d sl e c).pressTrip o f n near p = s.pressTrip o f n near p := by
  have hread : (s.beginOp d sl e c).readTrip p.cell n p.src = s.readTrip p.cell n p.src := by
    cases p.src with
    | sram => rfl
    | ext lp x b =>
      unfold State.readTrip
      dsimp only
      rw [State.blocksTrip_beginOp]
    | remote => rfl
  have haux : (s.beginOp d sl e c).auxTrip p.cell (2 * n) p.aux = s.auxTrip p.cell (2 * n) p.aux := by
    cases p.aux with
    | sram => rfl
    | ext lp x b =>
      unfold State.auxTrip
      dsimp only
      rw [State.blocksTrip_beginOp]
    | remote => rfl
  unfold State.pressTrip
  rw [hread, haux]
  rfl

section
variable {d : DieId} {i : Issue} {o : PressOp} {f : PressF} {s : State} {x : DieId}

/-- Where its destination is on this device the effect of a Press operation is its passes. -/
theorem effPress_within (id : Nat) (hfin : pressIsFinish o = false) (hdef : pressDefined o f = true)
    (hdev : s.devTrip d f.dstSpace f.dev = none) (hx : s.spacePlace d f.dstSpace f.targetDie f.dev = .here x)
    (htrip : ∀ p ∈ s.pressPasses d i f, s.pressTrip o f (f.len.toNat + 1) true p = none) :
    effPress s d id i o f = .ok (s.runPress d id i o f (f.len.toNat + 1) (s.pressPasses d i f)) := by
  have hbare : s.bareSignal d id (.press o f) = s := by
    unfold State.bareSignal State.opSignal
    dsimp only
    rw [hx]
    cases f.dsig with
    | none => rfl
    | some g => rfl
  unfold effPress
  dsimp only
  rw [hdef, hfin, hdev, hx]
  dsimp only
  rw [List.findSome?_eq_none_iff.2 htrip]
  cases hp : s.pressPasses d i f with
  | nil => exact congrArg Done.ok hbare
  | cons p ps => rfl

/-- The record of a Press operation that has begun by itself. -/
def pressRecord (s : State) (i : Issue) (o : PressOp) (f : PressF) : Running :=
  ⟨s.fab.nextOp, .x, ⟨.press o f, i, none, none⟩, 0, s.ten.epoch, 0⟩

theorem begins_pressRecord (hi : i.hollow = false) (hfresh : OpsFresh s)
    (hx : s.spacePlace d f.dstSpace f.targetDie f.dev = .here x) : Begins s d (pressRecord s i o f) f.dsig x := by
  refine ⟨hfresh, rfl, hi, rfl, ?_⟩
  show f.dsig.map (fun g => (g, s.spacePlace d f.dstSpace f.targetDie f.dev)) = _
  rw [hx]

/-- The blocks that a Press operation sends. -/
def State.pressSent (s : State) (d : DieId) (i : Issue) (o : PressOp) (f : PressF) (x : DieId) : List PressBlock :=
  (s.pressPasses d i f).flatMap
    (s.sentBlocks d (pressRecord s i o f) o (f.len.toNat + 1) (spaceLp f.dstSpace) x)

/-- It runs by itself to its passes, and to its completion where no pass sends a block. -/
theorem State.runOp_press (hfin : pressIsFinish o = false) (hi : i.hollow = false) (hdef : pressDefined o f = true)
    (hfresh : OpsFresh s) (hopen : NoOpenWrites s) (hq : s.fab.pressQueues = [])
    (hdev : s.devTrip d f.dstSpace f.dev = none) (hx : s.spacePlace d f.dstSpace f.targetDie f.dev = .here x)
    (htrip : ∀ p ∈ s.pressPasses d i f, s.pressTrip o f (f.len.toNat + 1) true p = none) :
    ∃ t, Sending s d (pressRecord s i o f) (s.pressSent d i o f x) t ∧
      s.runOp d .x i (.press o f) = .next (t.settle d (pressRecord s i o f).id) := by
  have hbegins : Begins s d (pressRecord s i o f) f.dsig x := begins_pressRecord hi hfresh hx
  have hsend := Sending.passes hbegins hopen hx i o (f.len.toNat + 1) (s.pressPasses d i f) [] _
    (sending_beginOp s d .x ⟨.press o f, i, none, none⟩ hq)
  rw [List.nil_append] at hsend
  refine ⟨_, hsend, State.runOp_of_ok hi (Bool.or_eq_false_iff.2 ⟨hi, rfl⟩) ?_⟩
  exact effPress_within (s := s.beginOp d .x ⟨.press o f, i, none, none⟩ 0) s.fab.nextOp hfin hdef hdev hx fun p hp =>
    (State.pressTrip_beginOp s d .x _ 0 o f _ true p).trans (htrip p hp)

end

end Sys2Proof.Machine
end

section
/-! SUPPORT. PRESS.CLEAR, MAX.E8, ADD.I32, ADD.BF16, QADD.FP16 and QADD.BF16 within the device (R199, R394 to R399). -/

namespace Sys2Proof.Machine

open Sys2Proof

/-- Press units whose queues are empty do nothing. -/
theorem State.pressAll_of_idle {s : State} (h : s.fab.pressQueues = []) : s.pressAll = s := by
  unfold State.pressAll
  refine List.foldlRecOn (List.range 40) _ (motive := fun t => t = s) rfl fun t ht k _ => ?_
  rw [ht, h]
  rfl

section
variable {d : DieId} {i : Issue} {o : PressOp} {f : PressF} {s : State} {x : DieId}

/-- A Press operation without a pass completes at once. -/
theorem Sending.settle_nil {b t : State} {r : Running} {sg : Option (BitVec 13)} (h : Sending b d r [] t) (hb : Begins b d r sg x)
    (lp : Bool) : Pressed b lp x [] (t.settle d r.id) ∧ Owes b d r sg x 0 (t.settle d r.id) ∧
      (t.settle d r.id).fab.pressQueues = [] := by
  obtain ⟨-, hsnoops, -⟩ := hb.fresh
  have hsn : t.host.snoops = b.host.snoops := congrArg PressRest.snoops h.rest
  obtain ⟨hrun, hothers, htally⟩ := State.settle_finish (sg := sg) (y := x) h.own rfl hb.others_older rfl
    (fun z hz hown => (hsnoops z (hsn ▸ hz) d _ hown).ne hb.number) hb.whole hb.silent
    ((State.opSignal_of_deviceId (congrArg PressRest.device h.rest) d r.entry.op).trans hb.signal)
  obtain ⟨-, hmem, -⟩ := t.settle_keeps d d r.id
  refine ⟨(h.pressed lp).congr (t.settle_pressRest d r.id) hmem, ⟨hrun.trans (List.append_nil _).symm, fun e he => ?_, fun e n => ?_,
    fun h0 => absurd rfl h0⟩, ?_⟩
  · exact (hothers e he).trans (h.others e he)
  · exact (htally e n).trans (by rw [h.tally, if_pos rfl])
  · rw [(t.settle_links d r.id).2]
    exact AMap.eq_nil_of_getD h.canonical h.queues

/-- A Press operation within the device applies every block that its passes send, and completes. -/
theorem State.runPressOp_within (hfin : pressIsFinish o = false) (hi : i.hollow = false) (hdef : pressDefined o f = true)
    (hfresh : OpsFresh s) (hopen : NoOpenWrites s) (hq : s.fab.pressQueues = [])
    (hdev : s.devTrip d f.dstSpace f.dev = none) (hx : s.spacePlace d f.dstSpace f.targetDie f.dev = .here x)
    (htrip : ∀ p ∈ s.pressPasses d i f, s.pressTrip o f (f.len.toNat + 1) true p = none)
    (hsound : ∀ z ∈ s.pressSent d i o f x, z.Sound s (spaceLp f.dstSpace) x d s.fab.nextOp)
    (hnew : (s.pressSent d i o f x).Pairwise (fun a z => z.dataBlock ≠ a.dataBlock)) :
    ∃ u dn, s.runPressOp d i o f = .next u ∧ s.pressSent d i o f x ⊆ dn ∧ Pressed s (spaceLp f.dstSpace) x dn u ∧
      Owes s d (pressRecord s i o f) f.dsig x 0 u ∧ u.fab.pressQueues = [] := by
  have hbegins : Begins s d (pressRecord s i o f) f.dsig x := begins_pressRecord hi hfresh hx
  obtain ⟨t, hsend, hrun⟩ := State.runOp_press hfin hi hdef hfresh hopen hq hdev hx htrip
  have hexec : s.runPressOp d i o f = .next (t.settle d (pressRecord s i o f).id).pressAll := by
    unfold State.runPressOp
    rw [hrun]
  rw [hexec]
  generalize hbs : s.pressSent d i o f x = bs at hsend hsound hnew
  cases bs with
  | nil =>
    obtain ⟨happ, howes, hidle⟩ := hsend.settle_nil hbegins (spaceLp f.dstSpace)
    rw [State.pressAll_of_idle hidle]
    exact ⟨_, [], rfl, List.Subset.refl [], happ, howes, hidle⟩
  | cons z bs =>
    have hstay : t.settle d (pressRecord s i o f).id = t :=
      State.settle_awaiting (r := { pressRecord s i o f with awaiting := (z :: bs).length }) hsend.own hbegins.others_older
        (Nat.succ_pos bs.length)
    rw [hstay]
    obtain ⟨dn, hdn, happ, howes, hidle⟩ := Pressing.all hbegins hopen
      (hsend.pressing (sg := f.dsig) (spaceLp f.dstSpace) (List.cons_ne_nil z bs)) hsound hnew
    exact ⟨_, dn, rfl, hdn, happ, howes, hidle⟩

theorem exec_pressCommand (hfin : pressIsFinish o = false) : exec (pressCommand o d i f) s = s.runPressOp d i o f := by
  cases o with
  | clear | maxE8 | addI32 | addBf16 | qaddFp16 | qaddBf16 => rfl
  | finishFp16 | finishBf16 => cases hfin

end

theorem leNat_pressedCount (s : State) (x : PressBlock) : leNat (leBytes 4 (s.pressedCount x)) =
    if x.op = .clear then 0 else min (leNat (s.extRead x.lpddr x.die (pressCountAt x.dataBlock) 4) + 1) (2 ^ 32 - 1) := by
  rw [leNat_leBytes]
  unfold State.pressedCount satAdd32
  split
  · rfl
  · exact Nat.mod_eq_of_lt (by omega)

/-- Settles O20: the passes put their blocks into the queues of the Press units before any block is applied; each is then applied to
its own data block and count, and answers its operation, which completes with the last of them. -/
theorem pressAppliesBlocks : Obligations.PressAppliesBlocks := by
  unfold Obligations.PressAppliesBlocks
  intro o d i f s x hfin hi hdef hfresh hopen hq hdev hx htrip happart hdst
  have hsrc : spaceNear f.srcSpace = true := by
    unfold pressDefined at hdef
    simp only [Bool.and_eq_true] at hdef
    obtain ⟨⟨⟨⟨-, hsrc⟩, -⟩, -⟩, -⟩ := hdef
    exact hsrc
  have hsound : ∀ z ∈ s.pressSent d i o f x, z.Sound s (spaceLp f.dstSpace) x d s.fab.nextOp := fun z hz => by
    obtain ⟨p, hp, hzp⟩ := List.mem_flatMap.1 hz
    exact sound_sentBlocks (r := pressRecord s i o f) (noRace_of_noOpenWrites hopen) rfl (pressPasses_here hsrc hp) (hdst p hp) z hzp
  obtain ⟨u, dn, hu, hdn, hpressed, howes, hidle⟩ := State.runPressOp_within hfin hi hdef hfresh hopen hq hdev hx htrip hsound
    (pairwise_sentBlocks s d (pressRecord s i o f) o (f.len.toNat + 1) (spaceLp f.dstSpace) x happart)
  refine ⟨u, (exec_pressCommand hfin).trans hu, fun p hp k hk => ?_, fun e n => ?_, hidle, ?_,
    (congrArg MemState.sram hpressed.beyond :), (congrArg MemState.acc hpressed.beyond :), congrArg PressRest.cells hpressed.rest,
    congrArg PressRest.beat hpressed.rest, congrArg PressRest.job hpressed.rest, congrArg PressRest.adm hpressed.rest,
    congrArg PressRest.kv hpressed.rest, congrArg PressRest.ten hpressed.rest⟩
  · obtain ⟨hdata, hcount⟩ := hpressed.done _ (hdn (List.mem_flatMap.2 ⟨p, hp, mem_sentBlocks.2 ⟨k, hk, rfl⟩⟩))
    refine ⟨hdata, ?_⟩
    rw [hcount]
    exact leNat_pressedCount s _
  · exact (howes.tally e n).trans (by rw [if_pos rfl]; rfl)
  · rw [howes.own, if_pos rfl, List.append_nil]

end Sys2Proof.Machine
end
